-- ==== Sys2Proof/Word.lean ====
section
/-!
DEFINITION. The word types of the Tchizal: bytes, 32-bit and 64-bit words, and byte strings.
-/
namespace Sys2Proof

/-- A byte of memory, of a descriptor, of an image (R8). -/
abbrev Byte := BitVec 8

/-- A 32-bit word: a Whisk lane register, a Chedal instruction, a 32-bit register. -/
abbrev Word32 := BitVec 32

/-- A 64-bit word: a twin register, a global address, a 64-bit register, one slot of a link packet. -/
abbrev Word := BitVec 64

/-- A byte string, byte 0 first. -/
abbrev Bytes := List Byte

end Sys2Proof
end

