-- ==== Sys2Proof/Config.lean ====
section
/-!
DEFINITION. What one Tchizal fixes (counts and sizes the manual states) and the free values: values the manual leaves open,
held as constants without a body, so that nothing in Lean can evaluate them or prove a value of them.
-/
namespace Sys2Proof.Config

/-- Free values (assumption log 4): the n-th value the manual leaves open. Nothing constrains it. -/
opaque free : Nat → Word

/-- Core positions of the part (Table 1.1). -/
abbrev cores : Nat := 288
/-- HBM channels, and L2 slices (Table 1.1). -/
abbrev channels : Nat := 256
/-- Oznum ports (Table 1.1). -/
abbrev ports : Nat := 36
/-- Command rings (Table 1.1). -/
abbrev rings : Nat := 64
/-- Contexts (Table 1.1). -/
abbrev contexts : Nat := 16
/-- Folds an image may declare (R1, Table 3.3). -/
abbrev folds : Nat := 16
/-- Bytes of one Pantry (R31). -/
abbrev pantryBytes : Nat := 0x200000
/-- Bytes of one HBM channel (R137). -/
abbrev channelBytes : Nat := 0x48000000
/-- Lines of one HBM channel (R408). -/
abbrev channelLines : Nat := 0x1200000
/-- First local address of the Pantry windows (Table 4.1). -/
abbrev pantryBase : Nat := 0x100000000000
/-- First local address of the register region (Table 4.1). -/
abbrev regBase : Nat := 0x200000000000
/-- Bytes of the register region (Table 4.1). -/
abbrev regBytes : Nat := 0x4000000
/-- First local address of the host slices (Table 4.1). -/
abbrev hostBase : Nat := 0x400000000000
/-- Bytes of one host slice: 4 TiB (Table 4.1). -/
abbrev sliceBytes : Nat := 0x40000000000
/-- Limit of HBM local addresses (Table 4.1). -/
abbrev hbmEnd : Nat := 0x4800000000

end Sys2Proof.Config
end

