-- ==== Sys2Proof/Syntax.lean ====
section
/-!
DEFINITION. The commands the block takes (one constructor of Instr per row of the opcode table) and their operands. Units are
numbered by bounded naturals, so that no command can name a unit the package does not have (Table 1.1); what a command carries
from outside the block (bytes read from host memory or flash, a detector's finding, a time) is an operand.
-/
namespace Sys2Proof

/-- A core number (R11). -/
abbrev CoreId := Fin 288
/-- An Oznum port number. -/
abbrev PortId := Fin 36
/-- A ring number. -/
abbrev RingId := Fin 64
/-- A context number. -/
abbrev CtxId := Fin 16
/-- A fold number. -/
abbrev FoldId := Fin 16
/-- An HBM channel and L2 slice number. -/
abbrev ChanId := Fin 256
/-- A Whisk slot (Table 1.1: 48 resident groups). -/
abbrev SlotId := Fin 48

/-- Who makes a register write (Table 4.5, R154, R814, R770). Processor 0 is the Steward, 1 to 4 the Ladles of Q0 to Q3. -/
inductive Source where
  | host
  | twin (core : CoreId)
  | proc (n : Fin 5)
  | smbus
  | tap
  deriving DecidableEq, Repr

/-- The kinds of access of Table 4.3 that one fabric access can be. A signal's data is its 8-byte increment; an atomic's is its
operand, then for CAS the value expected. -/
inductive AccessOp where
  | load
  | store
  | signal
  | atomic (aop : Nat)
  deriving DecidableEq, Repr

/-- A Kettle (R707): a twin's or a firmware processor's. -/
inductive KettleId where
  | twin (core : CoreId)
  | proc (n : Fin 5)
  deriving DecidableEq, Repr

/-- The RWK fields of a Kettle (Tables 5.11, 19.8). -/
inductive KettleField where
  | enable
  | window
  deriving DecidableEq, Repr

/-- What an engine's self-checks find while a word or instruction runs: nothing, a residue mismatch, a parity error, or a double error in the
line of the Whisk L1 that the instruction meets first. -/
inductive EngineFault where
  | none
  | residue
  | parity
  | l1
  deriving DecidableEq, Repr

/-- What a SECDED check finds (Table 18.1). -/
inductive Ecc where
  | clean
  | single
  | double
  deriving DecidableEq, Repr

/-- What the decoding of an HBM line read finds (Table 11.3). -/
inductive HbmDecode where
  | poisoned
  | clean
  | corrected
  | detected
  | wrong (data : Bytes)
  | parity
  deriving DecidableEq, Repr

/-- What the RS(544,514) decoder makes of a codeword (R512). -/
inductive CodewordResult where
  | good
  | corrected (symbols : Nat)
  | uncorrectable
  deriving DecidableEq, Repr

/-- Where a power command comes from (R630): a write of POWER_CMD, or the DOMAIN command a ring has started. -/
inductive PowerSource where
  | cmd (src : Source) (dkind id arg : Nat)
  | ring (r : RingId)
  deriving DecidableEq, Repr

/-- A domain that can be fenced (Table 17.1), or a firmware processor (R699). -/
inductive Domain where
  | core (n : CoreId)
  | fold (n : FoldId)
  | port (n : PortId)
  deriving DecidableEq, Repr

/-- What a scrub read visits (R658, R659, R664): in a core, a Pantry word by its offset, a queue entry, or a Pour tile slot; a buffer
of a port; a section of the image store (of a fold, or of the device), a collector slot, a fetched entry or held doorbell of a ring, or
other front-end state of a ring. -/
inductive ScrubTarget where
  | pantry (off : Nat)
  | queue (engine : Fin 5) (index : Nat)
  | tile (tree : Nat)
  | port (p : PortId) (rx : Bool)
  | image (fold : Option FoldId)
  | collector (die : Fin 5) (pending : Bool := false)
  | fetched (ring : RingId) (index : Nat) (held : Bool)
  | frontEnd (ring : RingId)
  deriving DecidableEq, Repr

/-- Where a packet that fails its CRC was going (R661, R869). -/
inductive PacketTarget where
  | core (n : CoreId)
  | die
  deriving DecidableEq, Repr

/-- What starts a DEVICE reset (Table 22.6). -/
inductive DeviceCause where
  | perst
  | hot
  | linkDown
  | flr
  deriving DecidableEq, Repr

/-- How a flash flush ends (Table 20.7, FLUSH_FAIL). -/
inductive FlushOutcome where
  | ok
  | erase (block : Nat)
  | program (block : Nat)
  | verify (block : Nat)
  | timeout (block : Nat)
  deriving DecidableEq, Repr

/-- The status of a PCIe completion (R800). -/
inductive CplStatus where
  | sc
  | ur
  | ca
  deriving DecidableEq, Repr

/-- What a read the device makes of host memory (or, where a row says so, of flash) brings: the bytes, or a failure: no completion in
time, or a completion with UR or CA (R800). -/
inductive HostRead where
  | ok (b : Bytes)
  | timeout
  | refused
  deriving DecidableEq, Repr

/-- The host configuration writes the spec gives an effect (R792, R799, R803, R809). -/
inductive ConfigWrite where
  | busMaster (on : Bool)
  | memorySpace (on : Bool)
  | powerState (d3hot : Bool)
  | msixFunctionMask (on : Bool)
  | atomicRequester (on : Bool)
  | ptmEnable (on : Bool)
  | resizeBar4 (log2 : Nat)
  deriving DecidableEq, Repr

/-- The TLP errors of the last row of Table 22.4. -/
inductive TlpError where
  | malformed
  | unexpectedCompletion
  | receiverOverflow
  | flowControl
  deriving DecidableEq, Repr

/-- The fused values (Table 21.1). -/
inductive FuseValue where
  | deviceId
  | part
  | present
  | keyHash (k : Fin 4)
  | slotState (k : Fin 4)
  | imageFloor
  | fwFloor
  | testLock
  | sessions
  deriving DecidableEq, Repr

/-- What sensing a fused value with a CRC failure finds (R760): the second copy is good, or both copies fail. -/
inductive FuseSense where
  | second (v : FuseValue)
  | lost (v : FuseValue)
  deriving DecidableEq, Repr

/-- What the BOOT self-test and the training of the stacks find at step 2 (R789, R436): a core's failed structures by the bits of
BIST_STATUS.FAILED and its failed arrays, a failed L2 slice, a stack that fails training, a failed Garnet bank, or other hub SRAM. -/
inductive BootFinding where
  | core (n : CoreId) (structures : Nat) (arrays : Word)
  | slice (n : ChanId)
  | stack (s : Fin 8)
  | bank (b : Fin 2)
  | hubSram
  deriving DecidableEq, Repr

/-- The commands of the block: one per row of spec/opcode_table.json, in the table's order. -/
inductive Instr where
  /-- R12. A write to a register field with no row of its own acts on each field under its access code, counting at most
    one violation. -/
  | registerWrite (src : Source) (off : Nat) (wide : Bool) (v : Word)
  /-- R83. A stall monitor expires on a request open for STALL_LIMIT that is not held, reports HANDSHAKE_STALL, counts
    and captures it. -/
  | rootStall (die : Fin 5) (channel : Nat) (openNs : Nat) (held : Bool) (now : Nat)
  /-- R77. A held channel stays open beyond STALL_LIMIT and increments HOLD_COUNT once without reporting a fault. -/
  | heldEpisode (die : Fin 5) (openNs : Nat)
  /-- R104. In step 3 of start-up the Steward loads a FULL image from the source BOOT_SEL selects, or waits in NO_IMAGE
    for a HOST load. -/
  | bootImageLoad (hdr data : Option Bytes)
  /-- R105. IMAGE_CMD with LOAD_FULL fetches a FULL image from host or flash into the image store for checking. -/
  | loadFull (src : Source) (fromFlash : Bool) (hdr : Option Bytes) (data : HostRead)
  /-- R112. IMAGE_CMD with UPDATE_FOLD fetches a FOLD_UPDATE image for one fenced and idle fold. -/
  | updateFold (src : Source) (fromFlash : Bool) (hdr : Option Bytes) (data : HostRead)
  /-- R106. Once the image has arrived in the image store the Steward runs the checks of Table 3.6 in order and reports
    the first failure. -/
  | imageValidate (hdr : Option Bytes) (data : HostRead) (last : Nat)
  /-- R144. An access issued by a core engine is resolved against the home and the fold's windows, delivered, sent to a
    member, admitted, or counted as a violation. -/
  | coreRequestResolve (core : CoreId) (agent : Fin 6) (op : AccessOp) (addr : Word) (size : Nat) (data : Bytes) (ecc : Ecc := .clean)
  /-- R152. The hub's read of a host map entry returns and the host-slice access resolves as violation, miss or PCIe
    request. -/
  | hostMapEntryFetch (tag : Nat) (entry : HostRead)
  /-- R153. A write to CTX_MAP_INVAL drops the held host-map entry of one page or of all pages of a context. -/
  | ctxMapInval (src : Source) (c : CtxId) (v : Word32)
  /-- R153. An invalidation of host-map copies completes and INVAL_BUSY returns to 0. -/
  | ctxMapInvalDone (c : CtxId)
  /-- R157. A write setting CTX_MAP_CTL.ENABLE is checked for ownership and PAGES range and accepted or refused with a
    reason. -/
  | ctxMapEnable (src : Source) (c : CtxId) (v : Word32)
  /-- R350. Clearing CTX_MISS.VALID resumes every Whisk group on the device parked with ADDRESS_MISS on that context. -/
  | ctxMissClear (src : Source) (c : CtxId)
  /-- R181. An R-format integer, compare, min/max, multiply, divide or remainder instruction writes rd from ra and rb.
    -/
  | chedalAlu (core : CoreId) (f : Option Word32) (ipar : Bool := false)
  /-- R181. ADDI, ANDI, ORI, XORI, SLTI, SLTIU, SLLI, SRLI, SRAI or LUI writes rd from ra and IMM. -/
  | chedalAluImmediate (core : CoreId) (f : Option Word32) (ipar : Bool := false)
  /-- R184. LB to LD or LBU to LWU loads from ra + IMM through the twin's access path. -/
  | chedalLoad (core : CoreId) (f : Option Word32) (parity : Bool) (ipar : Bool := false) (ecc : Ecc := .clean)
  /-- R191. SB to SD stores to ra + IMM, write-through the data cache and held in the release buffer until compared. -/
  | chedalStore (core : CoreId) (f : Option Word32) (hold : Bool := false) (ipar : Bool := false) (ecc : Ecc := .clean)
  /-- R184. AADD to ASWAP or ACAS performs a 64-bit atomic at ra and returns the old value in rd. -/
  | chedalAtomic (core : CoreId) (f : Option Word32) (ipar : Bool := false) (ecc : Ecc := .clean)
  /-- R181. BEQ to BGEU branches on a comparison of ra and rb. -/
  | chedalBranch (core : CoreId) (f : Option Word32) (ipar : Bool := false)
  /-- R181. J, CALL or JALR transfers control, CALL and JALR writing the return address. -/
  | chedalJump (core : CoreId) (f : Option Word32) (ipar : Bool := false)
  /-- R185. ISSUE sends the 32 bytes in ra to ra+3 to the named engine's queue, waiting while it is full. -/
  | issue (core : CoreId) (f : Option Word32) (hold : Bool := false) (ipar : Bool := false)
  /-- R188. SUMGET removes the oldest summary of VECTOR or WHISK into rd, waiting while the queue is empty. -/
  | sumget (core : CoreId) (f : Option Word32) (ipar : Bool := false) (sumPar : Bool := false)
  /-- R176. QWAIT waits until the named engine has finished every word issued to it. -/
  | qwait (core : CoreId) (f : Option Word32) (ipar : Bool := false)
  /-- R376. The twin's WAIT.ACQ waits until its own core's counter reaches the threshold, then drops its data cache as
    an acquire. -/
  | twinWaitAcq (core : CoreId) (f : Option Word32) (ipar : Bool := false)
  /-- R375. The twin's SIGNAL raises an arrival counter by rd after every earlier access of the twin is performed. -/
  | twinSignal (core : CoreId) (f : Option Word32) (hold : Bool := false) (ipar : Bool := false)
  /-- R375. FENCE orders every earlier access of the twin before every later one. -/
  | twinFence (core : CoreId) (f : Option Word32) (ipar : Bool := false)
  /-- R375. FLUSH holds the next instruction until every earlier twin store is performed. -/
  | twinFlush (core : CoreId) (f : Option Word32) (ipar : Bool := false)
  /-- R182. DINV drops the data-cache line holding address ra. -/
  | dinv (core : CoreId) (f : Option Word32) (ipar : Bool := false)
  /-- R182. DINV.ALL drops every data-cache line. -/
  | dinvAll (core : CoreId) (f : Option Word32) (ipar : Bool := false)
  /-- R192. IINV.ALL drops every instruction-cache line. -/
  | iinvAll (core : CoreId) (f : Option Word32) (ipar : Bool := false)
  /-- R198. ECALL raises exception ECALL. -/
  | ecall (core : CoreId) (f : Option Word32) (ipar : Bool := false)
  /-- R198. EBREAK raises exception EBREAK. -/
  | ebreak (core : CoreId) (f : Option Word32) (ipar : Bool := false)
  /-- R199. ERET reloads the program counter, STATUS and g30 from the frame at g30. -/
  | eret (core : CoreId) (f : Option Word32) (parity : Bool := false) (ipar : Bool := false)
  /-- R178. MFS reads a special register into rd, subject to the USER access of Table 5.1. -/
  | mfs (core : CoreId) (f : Option Word32) (ipar : Bool := false)
  /-- R178. MTS writes ra to a special register, subject to the USER access of Table 5.1. -/
  | mts (core : CoreId) (f : Option Word32) (ipar : Bool := false)
  /-- R189. WFE waits until an enabled event is latched. -/
  | wfe (core : CoreId) (f : Option Word32) (ipar : Bool := false)
  /-- R214. KICK kicks the twin's Kettle, an expiry if earlier than OPEN_US. -/
  | kick (core : CoreId) (f : Option Word32) (now : Nat) (ipar : Bool := false)
  /-- R194. DONE waits until all the core's engines are idle, then reports the end of the core's part of the command. -/
  | twinDone (core : CoreId) (f : Option Word32) (ipar : Bool := false)
  /-- R208. TIME reaches TCMP and latches the TIMER event. -/
  | timerEvent (core : CoreId) (now : Nat)
  /-- R210. Every 32 twin beats the register signatures of A and B are compared. -/
  | lockstepSignatureCheck (core : CoreId) (miscompare : Option (Fin 4))
  /-- R215. The twin's Kettle expires EARLY or LATE and reports TWIN_KETTLE. -/
  | twinKettleExpiry (core : CoreId) (now : Nat)
  /-- R193. TWIN_CMD START moves a twin from RESET_HOLD to RUNNING at SUPERVISOR at TWIN_BOOT_PC. -/
  | twinStart (src : Source) (core : CoreId)
  /-- R709. A write to a Kettle's key register advances, abandons or opens its key sequence. -/
  | kettleKeyWrite (src : Source) (kettle : KettleId) (v : Word32) (now : Nat)
  /-- R197. A keyed write to KETTLE_WINDOW or KETTLE_CTL.ENABLE is range-checked, applied or refused, and closes the key
    window. -/
  | kettleWindowWrite (src : Source) (kettle : KettleId) (field : KettleField) (v : Word) (now : Nat)
  /-- R711. Setting a Kettle's LOCK makes its key sequence ignored until a DEVICE reset. -/
  | kettleLock (src : Source) (kettle : KettleId)
  /-- R233. The MATRIX engine takes an MMA word, checks it, forms S' and starts its rounds and steps. -/
  | mma (core : CoreId)
  /-- R238. At the end of a step the residue is checked and each result is rounded once and written to D. -/
  | matrixStepEnd (core : CoreId) (badArray : Option (Fin 64)) (hold : Bool := false)
  /-- R252. MATRIX_CTL RESUME drops the failed word and continues with the next. -/
  | matrixResume (src : Source) (core : CoreId)
  /-- R252. MATRIX_CTL DISCARD drops every queued word and returns the engine to IDLE. -/
  | matrixDiscard (src : Source) (core : CoreId)
  /-- R673. An array's rotating in-field test falls due and the array is taken at once or at the end of the running
    step. -/
  | arrayTestDue (core : CoreId) (now : Nat)
  /-- R674. An in-field test completes after 8,192 array beats and the array returns, or ARRAY_BIST is reported. -/
  | arrayTestEnd (core : CoreId) (ok : Bool)
  /-- R301. The vector engine takes a word, checks it, computes its rows rounding once per result and may deliver a
    summary. -/
  | vectorWord (core : CoreId) (fault : EngineFault) (after : Nat := 0)
  /-- R317. VECTOR_CTL RESUME drops the failed word and continues. -/
  | vectorResume (src : Source) (core : CoreId)
  /-- R317. VECTOR_CTL DISCARD drops every queued word and returns the engine to IDLE. -/
  | vectorDiscard (src : Source) (core : CoreId)
  /-- R320. The Whisk engine takes a launch word after the previous one finished, checks it and divides its groups into
    crews. -/
  | launch (core : CoreId) (parity : Bool := false)
  /-- R322. A crew becomes resident in the lowest free slots once enough are free and its groups start at ENTRY
    together. -/
  | crewResident (core : CoreId)
  /-- R327. An integer ALU, immediate, divide or MOVI instruction acts in each guarded lane. -/
  | whiskIntegerOp (core : CoreId) (slot : SlotId) (f : Option Word) (fault : EngineFault)
  /-- R330. An FP32 arithmetic, FFMA or function instruction acts in each guarded lane, rounded once. -/
  | whiskFloatOp (core : CoreId) (slot : SlotId) (f : Option Word) (fault : EngineFault)
  /-- R330. CVT converts ra between formats in each guarded lane. -/
  | whiskCvt (core : CoreId) (slot : SlotId) (f : Option Word) (fault : EngineFault)
  /-- R327. A TST compare writes predicate bits per guarded lane. -/
  | tst (core : CoreId) (slot : SlotId) (f : Option Word) (fault : EngineFault)
  /-- R327. PAND, POR, PXOR or PANDN combines predicates per guarded lane. -/
  | predicateOp (core : CoreId) (slot : SlotId) (f : Option Word) (fault : EngineFault)
  /-- R327. SEL chooses ra or rb per lane by a predicate. -/
  | whiskSel (core : CoreId) (slot : SlotId) (f : Option Word) (fault : EngineFault)
  /-- R325. LANENUM, GROUPNUM, CREWPOS, LANEGET or PMASK writes lane information into rd. -/
  | laneInformation (core : CoreId) (slot : SlotId) (f : Option Word) (fault : EngineFault)
  /-- R341. A Whisk load reads per guarded lane through the L1 or the own Pantry, one access per granule. -/
  | whiskLoad (core : CoreId) (slot : SlotId) (f : Option Word) (fault : EngineFault)
  /-- R342. A Whisk store writes per guarded lane, dirty in the L1 or directly to its target. -/
  | whiskStore (core : CoreId) (slot : SlotId) (f : Option Word) (fault : EngineFault)
  /-- R338. A Whisk atomic combines lanes of equal address into one read-modify-write at the target. -/
  | whiskAtomic (core : CoreId) (slot : SlotId) (f : Option Word) (fault : EngineFault)
  /-- R332. JUMP or CALL branches the whole group on a uniform condition. -/
  | whiskJump (core : CoreId) (slot : SlotId) (f : Option Word) (fault : EngineFault)
  /-- R328. JR jumps to the address pair of the chosen lane. -/
  | jr (core : CoreId) (slot : SlotId) (f : Option Word) (fault : EngineFault)
  /-- R333. MEET arrives at a barrier and waits for its generation to complete. -/
  | meetBarrier (core : CoreId) (slot : SlotId) (f : Option Word) (fault : EngineFault)
  /-- R333. MARK arrives at a barrier without waiting. -/
  | markBarrier (core : CoreId) (slot : SlotId) (f : Option Word) (fault : EngineFault)
  /-- R333. AWAIT waits until the generation of the group's last arrival completes. -/
  | awaitBarrier (core : CoreId) (slot : SlotId) (f : Option Word) (fault : EngineFault)
  /-- R340. SUMPUT, SUMMAX, SUMMIN or SUMADD places a summary in the WHISK summary queue after earlier Pantry stores. -/
  | whiskSummary (core : CoreId) (slot : SlotId) (f : Option Word) (fault : EngineFault)
  /-- R344. A Whisk WAIT.ACQ waits on the chosen lane's counter and drops clean L1 lines. -/
  | whiskWaitAcq (core : CoreId) (slot : SlotId) (f : Option Word) (fault : EngineFault)
  /-- R375. A Whisk SIGNAL flushes the L1 and raises the chosen lane's counter by rb. -/
  | whiskSignal (core : CoreId) (slot : SlotId) (f : Option Word) (fault : EngineFault)
  /-- R375. A Whisk FENCE orders the group's earlier accesses before its later ones. -/
  | whiskFence (core : CoreId) (slot : SlotId) (f : Option Word) (fault : EngineFault)
  /-- R343. A Whisk FLUSH writes back every dirty L1 byte before the next instruction issues. -/
  | whiskFlush (core : CoreId) (slot : SlotId) (f : Option Word) (fault : EngineFault)
  /-- R335. EXIT ends the group, counting it as arrived in every barrier generation, and may finish the crew and launch
    word. -/
  | groupExit (core : CoreId) (slot : SlotId) (f : Option Word) (fault : EngineFault)
  /-- R354. BRK parks the group with BREAKPOINT. -/
  | brk (core : CoreId) (slot : SlotId) (f : Option Word) (fault : EngineFault)
  /-- R337. A crew's barrier timer reaches BARRIER_TIMEOUT and every group of the crew parks with BARRIER_STALL. -/
  | barrierStall (core : CoreId) (slot : SlotId) (now : Nat)
  /-- R348. GROUP_CMD RESUME returns a parked group to its instruction. -/
  | groupResume (src : Source) (core : CoreId) (slot : SlotId) (crew : Bool)
  /-- R348. GROUP_CMD RELEASE completes waiting generations of a BARRIER_STALL crew and resumes it. -/
  | groupRelease (src : Source) (core : CoreId) (slot : SlotId) (crew : Bool)
  /-- R348. GROUP_CMD KILL ends a group or its whole crew. -/
  | groupKill (src : Source) (core : CoreId) (slot : SlotId) (crew : Bool)
  /-- R348. GROUP_CMD HALT parks a running or waiting group with DEBUG_HALT. -/
  | groupHalt (src : Source) (core : CoreId) (slot : SlotId) (crew : Bool)
  /-- R349. GROUP_CMD STEP lets a halted group retire one instruction and park again. -/
  | groupStep (src : Source) (core : CoreId) (slot : SlotId) (crew : Bool)
  /-- R361. A write to DBG_DATA sets the selected lane or predicate register of a halted or breakpointed group. -/
  | dbgDataWrite (src : Source) (core : CoreId) (v : Word)
  /-- R359. WHISK_CTL RESUME drops the failed launch word and continues. -/
  | whiskResume (src : Source) (core : CoreId)
  /-- R359. WHISK_CTL DISCARD drops every queued launch word and returns the engine to IDLE. -/
  | whiskDiscard (src : Source) (core : CoreId)
  /-- R371. A mover COPY word splits its destination into 64-byte pieces, reading and writing each with counted writes.
    -/
  | copy (core : CoreId) (pieces : Nat)
  /-- R371. A mover FILL word writes its pattern to every piece of its destination. -/
  | fill (core : CoreId) (pieces : Nat)
  /-- R374. When every piece of a mover word is performed, the word finishes and raises its DONE_IDX counter. -/
  | moverWordFinish (core : CoreId)
  /-- R402. MOVER_CTL RESUME reissues missed pieces after ADDRESS_MISS, or drops the word otherwise. -/
  | moverResume (src : Source) (core : CoreId)
  /-- R402. MOVER_CTL DISCARD drops every queued mover word and returns the mover to IDLE. -/
  | moverDiscard (src : Source) (core : CoreId)
  /-- R413. A load reaches its L2 slice and returns valid bytes or reads the line from HBM and merges. -/
  | l2Load (slice : ChanId) (line : Nat) (off len : Nat) (ecc : Ecc)
  /-- R413. A store reaches its L2 slice and writes bytes valid and dirty, allocating without an HBM read. -/
  | l2Store (slice : ChanId) (line : Nat) (off : Nat) (data : Bytes) (ecc : Ecc := .clean)
  /-- R413. An atomic reaches its L2 slice and performs one read-modify-write, reading HBM first if needed. -/
  | l2Atomic (slice : ChanId) (line : Nat) (off : Nat) (aop : Nat) (size : Nat) (operand expect : Word) (ecc : Ecc := .clean)
  /-- R868. An HBM line read returns and is decoded: delivered, corrected and written back, detected, or poisoned. -/
  | hbmReadComplete (slice : ChanId) (line : Nat) (merge : Bool) (sev : Fin 3) (retried : Bool) (outcome : HbmDecode)
  /-- R417. Scrub reads the next way of a slice and corrects a single-bit error in place. -/
  | l2ScrubRead (slice : ChanId) (line : Nat) (ecc : Ecc)
  /-- R416. Patrol reads the next line of an ACTIVE channel through its slice. -/
  | hbmPatrolRead (channel : ChanId) (ecs : Nat) (outcome : HbmDecode) (sev : Fin 3 := 0)
  /-- R410. Every 1 ms each stack's temperature sensor is read for refresh rate and telemetry. -/
  | hbmTemperatureRead (stack : Fin 8) (temp : Nat)
  /-- R419. PIN_CMD PIN checks NO_PIN, range and byte cap, then pins each line of the range subject to PIN_CAP. -/
  | pin (src : Source) (fold : FoldId)
  /-- R420. PIN_CMD UNPIN clears the pinned bit of every pinned line in the range. -/
  | unpin (src : Source) (fold : FoldId)
  /-- R420. PIN_CMD UNPIN_ALL clears every pin of the fold. -/
  | unpinAll (src : Source) (fold : FoldId)
  /-- R421. A pin command completes, sets PIN_STATUS.DONE and raises the pin vector. -/
  | pinCommandDone (fold : FoldId)
  /-- R422. HBM_PWR_CMD SELF_REFRESH, if every affected fold is fenced, writes back dirty bytes, stops patrol and enters
    self-refresh. -/
  | hbmSelfRefresh (src : Source) (stack : Fin 8)
  /-- R423. HBM_PWR_CMD ACTIVE returns a stack from self-refresh and resumes patrol. -/
  | hbmActive (src : Source) (stack : Fin 8)
  /-- R426. An HBM power command completes, setting HBM_PWR_STATUS.DONE and raising vector 120. -/
  | hbmPowerDone
  /-- R448. A POUR STREAM word, once its tree is free, checks its fields and starts streaming tiles from SRC. -/
  | stream (core : CoreId)
  /-- R453. A POUR DISCARD word drops the tree's tiles in the core's own slots and raises DONE_IDX. -/
  | pourDiscardWord (core : CoreId)
  /-- R449. The root reads the next tile from HBM, checks its header and injects it into the tree. -/
  | tileInject (core : CoreId)
  /-- R450. A node accepts a tile into a free slot of its tree after the CRC check and forwards it to its children. -/
  | tileAccept (core : CoreId) (node : CoreId) (crcBad : Bool)
  /-- R451. A destination releases the next panel to an array word naming the tree, expanding it into the feeder. -/
  | panelRelease (core : CoreId) (tree : Nat) (fault : Bool)
  /-- R452. A STREAM word finishes when every tile is read and accepted by every destination, raising DONE_IDX. -/
  | streamFinish (core : CoreId)
  /-- R457. A stream is aborted when its issuer or a tree node is fenced, reset, not ACTIVE or mapped out. -/
  | streamAbort (core : CoreId)
  /-- R462. POUR_CTL RESUME drops the failed POUR word and continues. -/
  | pourResume (src : Source) (core : CoreId)
  /-- R462. POUR_CTL DISCARD drops every queued POUR word and returns the engine to IDLE. -/
  | pourDiscard (src : Source) (core : CoreId)
  /-- R469. A plain doorbell posts the entries from the accepted tail up to the new tail. -/
  | dbTail (ring : RingId) (v : Word32)
  /-- R483. A write of DB_START sets the ring's start value for later timed doorbells. -/
  | dbStart (ring : RingId) (v : Word)
  /-- R481. A timed doorbell posts entries held until the Quartz value reaches DB_START. -/
  | dbTimedTail (ring : RingId) (v : Word32)
  /-- R482. Quartz reaches a held doorbell's DB_START and its segment is released, or completes TIME_UNLOCKED. -/
  | timedDoorbellRelease (ring : RingId) (now : Nat)
  /-- R478. A fetched descriptor is checked for OPC, reserved bits, ranges and handles. -/
  | descriptorFetch (ring : RingId) (data : HostRead)
  /-- R473. A handle table entry read returns and the handle is relocated or fails with a BAD_HANDLE detail. -/
  | handleEntryFetch (ring : RingId) (data : HostRead)
  /-- R479. A checked command whose doorbell, WAIT_PREV and mailbox conditions hold starts, or completes FENCED in a
    fenced fold. -/
  | commandStart (ring : RingId) (now : Nat)
  /-- R491. A NOP command starts and completes at once. -/
  | nop (ring : RingId)
  /-- R486. A KERNEL writes a dispatch record into each target core's mailbox and raises its ARR_63. -/
  | kernel (ring : RingId)
  /-- R490. A WAIT command completes once it reads its counter at or above THRESHOLD. -/
  | wait (ring : RingId)
  /-- R491. A TIMESTAMP writes the Quartz value to its destination and completes. -/
  | timestamp (ring : RingId) (now : Nat)
  /-- R568. A COLLECTIVE takes a slot, is checked, records its epoch and sends OPENs to its ring neighbours. -/
  | collective (ring : RingId)
  /-- R631. A DOMAIN command runs a power action on the ring's own fold or one of its cores or ports through the power
    block. -/
  | domain (ring : RingId)
  /-- R477. A completed command retires in order: signal, completion record, sequence word and MSI-X. -/
  | commandRetire (ring : RingId) (writeOk : Bool) (seqOk : Bool := writeOk)
  /-- R497. RING_CMD START on a STOPPED ring checks ownership and SIZE and moves it to RUNNING. -/
  | ringStart (src : Source) (ring : RingId)
  /-- R494. RING_CMD STOP_DRAIN stops fetch and lets started commands retire before STOPPED. -/
  | stopDrain (src : Source) (ring : RingId)
  /-- R495. RING_CMD STOP_ABORT completes unstarted commands ABORTED and cuts started ones at their abort points. -/
  | stopAbort (src : Source) (ring : RingId)
  /-- R497. RING_CMD RESET on a STOPPED ring zeroes HEAD, TAIL and SEQ and drops held doorbells and unfetched entries.
    -/
  | ringReset (src : Source) (ring : RingId)
  /-- R493. A write setting CTX_HT_CTL.ENABLE is checked for ownership and ENTRIES and accepted or refused. -/
  | ctxHtEnable (src : Source) (c : CtxId) (v : Word32)
  /-- R474. A write to CTX_HT_INVAL drops held copies of one handle entry or all of a context's entries. -/
  | ctxHtInval (src : Source) (c : CtxId) (v : Word32)
  /-- R512. A lane receives an RS(544,514) codeword, decodes it and locks, reorders by CW_SEQ and follows LANE_MAP. -/
  | codewordReceive (port : PortId) (lane : Fin 4) (rs : CodewordResult) (hdr : Nat) (flits : List Bytes := [])
  /-- R531. A flit is checked for CRC and FSEQ, accepted or discarded with a NAK, and its ACK processed. -/
  | flitReceive (port : PortId) (crcOk : Bool) (fseq ack : Nat) (slots : List Word) (kind : Fin 4 := 1)
  /-- R531. A received NAK makes the sender replay DATA flits from the named FSEQ. -/
  | nakReceive (port : PortId) (fseq : Nat)
  /-- R531. The oldest unacknowledged flit waits 4 µs and the sender replays from it. -/
  | replayTimer (port : PortId) (now : Nat)
  /-- R524. A LOAD packet arriving in ACTIVE is resolved for REMOTE_MEMBERS, performed or forwarded, and answered. -/
  | loadRequest (port : PortId) (slots : List Word)
  /-- R524. A STORE packet arriving in ACTIVE is resolved, performed with any counted write, or forwarded, and answered.
    -/
  | storeRequest (port : PortId) (slots : List Word)
  /-- R521. A STORE_MASKED packet writes the masked bytes of one granule and is answered. -/
  | storeMaskedRequest (port : PortId) (slots : List Word)
  /-- R524. A SIGNAL packet raises its target counter after the window check and is answered. -/
  | signalRequest (port : PortId) (slots : List Word)
  /-- R522. An ATOMIC packet performs its operation or CAS pairs at the target and returns the prior values. -/
  | atomicRequest (port : PortId) (slots : List Word)
  /-- R523. An RSP is matched by TAG and GEN to its request and acted on, or dropped as late. -/
  | rspReceive (port : PortId) (slots : List Word)
  /-- R519. A CREDIT slot returns freed receive-buffer slots to the sender on each VC. -/
  | creditReceive (port : PortId) (slot : Word)
  /-- R534. A receiver marks a lane bad, clears its RX_GOOD bit, maps it out and raises LINK_LANE. -/
  | laneBad (port : PortId) (lane : Fin 4)
  /-- R532. Training locks at least one lane each way and the port moves to HELD with a fresh link layer. -/
  | trainingLock (port : PortId) (lanesRx lanesTx : Fin 16) (fallback : Bool) (now : Nat)
  /-- R532. No lock within 500 ms of TRAINING moves the port to DOWN. -/
  | trainingTimeout (port : PortId) (now : Nat)
  /-- R532. A DOWN port attempts training again after 1 s. -/
  | downRetry (port : PortId) (now : Nat)
  /-- R540. A request outstanding 10 ms is answered FENCED and PORT_TIMEOUT is raised. -/
  | portTimeout (port : PortId) (tag : Nat) (now : Nat)
  /-- R532. PORT_CMD RETRAIN moves the port to TRAINING. -/
  | retrain (src : Source) (port : PortId) (now : Nat)
  /-- R534. PORT_CMD RESTORE_LANES returns lanes mapped out by response and retrains. -/
  | restoreLanes (src : Source) (port : PortId) (now : Nat)
  /-- R563. A port sends its agreement record on entering HELD, every 100 ms, and on any change of its fields. -/
  | agreeSend (port : PortId) (now : Nat)
  /-- R564. A received agreement record is judged by Table 15.4 and the port matches, stays HELD or moves to ACTIVE. -/
  | agreeReceive (port : PortId) (slots : List Word) (now : Nat)
  /-- R567. An ACTIVE port with no record for 350 ms returns to HELD with RESULT LOST. -/
  | agreementLost (port : PortId) (now : Nat)
  /-- R569. A received OPEN is matched to an open collective or held for a later start. -/
  | collOpen (port : PortId) (slots : List Word)
  /-- R569. Every 1 ms the Tureen repeats OPEN to a neighbour whose OPEN has not arrived. -/
  | openRepeat (quarter : Fin 4) (coll : Nat) (now : Nat)
  /-- R556. A received PARTIAL is folded with the member's own value and sent on, or ends the level at the chain's end.
    -/
  | collPartial (port : PortId) (slots : List Word) (fault : Bool)
  /-- R558. A received FINAL is written to DST and sent on until the line's hops are made. -/
  | collFinal (port : PortId) (slots : List Word)
  /-- R579. A received ABORT aborts the open collective, is forwarded once and recorded, or is held for a later start.
    -/
  | collAbort (port : PortId) (slots : List Word)
  /-- R571. With a free accumulation slot the Tureen originates a segment, sending its chain start or its finals. -/
  | segmentOriginate (coll : Nat) (seg : Nat) (fault : Bool)
  /-- R573. A collective completes OK on a member once its DST writes are performed and owed packets sent. -/
  | collectiveComplete (coll : Nat)
  /-- R580. A collective with no packet for 1 s aborts with NO_PROGRESS. -/
  | noProgress (coll : Nat) (now : Nat)
  /-- R583. A write of GROUP_EPOCH sets the epoch for collectives started afterwards. -/
  | groupEpochWrite (src : Source) (v : Word32)
  /-- R598. Every 1 ms a member sends a TIME REQ on each ACTIVE time port. -/
  | timeReqSend (port : PortId) (now : Nat)
  /-- R598. A received TIME REQ is timestamped and answered with an RSP within 100 µs. -/
  | timeReq (port : PortId) (slots : List Word) (rx rxFrac : Nat) (now : Nat)
  /-- R602. A received TIME RSP forms an offset and delay; on the parent port the servo adjusts RATE, steps or locks. -/
  | timeRsp (port : PortId) (slots : List Word) (rx rxFrac : Nat) (now : Nat)
  /-- R598. A time measurement not completed within 2 ms is discarded. -/
  | measurementTimeout (port : PortId) (now : Nat)
  /-- R599. A leader advertisement not renewed within 5 ms ceases to be a candidate. -/
  | advertisementAgeOut (port : PortId) (now : Nat)
  /-- R605. A LOCKED follower with no completed measurement for 5 ms enters HOLDOVER. -/
  | holdoverEntry (now : Nat)
  /-- R605. A follower that has been in HOLDOVER for 100 ms enters UNLOCKED. -/
  | holdoverExpiry (now : Nat)
  /-- R607. QUARTZ_CMD STEP_FORWARD steps a leader's or free-running member's counter forward, or is refused. -/
  | stepForward (src : Source) (now : Nat)
  /-- R612. QUARTZ_CMD PTM_SAMPLE starts one PTM dialog, refused when PTM is off. -/
  | ptmSample (src : Source) (now : Nat)
  /-- R612. Every 100 ms the device starts a PTM dialog. -/
  | ptmPeriodic (now : Nat)
  /-- R612. A PTM dialog completes and its times and delay are recorded with PTM_STATUS.SEQ raised. -/
  | ptmDialogDone (t1 t4 master : Word) (delay : Nat)
  /-- R610. The Quartz value crosses a second boundary, driving PPS_OUT when enabled and latching PPS for every fold. -/
  | ppsCrossing (now : Nat)
  /-- R611. 10 ms after a PPS edge the TOD_OUT message describing that edge is sent. -/
  | todMessage (now : Nat)
  /-- R621. The reference monitor detects REF_T lost, continues on the on-die oscillator and reports QUARTZ_REF_LOSS. -/
  | refTLoss (now : Nat)
  /-- R621. After 10 ms of good edges REF_T is accepted again and REF_OK sets without a step. -/
  | refTAccept (now : Nat)
  /-- R622. A mismatch of the two Quartz counters is repaired from the prediction and QUARTZ_COUNTER is reported. -/
  | quartzCounter (a b : Word)
  /-- R634. FENCE puts a core, fold or port into FENCING, answers new requests FENCED and stops its engines at their
    boundaries. -/
  | fence (p : PowerSource)
  /-- R634. DRAIN_LIMIT expires on a FENCING domain and its open requests are answered FENCED. -/
  | drainLimitExpiry (dom : Domain) (now : Nat)
  /-- R634. A domain's drain ends and it enters FENCED, ending a waiting FENCE or power command. -/
  | fenceComplete (dom : Domain)
  /-- R635. UNFENCE clears a domain's fence, CORE-resetting its cores that need it. -/
  | unfence (p : PowerSource)
  /-- R628. SET_STATE moves a core between ACTIVE, HELD, RETAIN and OFF, a port between widths, STANDBY and OFF, or a
    stack. -/
  | setState (p : PowerSource)
  /-- R628. A core reaches its commanded power state within its bound, taking its CORE reset on exit to ACTIVE. -/
  | coreStateReached (core : CoreId)
  /-- R638. SET_OP relays a rail's target voltage to its regulator over AVSBus and the rail starts slewing. -/
  | setOp (p : PowerSource)
  /-- R639. The regulator read-back and pace replica reach the target point and OP_NOW takes it. -/
  | setOpComplete (rail : Fin 5) (mv : Nat) (pace : Nat)
  /-- R652. A regulator fails to acknowledge or reach its target in time; the command ends RAIL_FAULT and the fault is
    reported. -/
  | railFault (rail : Fin 5)
  /-- R633. A power command ends, setting POWER_STATUS.DONE or completing its DOMAIN command, and raising the power
    vector. -/
  | powerCommandDone
  /-- R641. Every 1 ms the Steward reads each regulator's voltage and current and adds interval energy. -/
  | railTelemetry (rail : Fin 5) (mv da uj : Nat)
  /-- R641. Every 10 µs each die's junction sensors are sampled, updating THERMAL and THERM_N. -/
  | thermalSample (die : Fin 5) (temp : Nat)
  /-- R643. A write of THERM_CTL.WARN_C is accepted within 60 to 110 °C or kept and counted as a violation. -/
  | thermCtlWrite (src : Source) (v : Word32)
  /-- R670. The handler's write of FC_ACK releases ACTIVE and moves PENDING to ACTIVE. -/
  | fcAck (src : Source) (die : Fin 5)
  /-- R659. Scrub reads the next Pantry or queue word and corrects a single-bit error in place. -/
  | pantryScrubRead (core : CoreId) (target : ScrubTarget) (ecc : Ecc)
  /-- R661. An on-chip packet failing its CRC is not performed, its source is answered with an error and PACKET_CRC is
    reported. -/
  | packetCrc (die : Fin 5) (target : PacketTarget) (channel : Nat) (req : Nat) (work : Option CoreId := none)
  /-- R687. A detection path from a quarter to the hub fails and is reported; with both down the quarter counts
    detections itself. -/
  | hubPathFailure (quarter : Fin 4) (path : Fin 2)
  /-- R687. A restored path delivers the quarter's held counts, which the hub adds and reports. -/
  | hubPathRestore (quarter : Fin 4) (path : Fin 2)
  /-- R696. RESET_CMD CORE fences the core if needed, advances its generation and resets it. -/
  | coreReset (src : Source) (core : CoreId)
  /-- R696. RESET_CMD FOLD fences the fold, advances its tags and resets its cores, ports, rings, contexts and pins. -/
  | foldReset (src : Source) (fold : FoldId)
  /-- R548. RESET_CMD PORT advances the port's generation, answers outstanding requests and moves it to HELD. -/
  | portReset (src : Source) (port : PortId)
  /-- R698. RESET_CMD PROCESSOR restarts the Steward or a Ladle from the authenticated hub copy, keeping hardware
    settings. -/
  | processorReset (src : Source) (proc : Fin 5)
  /-- R696. A commanded reset completes, setting RESET_STATUS.DONE and raising the power vector, or ends RESET_STUCK. -/
  | resetDone (stuck : Option Nat)
  /-- R692. Power removal or AON_RST_N low resets the whole device, the always-on domain included. -/
  | coldReset
  /-- R727. PERST_N low, a hot reset, link-down or FLR stops all work without records and resets everything but the
    always-on domain. -/
  | deviceReset (cause : DeviceCause)
  /-- R726. AON_RST_N and PWR_OK high start the always-on domain, straps and Quartz in step 1. -/
  | alwaysOnStart (straps : Nat) (refOk : Bool) (sense : List FuseSense)
  /-- R734. At step 2 the boot ROM samples BOOT_SEL, reads SFDP and the directory, authenticates a firmware bundle and
    starts the Steward. -/
  | hubBoot (bootSel : Fin 4) (sfdpWidth : Nat) (found : List BootFinding) (dirs : List (Option Bytes)) (slotA slotB : Option Bytes)
  /-- R838. REF_T not accepted within 12 ms ends step 1 on the uncalibrated on-die oscillator. -/
  | refTNotAccepted (straps : Nat) (sense : List FuseSense)
  /-- R701. A retired request tag becomes reusable after 20 ms of Quartz time. -/
  | tagRetirementExpiry (dom : Domain) (tag : Nat) (now : Nat)
  /-- R704. Every HEARTBEAT_US the Steward raises STEWARD_HB and optionally writes the host heartbeat word. -/
  | stewardHeartbeat (now : Nat)
  /-- R705. A Ladle's heartbeat reaches the Steward and is recorded in LADLE_HB. -/
  | ladleHeartbeat (q : Fin 4) (now : Nat)
  /-- R705. A Ladle missing three heartbeats is reported PROCESSOR_FAULT, reset, and its collector taken by the Steward.
    -/
  | ladleHung (q : Fin 4) (now : Nat)
  /-- R707. A firmware processor's write to its PKETTLE_KICK kicks its Kettle. -/
  | pkettleKick (src : Source) (proc : Fin 5) (pc : Word) (now : Nat)
  /-- R708. A firmware Kettle expires, captures evidence, resets its processor and reports PROCESSOR_FAULT. -/
  | pkettleExpiry (proc : Fin 5) (pc : Word) (now : Nat)
  /-- R742. A restarted processor runs again, writes PROCESSOR_START and takes up its duties from hardware state. -/
  | processorStart (proc : Fin 5) (copyOk : Bool) (now : Nat)
  /-- R736. FW_CMD UPDATE fetches and checks a bundle, then hands over the processors in MASK one at a time. -/
  | fwUpdate (src : Source) (mask : Nat) (data : HostRead)
  /-- R741. FW_CMD PERSIST writes the running bundle to the other flash slot and rewrites the older directory copy. -/
  | persist (src : Source) (ok : Bool)
  /-- R738. A write of FW_HANDOFF puts the Kettle in HANDOVER, suspends event take and resets the processor into the
    staged code. -/
  | fwHandoff (src : Source) (proc : Fin 5) (v : Word) (now : Nat) (record : Bytes := [])
  /-- R739. The incoming firmware's first kick ends HANDOVER and re-enables FW_EVENT_TAKE. -/
  | handoverKick (proc : Fin 5) (now : Nat)
  /-- R740. HANDOVER expires and the processor restarts from the previous bundle with cause ROLLBACK. -/
  | handoverExpiry (proc : Fin 5) (pc : Word) (now : Nat)
  /-- R732. The Quartz value reaches FW_TIMER_k and TIMER_k latches once. -/
  | fwTimerExpiry (proc : Fin 5) (k : Fin 16) (now : Nat)
  /-- R732. A read of FW_EVENT_TAKE returns the latched firmware events and clears exactly those bits. -/
  | fwEventTake (src : Source) (proc : Fin 5)
  /-- R744. A write to offset 0x38 of a processor's submit window has the log engine assign SEQ and TIME and write both
    banks. -/
  | garnetSubmit (src : Source) (proc : Fin 5) (bytes : Bytes) (bankFault : Option (Fin 2)) (now : Nat)
  /-- R745. A read of GARNET_WINDOW returns the lowest good bank's copy, repairing from the other on a CRC failure. -/
  | garnetWindowRead (src : Source) (index : Nat)
  /-- R746. With 256 unflushed entries or the oldest 10 s old, the Steward flushes entries to GARNET_FLASH. -/
  | garnetFlush (outcome : FlushOutcome) (now : Nat)
  /-- R747. The Steward writes an entry to the host log ring and its head count, or drops it when full. -/
  | hostLogRingWrite
  /-- R750. A write setting FWLOG_CTL.ENABLE is checked against SIZE and accepted or refused with a reason. -/
  | fwlogEnable (src : Source) (v : Word32)
  /-- R771. A fuse request PROGRAM_SLOT is checked and fuses a key hash into an unprogrammed slot. -/
  | programSlot (src : Source) (req : HostRead)
  /-- R771. A fuse request REVOKE_SLOT revokes a programmed slot unless it is the last. -/
  | revokeSlot (src : Source) (req : HostRead)
  /-- R771. A fuse request raises IMAGE_FLOOR. -/
  | raiseImageFloor (src : Source) (req : HostRead)
  /-- R771. A fuse request raises FW_FLOOR. -/
  | raiseFwFloor (src : Source) (req : HostRead)
  /-- R771. A fuse request raises TEST_LOCK. -/
  | raiseTestLock (src : Source) (req : HostRead)
  /-- R774. An accepted SCAN_UNLOCK through the test port stops all work, clears every secret and opens scan. -/
  | scanUnlock (req : Bytes) (clearOk : Bool)
  /-- R773. Fuse programming and read-back verification complete and FUSE_STATUS.DONE is set, or PROGRAM_FAIL. -/
  | fuseProgramDone (ok : Bool)
  /-- R777. BIST_CMD CORE_OFFLINE tests a fenced ACTIVE core, zeroes its Pantry and CORE-resets it. -/
  | coreOffline (src : Source) (core : CoreId)
  /-- R777. BIST_CMD STACK_OFFLINE tests a stack's cells and slices and writes every line with zero. -/
  | stackOffline (src : Source) (stack : Fin 8)
  /-- R777. An offline self-test completes, recording failures in BIST_STATUS and BIST_ARRAYS and raising vector 120. -/
  | offlineTestDone (passed : Bool) (failing : List Nat)
  /-- R776. The TAP instruction EXTEST drives the boundary register while PERST_N is low. -/
  | extest
  /-- R769. The TAP instruction IDCODE selects the 32-bit identity register. -/
  | idcode
  /-- R776. The TAP instruction SAMPLE/PRELOAD samples or preloads the boundary register. -/
  | samplePreload (bits : Bytes)
  /-- R776. The 1149.6 instruction EXTEST_PULSE tests AC-coupled lanes while PERST_N is low. -/
  | extestPulse
  /-- R776. The 1149.6 instruction EXTEST_TRAIN tests AC-coupled lanes while PERST_N is low. -/
  | extestTrain
  /-- R776. The TAP instruction CLAMP holds outputs while PERST_N is low. -/
  | clamp
  /-- R776. The TAP instruction HIGHZ floats outputs while PERST_N is low. -/
  | highz
  /-- R770. On Update-DR the DEBUG_ACCESS register starts one 8-byte register access, checked against PORT_LEVEL. -/
  | debugAccess (dr : Nat)
  /-- R770. A debug access completes and its STATUS and data are available to the next capture. -/
  | debugAccessDone
  /-- R767. The TAP instruction SCAN_CHAIN selects the internal chains while SCAN_OPEN is 1. -/
  | scanChain
  /-- R767. The TAP instruction BYPASS selects the 1-bit bypass register. -/
  | bypass
  /-- R786. Test-Logic-Reset or TRST_N low resets the TAP and aborts a debug or unlock shift. -/
  | testLogicReset
  /-- R780. TDBG_CMD HALT stops the twin at its next instruction boundary in HALTED. -/
  | twinHalt (src : Source) (core : CoreId)
  /-- R780. TDBG_CMD RESUME returns a halted twin to RUNNING at TDBG_PC. -/
  | twinResume (src : Source) (core : CoreId)
  /-- R780. TDBG_CMD STEP retires one instruction of a halted twin and halts again. -/
  | twinStep (src : Source) (core : CoreId)
  /-- R780. A write of TDBG_DATA sets the selected register in both processors of a halted twin. -/
  | tdbgDataWrite (src : Source) (core : CoreId) (v : Word)
  /-- R797. A host request to BAR 4 is split into 64-byte accesses, each resolved under class HOST. -/
  | bar4Request (write : Bool) (off : Nat) (len : Nat) (data : Bytes) (poisoned : Bool)
  /-- R795. A BAR 0 access of the wrong size or alignment reads zero or writes nothing and is charged to HOST_VIOL. -/
  | bar0AccessIllegal (write : Bool) (off : Nat) (size : Nat)
  /-- R800. A completion for a device read to host memory arrives, or a UR or CA is answered poisoned inside the device.
    -/
  | deviceReadCompletion (tag : Nat) (status : CplStatus) (data : Bytes)
  /-- R800. A device read's completion times out, is answered poisoned and reported PCIE_INTERFACE. -/
  | completionTimeout (tag : Nat)
  /-- R809. The function returns from D3hot to D0 with configuration kept and held device requests released. -/
  | d3hotToD0
  /-- R811. An SMBus transaction arrives and is checked for PEC, being discarded on a bad PEC. -/
  | smbusTransaction (bytes : Bytes) (pecOk : Bool)
  /-- R812. The MCTP control command Set Endpoint ID assigns the endpoint ID. -/
  | setEndpointId (eid : Byte)
  /-- R812. The MCTP control command Get Endpoint ID returns the endpoint ID. -/
  | getEndpointId
  /-- R812. The MCTP control command Get MCTP Version Support returns the supported versions. -/
  | getMctpVersionSupport (typ : Byte)
  /-- R812. The MCTP control command Get Message Type Support returns control and PLDM. -/
  | getMessageTypeSupport
  /-- R813. The PLDM command GetTID returns the terminus ID. -/
  | gettid
  /-- R813. The PLDM command GetPLDMVersion returns the supported version. -/
  | getpldmversion (typ : Byte)
  /-- R813. The PLDM command GetPLDMTypes returns the supported types. -/
  | getpldmtypes
  /-- R813. The PLDM command GetPLDMCommands returns the supported commands of a type. -/
  | getpldmcommands (typ : Byte)
  /-- R813. The PLDM command GetPDRRepositoryInfo returns repository information. -/
  | getpdrrepositoryinfo
  /-- R813. The PLDM command GetPDR returns a sensor PDR. -/
  | getpdr (handle : Nat)
  /-- R813. The PLDM command GetSensorReading returns a numeric sensor reading. -/
  | getsensorreading (sensor : Nat)
  /-- R813. The PLDM command GetStateSensorReadings returns state sensor readings. -/
  | getstatesensorreadings (sensor : Nat)
  /-- R813. Any other PLDM command returns ERROR_UNSUPPORTED_PLDM_CMD. -/
  | unsupportedPldmCmd (typ cmd : Byte)
  /-- R813. Every 1 ms the PLDM sensor readings are refreshed. -/
  | pldmSensorRefresh (now : Nat)
  /-- R814. The SMBus window command WIN_ADDR sets the BAR 0 offset of the window. -/
  | winAddr (off : Word32)
  /-- R814. The SMBus window command WIN_READ returns a status and 8 register bytes and advances the offset. -/
  | winRead
  /-- R815. The SMBus window command WIN_WRITE writes THERM_CTL when allowed, or returns REFUSED. -/
  | winWrite (v : Word)
  /-- R837. PWR_OK low for 1 µs or more is power removal and takes a COLD reset. -/
  | pwrOkLow
  /-- R727. PERST_N rising, or an FLR completing, continues a DEVICE reset at step 2 of start-up. -/
  | perstNRise (now : Nat)
  /-- R474. An invalidation of a context's held handle-table copies completes and CTX_HT_CTL.INVAL_BUSY returns to 0. -/
  | ctxHtInvalDone (c : CtxId)
  /-- R736. An outgoing processor that has not written FW_HANDOFF within 100 ms ends the update with NO_HANDOFF. -/
  | noHandoff (proc : Fin 5) (now : Nat)
  /-- R182. A twin or Whisk instruction whose OP, FN or SUB is reserved, or has a nonzero reserved bit, raises ILLEGAL
    or parks the group with ILLEGAL. -/
  | illegal (core : CoreId) (slot : Option SlotId) (f : Option Word) (ipar : Bool := false)
  /-- R625. A read of QUARTZ_NOW returns the integer count and latches the fraction and STATE into QUARTZ_SNAP. -/
  | quartzNowRead (src : Source)
  /-- R799. A host configuration write changes Bus Master Enable, enters D3hot, masks or unmasks MSI-X at the function,
    or resizes BAR 4, holding or releasing device requests and pending messages. -/
  | configurationSpaceWrite (w : ConfigWrite)
  /-- R808. A Malformed TLP, Unexpected Completion, Receiver Overflow or Flow Control Protocol Error is received,
    dropped and logged in AER, with PCIE_INTERFACE reported for a Malformed TLP. -/
  | malformedTlp (kind : TlpError)
  /-- R802. A request to no BAR, or with Memory Space Enable 0, or in D3hot, performs nothing and sets the AER
    Unsupported Request status. -/
  | unsupportedRequest
  /-- R468. A BAR 2 write to an offset or width other than DB_TAIL, DB_START or DB_TIMED_TAIL, or to a ring no fold
    owns, writes nothing and raises RING_VIOL. -/
  | doorbellPageViolation (off : Nat) (width : Nat)
  /-- R806. A PCIe link retrain, rate or width change, with no reset, updates PCIE_STATUS and discards any PTM dialog in
    progress. -/
  | pcieRetrain (width speed : Nat) (flit : Bool)
  /-- R725. A double error in a firmware processor's private memory is reported as PROCESSOR_FAULT. -/
  | privateMemoryDoubleError (proc : Fin 5)
  deriving DecidableEq, Repr

end Sys2Proof
end

