-- ==== Sys2Proof/Decode.lean ====
section
/-!
DEFINITION. The commands a word spells. The opcode table of this hardware gives no row any bits: commands come from outside as
register writes, packets, pins and events, so no word spells one (assumption log 7).
-/
namespace Sys2Proof

/-- The command a word of nbits bits spells by the table's bits: none. -/
def decodeTableWord (_nbits _w : Nat) : Option Instr := none

end Sys2Proof
end

