-- ==== Sys2Proof/Machine/Maps.lean ====
section
/-!
DEFINITION. Sparse maps keyed by natural numbers, as lists of key and value in ascending order of key, with the value of an
unlisted key named where the map is read; and the memory, a list of Host.Cell in canonical form: addresses strictly rising and
no cell equal to 0, which is what an unlisted address reads as (assumption log 2).
-/
namespace Sys2Proof.Machine

/-- A sparse map from natural numbers. -/
abbrev NMap (α : Type) := List (Nat × α)

/-- The value at a key, if it is listed. -/
def nfind {α : Type} : NMap α → Nat → Option α
  | [], _ => none
  | (k, v) :: m, a => if k = a then some v else nfind m a

/-- The value at a key, d where it is not listed. -/
def nget {α : Type} (d : α) (m : NMap α) (a : Nat) : α := (nfind m a).getD d

/-- The map with the value at a key set. -/
def nset {α : Type} : NMap α → Nat → α → NMap α
  | [], a, v => [(a, v)]
  | (k, w) :: m, a, v =>
    if a = k then (a, v) :: m
    else if a < k then (a, v) :: (k, w) :: m
    else (k, w) :: nset m a v

/-- The map with a key removed. -/
def ndel {α : Type} : NMap α → Nat → NMap α
  | [], _ => []
  | (k, w) :: m, a => if k = a then ndel m a else (k, w) :: ndel m a

/-- Whether a key is listed. -/
def nhas {α : Type} (m : NMap α) (a : Nat) : Bool := (nfind m a).isSome

/-- Keys strictly rising, every key above a bound. -/
def nsortedFrom {α : Type} : Nat → NMap α → Bool
  | _, [] => true
  | b, (k, _) :: m => decide (b ≤ k) && nsortedFrom (k + 1) m

/-- Keys strictly rising. -/
def nsorted {α : Type} (m : NMap α) : Bool := nsortedFrom 0 m

/-- Device memory: HBM and the Pantries, byte by byte. -/
abbrev Memory := List Host.Cell

/-- Read one byte. An unlisted address reads 0. -/
def mread (m : Memory) (a : Nat) : Byte := nget 0 m a

/-- Remove one address from a memory. -/
def mdrop (m : Memory) (a : Nat) : Memory := ndel m a

/-- Write one byte. Writing 0, the value of an unlisted address, removes the cell. -/
def mwrite (m : Memory) (a : Nat) (b : Byte) : Memory := if b = 0 then mdrop m a else nset m a b

/-- Write a string of bytes upward from an address. -/
def mwrites : Memory → Nat → Bytes → Memory
  | m, _, [] => m
  | m, a, b :: bs => mwrites (mwrite m a b) (a + 1) bs

/-- Read n bytes upward from an address. -/
def mreads (m : Memory) (a : Nat) : Nat → Bytes
  | 0 => []
  | n + 1 => mread m a :: mreads m (a + 1) n

/-- Clear a range of addresses: every cell listed at a key from lo up to but not including hi is dropped. -/
def mclear (m : Memory) (lo hi : Nat) : Memory := m.filter fun c => !(decide (lo ≤ c.1) && decide (c.1 < hi))

/-- The canonical form: addresses strictly rising, and no cell equal to 0. -/
def Memory.wf (m : Memory) : Bool := nsorted m && m.all fun c => decide (c.2 ≠ 0)

/-- Little-endian value of a byte string (R8). -/
def leNat : Bytes → Nat
  | [] => 0
  | b :: bs => b.toNat + 256 * leNat bs

/-- Little-endian bytes of a value (R8). -/
def leBytes : Nat → Nat → Bytes
  | 0, _ => []
  | n + 1, v => BitVec.ofNat 8 v :: leBytes n (v / 256)

/-- Bits [hi:lo] of a value. -/
def bits (v hi lo : Nat) : Nat := (v / 2 ^ lo) % 2 ^ (hi + 1 - lo)

/-- Bit i of a value. -/
def bit (v i : Nat) : Bool := Nat.testBit v i

/-- A value with bits [hi:lo] replaced. -/
def putBits (v hi lo x : Nat) : Nat :=
  v - bits v hi lo * 2 ^ lo + (x % 2 ^ (hi + 1 - lo)) * 2 ^ lo

/-- The integer an n-bit pattern stands for in two's complement. -/
def sext (n v : Nat) : Int := if v % 2 ^ n < 2 ^ (n - 1) then (v % 2 ^ n : Nat) else ((v % 2 ^ n : Nat) : Int) - 2 ^ n

/-- The n-bit two's complement pattern of an integer. -/
def unsext (n : Nat) (v : Int) : Nat := (v % (2 ^ n : Int)).toNat

/-- 1 for true, 0 for false. -/
def b2n (b : Bool) : Nat := if b then 1 else 0

/-- Addition that saturates at a limit. -/
def satAdd (lim a b : Nat) : Nat := min lim (a + b)

/-- The bits set among the low n. -/
def bitList (n v : Nat) : List Nat := (List.range n).filter fun i => v.testBit i

end Sys2Proof.Machine
end

