-- ==== Sys2Proof/Machine/Crypto.lean ====
section
/-!
DEFINITION. SHA-384 (FIPS 180-4) and ECDSA P-384 verification (FIPS 186-5), the two algorithms R99 and R100 name.
The standards' constants stand here as the standards give them (assumption log 5).
-/
namespace Sys2Proof.Machine

/-- The first 80 primes, whose roots FIPS 180-4 takes its constants from. -/
def shaPrimes : List Nat :=
  [2, 3, 5, 7, 11, 13, 17, 19, 23, 29, 31, 37, 41, 43, 47, 53, 59, 61, 67, 71] ++
  [73, 79, 83, 89, 97, 101, 103, 107, 109, 113, 127, 131, 137, 139, 149, 151, 157, 163, 167, 173] ++
  [179, 181, 191, 193, 197, 199, 211, 223, 227, 229, 233, 239, 241, 251, 257, 263, 269, 271, 277, 281] ++
  [283, 293, 307, 311, 313, 317, 331, 337, 347, 349, 353, 359, 367, 373, 379, 383, 389, 397, 401, 409]

/-- The greatest number r + x with x below 2^b whose k-th power is at most n, for an r whose own is. -/
def rootFrom (k n : Nat) : Nat → Nat → Nat
  | 0, r => r
  | b + 1, r => rootFrom k n b (if (r + 2 ^ b) ^ k ≤ n then r + 2 ^ b else r)

/-- The first 64 bits of the fractional part of the k-th root of a prime below 2^9. -/
def rootFrac (k p : Nat) : Nat := rootFrom k (p * 2 ^ (64 * k)) 69 0 % 2 ^ 64

/-- The 80 round constants of SHA-384: the fractions of the cube roots of the first 80 primes. -/
def shaK : List Nat := shaPrimes.map (rootFrac 3)

/-- The initial hash value of SHA-384: the fractions of the square roots of the ninth to the sixteenth prime. -/
def shaIV : List Nat := ((shaPrimes.drop 8).take 8).map (rootFrac 2)

/-- The field prime of P-384. -/
def p384 : Nat := 2 ^ 384 - 2 ^ 128 - 2 ^ 96 + 2 ^ 32 - 1
/-- The order of the base point of P-384. -/
def n384 : Nat :=
  0xffffffffffffffffffffffffffffffffffffffffffffffffc7634d81f4372ddf581a0db248b0a77aecec196accc52973
/-- The coefficient b of P-384. -/
def b384 : Nat :=
  0xb3312fa7e23ee7e4988e056be3f82d19181d9c6efe8141120314088f5013875ac656398d8a2ed19d2a85c8edd3ec2aef
/-- The base point of P-384. -/
def g384 : Nat × Nat :=
  (0xaa87ca22be8b05378eb1c71ef320ad746e1d3b628ba79b9859f741e082542a385502f25dbf55296c3a545e3872760ab7,
   0x3617de4a96262c6f5d9e98bf9292dc29f8f41dbd289a147ce9da3113b5f0b8c00a60b1ce1d7e819d7a431d7c90ea0e5f)

/-- Addition modulo 2^64. -/
def w64 (a : Nat) : Nat := a % 2 ^ 64

/-- Rotation right of a 64-bit word. -/
def rotr64 (n a : Nat) : Nat := w64 (a / 2 ^ n + a * 2 ^ (64 - n))

/-- Big-endian value of a byte string. -/
def beNat (b : Bytes) : Nat := b.foldl (fun a x => a * 256 + x.toNat) 0

/-- Big-endian bytes of a value. -/
def beBytes (n v : Nat) : Bytes := (leBytes n v).reverse

/-- The message padded to a multiple of 128 bytes. -/
def shaPad (m : Bytes) : Bytes :=
  m ++ [0x80] ++ List.replicate ((239 - m.length % 128) % 128) 0 ++ beBytes 16 (8 * m.length)

/-- Split a byte string into pieces of n bytes; fuel bounds their number. -/
def chunksF (n : Nat) : Nat → Bytes → List Bytes
  | 0, _ => []
  | f + 1, b => if b.isEmpty then [] else b.take n :: chunksF n f (b.drop n)

/-- The pieces of n bytes of a byte string. -/
def chunks (n : Nat) (b : Bytes) : List Bytes := chunksF n (b.length + 1) b

/-- One word of the message schedule, from the sixteen before it, newest first. -/
def shaNextW (w : List Nat) : Nat :=
  let s0 := let x := w.getD 14 0; (rotr64 1 x).xor ((rotr64 8 x).xor (x / 2 ^ 7))
  let s1 := let x := w.getD 1 0; (rotr64 19 x).xor ((rotr64 61 x).xor (x / 2 ^ 6))
  w64 (s1 + w.getD 6 0 + s0 + w.getD 15 0)

/-- The message schedule, newest word first, n words beyond the first sixteen. -/
def shaSchedule : Nat → List Nat → List Nat
  | 0, w => w
  | n + 1, w => shaSchedule n (shaNextW w :: w)

/-- The working variables of one round. -/
structure ShaVars where
  a : Nat
  b : Nat
  c : Nat
  d : Nat
  e : Nat
  f : Nat
  g : Nat
  h : Nat
  deriving DecidableEq, Repr

/-- One round. -/
def shaRound (v : ShaVars) (kw : Nat × Nat) : ShaVars :=
  let s1 := (rotr64 14 v.e).xor ((rotr64 18 v.e).xor (rotr64 41 v.e))
  let ch := (v.e.land v.f).xor ((2 ^ 64 - 1 - v.e).land v.g)
  let t1 := w64 (v.h + s1 + ch + kw.1 + kw.2)
  let s0 := (rotr64 28 v.a).xor ((rotr64 34 v.a).xor (rotr64 39 v.a))
  let mj := (v.a.land v.b).xor ((v.a.land v.c).xor (v.b.land v.c))
  ⟨w64 (t1 + s0 + mj), v.a, v.b, v.c, w64 (v.d + t1), v.e, v.f, v.g⟩

/-- One block of the compression function. -/
def shaBlock (h : List Nat) (blk : Bytes) : List Nat :=
  let w := (shaSchedule 64 ((chunks 8 blk).map beNat).reverse).reverse
  let g (i : Nat) := h.getD i 0
  let v := (shaK.zip w).foldl shaRound ⟨g 0, g 1, g 2, g 3, g 4, g 5, g 6, g 7⟩
  [w64 (g 0 + v.a), w64 (g 1 + v.b), w64 (g 2 + v.c), w64 (g 3 + v.d),
   w64 (g 4 + v.e), w64 (g 5 + v.f), w64 (g 6 + v.g), w64 (g 7 + v.h)]

/-- SHA-384 of a byte string: 48 bytes. -/
def sha384 (m : Bytes) : Bytes :=
  (((chunks 128 (shaPad m)).foldl shaBlock shaIV).take 6).flatMap (beBytes 8)

/-- Modular exponentiation over the low n bits of the exponent. -/
def powMod (m : Nat) : Nat → Nat → Nat → Nat
  | 0, _, _ => 1 % m
  | n + 1, b, e =>
    let r := powMod m n (b * b % m) (e / 2)
    if e % 2 = 1 then r * b % m else r

/-- A point of P-384 in Jacobian coordinates; z = 0 is the point at infinity. -/
structure Jac where
  x : Nat
  y : Nat
  z : Nat
  deriving DecidableEq, Repr

/-- Subtraction modulo the field prime. -/
def fsub (a b : Nat) : Nat := (a + p384 - b % p384) % p384

/-- Doubling on P-384. -/
def Jac.dbl (a : Jac) : Jac :=
  if a.z = 0 ∨ a.y = 0 then ⟨1, 1, 0⟩ else
  let zz := a.z * a.z % p384
  let yy := a.y * a.y % p384
  let s := 4 * a.x * yy % p384
  let m := 3 * fsub a.x zz * ((a.x + zz) % p384) % p384
  let x := fsub (m * m) (2 * s)
  ⟨x, fsub (m * fsub s x) (8 * yy * yy), 2 * a.y * a.z % p384⟩

/-- Addition on P-384. -/
def Jac.add (a b : Jac) : Jac :=
  if a.z = 0 then b else if b.z = 0 then a else
  let za := a.z * a.z % p384
  let zb := b.z * b.z % p384
  let u1 := a.x * zb % p384
  let u2 := b.x * za % p384
  let s1 := a.y * (zb * b.z) % p384
  let s2 := b.y * (za * a.z) % p384
  if u1 = u2 then (if s1 = s2 then a.dbl else ⟨1, 1, 0⟩) else
  let h := fsub u2 u1
  let r := fsub s2 s1
  let hh := h * h % p384
  let hhh := h * hh % p384
  let v := u1 * hh % p384
  let x := fsub (r * r) (hhh + 2 * v)
  ⟨x, fsub (r * fsub v x) (s1 * hhh), a.z * b.z % p384 * h % p384⟩

/-- Scalar multiplication by the low n bits of k. -/
def Jac.smul : Nat → Nat → Jac → Jac
  | 0, _, _ => ⟨1, 1, 0⟩
  | n + 1, k, p =>
    let r := Jac.smul n (k / 2) p.dbl
    if k % 2 = 1 then r.add p else r

/-- Whether a pair is a point of P-384. -/
def onCurve384 (x y : Nat) : Bool :=
  decide (x < p384) && decide (y < p384) &&
    decide (y * y % p384 = (fsub (x * x % p384 * x) (3 * x) + b384) % p384)

/-- ECDSA P-384 verification of a message under a key (FIPS 186-5). -/
def ecdsaVerify (m : Bytes) (qx qy r t : Nat) : Bool :=
  if !(onCurve384 qx qy && decide (1 ≤ r) && decide (r < n384) && decide (1 ≤ t) && decide (t < n384)) then false else
  let e := beNat (sha384 m)
  let w := powMod n384 384 t (n384 - 2)
  let u1 := e * w % n384
  let u2 := r * w % n384
  let q := (Jac.smul 384 u1 ⟨g384.1, g384.2, 1⟩).add (Jac.smul 384 u2 ⟨qx, qy, 1⟩)
  if q.z = 0 then false else
  let zz := q.z * q.z % p384
  decide (q.x = r * zz % p384) || (decide (r + n384 < p384) && decide (q.x = (r + n384) * zz % p384))

end Sys2Proof.Machine
end

