-- ==== Sys2Proof/Machine/Image.lean ====
section
/-!
DEFINITION. The structure image (chapter 3): the sections a loaded image holds, their reading from the image's bytes
(Tables 3.1 to 3.5), and the checks of Table 3.6 in order, each with the reason, directory index and byte offset of R864.
-/
namespace Sys2Proof.Machine

/-- One WINDOWS record (Table 3.4). -/
structure Window where
  base : Nat
  size : Nat
  target : Nat
  perm : Nat
  sources : Nat
  deriving DecidableEq, Repr

/-- One POUR_ROUTES tree (Table 3.4): hops are FROM and TO. -/
structure Tree where
  id : Nat
  root : Nat
  dests : Nat
  hops : List (Nat × Nat)
  deriving DecidableEq, Repr

/-- One PORT_GROUPS record (Table 3.4). -/
structure PortGroup where
  set : Nat
  peer : Nat
  minLanes : Nat
  deriving DecidableEq, Repr

/-- The fold-scoped sections of one fold, and its FOLDS record. -/
structure FoldSec where
  flags : Nat := 0
  cores : Nat := 0
  windows : List Window := []
  trees : List Tree := []
  channels : Nat := 0
  pinKib : Nat := 0
  noPin : Bool := false
  ports : Nat := 0
  groups : List PortGroup := []
  ringSet : Nat := 0
  ctxSet : Nat := 0
  deriving DecidableEq, Repr

/-- The device-scope sections. -/
structure DevSec where
  coresOut : Nat := 0
  channelsOut : Nat := 0
  lanesOut : List Nat := []
  arraysOut : NMap Nat := []
  hashMode : Nat := 0
  pinCap : Nat := 0
  hashSeed : Nat := 0
  role : Nat := 0
  timeOutputs : Nat := 0
  timePorts : Nat := 0
  scrubMs : Nat := 0
  patrolS : Nat := 0
  bistS : Nat := 0
  policyFlags : Nat := 0
  responses : List (Nat × Nat) := []
  limits : List (Nat × Nat) := []
  stallUs : Nat := 50
  barrierUs : Nat := 10000
  drainUs : Nat := 100
  handoverMs : Nat := 500
  heartbeatUs : Nat := 1000
  groupId : Nat := 0
  memberCount : Nat := 0
  levelCount : Nat := 0
  fanIn : List Nat := []
  groupBody : Bytes := []
  deriving DecidableEq, Repr

/-- The image store's loaded image: the FULL image, with the fold sections of every update applied since (R113). -/
structure Loaded where
  digest : Bytes := []
  memberIndex : Nat := 0
  deviceBind : Nat := 0
  serial : Nat := 0
  dev : DevSec := {}
  folds : List FoldSec := []
  deriving DecidableEq, Repr

/-- A fused key-hash slot (R100, Table 21.x): the hash while it is programmed, and whether it is revoked. -/
structure KeySlot where
  hash : Option Bytes := none
  revoked : Bool := false
  deriving DecidableEq, Repr

/-- What the checks of Table 3.6 compare an image with: the command, the fuses, the units mapped out and what is loaded. -/
structure ImageEnv where
  full : Bool
  host : Bool
  orderCode : Nat
  stepping : Nat
  deviceId : Nat
  floor : Nat
  slots : List KeySlot
  present : Nat
  coresOut : Nat
  channelsOut : Nat
  lanesOut : List Nat
  loaded : Option Loaded
  foldSerials : List Nat
  foldsIdle : List Bool
  deriving DecidableEq, Repr

/-- How a rejected image is reported (R864): reason, SECTION_INDEX and BYTE_OFFSET. -/
structure ImageErr where
  reason : Nat
  secNo : Nat
  offset : Nat
  deriving DecidableEq, Repr

/-- A little-endian field of an image. -/
def imgN (b : Bytes) (off n : Nat) : Nat := leNat ((b.drop off).take n)

/-- A directory entry (Table 3.2). -/
structure DirEnt where
  idx : Nat
  typ : Nat
  scope : Nat
  ver : Nat
  rsv : Nat
  off : Nat
  len : Nat
  cnt : Nat
  rsv2 : Nat
  deriving DecidableEq, Repr

/-- The directory of an image. -/
def imgDir (b : Bytes) : List DirEnt :=
  (List.range (min 64 (imgN b 0xC 2))).map fun i =>
    let e := b.drop (256 + 32 * i)
    ⟨i, imgN e 0 1, imgN e 1 1, imgN e 2 1, imgN e 3 1, imgN e 4 4, imgN e 8 4, imgN e 12 4, imgN e 16 16⟩

/-- The image offset of a directory entry. -/
def DirEnt.at (e : DirEnt) : Nat := 256 + 32 * e.idx

/-- Round up to a multiple of 64. -/
def up64 (n : Nat) : Nat := (n + 63) / 64 * 64

/-- The number of 1 bits among the low n bits. -/
def popcount (n v : Nat) : Nat := ((List.range n).filter fun i => v.testBit i).length

/-- The lowest 1 bit among the low n bits. -/
def firstBit (n v : Nat) : Option Nat := (List.range n).find? fun i => v.testBit i

/-- The first of a list of lazily judged checks that fails. -/
def firstSome {α : Type} : List (Unit → Option α) → Option α
  | [] => none
  | f :: fs => match f () with
    | some e => some e
    | none => firstSome fs

/-- Fail with a reason at a place when a condition holds. -/
def failIf (c : Bool) (reason idx off : Nat) : Option ImageErr := if c then some ⟨reason, idx, off⟩ else none

/-- The trees of a POUR_ROUTES body, read in order with HOP_COUNT as stored: tree, its offset in the body and its length. -/
def treesOf : Nat → Bytes → Nat → List (Tree × Nat × Nat)
  | 0, _, _ => []
  | n + 1, b, at' =>
    let h := imgN b 2 2
    let len := (48 + 4 * h + 7) / 8 * 8
    let t : Tree := ⟨imgN b 0 2, imgN b 4 2, imgN b 8 40,
      (List.range h).map fun i => (imgN b (48 + 4 * i) 2, imgN b (50 + 4 * i) 2)⟩
    (t, at', len) :: treesOf n (b.drop len) (at' + len)

/-- The body of a section. -/
def DirEnt.body (b : Bytes) (e : DirEnt) : Bytes := (b.drop e.off).take e.len

/-- Whether a section type is fold-scoped (Table 3.3). -/
def foldScoped (t : Nat) : Bool := [2, 4, 5, 7, 8, 0xC].contains t

/-- Base length, bytes per record and record range of a section type (Table 3.3); POUR_ROUTES is judged by its trees. -/
def sectionShape (t : Nat) : Nat × Nat × Nat × Nat :=
  match t with
  | 1 => (0, 16, 1, 16)
  | 2 => (40, 0, 0, 0)
  | 3 => (2416, 0, 0, 0)
  | 4 => (0, 32, 1, 64)
  | 6 => (16, 0, 0, 0)
  | 7 => (48, 0, 0, 0)
  | 8 => (16, 16, 1, 36)
  | 9 => (16, 0, 0, 0)
  | 0xA => (32, 4, 0, 64)
  | 0xB => (16, 0, 0, 0)
  | 0xC => (16, 0, 0, 0)
  | 0xD => (32, 0, 0, 0)
  | 0xE => (48, 0, 0, 0)
  | _ => (0, 0, 0, 0)

/-- Reserved bytes of a section body as offset, length and mask of the reserved bits (R91). -/
def reservedIn (b : Bytes) (e : DirEnt) : List (Nat × Nat × Nat) :=
  let body := e.body b
  let w (n : Nat) := 2 ^ (8 * n) - 1
  match e.typ with
  | 1 => (List.range e.cnt).flatMap fun i => [(16 * i + 1, 1, 0xFE), (16 * i + 2, 6, w 6)]
  | 2 => [(36, 4, w 4)]
  | 3 => [(36, 4, w 4)] ++ (List.range 36).map (fun p => (72 + p, 1, 0xF0)) ++ [(108, 4, w 4)]
  | 4 => (List.range e.cnt).flatMap fun i => [(32 * i + 24, 1, 0xF0), (32 * i + 25, 1, 0xF0), (32 * i + 26, 6, w 6)]
  | 5 => (treesOf e.cnt body 0).flatMap fun (t, o, len) =>
      [(o + 6, 2, w 2), (o + 44, 4, w 4)] ++
        (if len = 48 + 4 * t.hops.length then [] else [(o + 48 + 4 * t.hops.length, 4, w 4)])
  | 6 => [(0, 1, if imgN body 0 1 ≤ 1 then 0 else 0xFF), (2, 2, w 2), (8, 8, w 8)]
  | 7 => [(32, 4, if (imgN body 36 1).testBit 0 then w 4 else 0), (36, 4, w 4 - 1), (40, 8, w 8)]
  | 8 => [(4, 4, w 4 - 15), (8, 8, w 8)] ++ (List.range e.cnt).flatMap fun i =>
      [(16 + 16 * i + 4, 4, w 4 - 15), (16 + 16 * i + 11, 5, w 5)]
  | 9 => [(1, 1, 0xF8), (2, 6, w 6), (12, 4, w 4 - 15)]
  | 0xA => [(12, 4, w 4 - 7), (16, 16, w 16)] ++ (List.range e.cnt).map fun i => (32 + 4 * i + 2, 2, w 2)
  | 0xB => [(10, 6, w 6)]
  | 0xC => [(10, 6, w 6)]
  | 0xD => [(20, 12, w 12)]
  | 0xE =>
    let lv := imgN body 12 1
    [(13, 1, if imgN body 13 1 = 0 then 0 else 0xFF), (14, 2, w 2)] ++
      (if 1 ≤ lv ∧ lv ≤ 8 then [(16 + 2 * lv, 16 - 2 * lv, w (16 - 2 * lv))] else []) ++ [(32, 16, w 16)]
  | _ => []

/-- The first byte of a masked field that is not zero. -/
def firstNonzero (b : Bytes) (off : Nat) : Nat × Nat × Nat → Option Nat
  | (o, n, m) =>
    if (imgN b (off + o) n).land m = 0 then none else
    (List.range n).findSome? fun i =>
      if (imgN b (off + o + i) 1).land (m / 2 ^ (8 * i) % 256) = 0 then none else some (off + o + i)

/-- Read the fold-scoped sections of one fold. -/
def readFold (b : Bytes) (dir : List DirEnt) (f : Nat) (flags : Nat) : FoldSec :=
  let get (t : Nat) : Option Bytes := (dir.find? fun e => e.typ = t ∧ e.scope = f).map (·.body b)
  let cnt (t : Nat) : Nat := ((dir.find? fun e => e.typ = t ∧ e.scope = f).map (·.cnt)).getD 0
  let cm := (get 2).getD []
  let wn := (get 4).getD []
  let hm := (get 7).getD []
  let pg := (get 8).getD []
  let rg := (get 0xC).getD []
  { flags := flags, cores := imgN cm 0 40
    windows := (List.range (cnt 4)).map fun i =>
      let w := wn.drop (32 * i)
      ⟨imgN w 0 8, imgN w 8 8, imgN w 16 8, imgN w 24 1, imgN w 25 1⟩
    trees := (treesOf (cnt 5) ((get 5).getD []) 0).map (·.1)
    channels := imgN hm 0 32, pinKib := imgN hm 32 4, noPin := (imgN hm 36 1).testBit 0
    ports := imgN pg 0 8
    groups := (List.range (cnt 8)).map fun i =>
      let g := pg.drop (16 + 16 * i)
      ⟨imgN g 0 8, imgN g 8 2, imgN g 10 1⟩
    ringSet := imgN rg 0 8, ctxSet := imgN rg 8 2 }

/-- Read the device-scope sections. -/
def readDev (b : Bytes) (dir : List DirEnt) : DevSec :=
  let get (t : Nat) : Option Bytes := (dir.find? fun e => e.typ = t).map (·.body b)
  let cnt (t : Nat) : Nat := ((dir.find? fun e => e.typ = t).map (·.cnt)).getD 0
  let mo := (get 3).getD []
  let l2 := (get 6).getD []
  let tr := (get 9).getD []
  let fp := (get 0xA).getD []
  let pl := (get 0xB).getD []
  let gr := (get 0xE).getD []
  let base : DevSec :=
    { coresOut := imgN mo 0 40, channelsOut := imgN mo 40 32
      lanesOut := (List.range 36).map fun p => imgN mo (72 + p) 1 % 16
      arraysOut := (List.range 288).filterMap fun c =>
        let m := imgN mo (112 + 8 * c) 8
        if m = 0 then none else some (c, m)
      hashMode := imgN l2 0 1, pinCap := imgN l2 1 1, hashSeed := imgN l2 4 4
      role := imgN tr 0 1, timeOutputs := imgN tr 1 1, timePorts := imgN tr 8 8
      scrubMs := imgN fp 0 4, patrolS := imgN fp 4 4, bistS := imgN fp 8 4, policyFlags := imgN fp 12 4
      responses := (List.range (cnt 0xA)).map fun i => (imgN fp (32 + 4 * i) 1, imgN fp (33 + 4 * i) 1)
      limits := (List.range 5).map fun k => (imgN pl (2 * k) 1, imgN pl (2 * k + 1) 1)
      groupId := imgN gr 0 8, memberCount := imgN gr 8 4, levelCount := imgN gr 12 1
      fanIn := (List.range 8).map fun i => imgN gr (16 + 2 * i) 2
      groupBody := gr.take 48 }
  match get 0xD with
  | none => base
  | some t => { base with stallUs := imgN t 0 4, barrierUs := imgN t 4 4, drainUs := imgN t 8 4,
                          handoverMs := imgN t 12 4, heartbeatUs := imgN t 16 4 }

/-- The number of folds a FULL image declares (R865). -/
def declaredIn (dir : List DirEnt) : Option Nat :=
  match dir.find? fun e => e.typ = 1 with
  | none => none
  | some e => if e.cnt = 0 then none else some (min 16 e.cnt)

/-- Read the loaded image a FULL image makes. -/
def readFull (b : Bytes) : Loaded :=
  let dir := imgDir b
  let fl := ((dir.find? fun e => e.typ = 1).map (·.body b)).getD []
  { digest := sha384 (b.take (b.length - 256)), memberIndex := imgN b 0x1C 2, deviceBind := imgN b 0x20 8
    serial := imgN b 0x14 4, dev := readDev b dir
    folds := (List.range ((declaredIn dir).getD 0)).map fun f => readFold b dir f (imgN fl (16 * f + 1) 1) }

/-- The group value of an image (R101). -/
def groupValueOf (l : Loaded) : Bytes :=
  (sha384 ([0x58, 0x4B, 0x47, 0x56, 1, 0] ++ l.dev.groupBody)).take 32

/-- Whether two Pour nodes are adjacent, FROM to TO (Table 12.1). -/
def pourAdjacent (a b : Nat) : Bool :=
  let q (c : Nat) := c / 72
  let col (c : Nat) := c % 72 / 8
  let row (c : Nat) := c % 72 % 8
  if b ≥ 288 then false
  else if 0x1000 ≤ a ∧ a ≤ 0x10FF then
    let n := a - 0x1000
    decide (q b = n / 64 ∧ row b = n % 8 ∧ col b = if n % 64 < 32 then 0 else 8)
  else if a ≥ 288 then false
  else if q a = q b then
    decide ((col a = col b ∧ (row a + 1 = row b ∨ row b + 1 = row a)) ∨
      (row a = row b ∧ (col a + 1 = col b ∨ col b + 1 = col a)))
  else decide (row a = row b ∧ ((q a + 1 = q b ∧ col a = 8 ∧ col b = 0) ∨ (q b + 1 = q a ∧ col b = 8 ∧ col a = 0)))

/-- Nodes reached from the root over the hops: one pass per unit of fuel. -/
def treeReach (hops : List (Nat × Nat)) : Nat → List Nat → List Nat
  | 0, r => r
  | f + 1, r =>
    let r' := hops.foldl (fun acc h => if acc.contains h.1 && !acc.contains h.2 then h.2 :: acc else acc) r
    if r'.length = r.length then r else treeReach hops f r'

/-- Whether [lo, lo + size) of this device's local map lies wholly inside one region of Table 4.1. -/
def inOneRegion (lo size : Nat) : Bool :=
  let inside (a b : Nat) := decide (a ≤ lo ∧ lo + size ≤ b)
  inside 0 Config.hbmEnd || inside Config.pantryBase (Config.pantryBase + 288 * Config.pantryBytes) ||
    inside Config.regBase (Config.regBase + Config.regBytes) || inside Config.hostBase (Config.hostBase + 16 * Config.sliceBytes)

/-- The responses Table 18.3 allows a class, least first; none for a reserved class. -/
def allowedResponses (c : Nat) : List Nat :=
  match c with
  | 0x01 => [2, 3]
  | 0x02 => [2, 1, 3]
  | 0x03 => [0, 2, 3]
  | 0x04 => [0, 1, 2, 3]
  | 0x05 => [0, 1, 2, 3]
  | 0x06 => [0, 2, 1, 3]
  | 0x07 => [0, 2, 1, 3]
  | 0x08 => [0, 2, 1, 3]
  | 0x09 => [0, 2, 1, 3]
  | 0x0A => [0, 2, 3]
  | 0x0B => [2, 4, 3]
  | 0x0C => [0, 2, 3]
  | 0x0D => [0, 2, 3]
  | 0x0E => [0, 2, 1, 3]
  | 0x0F => [0]
  | 0x10 => [0, 3]
  | 0x11 => [0, 3]
  | 0x12 => [1]
  | 0x13 => [1]
  | 0x14 => [0, 4]
  | 0x15 => [0, 4]
  | 0x16 => [0, 4]
  | _ => if 0x17 ≤ c ∧ c ≤ 0x1E then [0] else []

/-- A window's or an address's member index read as 0xFFFF where it is the device's own (R135). -/
def selfNorm (own : Option Nat) (a : Nat) : Nat :=
  if own = some (a / 2 ^ 48 % 2 ^ 16) then 0xFFFF000000000000 + a % 2 ^ 48 else a

/-- The per-section judgement of a row of Table 3.6, in directory order. -/
def scanDir (dir : List DirEnt) (f : DirEnt → Option ImageErr) : Option ImageErr := dir.findSome? f

/-- SECTION_BOUNDS (R92, R93, R864), one entry after another; e0 is the end of the body before and lenAt the place
    of its LENGTH. -/
def checkBounds (b : Bytes) (sig dirEnd : Nat) : List DirEnt → Nat → Nat × Nat → Option ImageErr
  | [], e0, (idx, lenAt) =>
    if up64 e0 ≠ sig then some ⟨0x11, idx, lenAt⟩
    else (firstNonzero b e0 (0, sig - e0, 2 ^ (8 * (sig - e0)) - 1)).map fun o => ⟨0x11, 0xFF, o⟩
  | e :: es, e0, _ =>
    if e.off % 64 ≠ 0 ∨ e.off < up64 dirEnd ∨ e.off < e0 then some ⟨0x11, e.idx, e.at + 4⟩
    else if sig < e.off + e.len then some ⟨0x11, e.idx, e.at + 8⟩
    else match firstNonzero b e0 (0, e.off - e0, 2 ^ (8 * (e.off - e0)) - 1) with
      | some o => some ⟨0x11, e.idx, o⟩
      | none => checkBounds b sig dirEnd es (e.off + e.len) (e.idx, e.at + 8)

/-- SECTION_LENGTH of one entry (Table 3.3): an ITEM_COUNT outside its range, then a LENGTH that does not match. -/
def checkLength (b : Bytes) (e : DirEnt) : Option ImageErr :=
  if e.typ = 5 then
    if e.cnt = 0 ∨ 256 < e.cnt then some ⟨0x16, e.idx, e.at + 12⟩
    else if ((treesOf e.cnt (e.body b) 0).map (·.2.2)).foldl (· + ·) 0 ≠ e.len then some ⟨0x16, e.idx, e.at + 8⟩ else none
  else
    let (base, per, lo, hi) := sectionShape e.typ
    if (if per = 0 then e.cnt ≠ 0 else e.cnt < lo ∨ hi < e.cnt) then some ⟨0x16, e.idx, e.at + 12⟩
    else if e.len ≠ base + per * e.cnt then some ⟨0x16, e.idx, e.at + 8⟩ else none

/-- ROUTE_SHAPE of one tree at an image offset: hop by hop, the clauses of Table 3.6 in the row's order. -/
def checkTree (f : FoldSec) (idx off : Nat) (t : Tree) : Option ImageErr :=
  let inFold (n : Nat) := decide (n < 288) && f.cores.testBit n
  let reached := treeReach t.hops t.hops.length [t.root]
  if !(decide (0x1000 ≤ t.root) && decide (t.root ≤ 0x10FF) && f.channels.testBit (t.root - 0x1000)) then
    some ⟨0x28, idx, off + 4⟩
  else
    let slice (n : Nat) := decide (0x1000 ≤ n) && decide (n ≤ 0x10FF)
    let hop (i : Nat) (h : Nat × Nat) : Option ImageErr :=
      let at' (o : Nat) : Option ImageErr := some ⟨0x28, idx, off + 48 + 4 * i + o⟩
      if !(decide (h.1 < 288) || slice h.1) || !(decide (h.2 < 288) || slice h.2) then at' 2
      else if !(inFold h.1 || (slice h.1 && f.channels.testBit (h.1 - 0x1000))) then at' 0
      else if !inFold h.2 || !pourAdjacent h.1 h.2 || ((t.hops.take i).any fun g => g.2 = h.2) then at' 2
      else if !reached.contains h.1 then at' 0 else none
    match (t.hops.zipIdx).findSome? fun (h, i) => hop i h with
    | some e => some e
    | none => match (List.range 288).find? fun c => t.dests.testBit c && !reached.contains c with
      | some c => some ⟨0x28, idx, off + 8 + c / 8⟩
      | none => none

/-- WINDOW_RANGE of one window at an image offset; TARGET and BASE are read as R135 states. The clauses are judged in the row's order, SIZE
(+8) before BASE (+0): DESIGN CHOICE (assumption log 35), since the spec orders the rows only. -/
def checkWindow (own idx off : Nat) (w : Window) : Option ImageErr :=
  let t := selfNorm (some own) w.target
  if w.size = 0 ∨ w.size % 4096 ≠ 0 then some ⟨0x25, idx, off + 8⟩
  else if w.base % 4096 ≠ 0 then some ⟨0x25, idx, off⟩
  else if w.target % 4096 ≠ 0 then some ⟨0x25, idx, off + 16⟩
  else if 2 ^ 64 < selfNorm (some own) w.base + w.size then some ⟨0x25, idx, off⟩
  else if w.perm = 0 then some ⟨0x25, idx, off + 24⟩
  else if w.sources = 0 then some ⟨0x25, idx, off + 25⟩
  else if t / 2 ^ 48 = 0xFFFF ∧ !inOneRegion (t % 2 ^ 48) w.size then some ⟨0x25, idx, off + 16⟩
  else none

/-- The first repeated or overlapping pair of a list: the position of its later element. -/
def firstPair {α : Type} (bad : α → α → Bool) (l : List α) : Option Nat :=
  (List.range l.length).find? fun j => match l[j]? with
    | none => false
    | some y => (l.take j).any fun x => bad x y

/-- Two windows of one fold overlap: their ranges are compared as R135 states. -/
def windowsOverlap (own : Nat) (x y : Window) : Bool :=
  let b (w : Window) : Nat := selfNorm (some own) w.base
  decide (b x < b y + y.size ∧ b y < b x + x.size)

/-- What the checks look at: the environment, the image's bytes and the parts read from them. -/
structure ImgCtx where
  v : ImageEnv
  b : Bytes
  total : Nat
  sig : Nat
  sb : Bytes
  dir : List DirEnt
  fold : Nat
  member : Nat
  dev : DevSec
  base : Loaded
  declared : Option Nat
  others : List FoldSec

/-- The context of an image. -/
def imgCtx (v : ImageEnv) (b : Bytes) : ImgCtx :=
  let dir := imgDir b
  let base : Loaded := v.loaded.getD {}
  let fold := imgN b 9 1
  { v := v, b := b, total := imgN b 0x10 4, sig := b.length - 256, sb := b.drop (b.length - 256), dir := dir, fold := fold
    member := imgN b 0x1C 2, dev := if v.full then readDev b dir else base.dev, base := base
    declared := if v.full then declaredIn dir else some base.folds.length
    others := if v.full then [] else (base.folds.zipIdx.filter fun x => x.2 ≠ fold).map (·.1) }

/-- The number of folds fold numbers are judged against. -/
def ImgCtx.nFolds (c : ImgCtx) : Nat := c.declared.getD 16

/-- The sections a directory entry's fold gets. -/
def ImgCtx.foldOf (c : ImgCtx) (f : Nat) : FoldSec := readFold c.b c.dir f 0

/-- Cores mapped out: those of the device, and of the image itself for FULL. -/
def ImgCtx.outC (c : ImgCtx) : Nat := if c.v.full then c.dev.coresOut.lor c.v.coresOut else c.v.coresOut
/-- HBM channels mapped out. -/
def ImgCtx.outH (c : ImgCtx) : Nat := if c.v.full then c.dev.channelsOut.lor c.v.channelsOut else c.v.channelsOut
/-- Lanes mapped out, by port. -/
def ImgCtx.outL (c : ImgCtx) : List Nat :=
  if c.v.full then (List.range 36).map fun p => (c.dev.lanesOut.getD p 0).lor (c.v.lanesOut.getD p 0) else c.v.lanesOut

/-- Trees, windows and port group records of a section. -/
def ImgCtx.perTree (c : ImgCtx) (e : DirEnt) : List (Tree × Nat × Nat) :=
  if e.typ = 5 then treesOf e.cnt (e.body c.b) 0 else []
/-- Windows of a section with their positions. -/
def ImgCtx.perWindow (c : ImgCtx) (e : DirEnt) : List (Window × Nat) :=
  if e.typ = 4 then (c.foldOf e.scope).windows.zipIdx else []
/-- Port groups of a section with their positions. -/
def ImgCtx.perGroup (c : ImgCtx) (e : DirEnt) : List (PortGroup × Nat) :=
  if e.typ = 8 then (c.foldOf e.scope).groups.zipIdx else []

/-- A bitmap a section claims: section type, offset in the body, bytes. -/
structure Claim where
  typ : Nat
  off : Nat
  len : Nat

/-- The five bitmaps of Table 3.4 that claim units. -/
def claims : List Claim := [⟨2, 0, 40⟩, ⟨7, 0, 32⟩, ⟨8, 0, 8⟩, ⟨0xC, 0, 8⟩, ⟨0xC, 8, 2⟩]

/-- A fold's bits in a claim. -/
def Claim.get (k : Claim) (f : FoldSec) : Nat :=
  if k.typ = 2 then f.cores else if k.typ = 7 then f.channels else if k.typ = 8 then f.ports
  else if k.off = 0 then f.ringSet else f.ctxSet

/-- A failure at the byte of the first offending bit of a bitmap (R864). -/
def bitmapErr (r : Nat) (e : DirEnt) (o n bad : Nat) : Option ImageErr :=
  (firstBit (8 * n) bad).map fun i => ⟨r, e.idx, e.off + o + i / 8⟩

/-- The fused slot KEY_SLOT names. -/
def ImgCtx.slot (c : ImgCtx) : Option KeySlot := c.v.slots[imgN c.sb 4 1]?

/-- The fan-ins in use. -/
def ImgCtx.usedFan (c : ImgCtx) : List Nat := c.dev.fanIn.take c.dev.levelCount

/-- A failure of the header or of the signature block. -/
def hdrErr (r off : Nat) : Option ImageErr := some ⟨r, 0xFF, off⟩

/-- Table 3.6: LENGTH_RANGE (TOTAL_LENGTH). -/
def chkTotal (c : ImgCtx) : Option ImageErr :=
  if c.v.host ∧ c.total ≠ c.b.length then hdrErr 0x01 0x10 else none

/-- Table 3.6: BAD_MAGIC. -/
def chkMagic (c : ImgCtx) : Option ImageErr :=
  if imgN c.b 0 4 ≠ 0x31464B58 then hdrErr 0x02 0 else if imgN c.sb 0 4 ≠ 0x47495358 then hdrErr 0x02 c.sig else none

/-- Table 3.6: KEY_SLOT. -/
def chkKeySlot (c : ImgCtx) : Option ImageErr :=
  match c.slot with
    | some k => failIf (k.hash.isNone || k.revoked) 0x04 0xFF (c.sig + 4)
    | none => hdrErr 0x04 (c.sig + 4)

/-- Table 3.6: KEY_HASH. -/
def chkKeyHash (c : ImgCtx) : Option ImageErr :=
  failIf (some (sha384 ((c.sb.drop 0x10).take 96)) != c.slot.bind (·.hash)) 0x05 0xFF (c.sig + 0x10)

/-- Table 3.6: SIGNATURE. -/
def chkSignature (c : ImgCtx) : Option ImageErr :=
  if imgN c.sb 5 1 ≠ 1 then hdrErr 0x06 (c.sig + 5) else
    failIf (!ecdsaVerify (c.b.take c.sig) (beNat ((c.sb.drop 0x10).take 48)) (beNat ((c.sb.drop 0x40).take 48))
      (beNat ((c.sb.drop 0x70).take 48)) (beNat ((c.sb.drop 0xA0).take 48))) 0x06 0xFF (c.sig + 0x70)

/-- Table 3.6: FORMAT_VERSION. -/
def chkFormat (c : ImgCtx) : Option ImageErr :=
  if imgN c.b 4 2 ≠ 1 then hdrErr 0x03 4 else if imgN c.b 6 2 ≠ 0 then hdrErr 0x03 6
    else if imgN c.b 0xE 2 ≠ 32 then hdrErr 0x03 0xE else none

/-- Table 3.6: IMAGE_KIND. -/
def chkKind (c : ImgCtx) : Option ImageErr :=
  if imgN c.b 8 1 ≠ (if c.v.full then 1 else 2) then hdrErr 0x0C 8
    else if (if c.v.full then c.fold ≠ 0xFF else 15 < c.fold) then hdrErr 0x0C 9 else none

/-- Table 3.6: ORDER_CODE_MISMATCH. -/
def chkOrder (c : ImgCtx) : Option ImageErr :=
  failIf (imgN c.b 0x18 2 != c.v.orderCode) 0x07 0xFF 0x18

/-- Table 3.6: STEPPING_MISMATCH. -/
def chkStepping (c : ImgCtx) : Option ImageErr :=
  failIf (imgN c.b 0x1A 2 != c.v.stepping) 0x08 0xFF 0x1A

/-- Table 3.6: DEVICE_BIND. -/
def chkBind (c : ImgCtx) : Option ImageErr :=
  failIf (imgN c.b 0x20 8 != 0 && imgN c.b 0x20 8 != c.v.deviceId) 0x09 0xFF 0x20

/-- Table 3.6: ROLLBACK. -/
def chkRollback (c : ImgCtx) : Option ImageErr :=
  failIf (if c.v.full then decide (imgN c.b 0x14 4 < c.v.floor)
    else decide (imgN c.b 0x14 4 ≤ c.v.foldSerials.getD c.fold 0)) 0x0A 0xFF 0x14

/-- Table 3.6: BASE_MISMATCH. The clauses are judged in the row's order, BASE_DIGEST (0x30) before MEMBER_INDEX (0x1C): DESIGN CHOICE
(assumption log 35). -/
def chkBase (c : ImgCtx) : Option ImageErr :=
  if c.v.full then none
    else if (c.b.drop 0x30).take 48 ≠ c.base.digest then hdrErr 0x41 0x30
    else if c.member ≠ c.base.memberIndex then hdrErr 0x41 0x1C
    else if imgN c.b 0x20 8 ≠ c.base.deviceBind then hdrErr 0x41 0x20 else none

/-- Table 3.6: SECTION_COUNT. -/
def chkCount (c : ImgCtx) : Option ImageErr :=
  failIf (imgN c.b 0xC 2 == 0 || decide (64 < imgN c.b 0xC 2)) 0x10 0xFF 0xC

/-- Table 3.6: SECTION_TYPE. -/
def chkType (c : ImgCtx) : Option ImageErr :=
  scanDir c.dir fun e => if e.typ = 0 ∨ 0xE < e.typ then some ⟨0x13, e.idx, e.at⟩
    else if e.ver ≠ 1 then some ⟨0x13, e.idx, e.at + 2⟩ else none

/-- Table 3.6: SECTION_ORDER. -/
def chkSecOrder (c : ImgCtx) : Option ImageErr :=
  (c.dir.zip c.dir.tail).findSome? fun (x, y) =>
    if y.typ < x.typ then some ⟨0x12, y.idx, y.at⟩
    else if x.typ = y.typ ∧ y.scope ≤ x.scope then some ⟨0x12, y.idx, y.at + 1⟩ else none

/-- Table 3.6: SECTION_BOUNDS. -/
def chkBoundsAll (c : ImgCtx) : Option ImageErr :=
  checkBounds c.b c.sig (256 + 32 * c.dir.length) c.dir (256 + 32 * c.dir.length) (0xFF, 0x18)

/-- Table 3.6: SECTION_SCOPE. -/
def chkScope (c : ImgCtx) : Option ImageErr :=
  scanDir c.dir fun e => failIf
    (if c.v.full then (if foldScoped e.typ then decide (15 < e.scope) ||
          (match c.declared with | some n => decide (n ≤ e.scope) | none => false) else e.scope != 0xFF)
      else !foldScoped e.typ || e.scope != c.fold || decide (c.nFolds ≤ e.scope)) 0x14 e.idx (e.at + 1)

/-- Table 3.6: SECTION_LENGTH. -/
def chkLengths (c : ImgCtx) : Option ImageErr :=
  scanDir c.dir (checkLength c.b)

/-- Table 3.6: SECTION_MISSING. -/
def chkMissing (c : ImgCtx) : Option ImageErr :=
  let need : List (Nat × Nat) := if c.v.full then
        [(1, 0xFF)] ++ (List.range c.nFolds).map (fun f => (2, f)) ++ [(6, 0xFF)] ++ (List.range c.nFolds).map (fun f => (7, f)) ++
          [(9, 0xFF), (0xA, 0xFF), (0xB, 0xFF)] ++ (List.range c.nFolds).map (fun f => (0xC, f)) ++ [(0xE, 0xFF)]
      else [(2, c.fold), (7, c.fold), (0xC, c.fold)]
  (need.find? fun (t, sc) => !c.dir.any fun e => e.typ = t ∧ e.scope = sc).map fun (t, sc) => ⟨0x15, 0xFF, t + 256 * sc⟩

/-- Table 3.6: RESERVED_NONZERO: header, directory, bodies, signature block. -/
def chkReserved (c : ImgCtx) : Option ImageErr :=
  firstSome [
    fun _ => ([(0xA, 2, 2 ^ 16 - 1), (0x1E, 2, 2 ^ 16 - 1), (0x30, if c.v.full then 48 else 0, 2 ^ 384 - 1),
      (0x64, 156, 2 ^ 1248 - 1)].findSome? (firstNonzero c.b 0)).map fun o => ⟨0x0B, 0xFF, o⟩,
    fun _ => c.dir.findSome? fun e =>
      ([(3, 1, 255), (16, 16, 2 ^ 128 - 1)].findSome? (firstNonzero c.b e.at)).map fun o => ⟨0x0B, e.idx, o⟩,
    fun _ => c.dir.findSome? fun e => ((reservedIn c.b e).findSome? (firstNonzero c.b e.off)).map fun o => ⟨0x0B, e.idx, o⟩,
    fun _ => ([(6, 10, 2 ^ 80 - 1), (0xD0, 48, 2 ^ 384 - 1)].findSome? (firstNonzero c.b c.sig)).map fun o => ⟨0x0B, 0xFF, o⟩]

/-- Table 3.6: FOLD_RANGE. -/
def chkFoldId (c : ImgCtx) : Option ImageErr :=
  scanDir c.dir fun e => if e.typ = 1 then
      ((List.range e.cnt).find? fun i => imgN c.b (e.off + 16 * i) 1 ≠ i).map fun i => ⟨0x20, e.idx, e.off + 16 * i⟩ else none

/-- Table 3.6: CORE_MAP_EMPTY. -/
def chkCoreMap (c : ImgCtx) : Option ImageErr :=
  scanDir c.dir fun e => failIf (e.typ == 2 && (c.foldOf e.scope).cores == 0) 0x21 e.idx e.off

/-- Table 3.6: UNIT_UNAVAILABLE. -/
def chkAvail (c : ImgCtx) : Option ImageErr :=
  scanDir c.dir fun e =>
    let f := c.foldOf e.scope
    if e.typ = 2 then bitmapErr 0x23 e 0 40 (f.cores.land ((2 ^ 288 - 1).xor (c.v.present.land ((2 ^ 288 - 1).xor c.outC))))
    else if e.typ = 7 then bitmapErr 0x23 e 0 32 (f.channels.land c.outH)
    else if e.typ = 8 then
      ((List.range 36).find? fun p => f.ports.testBit p && c.outL.getD p 0 % 16 == 15).map fun p => ⟨0x23, e.idx, e.off + p / 8⟩
    else none

/-- Table 3.6: OWNERSHIP_CONFLICT. -/
def chkOwner (c : ImgCtx) : Option ImageErr :=
  scanDir c.dir fun e => (claims.filter fun k => k.typ = e.typ).findSome? fun k =>
    let before := (c.dir.filter fun x => x.typ = k.typ ∧ x.idx < e.idx).map fun x => k.get (c.foldOf x.scope)
    let taken := (before ++ c.others.map k.get).foldl Nat.lor 0
    bitmapErr 0x22 e k.off k.len ((k.get (c.foldOf e.scope)).land taken)

/-- Table 3.6: HBM_MAP_CHANGE. It is judged against the loaded image, with no header field compared: SECTION_INDEX 0xFF and BYTE_OFFSET 0
(R864). That it is a clause of that kind, and no bitmap check, is a DESIGN CHOICE (assumption log 35). -/
def chkHbmMap (c : ImgCtx) : Option ImageErr :=
  if c.v.full then none else
    let old := ((c.base.folds[c.fold]?).map fun f => f.channels).getD 0
    let new := (c.foldOf c.fold).channels
    failIf (popcount 256 old != popcount 256 new || (c.dev.hashMode == 0 && old != new)) 0x46 0xFF 0

/-- Table 3.6: RING_SET_EMPTY. -/
def chkRingSet (c : ImgCtx) : Option ImageErr :=
  scanDir c.dir fun e => if e.typ = 0xC then
      (if (c.foldOf e.scope).ringSet = 0 then some ⟨0x24, e.idx, e.off⟩
        else if (c.foldOf e.scope).ctxSet = 0 then some ⟨0x24, e.idx, e.off + 8⟩ else none) else none

/-- Table 3.6: WINDOW_RANGE. -/
def chkWindows (c : ImgCtx) : Option ImageErr :=
  scanDir c.dir fun e => (c.perWindow e).findSome? fun (w, i) => checkWindow c.member e.idx (e.off + 32 * i) w

/-- Table 3.6: WINDOW_OVERLAP. -/
def chkOverlap (c : ImgCtx) : Option ImageErr :=
  scanDir c.dir fun e => (firstPair (windowsOverlap c.member) ((c.perWindow e).map (·.1))).map fun j => ⟨0x27, e.idx, e.off + 32 * j⟩

/-- Table 3.6: ROUTE_COUNT. -/
def chkRouteCount (c : ImgCtx) : Option ImageErr :=
  scanDir c.dir fun e =>
    let ts := c.perTree e
    ts.zipIdx.findSome? fun ((t, o, _), i) =>
      if 1023 < t.id ∨ (ts.take i).any (fun u => u.1.id = t.id) then some ⟨0x29, e.idx, e.off + o⟩
      else if t.hops.length = 0 ∨ 1024 < t.hops.length then some ⟨0x29, e.idx, e.off + o + 2⟩ else none

/-- Table 3.6: ROUTE_SHAPE. -/
def chkRouteShape (c : ImgCtx) : Option ImageErr :=
  scanDir c.dir fun e => (c.perTree e).findSome? fun (t, o, _) => checkTree (c.foldOf e.scope) e.idx (e.off + o) t

/-- Table 3.6: PIN_CAP_RANGE. -/
def chkPinCap (c : ImgCtx) : Option ImageErr :=
  scanDir c.dir fun e => failIf (e.typ == 6 && (c.dev.pinCap == 0 || decide (12 < c.dev.pinCap))) 0x2A e.idx (e.off + 1)

/-- Table 3.6: PIN_BYTES_RANGE. -/
def chkPinBytes (c : ImgCtx) : Option ImageErr :=
  scanDir c.dir fun e =>
    let f := c.foldOf e.scope
    failIf (e.typ == 7 && !f.noPin && (f.pinKib == 0 || decide (popcount 256 f.channels * c.dev.pinCap * 16 < f.pinKib)))
      0x2B e.idx (e.off + 32)

/-- Table 3.6: PORT_GROUP. The clauses are judged in the row's order, MIN_LANES (+10) before PEER_MEMBER (+8): DESIGN CHOICE (assumption
log 35). -/
def chkPortGroup (c : ImgCtx) : Option ImageErr :=
  scanDir c.dir fun e =>
    let gs := c.perGroup e
    let f := c.foldOf e.scope
    gs.findSome? fun (g, i) =>
      let o := e.off + 16 + 16 * i
      let seen := ((gs.take i).map (·.1.set)).foldl Nat.lor 0
      let bad (ok : Nat → Bool) := (List.range 64).find? fun p => g.set.testBit p && !ok p
      if g.set = 0 then some ⟨0x2D, e.idx, o⟩
      else if let some p := bad f.ports.testBit then some ⟨0x2D, e.idx, o + p / 8⟩
      else if let some p := bad fun p => !seen.testBit p then some ⟨0x2D, e.idx, o + p / 8⟩
      else if g.minLanes ≠ 1 ∧ g.minLanes ≠ 2 ∧ g.minLanes ≠ 4 then some ⟨0x2D, e.idx, o + 10⟩
      else if g.peer = c.member ∨ c.dev.memberCount ≤ g.peer then some ⟨0x2D, e.idx, o + 8⟩ else none

/-- Table 3.6: TIME_ROLE_RANGE. -/
def chkTimeRole (c : ImgCtx) : Option ImageErr :=
  scanDir c.dir fun e => if e.typ = 9 then
      let owned := ((List.range c.nFolds).map fun f => (c.foldOf f).ports).foldl Nat.lor 0
      if 2 < c.dev.role then some ⟨0x2E, e.idx, e.off⟩
      else match (List.range 36).find? fun p => c.dev.timePorts.testBit p && !owned.testBit p with
        | some p => some ⟨0x2E, e.idx, e.off + 8 + p / 8⟩
        | none => failIf (c.dev.role == 2 && decide (1 < c.dev.memberCount)) 0x2E e.idx e.off
    else none

/-- Table 3.6: FAULT_POLICY_RANGE. -/
def chkPolicy (c : ImgCtx) : Option ImageErr :=
  scanDir c.dir fun e => if e.typ = 0xA then
      let per (on : Bool) (x lo hi o : Nat) := failIf (if on then decide (x < lo) || decide (hi < x) else x != 0) 0x2F e.idx (e.off + o)
      firstSome [
        fun _ => per (c.dev.policyFlags.testBit 0) c.dev.scrubMs 100 4000 0,
        fun _ => per (c.dev.policyFlags.testBit 1) c.dev.patrolS 3600 86400 4,
        fun _ => per (c.dev.policyFlags.testBit 2) c.dev.bistS 60 1200 8,
        fun _ => c.dev.responses.zipIdx.findSome? fun ((k, r), i) =>
          if (allowedResponses k).isEmpty ∨ (c.dev.responses.take i).any (fun x => x.1 = k) then some ⟨0x2F, e.idx, e.off + 32 + 4 * i⟩
          else failIf (!(allowedResponses k).contains r) 0x2F e.idx (e.off + 33 + 4 * i)]
    else none

/-- Table 3.6: POWER_RANGE. -/
def chkPower (c : ImgCtx) : Option ImageErr :=
  scanDir c.dir fun e => if e.typ = 0xB then c.dev.limits.zipIdx.findSome? fun ((lo, hi), k) =>
      if hi < lo then some ⟨0x30, e.idx, e.off + 2 * k⟩
      else if 7 < hi then some ⟨0x30, e.idx, e.off + 2 * k + 1⟩
      else failIf (k == 4 && decide (lo < 3)) 0x30 e.idx (e.off + 8)
    else none

/-- Table 3.6: TIMEOUT_RANGE. -/
def chkTimeouts (c : ImgCtx) : Option ImageErr :=
  scanDir c.dir fun e => if e.typ = 0xD then
      [(c.dev.stallUs, 20, 90), (c.dev.barrierUs, 100, 10000000), (c.dev.drainUs, 10, 10000), (c.dev.handoverMs, 10, 500),
        (c.dev.heartbeatUs, 250, 100000)].zipIdx.findSome? fun ((x, lo, hi), i) =>
          failIf (decide (x < lo) || decide (hi < x)) 0x31 e.idx (e.off + 4 * i)
    else none

/-- Table 3.6: GROUP_RANGE. -/
def chkGroup (c : ImgCtx) : Option ImageErr :=
  scanDir c.dir fun e => if e.typ = 0xE then
      let prod (l : List Nat) := l.foldl (· * ·) 1
      if c.dev.memberCount = 0 ∨ 65535 < c.dev.memberCount ∨ c.dev.memberCount ≤ c.member then some ⟨0x32, e.idx, e.off + 8⟩
      else if c.dev.levelCount = 0 ∨ 8 < c.dev.levelCount then some ⟨0x32, e.idx, e.off + 12⟩
      else match c.usedFan.zipIdx.find? fun x => x.1 = 0 ∨ 256 < x.1 with
        | some x => some ⟨0x32, e.idx, e.off + 16 + 2 * x.2⟩
        | none => failIf (decide (prod c.usedFan < c.dev.memberCount) ||
            (decide (1 < c.dev.levelCount) && decide (c.dev.memberCount ≤ prod (c.usedFan.take (c.dev.levelCount - 1))))) 0x32 e.idx (e.off + 16)
    else none

/-- Table 3.6: FOLD_NOT_IDLE. -/
def chkIdle (c : ImgCtx) : Option ImageErr :=
  failIf (!c.v.full && !(c.v.foldsIdle.getD c.fold false)) 0x42 0xFF 0

/-- Table 3.6: FOLD_NOT_UPDATABLE. -/
def chkUpdatable (c : ImgCtx) : Option ImageErr :=
  failIf (!c.v.full && !Nat.testBit (((c.base.folds[c.fold]?).map fun (f : FoldSec) => f.flags).getD 0) 0) 0x43 0xFF 0

/-- The checks of Table 3.6 that judge the bytes, from BAD_MAGIC down to FOLD_NOT_UPDATABLE, in the table's order. -/
def imageChecks : List (ImgCtx → Option ImageErr) :=
  [chkTotal, chkMagic, chkKeySlot, chkKeyHash, chkSignature, chkFormat, chkKind, chkOrder, chkStepping, chkBind, chkRollback, chkBase, chkCount, chkType, chkSecOrder, chkBoundsAll, chkScope, chkLengths, chkMissing, chkReserved, chkFoldId, chkCoreMap, chkAvail, chkOwner, chkHbmMap, chkRingSet, chkWindows, chkOverlap, chkRouteCount, chkRouteShape, chkPinCap, chkPinBytes, chkPortGroup, chkTimeRole, chkPolicy, chkPower, chkTimeouts, chkGroup, chkIdle, chkUpdatable]

/-- The first check of Table 3.6 an image fails (R106). -/
def checkImage (v : ImageEnv) (b : Bytes) : Option ImageErr :=
  let c := imgCtx v b
  imageChecks.findSome? fun f => f c

/-- The length clauses of LENGTH_RANGE, judged before any byte is fetched (R106). -/
def lengthBad (full : Bool) (n : Nat) : Bool :=
  n == 0 || n % 64 != 0 || decide (n < 576) || decide ((if full then 0x800000 else 0x200000) < n)

end Sys2Proof.Machine
end

