-- ==== Sys2Proof/Machine/Num.lean ====
section
/-!
DEFINITION. Number formats (chapter 7): the exact value an element stands for, the one rounding of a result to its target format with
its flags and counts, and the exact values of the functions the engines compute.
-/
namespace Sys2Proof.Machine

/-- An exact value: NaN, an infinity, or the rational n / d; nz marks the zero of negative sign. -/
inductive Num where
  | nan
  | inf (neg : Bool)
  | q (n : Int) (d : Nat) (nz : Bool)
  deriving DecidableEq, Repr

/-- A rational in lowest terms. -/
def mkQ (n : Int) (d : Nat) : Num := let g := Nat.gcd n.natAbs d; .q (n / (g : Int)) (d / g) false

/-- An integer. -/
def Num.ofInt (n : Int) : Num := .q n 1 false

/-- The value x × 2^e of an integer. -/
def dyadic (n : Int) (e : Int) : Num := if 0 ≤ e then .ofInt (n * 2 ^ e.toNat) else mkQ n (2 ^ (-e).toNat)

/-- Whether a value has the sign bit of a negative one. -/
def Num.neg : Num → Bool
  | .nan => false
  | .inf b => b
  | .q n _ z => decide (n < 0) || z

/-- Whether a value is zero. -/
def Num.isZero : Num → Bool
  | .q n _ _ => n == 0
  | _ => false

/-- Whether a value is NaN. -/
def Num.isNan : Num → Bool
  | .nan => true
  | _ => false

/-- Whether a value is an infinity. -/
def Num.isInf : Num → Bool
  | .inf _ => true
  | _ => false

/-- A zero of a sign. -/
def zeroOf (neg : Bool) : Num := .q 0 1 neg

/-- The negation. -/
def Num.negate : Num → Num
  | .nan => .nan
  | .inf b => .inf (!b)
  | .q n d z => .q (-n) d (if n = 0 then !z else false)

/-- The magnitude. -/
def Num.abs (x : Num) : Num := if x.neg then x.negate else x

/-- The exact sum; a zero from operands of unlike sign is +0, or −0 when rounding goes down (IEEE 754). -/
def Num.add (mode : Nat) (x y : Num) : Num :=
  match x, y with
  | .nan, _ => .nan
  | _, .nan => .nan
  | .inf a, .inf b => if a = b then .inf a else .nan
  | .inf a, _ => .inf a
  | _, .inf b => .inf b
  | .q n d z, .q m e w =>
    let t := n * (e : Int) + m * (d : Int)
    if t = 0 then (if n = 0 ∧ m = 0 ∧ z = w then zeroOf z else zeroOf (mode == 3)) else mkQ t (d * e)

/-- The exact product; 0 × ∞ is NaN (R272). -/
def Num.mul (x y : Num) : Num :=
  match x, y with
  | .nan, _ => .nan
  | _, .nan => .nan
  | .inf a, y => if y.isZero then .nan else .inf (a != y.neg)
  | x, .inf b => if x.isZero then .nan else .inf (x.neg != b)
  | .q n d z, .q m e w => if n = 0 ∨ m = 0 then zeroOf ((Num.q n d z).neg != (Num.q m e w).neg) else mkQ (n * m) (d * e)

/-- The exact quotient (Table 8.4). -/
def Num.div (x y : Num) : Num :=
  match x, y with
  | .nan, _ => .nan
  | _, .nan => .nan
  | .inf _, .inf _ => .nan
  | .inf a, y => .inf (a != y.neg)
  | x, .inf b => zeroOf (x.neg != b)
  | .q n d z, .q m e w =>
    let s := (Num.q n d z).neg != (Num.q m e w).neg
    if m = 0 then (if n = 0 then .nan else .inf s)
    else if n = 0 then zeroOf s
    else mkQ (n * (e : Int) * (if m < 0 then -1 else 1)) (d * m.natAbs)

/-- Whether x < y, of two values that are not NaN, the zeros being equal. -/
def Num.lt (x y : Num) : Bool :=
  match x, y with
  | .nan, _ => false
  | _, .nan => false
  | .inf a, .inf b => a && !b
  | .inf a, _ => a
  | _, .inf b => !b
  | .q n d _, .q m e _ => decide (n * (e : Int) < m * (d : Int))

/-- ⌊log2⌋ of a positive rational. -/
def ilog2 (n d : Nat) : Int :=
  let e : Int := (Nat.log2 n : Int) - (Nat.log2 d : Int)
  let ge (e : Int) : Bool := if 0 ≤ e then decide (d * 2 ^ e.toNat ≤ n) else decide (d ≤ n * 2 ^ (-e).toNat)
  if ge e then e else e - 1

/-! Formats (Tables 6.2 and 7.1): code, bits, exponent bits, mantissa bits, bias. -/

/-- Bits of an element. -/
def fmtBits (f : Nat) : Nat :=
  match f with
  | 1 => 32
  | 2 => 16
  | 3 => 16
  | 4 => 8
  | 5 => 8
  | 6 => 6
  | 7 => 6
  | 8 => 4
  | 9 => 32
  | 10 => 8
  | 11 => 4
  | 12 => 64
  | _ => 8

/-- Mantissa bits. -/
def fmtMant (f : Nat) : Nat :=
  match f with
  | 1 => 23
  | 2 => 7
  | 3 => 10
  | 4 => 2
  | 5 => 3
  | 6 => 2
  | 7 => 3
  | _ => 1

/-- The exponent bias. -/
def fmtBias (f : Nat) : Nat :=
  match f with
  | 1 => 127
  | 2 => 127
  | 3 => 15
  | 4 => 15
  | 5 => 7
  | 6 => 3
  | 7 => 1
  | _ => 1

/-- Whether a code is a floating-point format. -/
def isFloat (f : Nat) : Bool := decide (1 ≤ f) && decide (f ≤ 8)
/-- Whether a code is an integer format of the arrays. -/
def isIntFmt (f : Nat) : Bool := decide (9 ≤ f) && decide (f ≤ 12)
/-- Whether a format has infinities. -/
def hasInf (f : Nat) : Bool := decide (1 ≤ f) && decide (f ≤ 4)
/-- Exponent bits. -/
def fmtExp (f : Nat) : Nat := fmtBits f - 1 - fmtMant f

/-- The exact value of an element (R259). -/
def decodeNum (f v : Nat) : Num :=
  if isFloat f then
    let m := fmtMant f
    let e := bits v (fmtBits f - 2) m
    let fr := v % 2 ^ m
    let s := bit v (fmtBits f - 1)
    let top := 2 ^ fmtExp f - 1
    if hasInf f && e == top then (if fr = 0 then .inf s else .nan)
    else if f = 5 ∧ e = top ∧ fr = 7 then .nan
    else
      let n : Int := if e = 0 then fr else 2 ^ m + fr
      let x : Int := (if e = 0 then 1 else (e : Int)) - fmtBias f - m
      if n = 0 then zeroOf s else dyadic (if s then -n else n) x
  else .ofInt (sext (fmtBits f) v)

/-- The canonical NaN of a format (R272). -/
def nanOf (f : Nat) : Nat :=
  match f with
  | 1 => 0x7FC00000
  | 2 => 0x7FC0
  | 3 => 0x7E00
  | 4 => 0x7E
  | 5 => 0x7F
  | _ => 0

/-- The largest finite value of a format, as an integer mantissa times a power of two. -/
def maxBits (f : Nat) : Nat :=
  match f with
  | 1 => 0x7F7FFFFF
  | 2 => 0x7F7F
  | 3 => 0x7BFF
  | 4 => 0x7B
  | 5 => 0x7E
  | 6 => 0x1F
  | 7 => 0x1F
  | _ => 7

/-- The bits of an infinity. -/
def infBits (f : Nat) : Nat := (2 ^ fmtExp f - 1) * 2 ^ fmtMant f

/-- A result: its bits, its flags (Table 7.5), and whether it is counted as saturated or as flushed (R278). -/
structure Res where
  bits : Nat
  flags : Nat := 0
  sat : Bool := false
  flush : Bool := false
  deriving DecidableEq, Repr

/-- n / d rounded to an integer by a mode (Table 7.2), for a value of a sign. -/
def roundNat (mode : Nat) (neg : Bool) (n d : Nat) : Nat :=
  let k := n / d
  let r := n % d
  if r = 0 then k
  else
    let up := match mode with
      | 0 => decide (d < 2 * r) || (decide (2 * r = d) && k % 2 == 1)
      | 1 => false
      | 2 => !neg
      | _ => neg
    if up then k + 1 else k

/-- An overflow into a floating-point format (R268 to R270). -/
def overflowTo (f mode sat : Nat) (neg : Bool) : Res :=
  let s := b2n neg * 2 ^ (fmtBits f - 1)
  let toInf := match mode with
    | 0 => true
    | 1 => false
    | 2 => !neg
    | _ => neg
  let lim : Res := ⟨s + maxBits f, 0x25, true, false⟩
  if hasInf f then (if toInf then ⟨s + infBits f, 5, false, false⟩ else lim)
  else if f = 5 then (if sat = 1 then lim else if toInf then ⟨nanOf 5, 5, false, false⟩ else lim)
  else lim

/-- Round an exact value to a floating-point format (R264 to R272, R275). -/
def roundFloat (f mode sat : Nat) (x : Num) : Res :=
  let s (neg : Bool) : Nat := b2n neg * 2 ^ (fmtBits f - 1)
  match x with
  | .nan => if f ≤ 5 then ⟨nanOf f, 0, false, false⟩ else ⟨0, 8, false, false⟩
  | .inf b =>
    if hasInf f then ⟨s b + infBits f, 0, false, false⟩
    else if f = 5 then (if sat = 1 then ⟨s b + maxBits 5, 0x29, true, false⟩ else ⟨nanOf 5, 8, false, false⟩)
    else ⟨s b + maxBits f, 0x29, true, false⟩
  | .q n d z =>
    if n = 0 then ⟨s z, 0, false, false⟩ else
    let neg := decide (n < 0)
    let a := n.natAbs
    let m := fmtMant f
    let emin : Int := 1 - (fmtBias f : Int)
    let e := ilog2 a d
    if f ≤ 2 ∧ e < emin then ⟨s neg, 0x43, false, true⟩ else
    let u : Int := max e emin - m
    let (an, ad) := if 0 ≤ u then (a, d * 2 ^ u.toNat) else (a * 2 ^ (-u).toNat, d)
    let k := roundNat mode neg an ad
    let inexact := an % ad != 0
    let under := inexact && decide (e < emin)
    if k = 0 then ⟨s neg, 0x43, false, true⟩ else
    let fl := b2n inexact + 2 * b2n under
    let (k, u) := if k = 2 ^ (m + 1) then (2 ^ m, u + 1) else (k, u)
    let mag := if k < 2 ^ m then k else (u + m + fmtBias f).toNat * 2 ^ m + (k - 2 ^ m)
    if maxBits f < mag then overflowTo f mode sat neg else ⟨s neg + mag, fl, false, false⟩

/-- An exact integer as a result of an integer format (R273). -/
def limitInt (f sat : Nat) (v : Int) : Res :=
  let n := fmtBits f
  let hi : Int := 2 ^ (n - 1) - 1
  let lo : Int := -2 ^ (n - 1)
  if lo ≤ v ∧ v ≤ hi then ⟨unsext n v, 0, false, false⟩
  else if sat = 1 then ⟨unsext n (if v < lo then lo else hi), 0x25, true, false⟩
  else ⟨unsext n v, 5, false, false⟩

/-- The integer a rational rounds to by a mode. -/
def roundInt (mode : Nat) (n : Int) (d : Nat) : Int :=
  let k := roundNat mode (decide (n < 0)) n.natAbs d
  if n < 0 then -(k : Int) else k

/-- A conversion of a floating-point value to an integer format (R274, R275). -/
def toInt (f mode : Nat) (x : Num) : Res :=
  let n := fmtBits f
  let hi : Int := 2 ^ (n - 1) - 1
  let lo : Int := -2 ^ (n - 1)
  match x with
  | .nan => ⟨0, 8, false, false⟩
  | .inf b => ⟨unsext n (if b then lo else hi), 0x29, true, false⟩
  | .q m d _ =>
    let v := roundInt mode m d
    if v < lo then ⟨unsext n lo, 0x29, true, false⟩
    else if hi < v then ⟨unsext n hi, 0x29, true, false⟩
    else ⟨unsext n v, b2n (decide (m % (d : Int) ≠ 0)), false, false⟩

/-- Add flags to a result. -/
def Res.mark (r : Res) (fl : Nat) : Res := { r with flags := r.flags.lor fl }

/-- The flags an operation with operands sets for NaN (Table 7.5): NAN_IN for a NaN operand, INVALID for a NaN from others. -/
def nanFlags (ops : List Num) (r : Num) : Nat :=
  if ops.any Num.isNan then 16 else if r.isNan then 8 else 0

/-- The result of a floating-point operation with its operands' flags. -/
def finish (f mode sat : Nat) (ops : List Num) (r : Num) : Res := (roundFloat f mode sat r).mark (nanFlags ops r)

/-- A block scale's factor (R261). -/
def scaleNum (e : Nat) : Num := if e = 0xFF then .nan else dyadic 1 ((e : Int) - 127)

/-! Functions: computed in fixed point of 320 fraction bits, and rounded where the exact value lies (R301). The value handed on is a
rational that rounds as the exact value does in every format: the exact value where it is rational, else the midpoint of the interval of
2^-200 that holds it (assumption log 8). -/

/-- Fraction bits of the working precision. -/
abbrev workBits : Nat := 320
/-- One in working precision. -/
def workOne : Int := 2 ^ workBits
/-- Product in working precision. -/
def wmul (a b : Int) : Int := a * b / workOne

/-- The midpoint of the interval of 2^-200 that holds a working value. -/
def midpoint (v : Int) : Num := mkQ (2 * (v / 2 ^ (workBits - 200)) + 1) (2 ^ 201)

/-- atanh of t in working precision: t + t^3/3 + t^5/5 … -/
def wAtanh (t : Int) : Int :=
  let t2 := wmul t t
  ((List.range 110).foldl (fun (acc : Int × Int) k => (acc.1 + acc.2 / (2 * k + 1 : Nat), wmul acc.2 t2)) (0, t)).1

/-- atan of 1/n in working precision. -/
def wAtanInv (n : Nat) : Int :=
  ((List.range 150).foldl (fun (acc : Int × Int) k =>
    (acc.1 + (if k % 2 = 0 then 1 else -1) * (acc.2 / (2 * k + 1 : Nat)), acc.2 / (n * n : Nat))) (0, workOne / (n : Int))).1

/-- ln 2. -/
def wLn2 : Int := 2 * wAtanh (workOne / 3)
/-- π. -/
def wPi : Int := 16 * wAtanInv 5 - 4 * wAtanInv 239

/-- e^t for 0 ≤ t < 1, in working precision. -/
def wExp (t : Int) : Int :=
  ((List.range 80).foldl (fun (acc : Int × Int) k => (acc.1 + acc.2, wmul acc.2 t / (k + 1 : Nat))) (0, workOne)).1

/-- sin and cos of t for 0 ≤ t < 2, in working precision. -/
def wSinCos (t : Int) : Int × Int :=
  let r := (List.range 90).foldl (fun (acc : (Int × Int) × Int) k =>
    let term := acc.2
    let sg : Int := if k / 2 % 2 = 0 then 1 else -1
    let sc := if k % 2 = 0 then (acc.1.1, acc.1.2 + sg * term) else (acc.1.1 + sg * term, acc.1.2)
    (sc, wmul term t / (k + 1 : Nat))) ((0, 0), workOne)
  r.1

/-- A working value of a rational. -/
def toWork (n : Int) (d : Nat) : Int := n * workOne / (d : Int)

/-- 2^x. -/
def numExp2 : Num → Num
  | .nan => .nan
  | .inf b => if b then zeroOf false else .inf false
  | .q n d _ =>
    let i := n / (d : Int)
    if 300 ≤ i then dyadic 1 300
    else if i < -300 then dyadic 1 (-300)
    else if n % (d : Int) = 0 then dyadic 1 i
    else
      let v := wExp (wmul (toWork (n - i * (d : Int)) d) wLn2)
      midpoint (if 0 ≤ i then v * 2 ^ i.toNat else v / 2 ^ (-i).toNat)

/-- log2 x. -/
def numLog2 : Num → Num
  | .nan => .nan
  | .inf b => if b then .nan else .inf false
  | .q n d _ =>
    if n = 0 then .inf true
    else if n < 0 then .nan
    else
      let e := ilog2 n.natAbs d
      let (a, b) := if 0 ≤ e then (n.natAbs, d * 2 ^ e.toNat) else (n.natAbs * 2 ^ (-e).toNat, d)
      if a = b then .ofInt e
      else midpoint (e * workOne + 2 * wAtanh (toWork ((a : Int) - b) (a + b)) * workOne / wLn2)

/-- tanh x. -/
def numTanh : Num → Num
  | .nan => .nan
  | .inf b => .ofInt (if b then -1 else 1)
  | .q n d z =>
    if n = 0 then .q 0 1 z
    else
      let a := n.natAbs
      let r : Num :=
        if 64 * d ≤ a then mkQ (2 ^ 180 - 1) (2 ^ 180)
        else if a * 2 ^ 100 < d then mkQ ((a : Int) * 2 ^ 260 - a) (d * 2 ^ 260)
        else
          let y := toWork (2 * a : Nat) d
          let i := y / wLn2
          let e := wExp (y - i * wLn2) * 2 ^ i.toNat
          midpoint ((e - workOne) * workOne / (e + workOne))
      if n < 0 then r.negate else r

/-- Integer square root by bits. -/
def isqrt (n : Nat) : Nat := Nat.sqrt n

/-- √x: exact where rational, else within 2^-200 of it. -/
def numSqrt : Num → Num
  | .nan => .nan
  | .inf b => if b then .nan else .inf false
  | .q n d z =>
    if n = 0 then .q 0 1 z
    else if n < 0 then .nan
    else
      let a := n.natAbs * d
      let r := isqrt (a * 2 ^ 400)
      if r * r = a * 2 ^ 400 then mkQ r (d * 2 ^ 200) else mkQ (2 * r + 1 : Nat) (d * 2 ^ 201)

/-- 1 / √x. -/
def numRsqrt (x : Num) : Num :=
  if x.isZero then .inf x.neg
  else match x with
    | .inf true => .nan
    | .inf false => zeroOf false
    | x => numSqrt ((Num.ofInt 1).div x)

/-- sin (true) or cos (false) of 2π times a rational. -/
def numTurn (isSin : Bool) (n : Int) (d : Nat) : Num :=
  let r := n % (d : Int)
  let q4 := 4 * r / (d : Int)
  let rem := 4 * r - q4 * (d : Int)
  let k := (q4.toNat + (if isSin then 0 else 1)) % 4
  if rem = 0 then .ofInt (match k with | 0 => 0 | 1 => 1 | 2 => 0 | _ => -1)
  else
    let (sn, cs) := wSinCos (wmul (toWork rem d) wPi / 2)
    match k with
    | 0 => midpoint sn
    | 1 => midpoint cs
    | 2 => (midpoint sn).negate
    | _ => (midpoint cs).negate

/-- f(P × f0): PSIN and PCOS (R305). -/
def numPos (isSin : Bool) (p : Int) (f0 : Num) : Num :=
  match f0 with
  | .nan => .nan
  | .inf _ => .nan
  | .q n d _ => numTurn isSin (p * n) d

/-! Integer helpers of the formats. -/

/-- The greatest of a list, by Num.lt, with −0 below +0 (Table 8.3). -/
def Num.max2 (x y : Num) : Num :=
  if x.isNan || y.isNan then .nan else if x.lt y then y else if y.lt x then x else if x.neg then y else x

/-- The least of two. -/
def Num.min2 (x y : Num) : Num :=
  if x.isNan || y.isNan then .nan else if x.lt y then x else if y.lt x then y else if x.neg then x else y

/-- FP32 bits as a value. -/
def fp32 (v : Nat) : Num := decodeNum 1 (v % 2 ^ 32)

end Sys2Proof.Machine
end

