-- ==== Sys2Proof/Machine/RegTable.lean ====
section
/-!
DEFINITION. The registers of the register region, as the spec's register tables give them: one name per register
(RegName), the fields of each with access code, reset value and Known-after code (RegName.fields; the defining chapters'
field tables), the place of each in BAR 0 (regMap; Tables 24.1 to 24.10), and one reference per field (Fd.*), so that
the rest of the model names a field as the manual does. Unlisted bits are reserved and read as zero (R18).
-/
namespace Sys2Proof.Machine

/-- Access codes of Table 0.5 (R12). -/
inductive Access where
  | ro | rw | w1c | w1s | wo | rwl | rwk
  deriving DecidableEq, Repr

/-- Known-after codes of Table 0.6 (R13). -/
inductive Known where
  | cold | device | fold | core | port | processor
  deriving DecidableEq, Repr

/-- One field of a register: its highest and lowest bit, access code, reset value and Known-after code. -/
structure RegField where
  hi : Nat
  lo : Nat
  acc : Access
  reset : Nat
  known : Known
  deriving DecidableEq, Repr

/-- The name of every register of the register region. Instances are numbered apart: RegName says which register, a unit
number says of which unit (core, port, ring, die …), and a sub-index says which of several in that unit. -/
inductive RegName where
  | idSignature
  | idPart
  | aonStatus
  | unitsSummary
  | presentCores
  | coresOut
  | channelsOut
  | lanesOut
  | imageCmd
  | imageSrcAddr
  | imageSrcLen
  | imageStatus
  | imageSerialNow
  | loadCount
  | rejectCount
  | imageDigest
  | groupValue
  | foldStatus
  | ctxMapAddr
  | ctxMapCtl
  | ctxMapInval
  | ctxMiss
  | ctxMissCount
  | pinBase
  | pinLen
  | pinCmd
  | pinStatus
  | pinBytes
  | ringBase
  | ringCplBase
  | ringSeqAddr
  | ringCtl
  | ringCmd
  | ringStatus
  | ringPtrs
  | ringSeq
  | ringNextStart
  | ringCounts
  | ctxHtAddr
  | ctxHtCtl
  | ctxHtInval
  | groupStatus
  | groupEpoch
  | protoVersion
  | collSlot
  | agreePort
  | quartzNow
  | quartzSnap
  | quartzStatus
  | quartzLeaderId
  | quartzServo
  | quartzCmd
  | quartzStepTo
  | quartzCounts
  | ptmStatus
  | ptmT1
  | ptmT4
  | ptmMaster
  | powerCmd
  | powerStatus
  | railStatus
  | railEnergy
  | thermal
  | thermCtl
  | corePwr
  | portPwr
  | faultSummary
  | faultClassCount
  | resetCmd
  | resetStatus
  | bootStatus
  | resetCounts
  | hbHostAddr
  | stewardHb
  | ladleHb
  | pkettleCtl
  | pkettleKey
  | pkettleWindow
  | pkettleStatus
  | pkettleKick
  | pkettleEvidence
  | pkettleLastKick
  | domainGen
  | fwCmd
  | fwSrcAddr
  | fwSrcLen
  | fwStatus
  | fwVersion
  | fwEvents
  | fuseId
  | fusePart
  | fuseState
  | fuseFloors
  | fuseNonce
  | fuseReqAddr
  | fuseCmd
  | fuseStatus
  | fuseKey
  | bistCmd
  | testBistStatus
  | bistArrays
  | testStatus
  | debugCtl
  | pcieStatus
  | pcieCounts
  | sbCtl
  | sbStatus
  | coreParked
  | msixAddr
  | msixData
  | msixVectorCtl
  | msixPba
  | pinStraps
  | pinLevels
  | gpioCtl
  | coreViol
  | ringViol
  | portViol
  | contextViol
  | procViol
  | hostViol
  | paceStatus
  | stallFirst
  | stallCount
  | holdCount
  | stallLimitNow
  | fcActive
  | fcActiveTime
  | fcActiveDetail
  | fcPending
  | fcPendingTime
  | fcPendingDetail
  | fcAck
  | fcCounts
  | bistStatus
  | tureenStatus
  | tureenNum
  | tureenCounts
  | hbmPwrCmd
  | hbmPwrStatus
  | portCtl
  | portCmd
  | portStatus
  | portFec
  | portRetry
  | portEvents
  | portReq
  | l2EccCounts
  | l2Pressure
  | l2PinState
  | l2Fault
  | hbmStatus
  | hbmEccCounts
  | hbmPatrol
  | hbmEcs
  | garnetStatus
  | garnetSeq
  | garnetFlushed
  | garnetCounts
  | fwlogBase
  | fwlogHeadAddr
  | fwlogCtl
  | fwlogTail
  | fwlogCounts
  | traceMask
  | coreStatus
  | twinCmd
  | twinBootPc
  | twinPc
  | parkInfo
  | lockstepStatus
  | twinCounts
  | kettleCtl
  | kettleKey
  | kettleWindow
  | kettleStatus
  | eventLatch
  | matrixStatus
  | matrixCtl
  | matrixFault
  | arrayOut
  | arrayAvail
  | matrixCounts
  | numFlags
  | numCounts
  | numLast
  | vectorStatus
  | vectorCtl
  | vectorFault
  | vectorCounts
  | arrWatch
  | bankWaits
  | moverStatus
  | moverCtl
  | moverFault
  | moverFaultAddr
  | moverCounts
  | pourStatus
  | pourCtl
  | pourFault
  | pourCounts
  | pourPort
  | tdbgCmd
  | tdbgStatus
  | tdbgSel
  | tdbgData
  | tdbgBreak
  | tdbgPc
  | whiskStatus
  | whiskCtl
  | whiskFault
  | whiskCounts
  | parkMask
  | groupCmd
  | dbgSel
  | dbgData
  | groupInfo
  | groupPc
  deriving DecidableEq, Repr

/-- Width in bytes: 4 or 8 (the Width columns of the chapters' register tables). -/
def RegName.width : RegName → Nat
  | .idSignature => 4
  | .aonStatus => 4
  | .imageCmd => 4
  | .imageSrcLen => 4
  | .imageSerialNow => 4
  | .loadCount => 4
  | .rejectCount => 4
  | .ctxMapCtl => 4
  | .ctxMapInval => 4
  | .ctxMissCount => 4
  | .pinCmd => 4
  | .ringCtl => 4
  | .ringCmd => 4
  | .ctxHtCtl => 4
  | .ctxHtInval => 4
  | .groupEpoch => 4
  | .protoVersion => 4
  | .quartzSnap => 4
  | .quartzCmd => 4
  | .ptmStatus => 4
  | .thermal => 4
  | .thermCtl => 4
  | .corePwr => 4
  | .portPwr => 4
  | .faultSummary => 4
  | .faultClassCount => 4
  | .bootStatus => 4
  | .pkettleCtl => 4
  | .pkettleKey => 4
  | .pkettleStatus => 4
  | .pkettleKick => 4
  | .domainGen => 4
  | .fwCmd => 4
  | .fwSrcLen => 4
  | .fusePart => 4
  | .fuseState => 4
  | .fuseCmd => 4
  | .fuseStatus => 4
  | .bistCmd => 4
  | .testStatus => 4
  | .debugCtl => 4
  | .pcieStatus => 4
  | .sbCtl => 4
  | .msixData => 4
  | .msixVectorCtl => 4
  | .pinStraps => 4
  | .pinLevels => 4
  | .gpioCtl => 4
  | .coreViol => 4
  | .ringViol => 4
  | .portViol => 4
  | .contextViol => 4
  | .procViol => 4
  | .hostViol => 4
  | .paceStatus => 4
  | .stallCount => 4
  | .holdCount => 4
  | .stallLimitNow => 4
  | .fcAck => 4
  | .hbmPwrCmd => 4
  | .hbmPwrStatus => 4
  | .portCtl => 4
  | .portCmd => 4
  | .hbmEcs => 4
  | .garnetStatus => 4
  | .fwlogCtl => 4
  | .traceMask => 4
  | .twinCmd => 4
  | .kettleCtl => 4
  | .kettleKey => 4
  | .kettleStatus => 4
  | .matrixCtl => 4
  | .vectorCtl => 4
  | .moverCtl => 4
  | .pourCtl => 4
  | .tdbgCmd => 4
  | .tdbgStatus => 4
  | .tdbgSel => 4
  | .whiskCtl => 4
  | .groupCmd => 4
  | .dbgSel => 4
  | _ => 8

/-- The fields of each register, as the field table of its chapter lists them (reserved rows left out: R18). A value the
tables give only as a kind (Measured, From fuses, From image, From firmware, Strapped, Random) stands as 0 here; the
model keeps those values elsewhere in State or sets them when they are measured. -/
def RegName.fields : RegName → List RegField
  | .idSignature => [⟨31, 0, .ro, 1129601097, .cold⟩]
  | .idPart => [⟨63, 56, .ro, 1, .cold⟩, ⟨55, 48, .ro, 0, .cold⟩, ⟨47, 32, .ro, 0, .cold⟩, ⟨31, 16, .ro, 0, .cold⟩, ⟨15, 0, .ro, 0, .cold⟩]
  | .aonStatus => [⟨16, 16, .ro, 0, .cold⟩, ⟨15, 12, .ro, 0, .cold⟩, ⟨10, 8, .ro, 0, .cold⟩, ⟨4, 4, .ro, 0, .cold⟩, ⟨3, 3, .ro, 0, .cold⟩, ⟨2, 2, .ro, 0, .cold⟩, ⟨1, 1, .ro, 0, .cold⟩, ⟨0, 0, .ro, 1, .cold⟩]
  | .unitsSummary => [⟨63, 48, .ro, 0, .device⟩, ⟨47, 32, .ro, 0, .device⟩, ⟨31, 16, .ro, 0, .device⟩, ⟨15, 0, .ro, 0, .device⟩]
  | .presentCores => [⟨63, 0, .ro, 0, .cold⟩]
  | .coresOut => [⟨63, 0, .ro, 0, .device⟩]
  | .channelsOut => [⟨63, 0, .ro, 0, .device⟩]
  | .lanesOut => [⟨63, 0, .ro, 0, .device⟩]
  | .imageCmd => [⟨8, 8, .wo, 0, .device⟩, ⟨3, 0, .wo, 0, .device⟩]
  | .imageSrcAddr => [⟨63, 6, .rw, 0, .device⟩]
  | .imageSrcLen => [⟨31, 0, .rw, 0, .device⟩]
  | .imageStatus => [⟨63, 63, .w1c, 0, .device⟩, ⟨55, 32, .ro, 0, .device⟩, ⟨31, 24, .ro, 255, .device⟩, ⟨23, 16, .ro, 0, .device⟩, ⟨4, 4, .ro, 0, .device⟩, ⟨3, 0, .ro, 0, .device⟩]
  | .imageSerialNow => [⟨31, 0, .ro, 0, .device⟩]
  | .loadCount => [⟨31, 0, .ro, 0, .device⟩]
  | .rejectCount => [⟨31, 0, .ro, 0, .device⟩]
  | .imageDigest => [⟨63, 0, .ro, 0, .device⟩]
  | .groupValue => [⟨63, 0, .ro, 0, .device⟩]
  | .foldStatus => [⟨63, 32, .ro, 0, .device⟩, ⟨7, 7, .ro, 0, .fold⟩, ⟨6, 6, .ro, 0, .fold⟩, ⟨5, 5, .ro, 0, .device⟩, ⟨3, 0, .ro, 0, .device⟩]
  | .ctxMapAddr => [⟨63, 12, .rwl, 0, .fold⟩]
  | .ctxMapCtl => [⟨31, 31, .rw, 0, .fold⟩, ⟨29, 28, .ro, 0, .fold⟩, ⟨27, 24, .ro, 0, .device⟩, ⟨23, 23, .ro, 0, .device⟩, ⟨22, 22, .ro, 0, .fold⟩, ⟨21, 0, .rwl, 0, .fold⟩]
  | .ctxMapInval => [⟨31, 31, .wo, 0, .fold⟩, ⟨20, 0, .wo, 0, .fold⟩]
  | .ctxMiss => [⟨63, 63, .w1c, 0, .fold⟩, ⟨62, 61, .ro, 0, .fold⟩, ⟨40, 32, .ro, 0, .fold⟩, ⟨20, 0, .ro, 0, .fold⟩]
  | .ctxMissCount => [⟨31, 0, .rw, 0, .fold⟩]
  | .pinBase => [⟨47, 0, .rw, 0, .fold⟩]
  | .pinLen => [⟨63, 0, .rw, 0, .fold⟩]
  | .pinCmd => [⟨1, 0, .wo, 0, .fold⟩]
  | .pinStatus => [⟨63, 63, .w1c, 0, .fold⟩, ⟨62, 62, .ro, 0, .fold⟩, ⟨61, 59, .ro, 0, .fold⟩, ⟨31, 0, .ro, 0, .fold⟩]
  | .pinBytes => [⟨63, 0, .ro, 0, .fold⟩]
  | .ringBase => [⟨63, 12, .rwl, 0, .fold⟩]
  | .ringCplBase => [⟨63, 12, .rwl, 0, .fold⟩]
  | .ringSeqAddr => [⟨63, 3, .rwl, 0, .fold⟩]
  | .ringCtl => [⟨30, 24, .rwl, 0, .fold⟩, ⟨23, 20, .rwl, 0, .fold⟩, ⟨16, 0, .rwl, 0, .fold⟩]
  | .ringCmd => [⟨2, 0, .wo, 0, .fold⟩]
  | .ringStatus => [⟨19, 16, .ro, 0, .fold⟩, ⟨15, 8, .ro, 0, .fold⟩, ⟨3, 0, .ro, 0, .fold⟩]
  | .ringPtrs => [⟨47, 32, .ro, 0, .fold⟩, ⟨15, 0, .ro, 0, .fold⟩]
  | .ringSeq => [⟨63, 0, .ro, 0, .fold⟩]
  | .ringNextStart => [⟨63, 0, .ro, 0, .fold⟩]
  | .ringCounts => [⟨63, 32, .rw, 0, .fold⟩, ⟨31, 16, .rw, 0, .fold⟩, ⟨15, 0, .rw, 0, .fold⟩]
  | .ctxHtAddr => [⟨63, 12, .rwl, 0, .fold⟩]
  | .ctxHtCtl => [⟨31, 31, .rw, 0, .fold⟩, ⟨30, 29, .ro, 0, .fold⟩, ⟨28, 28, .ro, 0, .fold⟩, ⟨16, 0, .rwl, 0, .fold⟩]
  | .ctxHtInval => [⟨31, 31, .wo, 0, .fold⟩, ⟨15, 0, .wo, 0, .fold⟩]
  | .groupStatus => [⟨35, 32, .ro, 0, .device⟩, ⟨31, 16, .ro, 0, .device⟩, ⟨0, 0, .ro, 0, .device⟩]
  | .groupEpoch => [⟨31, 0, .rw, 0, .device⟩]
  | .protoVersion => [⟨15, 8, .ro, 0, .device⟩, ⟨7, 0, .ro, 0, .device⟩]
  | .collSlot => [⟨63, 63, .ro, 0, .device⟩, ⟨62, 59, .ro, 0, .device⟩, ⟨47, 32, .ro, 0, .device⟩, ⟨31, 0, .ro, 0, .device⟩]
  | .agreePort => [⟨63, 48, .ro, 0, .port⟩, ⟨47, 40, .ro, 0, .port⟩, ⟨39, 36, .ro, 0, .port⟩, ⟨31, 16, .rw, 0, .port⟩, ⟨15, 0, .rw, 0, .port⟩]
  | .quartzNow => [⟨63, 0, .ro, 0, .cold⟩]
  | .quartzSnap => [⟨19, 16, .ro, 0, .cold⟩, ⟨15, 0, .ro, 0, .cold⟩]
  | .quartzStatus => [⟨63, 32, .ro, 0, .cold⟩, ⟨31, 16, .ro, 0, .cold⟩, ⟨15, 10, .ro, 63, .cold⟩, ⟨9, 9, .ro, 0, .cold⟩, ⟨8, 8, .ro, 0, .cold⟩, ⟨7, 4, .ro, 0, .cold⟩, ⟨3, 0, .ro, 0, .cold⟩]
  | .quartzLeaderId => [⟨63, 0, .ro, 18446744073709551615, .cold⟩]
  | .quartzServo => [⟨63, 32, .ro, 0, .cold⟩, ⟨31, 24, .ro, 255, .cold⟩, ⟨23, 0, .ro, 0, .cold⟩]
  | .quartzCmd => [⟨1, 0, .wo, 0, .cold⟩]
  | .quartzStepTo => [⟨63, 0, .rw, 0, .cold⟩]
  | .quartzCounts => [⟨63, 48, .rw, 0, .cold⟩, ⟨47, 32, .rw, 0, .cold⟩, ⟨31, 16, .rw, 0, .cold⟩, ⟨15, 0, .rw, 0, .cold⟩]
  | .ptmStatus => [⟨31, 16, .ro, 0, .cold⟩, ⟨15, 0, .ro, 0, .cold⟩]
  | .ptmT1 => [⟨63, 0, .ro, 0, .cold⟩]
  | .ptmT4 => [⟨63, 0, .ro, 0, .cold⟩]
  | .ptmMaster => [⟨63, 0, .ro, 0, .cold⟩]
  | .powerCmd => [⟨47, 32, .wo, 0, .device⟩, ⟨23, 16, .wo, 0, .device⟩, ⟨15, 8, .wo, 0, .device⟩, ⟨7, 0, .wo, 0, .device⟩]
  | .powerStatus => [⟨63, 63, .w1c, 0, .device⟩, ⟨62, 62, .ro, 0, .device⟩, ⟨55, 48, .ro, 0, .device⟩]
  | .railStatus => [⟨47, 32, .ro, 0, .device⟩, ⟨31, 16, .ro, 720, .device⟩, ⟨6, 6, .ro, 0, .device⟩, ⟨4, 4, .w1c, 0, .device⟩, ⟨2, 0, .ro, 5, .device⟩]
  | .railEnergy => [⟨63, 0, .rw, 0, .device⟩]
  | .thermal => [⟨31, 31, .w1c, 0, .device⟩, ⟨30, 30, .ro, 0, .device⟩, ⟨15, 8, .ro, 0, .device⟩, ⟨7, 0, .ro, 0, .device⟩]
  | .thermCtl => [⟨6, 0, .rw, 105, .device⟩]
  | .corePwr => [⟨3, 3, .ro, 0, .device⟩, ⟨2, 2, .ro, 0, .device⟩, ⟨1, 0, .ro, 0, .device⟩]
  | .portPwr => [⟨3, 3, .ro, 0, .device⟩, ⟨2, 0, .ro, 0, .device⟩]
  | .faultSummary => [⟨7, 7, .w1c, 0, .device⟩, ⟨6, 6, .w1c, 0, .device⟩, ⟨4, 0, .w1c, 0, .device⟩]
  | .faultClassCount => [⟨31, 0, .rw, 0, .device⟩]
  | .resetCmd => [⟨47, 32, .wo, 0, .device⟩, ⟨7, 0, .wo, 0, .device⟩]
  | .resetStatus => [⟨63, 63, .w1c, 0, .device⟩, ⟨62, 62, .ro, 0, .device⟩, ⟨55, 48, .ro, 0, .device⟩]
  | .bootStatus => [⟨11, 8, .ro, 0, .cold⟩, ⟨2, 0, .ro, 0, .cold⟩]
  | .resetCounts => [⟨63, 32, .rw, 0, .cold⟩, ⟨31, 0, .rw, 0, .cold⟩]
  | .hbHostAddr => [⟨63, 3, .rw, 0, .device⟩, ⟨0, 0, .rw, 0, .device⟩]
  | .stewardHb => [⟨63, 16, .ro, 0, .device⟩, ⟨7, 4, .ro, 0, .device⟩, ⟨3, 0, .ro, 0, .device⟩]
  | .ladleHb => [⟨63, 0, .ro, 0, .device⟩]
  | .pkettleCtl => [⟨1, 1, .w1s, 0, .device⟩, ⟨0, 0, .rwk, 1, .device⟩]
  | .pkettleKey => [⟨31, 0, .wo, 0, .device⟩]
  | .pkettleWindow => [⟨55, 32, .rwk, 10000, .device⟩, ⟨23, 0, .rwk, 0, .device⟩]
  | .pkettleStatus => [⟨31, 16, .rw, 0, .device⟩, ⟨7, 6, .ro, 0, .device⟩, ⟨5, 5, .w1c, 0, .device⟩, ⟨1, 0, .ro, 0, .device⟩]
  | .pkettleKick => [⟨0, 0, .wo, 0, .device⟩]
  | .pkettleEvidence => [⟨63, 0, .ro, 0, .device⟩]
  | .pkettleLastKick => [⟨63, 0, .ro, 0, .device⟩]
  | .domainGen => [⟨31, 8, .rw, 0, .cold⟩, ⟨7, 0, .ro, 0, .cold⟩]
  | .fwCmd => [⟨12, 8, .wo, 0, .device⟩, ⟨3, 0, .wo, 0, .device⟩]
  | .fwSrcAddr => [⟨63, 6, .rw, 0, .device⟩]
  | .fwSrcLen => [⟨31, 0, .rw, 0, .device⟩]
  | .fwStatus => [⟨63, 63, .w1c, 0, .device⟩, ⟨55, 48, .ro, 0, .device⟩, ⟨44, 40, .ro, 0, .device⟩, ⟨36, 32, .ro, 0, .device⟩, ⟨8, 8, .ro, 0, .device⟩, ⟨3, 0, .ro, 0, .device⟩]
  | .fwVersion => [⟨63, 32, .ro, 0, .processor⟩, ⟨31, 16, .ro, 0, .processor⟩, ⟨15, 8, .ro, 0, .processor⟩, ⟨7, 0, .ro, 0, .processor⟩]
  | .fwEvents => [⟨63, 0, .ro, 0, .device⟩]
  | .fuseId => [⟨63, 0, .ro, 0, .cold⟩]
  | .fusePart => [⟨31, 16, .ro, 0, .cold⟩, ⟨15, 0, .ro, 0, .cold⟩]
  | .fuseState => [⟨16, 16, .ro, 0, .cold⟩, ⟨15, 12, .ro, 0, .cold⟩, ⟨9, 8, .ro, 0, .cold⟩, ⟨7, 0, .ro, 0, .cold⟩]
  | .fuseFloors => [⟨63, 32, .ro, 0, .cold⟩, ⟨31, 0, .ro, 0, .cold⟩]
  | .fuseNonce => [⟨63, 0, .ro, 0, .device⟩]
  | .fuseReqAddr => [⟨63, 6, .rw, 0, .device⟩]
  | .fuseCmd => [⟨0, 0, .wo, 0, .device⟩]
  | .fuseStatus => [⟨31, 31, .w1c, 0, .device⟩, ⟨30, 30, .ro, 0, .device⟩, ⟨23, 16, .rw, 0, .cold⟩, ⟨7, 0, .ro, 0, .device⟩]
  | .fuseKey => [⟨63, 0, .ro, 0, .cold⟩]
  | .bistCmd => [⟨31, 16, .wo, 0, .device⟩, ⟨1, 0, .wo, 0, .device⟩]
  | .testBistStatus => [⟨63, 63, .w1c, 0, .device⟩, ⟨62, 62, .ro, 0, .device⟩, ⟨57, 56, .ro, 0, .device⟩, ⟨47, 16, .ro, 0, .device⟩, ⟨8, 0, .ro, 0, .device⟩]
  | .bistArrays => [⟨63, 0, .ro, 0, .device⟩]
  | .testStatus => [⟨15, 8, .ro, 0, .device⟩, ⟨5, 5, .ro, 0, .device⟩, ⟨4, 4, .w1c, 0, .device⟩, ⟨2, 2, .ro, 0, .cold⟩, ⟨1, 1, .ro, 0, .cold⟩, ⟨0, 0, .ro, 0, .cold⟩]
  | .debugCtl => [⟨31, 31, .w1s, 0, .device⟩, ⟨17, 16, .rwl, 0, .device⟩, ⟨15, 0, .rwl, 0, .device⟩]
  | .pcieStatus => [⟨20, 16, .ro, 0, .device⟩, ⟨15, 12, .ro, 0, .device⟩, ⟨11, 11, .ro, 0, .device⟩, ⟨10, 10, .ro, 0, .device⟩, ⟨9, 9, .ro, 0, .device⟩, ⟨0, 0, .ro, 0, .device⟩]
  | .pcieCounts => [⟨63, 48, .rw, 0, .cold⟩, ⟨47, 32, .rw, 0, .cold⟩, ⟨31, 16, .rw, 0, .cold⟩, ⟨15, 0, .rw, 0, .cold⟩]
  | .sbCtl => [⟨1, 1, .rw, 0, .cold⟩, ⟨0, 0, .rw, 1, .cold⟩]
  | .sbStatus => [⟨63, 48, .rw, 0, .cold⟩, ⟨47, 32, .rw, 0, .cold⟩, ⟨14, 8, .ro, 0, .cold⟩, ⟨7, 0, .ro, 0, .device⟩]
  | .coreParked => [⟨63, 0, .w1c, 0, .device⟩]
  | .msixAddr => [⟨63, 2, .rw, 0, .device⟩]
  | .msixData => [⟨31, 0, .rw, 0, .device⟩]
  | .msixVectorCtl => [⟨0, 0, .rw, 1, .device⟩]
  | .msixPba => [⟨63, 0, .ro, 0, .device⟩]
  | .pinStraps => [⟨9, 8, .ro, 0, .device⟩, ⟨1, 0, .ro, 0, .cold⟩]
  | .pinLevels => [⟨23, 16, .ro, 0, .device⟩, ⟨4, 4, .ro, 0, .cold⟩, ⟨3, 3, .ro, 0, .cold⟩, ⟨2, 2, .ro, 0, .cold⟩, ⟨1, 1, .ro, 0, .cold⟩, ⟨0, 0, .ro, 0, .cold⟩]
  | .gpioCtl => [⟨15, 8, .rw, 0, .device⟩, ⟨7, 0, .rw, 0, .device⟩]
  | .coreViol => [⟨31, 0, .rw, 0, .core⟩]
  | .ringViol => [⟨31, 0, .rw, 0, .fold⟩]
  | .portViol => [⟨31, 0, .rw, 0, .port⟩]
  | .contextViol => [⟨31, 0, .rw, 0, .fold⟩]
  | .procViol => [⟨31, 0, .rw, 0, .device⟩]
  | .hostViol => [⟨31, 0, .rw, 0, .device⟩]
  | .paceStatus => [⟨23, 23, .ro, 0, .device⟩, ⟨22, 20, .ro, 5, .device⟩, ⟨19, 17, .ro, 5, .device⟩, ⟨15, 0, .ro, 0, .device⟩]
  | .stallFirst => [⟨63, 63, .w1c, 0, .device⟩, ⟨47, 32, .ro, 0, .device⟩, ⟨31, 0, .ro, 0, .device⟩]
  | .stallCount => [⟨31, 0, .rw, 0, .device⟩]
  | .holdCount => [⟨31, 0, .rw, 0, .device⟩]
  | .stallLimitNow => [⟨6, 0, .ro, 0, .device⟩]
  | .fcActive => [⟨63, 63, .ro, 0, .device⟩, ⟨62, 62, .ro, 0, .device⟩, ⟨61, 61, .ro, 0, .device⟩, ⟨55, 48, .ro, 0, .device⟩, ⟨47, 44, .ro, 0, .device⟩, ⟨43, 32, .ro, 0, .device⟩, ⟨31, 16, .ro, 0, .device⟩, ⟨12, 8, .ro, 0, .device⟩]
  | .fcActiveTime => [⟨63, 0, .ro, 0, .device⟩]
  | .fcActiveDetail => [⟨63, 0, .ro, 0, .device⟩]
  | .fcPending => [⟨63, 63, .ro, 0, .device⟩, ⟨62, 62, .ro, 0, .device⟩, ⟨61, 61, .ro, 0, .device⟩, ⟨55, 48, .ro, 0, .device⟩, ⟨47, 44, .ro, 0, .device⟩, ⟨43, 32, .ro, 0, .device⟩, ⟨31, 16, .ro, 0, .device⟩, ⟨12, 8, .ro, 0, .device⟩]
  | .fcPendingTime => [⟨63, 0, .ro, 0, .device⟩]
  | .fcPendingDetail => [⟨63, 0, .ro, 0, .device⟩]
  | .fcAck => [⟨0, 0, .wo, 0, .device⟩]
  | .fcCounts => [⟨63, 32, .rw, 0, .device⟩, ⟨31, 0, .rw, 0, .device⟩]
  | .bistStatus => [⟨63, 32, .rw, 0, .device⟩, ⟨31, 16, .rw, 0, .device⟩, ⟨12, 6, .ro, 0, .device⟩, ⟨5, 0, .ro, 0, .device⟩]
  | .tureenStatus => [⟨63, 32, .rw, 0, .device⟩, ⟨6, 0, .w1c, 0, .device⟩]
  | .tureenNum => [⟨63, 32, .ro, 0, .device⟩, ⟨31, 0, .ro, 0, .device⟩]
  | .tureenCounts => [⟨63, 48, .rw, 0, .device⟩, ⟨47, 32, .rw, 0, .device⟩, ⟨31, 0, .rw, 0, .device⟩]
  | .hbmPwrCmd => [⟨1, 0, .wo, 0, .device⟩]
  | .hbmPwrStatus => [⟨31, 31, .w1c, 0, .device⟩, ⟨3, 2, .ro, 0, .device⟩, ⟨1, 0, .ro, 0, .device⟩]
  | .portCtl => [⟨1, 0, .rw, 0, .device⟩]
  | .portCmd => [⟨1, 0, .wo, 0, .port⟩]
  | .portStatus => [⟨39, 32, .ro, 0, .cold⟩, ⟨31, 28, .ro, 0, .device⟩, ⟨27, 24, .ro, 0, .port⟩, ⟨23, 20, .ro, 0, .port⟩, ⟨19, 16, .ro, 0, .port⟩, ⟨8, 8, .ro, 0, .port⟩, ⟨7, 6, .ro, 0, .port⟩, ⟨2, 0, .ro, 0, .port⟩]
  | .portFec => [⟨63, 32, .rw, 0, .port⟩, ⟨31, 0, .rw, 0, .port⟩]
  | .portRetry => [⟨63, 32, .rw, 0, .port⟩, ⟨31, 0, .rw, 0, .port⟩]
  | .portEvents => [⟨63, 48, .rw, 0, .port⟩, ⟨47, 32, .rw, 0, .port⟩, ⟨31, 16, .rw, 0, .port⟩, ⟨15, 0, .rw, 0, .port⟩]
  | .portReq => [⟨63, 32, .rw, 0, .port⟩, ⟨10, 0, .ro, 0, .port⟩]
  | .l2EccCounts => [⟨63, 32, .rw, 0, .device⟩, ⟨31, 0, .rw, 0, .device⟩]
  | .l2Pressure => [⟨63, 32, .rw, 0, .device⟩, ⟨31, 0, .rw, 0, .device⟩]
  | .l2PinState => [⟨47, 32, .rw, 0, .device⟩, ⟨11, 0, .ro, 0, .device⟩]
  | .l2Fault => [⟨63, 63, .w1c, 0, .device⟩, ⟨62, 60, .ro, 0, .device⟩, ⟨47, 6, .ro, 0, .device⟩]
  | .hbmStatus => [⟨15, 8, .ro, 0, .device⟩, ⟨4, 4, .ro, 0, .device⟩, ⟨3, 0, .ro, 0, .device⟩]
  | .hbmEccCounts => [⟨63, 32, .rw, 0, .device⟩, ⟨31, 16, .rw, 0, .device⟩, ⟨15, 0, .rw, 0, .device⟩]
  | .hbmPatrol => [⟨63, 32, .rw, 0, .device⟩, ⟨24, 0, .ro, 0, .device⟩]
  | .hbmEcs => [⟨31, 16, .rw, 0, .device⟩, ⟨15, 0, .ro, 0, .device⟩]
  | .garnetStatus => [⟨4, 4, .ro, 0, .device⟩, ⟨3, 3, .ro, 0, .cold⟩, ⟨1, 0, .ro, 0, .cold⟩]
  | .garnetSeq => [⟨63, 0, .ro, 0, .cold⟩]
  | .garnetFlushed => [⟨63, 0, .ro, 0, .cold⟩]
  | .garnetCounts => [⟨63, 32, .rw, 0, .cold⟩, ⟨31, 16, .rw, 0, .cold⟩, ⟨15, 0, .rw, 0, .cold⟩]
  | .fwlogBase => [⟨63, 12, .rwl, 0, .device⟩]
  | .fwlogHeadAddr => [⟨63, 3, .rwl, 0, .device⟩]
  | .fwlogCtl => [⟨31, 31, .rw, 0, .device⟩, ⟨30, 30, .rw, 0, .device⟩, ⟨29, 29, .rw, 0, .device⟩, ⟨28, 27, .ro, 0, .device⟩, ⟨16, 0, .rwl, 0, .device⟩]
  | .fwlogTail => [⟨63, 0, .rw, 0, .device⟩]
  | .fwlogCounts => [⟨63, 32, .ro, 0, .device⟩, ⟨31, 0, .rw, 0, .device⟩]
  | .traceMask => [⟨7, 0, .rw, 0, .device⟩]
  | .coreStatus => [⟨47, 8, .ro, 0, .core⟩, ⟨5, 5, .ro, 1, .core⟩, ⟨4, 4, .ro, 1, .core⟩, ⟨3, 0, .ro, 0, .core⟩]
  | .twinCmd => [⟨1, 0, .wo, 0, .core⟩]
  | .twinBootPc => [⟨63, 2, .rw, 0, .core⟩]
  | .twinPc => [⟨63, 0, .ro, 0, .core⟩]
  | .parkInfo => [⟨7, 0, .ro, 0, .core⟩]
  | .lockstepStatus => [⟨63, 63, .w1c, 0, .device⟩, ⟨62, 60, .ro, 0, .device⟩, ⟨31, 0, .ro, 0, .device⟩]
  | .twinCounts => [⟨63, 48, .rw, 0, .device⟩, ⟨47, 32, .rw, 0, .device⟩, ⟨31, 0, .rw, 0, .device⟩]
  | .kettleCtl => [⟨1, 1, .w1s, 0, .device⟩, ⟨0, 0, .rwk, 0, .core⟩]
  | .kettleKey => [⟨31, 0, .wo, 0, .core⟩]
  | .kettleWindow => [⟨55, 32, .rwk, 1000, .core⟩, ⟨23, 0, .rwk, 0, .core⟩]
  | .kettleStatus => [⟨7, 6, .ro, 0, .core⟩, ⟨5, 5, .w1c, 0, .core⟩, ⟨1, 0, .ro, 0, .core⟩]
  | .eventLatch => [⟨63, 0, .ro, 0, .core⟩]
  | .matrixStatus => [⟨56, 44, .ro, 0, .core⟩, ⟨43, 32, .ro, 0, .core⟩, ⟨31, 16, .ro, 0, .core⟩, ⟨4, 4, .ro, 0, .core⟩, ⟨3, 3, .ro, 0, .core⟩, ⟨2, 0, .ro, 0, .core⟩]
  | .matrixCtl => [⟨1, 0, .wo, 0, .core⟩]
  | .matrixFault => [⟨63, 63, .w1c, 0, .core⟩, ⟨47, 32, .ro, 0, .core⟩, ⟨31, 26, .ro, 0, .core⟩, ⟨25, 13, .ro, 0, .core⟩, ⟨12, 0, .ro, 0, .core⟩]
  | .arrayOut => [⟨63, 0, .ro, 0, .device⟩]
  | .arrayAvail => [⟨63, 0, .ro, 0, .core⟩]
  | .matrixCounts => [⟨63, 48, .rw, 0, .core⟩, ⟨47, 0, .rw, 0, .core⟩]
  | .numFlags => [⟨30, 24, .w1c, 0, .core⟩, ⟨22, 16, .w1c, 0, .core⟩, ⟨14, 8, .w1c, 0, .core⟩, ⟨6, 0, .w1c, 0, .core⟩]
  | .numCounts => [⟨63, 32, .rw, 0, .core⟩, ⟨31, 0, .rw, 0, .core⟩]
  | .numLast => [⟨63, 32, .ro, 0, .core⟩, ⟨31, 0, .ro, 0, .core⟩]
  | .vectorStatus => [⟨47, 32, .ro, 0, .core⟩, ⟨31, 16, .ro, 0, .core⟩, ⟨1, 0, .ro, 0, .core⟩]
  | .vectorCtl => [⟨1, 0, .wo, 0, .core⟩]
  | .vectorFault => [⟨63, 63, .w1c, 0, .core⟩, ⟨47, 32, .ro, 0, .core⟩, ⟨31, 16, .ro, 0, .core⟩, ⟨15, 0, .ro, 0, .core⟩]
  | .vectorCounts => [⟨63, 48, .rw, 0, .core⟩, ⟨47, 32, .rw, 0, .core⟩, ⟨31, 0, .rw, 0, .core⟩]
  | .arrWatch => [⟨63, 0, .rw, 0, .core⟩]
  | .bankWaits => [⟨63, 0, .rw, 0, .core⟩]
  | .moverStatus => [⟨47, 40, .ro, 0, .core⟩, ⟨31, 16, .ro, 0, .core⟩, ⟨1, 0, .ro, 0, .core⟩]
  | .moverCtl => [⟨1, 0, .wo, 0, .core⟩]
  | .moverFault => [⟨63, 63, .w1c, 0, .core⟩, ⟨47, 32, .ro, 0, .core⟩, ⟨31, 0, .ro, 0, .core⟩]
  | .moverFaultAddr => [⟨63, 0, .ro, 0, .core⟩]
  | .moverCounts => [⟨63, 32, .rw, 0, .core⟩, ⟨31, 0, .rw, 0, .core⟩]
  | .pourStatus => [⟨31, 16, .ro, 0, .core⟩, ⟨1, 0, .ro, 0, .core⟩]
  | .pourCtl => [⟨1, 0, .wo, 0, .core⟩]
  | .pourFault => [⟨63, 63, .w1c, 0, .core⟩, ⟨47, 32, .ro, 0, .core⟩, ⟨31, 0, .ro, 0, .core⟩]
  | .pourCounts => [⟨63, 48, .rw, 0, .core⟩, ⟨47, 32, .rw, 0, .core⟩, ⟨31, 0, .rw, 0, .core⟩]
  | .pourPort => [⟨63, 63, .ro, 0, .core⟩, ⟨62, 62, .w1c, 0, .core⟩, ⟨57, 48, .ro, 0, .core⟩, ⟨34, 32, .ro, 0, .core⟩, ⟨31, 0, .ro, 0, .core⟩]
  | .tdbgCmd => [⟨1, 0, .wo, 0, .core⟩]
  | .tdbgStatus => [⟨1, 0, .ro, 0, .core⟩]
  | .tdbgSel => [⟨5, 5, .rw, 0, .core⟩, ⟨4, 0, .rw, 0, .core⟩]
  | .tdbgData => [⟨63, 0, .rw, 0, .core⟩]
  | .tdbgBreak => [⟨63, 2, .rw, 0, .core⟩, ⟨0, 0, .rw, 0, .core⟩]
  | .tdbgPc => [⟨63, 0, .ro, 0, .core⟩]
  | .whiskStatus => [⟨47, 40, .ro, 0, .core⟩, ⟨31, 16, .ro, 0, .core⟩, ⟨1, 0, .ro, 0, .core⟩]
  | .whiskCtl => [⟨1, 0, .wo, 0, .core⟩]
  | .whiskFault => [⟨63, 63, .w1c, 0, .core⟩, ⟨47, 32, .ro, 0, .core⟩, ⟨29, 24, .ro, 0, .core⟩]
  | .whiskCounts => [⟨63, 48, .rw, 0, .core⟩, ⟨47, 32, .rw, 0, .core⟩, ⟨31, 0, .rw, 0, .core⟩]
  | .parkMask => [⟨47, 0, .ro, 0, .core⟩]
  | .groupCmd => [⟨11, 8, .wo, 0, .core⟩, ⟨7, 7, .wo, 0, .core⟩, ⟨5, 0, .wo, 0, .core⟩]
  | .dbgSel => [⟨17, 17, .rw, 0, .core⟩, ⟨16, 11, .rw, 0, .core⟩, ⟨10, 6, .rw, 0, .core⟩, ⟨5, 0, .rw, 0, .core⟩]
  | .dbgData => [⟨31, 0, .rw, 0, .core⟩]
  | .groupInfo => [⟨63, 56, .ro, 0, .core⟩, ⟨51, 48, .ro, 0, .core⟩, ⟨47, 42, .ro, 0, .core⟩, ⟨31, 0, .ro, 0, .core⟩]
  | .groupPc => [⟨63, 0, .ro, 0, .core⟩]

/-- One row of the address map: base offset in BAR 0, stride and count of the units, stride and count within a unit. -/
structure MapEntry where
  reg : RegName
  base : Nat
  ustride : Nat
  ucount : Nat
  kstride : Nat
  kcount : Nat
  deriving DecidableEq, Repr

/-- Part of the address map (Tables 24.1 to 24.10). -/
def regMap0 : List MapEntry := [
  ⟨.idSignature, 0x0, 0x0, 1, 0, 1⟩,
  ⟨.idPart, 0x8, 0x0, 1, 0, 1⟩,
  ⟨.aonStatus, 0x10, 0x0, 1, 0, 1⟩,
  ⟨.unitsSummary, 0x18, 0x0, 1, 0, 1⟩,
  ⟨.presentCores, 0x40, 0x8, 5, 0, 1⟩,
  ⟨.coresOut, 0x80, 0x8, 5, 0, 1⟩,
  ⟨.channelsOut, 0xc0, 0x8, 4, 0, 1⟩,
  ⟨.lanesOut, 0xe0, 0x8, 3, 0, 1⟩,
  ⟨.imageCmd, 0x1000, 0x0, 1, 0, 1⟩,
  ⟨.imageSrcAddr, 0x1008, 0x0, 1, 0, 1⟩,
  ⟨.imageSrcLen, 0x1010, 0x0, 1, 0, 1⟩,
  ⟨.imageStatus, 0x1018, 0x0, 1, 0, 1⟩,
  ⟨.imageSerialNow, 0x1020, 0x0, 1, 0, 1⟩,
  ⟨.loadCount, 0x1028, 0x0, 1, 0, 1⟩,
  ⟨.rejectCount, 0x1030, 0x0, 1, 0, 1⟩,
  ⟨.imageDigest, 0x1040, 0x8, 6, 0, 1⟩,
  ⟨.groupValue, 0x1080, 0x8, 4, 0, 1⟩,
  ⟨.foldStatus, 0x1100, 0x8, 16, 0, 1⟩,
  ⟨.ctxMapAddr, 0x2000, 0x40, 16, 0, 1⟩,
  ⟨.ctxMapCtl, 0x2008, 0x40, 16, 0, 1⟩,
  ⟨.ctxMapInval, 0x2010, 0x40, 16, 0, 1⟩,
  ⟨.ctxMiss, 0x2018, 0x40, 16, 0, 1⟩,
  ⟨.ctxMissCount, 0x2020, 0x40, 16, 0, 1⟩,
  ⟨.pinBase, 0x3000, 0x40, 16, 0, 1⟩,
  ⟨.pinLen, 0x3008, 0x40, 16, 0, 1⟩,
  ⟨.pinCmd, 0x3010, 0x40, 16, 0, 1⟩,
  ⟨.pinStatus, 0x3018, 0x40, 16, 0, 1⟩,
  ⟨.pinBytes, 0x3020, 0x40, 16, 0, 1⟩,
  ⟨.ringBase, 0x4000, 0x80, 64, 0, 1⟩,
  ⟨.ringCplBase, 0x4008, 0x80, 64, 0, 1⟩,
  ⟨.ringSeqAddr, 0x4010, 0x80, 64, 0, 1⟩,
  ⟨.ringCtl, 0x4018, 0x80, 64, 0, 1⟩,
  ⟨.ringCmd, 0x401c, 0x80, 64, 0, 1⟩,
  ⟨.ringStatus, 0x4020, 0x80, 64, 0, 1⟩,
  ⟨.ringPtrs, 0x4028, 0x80, 64, 0, 1⟩,
  ⟨.ringSeq, 0x4030, 0x80, 64, 0, 1⟩,
  ⟨.ringNextStart, 0x4038, 0x80, 64, 0, 1⟩,
  ⟨.ringCounts, 0x4040, 0x80, 64, 0, 1⟩,
  ⟨.ctxHtAddr, 0x6000, 0x20, 16, 0, 1⟩,
  ⟨.ctxHtCtl, 0x6008, 0x20, 16, 0, 1⟩]

/-- Part of the address map (Tables 24.1 to 24.10). -/
def regMap1 : List MapEntry := [
  ⟨.ctxHtInval, 0x600c, 0x20, 16, 0, 1⟩,
  ⟨.groupStatus, 0x8000, 0x0, 1, 0, 1⟩,
  ⟨.groupEpoch, 0x8008, 0x0, 1, 0, 1⟩,
  ⟨.protoVersion, 0x8010, 0x0, 1, 0, 1⟩,
  ⟨.collSlot, 0x8040, 0x8, 8, 0, 1⟩,
  ⟨.agreePort, 0x8100, 0x8, 36, 0, 1⟩,
  ⟨.quartzNow, 0x9000, 0x0, 1, 0, 1⟩,
  ⟨.quartzSnap, 0x9008, 0x0, 1, 0, 1⟩,
  ⟨.quartzStatus, 0x9010, 0x0, 1, 0, 1⟩,
  ⟨.quartzLeaderId, 0x9018, 0x0, 1, 0, 1⟩,
  ⟨.quartzServo, 0x9020, 0x0, 1, 0, 1⟩,
  ⟨.quartzCmd, 0x9028, 0x0, 1, 0, 1⟩,
  ⟨.quartzStepTo, 0x9030, 0x0, 1, 0, 1⟩,
  ⟨.quartzCounts, 0x9038, 0x0, 1, 0, 1⟩,
  ⟨.ptmStatus, 0x9040, 0x0, 1, 0, 1⟩,
  ⟨.ptmT1, 0x9048, 0x0, 1, 0, 1⟩,
  ⟨.ptmT4, 0x9050, 0x0, 1, 0, 1⟩,
  ⟨.ptmMaster, 0x9058, 0x0, 1, 0, 1⟩,
  ⟨.powerCmd, 0xa000, 0x0, 1, 0, 1⟩,
  ⟨.powerStatus, 0xa008, 0x0, 1, 0, 1⟩,
  ⟨.railStatus, 0xa010, 0x8, 5, 0, 1⟩,
  ⟨.railEnergy, 0xa040, 0x8, 5, 0, 1⟩,
  ⟨.thermal, 0xa080, 0x8, 5, 0, 1⟩,
  ⟨.thermCtl, 0xa0b0, 0x0, 1, 0, 1⟩,
  ⟨.corePwr, 0xa100, 0x8, 288, 0, 1⟩,
  ⟨.portPwr, 0xaa00, 0x8, 36, 0, 1⟩,
  ⟨.faultSummary, 0xb000, 0x0, 1, 0, 1⟩,
  ⟨.faultClassCount, 0xb100, 0x8, 31, 0, 1⟩,
  ⟨.resetCmd, 0xc000, 0x0, 1, 0, 1⟩,
  ⟨.resetStatus, 0xc008, 0x0, 1, 0, 1⟩,
  ⟨.bootStatus, 0xc010, 0x0, 1, 0, 1⟩,
  ⟨.resetCounts, 0xc018, 0x0, 1, 0, 1⟩,
  ⟨.hbHostAddr, 0xc020, 0x0, 1, 0, 1⟩,
  ⟨.stewardHb, 0xc028, 0x0, 1, 0, 1⟩,
  ⟨.ladleHb, 0xc030, 0x0, 1, 0, 1⟩,
  ⟨.pkettleCtl, 0xc100, 0x20, 5, 0, 1⟩,
  ⟨.pkettleKey, 0xc104, 0x20, 5, 0, 1⟩,
  ⟨.pkettleWindow, 0xc108, 0x20, 5, 0, 1⟩,
  ⟨.pkettleStatus, 0xc110, 0x20, 5, 0, 1⟩,
  ⟨.pkettleKick, 0xc114, 0x20, 5, 0, 1⟩]

/-- Part of the address map (Tables 24.1 to 24.10). -/
def regMap2 : List MapEntry := [
  ⟨.pkettleEvidence, 0xc118, 0x20, 5, 0, 1⟩,
  ⟨.pkettleLastKick, 0xc200, 0x8, 5, 0, 1⟩,
  ⟨.domainGen, 0xc400, 0x4, 309, 0, 1⟩,
  ⟨.fwCmd, 0xd000, 0x0, 1, 0, 1⟩,
  ⟨.fwSrcAddr, 0xd008, 0x0, 1, 0, 1⟩,
  ⟨.fwSrcLen, 0xd010, 0x0, 1, 0, 1⟩,
  ⟨.fwStatus, 0xd018, 0x0, 1, 0, 1⟩,
  ⟨.fwVersion, 0xd020, 0x8, 5, 0, 1⟩,
  ⟨.fwEvents, 0xd050, 0x8, 5, 0, 1⟩,
  ⟨.fuseId, 0xe000, 0x0, 1, 0, 1⟩,
  ⟨.fusePart, 0xe008, 0x0, 1, 0, 1⟩,
  ⟨.fuseState, 0xe010, 0x0, 1, 0, 1⟩,
  ⟨.fuseFloors, 0xe018, 0x0, 1, 0, 1⟩,
  ⟨.fuseNonce, 0xe020, 0x0, 1, 0, 1⟩,
  ⟨.fuseReqAddr, 0xe028, 0x0, 1, 0, 1⟩,
  ⟨.fuseCmd, 0xe030, 0x0, 1, 0, 1⟩,
  ⟨.fuseStatus, 0xe038, 0x0, 1, 0, 1⟩,
  ⟨.fuseKey, 0xe040, 0x8, 24, 0, 1⟩,
  ⟨.bistCmd, 0xe100, 0x0, 1, 0, 1⟩,
  ⟨.testBistStatus, 0xe108, 0x0, 1, 0, 1⟩,
  ⟨.bistArrays, 0xe110, 0x0, 1, 0, 1⟩,
  ⟨.testStatus, 0xe118, 0x0, 1, 0, 1⟩,
  ⟨.debugCtl, 0xe120, 0x0, 1, 0, 1⟩,
  ⟨.pcieStatus, 0x10000, 0x0, 1, 0, 1⟩,
  ⟨.pcieCounts, 0x10008, 0x0, 1, 0, 1⟩,
  ⟨.sbCtl, 0x10010, 0x0, 1, 0, 1⟩,
  ⟨.sbStatus, 0x10018, 0x0, 1, 0, 1⟩,
  ⟨.coreParked, 0x10020, 0x8, 5, 0, 1⟩,
  ⟨.msixAddr, 0x11000, 0x10, 128, 0, 1⟩,
  ⟨.msixData, 0x11008, 0x10, 128, 0, 1⟩,
  ⟨.msixVectorCtl, 0x1100c, 0x10, 128, 0, 1⟩,
  ⟨.msixPba, 0x11800, 0x8, 2, 0, 1⟩,
  ⟨.pinStraps, 0x12000, 0x0, 1, 0, 1⟩,
  ⟨.pinLevels, 0x12008, 0x0, 1, 0, 1⟩,
  ⟨.gpioCtl, 0x12010, 0x0, 1, 0, 1⟩,
  ⟨.coreViol, 0x13000, 0x8, 288, 0, 1⟩,
  ⟨.ringViol, 0x13900, 0x8, 64, 0, 1⟩,
  ⟨.portViol, 0x13b00, 0x8, 36, 0, 1⟩,
  ⟨.contextViol, 0x13c80, 0x8, 16, 0, 1⟩,
  ⟨.procViol, 0x13d00, 0x8, 5, 0, 1⟩]

/-- Part of the address map (Tables 24.1 to 24.10). -/
def regMap3 : List MapEntry := [
  ⟨.hostViol, 0x13d80, 0x0, 1, 0, 1⟩,
  ⟨.paceStatus, 0x20000, 0x1000, 5, 0, 1⟩,
  ⟨.stallFirst, 0x20008, 0x1000, 5, 0, 1⟩,
  ⟨.stallCount, 0x20010, 0x1000, 5, 0, 1⟩,
  ⟨.holdCount, 0x20018, 0x1000, 5, 0, 1⟩,
  ⟨.stallLimitNow, 0x20020, 0x1000, 5, 0, 1⟩,
  ⟨.fcActive, 0x28000, 0x1000, 5, 0, 1⟩,
  ⟨.fcActiveTime, 0x28008, 0x1000, 5, 0, 1⟩,
  ⟨.fcActiveDetail, 0x28010, 0x1000, 5, 0, 1⟩,
  ⟨.fcPending, 0x28018, 0x1000, 5, 0, 1⟩,
  ⟨.fcPendingTime, 0x28020, 0x1000, 5, 0, 1⟩,
  ⟨.fcPendingDetail, 0x28028, 0x1000, 5, 0, 1⟩,
  ⟨.fcAck, 0x28030, 0x1000, 5, 0, 1⟩,
  ⟨.fcCounts, 0x28038, 0x1000, 5, 0, 1⟩,
  ⟨.bistStatus, 0x28040, 0x1000, 4, 0, 1⟩,
  ⟨.tureenStatus, 0x30000, 0x1000, 4, 0, 1⟩,
  ⟨.tureenNum, 0x30008, 0x1000, 4, 0, 1⟩,
  ⟨.tureenCounts, 0x30010, 0x1000, 4, 0, 1⟩,
  ⟨.hbmPwrCmd, 0x38000, 0x100, 8, 0, 1⟩,
  ⟨.hbmPwrStatus, 0x38008, 0x100, 8, 0, 1⟩,
  ⟨.portCtl, 0x40000, 0x100, 36, 0, 1⟩,
  ⟨.portCmd, 0x40008, 0x100, 36, 0, 1⟩,
  ⟨.portStatus, 0x40010, 0x100, 36, 0, 1⟩,
  ⟨.portFec, 0x40018, 0x100, 36, 0, 1⟩,
  ⟨.portRetry, 0x40020, 0x100, 36, 0, 1⟩,
  ⟨.portEvents, 0x40028, 0x100, 36, 0, 1⟩,
  ⟨.portReq, 0x40030, 0x100, 36, 0, 1⟩,
  ⟨.l2EccCounts, 0x50000, 0x100, 256, 0, 1⟩,
  ⟨.l2Pressure, 0x50008, 0x100, 256, 0, 1⟩,
  ⟨.l2PinState, 0x50010, 0x100, 256, 0, 1⟩,
  ⟨.l2Fault, 0x50018, 0x100, 256, 0, 1⟩,
  ⟨.hbmStatus, 0x50020, 0x100, 256, 0, 1⟩,
  ⟨.hbmEccCounts, 0x50028, 0x100, 256, 0, 1⟩,
  ⟨.hbmPatrol, 0x50030, 0x100, 256, 0, 1⟩,
  ⟨.hbmEcs, 0x50038, 0x100, 256, 0, 1⟩,
  ⟨.garnetStatus, 0x80000, 0x0, 1, 0, 1⟩,
  ⟨.garnetSeq, 0x80008, 0x0, 1, 0, 1⟩,
  ⟨.garnetFlushed, 0x80010, 0x0, 1, 0, 1⟩,
  ⟨.garnetCounts, 0x80018, 0x0, 1, 0, 1⟩,
  ⟨.fwlogBase, 0x80300, 0x0, 1, 0, 1⟩]

/-- Part of the address map (Tables 24.1 to 24.10). -/
def regMap4 : List MapEntry := [
  ⟨.fwlogHeadAddr, 0x80308, 0x0, 1, 0, 1⟩,
  ⟨.fwlogCtl, 0x80310, 0x0, 1, 0, 1⟩,
  ⟨.fwlogTail, 0x80318, 0x0, 1, 0, 1⟩,
  ⟨.fwlogCounts, 0x80320, 0x0, 1, 0, 1⟩,
  ⟨.traceMask, 0x80328, 0x0, 1, 0, 1⟩,
  ⟨.coreStatus, 0x1000000, 0x2000, 288, 0, 1⟩,
  ⟨.twinCmd, 0x1000008, 0x2000, 288, 0, 1⟩,
  ⟨.twinBootPc, 0x1000010, 0x2000, 288, 0, 1⟩,
  ⟨.twinPc, 0x1000018, 0x2000, 288, 0, 1⟩,
  ⟨.parkInfo, 0x1000020, 0x2000, 288, 0, 1⟩,
  ⟨.lockstepStatus, 0x1000028, 0x2000, 288, 0, 1⟩,
  ⟨.twinCounts, 0x1000030, 0x2000, 288, 0, 1⟩,
  ⟨.kettleCtl, 0x1000038, 0x2000, 288, 0, 1⟩,
  ⟨.kettleKey, 0x100003c, 0x2000, 288, 0, 1⟩,
  ⟨.kettleWindow, 0x1000040, 0x2000, 288, 0, 1⟩,
  ⟨.kettleStatus, 0x1000048, 0x2000, 288, 0, 1⟩,
  ⟨.eventLatch, 0x1000050, 0x2000, 288, 0, 1⟩,
  ⟨.matrixStatus, 0x1000100, 0x2000, 288, 0, 1⟩,
  ⟨.matrixCtl, 0x1000108, 0x2000, 288, 0, 1⟩,
  ⟨.matrixFault, 0x1000110, 0x2000, 288, 0, 1⟩,
  ⟨.arrayOut, 0x1000118, 0x2000, 288, 0, 1⟩,
  ⟨.arrayAvail, 0x1000120, 0x2000, 288, 0, 1⟩,
  ⟨.matrixCounts, 0x1000128, 0x2000, 288, 0, 1⟩,
  ⟨.numFlags, 0x1000200, 0x2000, 288, 0, 1⟩,
  ⟨.numCounts, 0x1000210, 0x2000, 288, 8, 4⟩,
  ⟨.numLast, 0x1000230, 0x2000, 288, 8, 4⟩,
  ⟨.vectorStatus, 0x1000300, 0x2000, 288, 0, 1⟩,
  ⟨.vectorCtl, 0x1000308, 0x2000, 288, 0, 1⟩,
  ⟨.vectorFault, 0x1000310, 0x2000, 288, 0, 1⟩,
  ⟨.vectorCounts, 0x1000318, 0x2000, 288, 0, 1⟩,
  ⟨.arrWatch, 0x1000400, 0x2000, 288, 0, 1⟩,
  ⟨.bankWaits, 0x1000408, 0x2000, 288, 0, 1⟩,
  ⟨.moverStatus, 0x1000410, 0x2000, 288, 0, 1⟩,
  ⟨.moverCtl, 0x1000418, 0x2000, 288, 0, 1⟩,
  ⟨.moverFault, 0x1000420, 0x2000, 288, 0, 1⟩,
  ⟨.moverFaultAddr, 0x1000428, 0x2000, 288, 0, 1⟩,
  ⟨.moverCounts, 0x1000430, 0x2000, 288, 0, 1⟩,
  ⟨.pourStatus, 0x1000500, 0x2000, 288, 0, 1⟩,
  ⟨.pourCtl, 0x1000508, 0x2000, 288, 0, 1⟩,
  ⟨.pourFault, 0x1000510, 0x2000, 288, 0, 1⟩]

/-- Part of the address map (Tables 24.1 to 24.10). -/
def regMap5 : List MapEntry := [
  ⟨.pourCounts, 0x1000518, 0x2000, 288, 0, 1⟩,
  ⟨.pourPort, 0x1000520, 0x2000, 288, 8, 4⟩,
  ⟨.tdbgCmd, 0x1000600, 0x2000, 288, 0, 1⟩,
  ⟨.tdbgStatus, 0x1000608, 0x2000, 288, 0, 1⟩,
  ⟨.tdbgSel, 0x1000610, 0x2000, 288, 0, 1⟩,
  ⟨.tdbgData, 0x1000618, 0x2000, 288, 0, 1⟩,
  ⟨.tdbgBreak, 0x1000620, 0x2000, 288, 0, 1⟩,
  ⟨.tdbgPc, 0x1000628, 0x2000, 288, 0, 1⟩,
  ⟨.whiskStatus, 0x1000800, 0x2000, 288, 0, 1⟩,
  ⟨.whiskCtl, 0x1000808, 0x2000, 288, 0, 1⟩,
  ⟨.whiskFault, 0x1000810, 0x2000, 288, 0, 1⟩,
  ⟨.whiskCounts, 0x1000818, 0x2000, 288, 0, 1⟩,
  ⟨.parkMask, 0x1000820, 0x2000, 288, 0, 1⟩,
  ⟨.groupCmd, 0x1000828, 0x2000, 288, 0, 1⟩,
  ⟨.dbgSel, 0x1000830, 0x2000, 288, 0, 1⟩,
  ⟨.dbgData, 0x1000838, 0x2000, 288, 0, 1⟩,
  ⟨.groupInfo, 0x1000900, 0x2000, 288, 8, 48⟩,
  ⟨.groupPc, 0x1000a80, 0x2000, 288, 8, 48⟩]

/-- Where every register lies in BAR 0 (R844, R845, Tables 24.1 to 24.10). -/
def regMap : List MapEntry := regMap0 ++ regMap1 ++ regMap2 ++ regMap3 ++ regMap4 ++ regMap5

/-- A field named: its register and its bits. -/
structure FieldRef where
  reg : RegName
  hi : Nat
  lo : Nat
  deriving DecidableEq, Repr

namespace Fd

abbrev idSignature_SIGNATURE : FieldRef := ⟨.idSignature, 31, 0⟩
abbrev idPart_MAP_MAJOR : FieldRef := ⟨.idPart, 63, 56⟩
abbrev idPart_MAP_MINOR : FieldRef := ⟨.idPart, 55, 48⟩
abbrev idPart_CORES_PRESENT : FieldRef := ⟨.idPart, 47, 32⟩
abbrev idPart_STEPPING : FieldRef := ⟨.idPart, 31, 16⟩
abbrev idPart_ORDER_CODE : FieldRef := ⟨.idPart, 15, 0⟩
abbrev aonStatus_DEVICE_IN_RESET : FieldRef := ⟨.aonStatus, 16, 16⟩
abbrev aonStatus_LAST_CAUSE : FieldRef := ⟨.aonStatus, 15, 12⟩
abbrev aonStatus_STAGE : FieldRef := ⟨.aonStatus, 10, 8⟩
abbrev aonStatus_IDENTITY_FAULT : FieldRef := ⟨.aonStatus, 4, 4⟩
abbrev aonStatus_SCAN_OPEN : FieldRef := ⟨.aonStatus, 3, 3⟩
abbrev aonStatus_LOG_LOST : FieldRef := ⟨.aonStatus, 2, 2⟩
abbrev aonStatus_REF_OK : FieldRef := ⟨.aonStatus, 1, 1⟩
abbrev aonStatus_AON_ALIVE : FieldRef := ⟨.aonStatus, 0, 0⟩
abbrev unitsSummary_ARRAYS_OUT : FieldRef := ⟨.unitsSummary, 63, 48⟩
abbrev unitsSummary_LANES_OUT : FieldRef := ⟨.unitsSummary, 47, 32⟩
abbrev unitsSummary_CHANNELS_OUT : FieldRef := ⟨.unitsSummary, 31, 16⟩
abbrev unitsSummary_CORES_OUT : FieldRef := ⟨.unitsSummary, 15, 0⟩
abbrev presentCores_MAP : FieldRef := ⟨.presentCores, 63, 0⟩
abbrev coresOut_MAP : FieldRef := ⟨.coresOut, 63, 0⟩
abbrev channelsOut_MAP : FieldRef := ⟨.channelsOut, 63, 0⟩
abbrev lanesOut_MAP : FieldRef := ⟨.lanesOut, 63, 0⟩
abbrev imageCmd_SOURCE : FieldRef := ⟨.imageCmd, 8, 8⟩
abbrev imageCmd_OP : FieldRef := ⟨.imageCmd, 3, 0⟩
abbrev imageSrcAddr_ADDR : FieldRef := ⟨.imageSrcAddr, 63, 6⟩
abbrev imageSrcLen_LEN : FieldRef := ⟨.imageSrcLen, 31, 0⟩
abbrev imageStatus_DONE : FieldRef := ⟨.imageStatus, 63, 63⟩
abbrev imageStatus_BYTE_OFFSET : FieldRef := ⟨.imageStatus, 55, 32⟩
abbrev imageStatus_SECTION_INDEX : FieldRef := ⟨.imageStatus, 31, 24⟩
abbrev imageStatus_REASON : FieldRef := ⟨.imageStatus, 23, 16⟩
abbrev imageStatus_GUARANTEE_OFF : FieldRef := ⟨.imageStatus, 4, 4⟩
abbrev imageStatus_STATE : FieldRef := ⟨.imageStatus, 3, 0⟩
abbrev imageSerialNow_SERIAL : FieldRef := ⟨.imageSerialNow, 31, 0⟩
abbrev loadCount_COUNT : FieldRef := ⟨.loadCount, 31, 0⟩
abbrev rejectCount_COUNT : FieldRef := ⟨.rejectCount, 31, 0⟩
abbrev imageDigest_DIGEST : FieldRef := ⟨.imageDigest, 63, 0⟩
abbrev groupValue_VALUE : FieldRef := ⟨.groupValue, 63, 0⟩
abbrev foldStatus_FOLD_SERIAL : FieldRef := ⟨.foldStatus, 63, 32⟩
abbrev foldStatus_BUSY : FieldRef := ⟨.foldStatus, 7, 7⟩
abbrev foldStatus_FENCED : FieldRef := ⟨.foldStatus, 6, 6⟩
abbrev foldStatus_UPDATABLE : FieldRef := ⟨.foldStatus, 5, 5⟩
abbrev foldStatus_IMAGE_STATE : FieldRef := ⟨.foldStatus, 3, 0⟩
abbrev ctxMapAddr_ADDR : FieldRef := ⟨.ctxMapAddr, 63, 12⟩
abbrev ctxMapCtl_ENABLE : FieldRef := ⟨.ctxMapCtl, 31, 31⟩
abbrev ctxMapCtl_REASON : FieldRef := ⟨.ctxMapCtl, 29, 28⟩
abbrev ctxMapCtl_OWNER_FOLD : FieldRef := ⟨.ctxMapCtl, 27, 24⟩
abbrev ctxMapCtl_OWNED : FieldRef := ⟨.ctxMapCtl, 23, 23⟩
abbrev ctxMapCtl_INVAL_BUSY : FieldRef := ⟨.ctxMapCtl, 22, 22⟩
abbrev ctxMapCtl_PAGES : FieldRef := ⟨.ctxMapCtl, 21, 0⟩
abbrev ctxMapInval_ALL : FieldRef := ⟨.ctxMapInval, 31, 31⟩
abbrev ctxMapInval_PAGE : FieldRef := ⟨.ctxMapInval, 20, 0⟩
abbrev ctxMiss_VALID : FieldRef := ⟨.ctxMiss, 63, 63⟩
abbrev ctxMiss_KIND : FieldRef := ⟨.ctxMiss, 62, 61⟩
abbrev ctxMiss_SOURCE : FieldRef := ⟨.ctxMiss, 40, 32⟩
abbrev ctxMiss_PAGE : FieldRef := ⟨.ctxMiss, 20, 0⟩
abbrev ctxMissCount_COUNT : FieldRef := ⟨.ctxMissCount, 31, 0⟩
abbrev pinBase_ADDR : FieldRef := ⟨.pinBase, 47, 0⟩
abbrev pinLen_LEN : FieldRef := ⟨.pinLen, 63, 0⟩
abbrev pinCmd_OP : FieldRef := ⟨.pinCmd, 1, 0⟩
abbrev pinStatus_DONE : FieldRef := ⟨.pinStatus, 63, 63⟩
abbrev pinStatus_BUSY : FieldRef := ⟨.pinStatus, 62, 62⟩
abbrev pinStatus_RESULT : FieldRef := ⟨.pinStatus, 61, 59⟩
abbrev pinStatus_LINES_REFUSED : FieldRef := ⟨.pinStatus, 31, 0⟩
abbrev pinBytes_BYTES : FieldRef := ⟨.pinBytes, 63, 0⟩
abbrev ringBase_ADDR : FieldRef := ⟨.ringBase, 63, 12⟩
abbrev ringCplBase_ADDR : FieldRef := ⟨.ringCplBase, 63, 12⟩
abbrev ringSeqAddr_ADDR : FieldRef := ⟨.ringSeqAddr, 63, 3⟩
abbrev ringCtl_VECTOR : FieldRef := ⟨.ringCtl, 30, 24⟩
abbrev ringCtl_CONTEXT : FieldRef := ⟨.ringCtl, 23, 20⟩
abbrev ringCtl_SIZE : FieldRef := ⟨.ringCtl, 16, 0⟩
abbrev ringCmd_CMD : FieldRef := ⟨.ringCmd, 2, 0⟩
abbrev ringStatus_HELD : FieldRef := ⟨.ringStatus, 19, 16⟩
abbrev ringStatus_REASON : FieldRef := ⟨.ringStatus, 15, 8⟩
abbrev ringStatus_STATE : FieldRef := ⟨.ringStatus, 3, 0⟩
abbrev ringPtrs_TAIL : FieldRef := ⟨.ringPtrs, 47, 32⟩
abbrev ringPtrs_HEAD : FieldRef := ⟨.ringPtrs, 15, 0⟩
abbrev ringSeq_SEQ : FieldRef := ⟨.ringSeq, 63, 0⟩
abbrev ringNextStart_START : FieldRef := ⟨.ringNextStart, 63, 0⟩
abbrev ringCounts_COMMANDS : FieldRef := ⟨.ringCounts, 63, 32⟩
abbrev ringCounts_LATE_STARTS : FieldRef := ⟨.ringCounts, 31, 16⟩
abbrev ringCounts_SIG_REFUSED_COUNT : FieldRef := ⟨.ringCounts, 15, 0⟩
abbrev ctxHtAddr_ADDR : FieldRef := ⟨.ctxHtAddr, 63, 12⟩
abbrev ctxHtCtl_ENABLE : FieldRef := ⟨.ctxHtCtl, 31, 31⟩
abbrev ctxHtCtl_REASON : FieldRef := ⟨.ctxHtCtl, 30, 29⟩
abbrev ctxHtCtl_INVAL_BUSY : FieldRef := ⟨.ctxHtCtl, 28, 28⟩
abbrev ctxHtCtl_ENTRIES : FieldRef := ⟨.ctxHtCtl, 16, 0⟩
abbrev ctxHtInval_ALL : FieldRef := ⟨.ctxHtInval, 31, 31⟩
abbrev ctxHtInval_INDEX : FieldRef := ⟨.ctxHtInval, 15, 0⟩
abbrev groupStatus_OPEN : FieldRef := ⟨.groupStatus, 35, 32⟩
abbrev groupStatus_MEMBER_INDEX : FieldRef := ⟨.groupStatus, 31, 16⟩
abbrev groupStatus_EPOCH_SKEW : FieldRef := ⟨.groupStatus, 0, 0⟩
abbrev groupEpoch_EPOCH : FieldRef := ⟨.groupEpoch, 31, 0⟩
abbrev protoVersion_MAJOR : FieldRef := ⟨.protoVersion, 15, 8⟩
abbrev protoVersion_MINOR : FieldRef := ⟨.protoVersion, 7, 0⟩
abbrev collSlot_BUSY : FieldRef := ⟨.collSlot, 63, 63⟩
abbrev collSlot_LAST_ABORT : FieldRef := ⟨.collSlot, 62, 59⟩
abbrev collSlot_COLL_ID : FieldRef := ⟨.collSlot, 47, 32⟩
abbrev collSlot_EPOCH : FieldRef := ⟨.collSlot, 31, 0⟩
abbrev agreePort_PEER_MEMBER : FieldRef := ⟨.agreePort, 63, 48⟩
abbrev agreePort_NEG_MINOR : FieldRef := ⟨.agreePort, 47, 40⟩
abbrev agreePort_RESULT : FieldRef := ⟨.agreePort, 39, 36⟩
abbrev agreePort_MISMATCHES : FieldRef := ⟨.agreePort, 31, 16⟩
abbrev agreePort_RECORDS : FieldRef := ⟨.agreePort, 15, 0⟩
abbrev quartzNow_NS : FieldRef := ⟨.quartzNow, 63, 0⟩
abbrev quartzSnap_STATE : FieldRef := ⟨.quartzSnap, 19, 16⟩
abbrev quartzSnap_FRAC : FieldRef := ⟨.quartzSnap, 15, 0⟩
abbrev quartzStatus_TIME_EPOCH : FieldRef := ⟨.quartzStatus, 63, 32⟩
abbrev quartzStatus_LEADER_MEMBER : FieldRef := ⟨.quartzStatus, 31, 16⟩
abbrev quartzStatus_PARENT_PORT : FieldRef := ⟨.quartzStatus, 15, 10⟩
abbrev quartzStatus_REF_OK : FieldRef := ⟨.quartzStatus, 9, 9⟩
abbrev quartzStatus_TIME_LOCKED : FieldRef := ⟨.quartzStatus, 8, 8⟩
abbrev quartzStatus_CMD_REASON : FieldRef := ⟨.quartzStatus, 7, 4⟩
abbrev quartzStatus_STATE : FieldRef := ⟨.quartzStatus, 3, 0⟩
abbrev quartzLeaderId_ID : FieldRef := ⟨.quartzLeaderId, 63, 0⟩
abbrev quartzServo_OFFSET_NS : FieldRef := ⟨.quartzServo, 63, 32⟩
abbrev quartzServo_HOPS : FieldRef := ⟨.quartzServo, 31, 24⟩
abbrev quartzServo_RATE_PPB : FieldRef := ⟨.quartzServo, 23, 0⟩
abbrev quartzCmd_CMD : FieldRef := ⟨.quartzCmd, 1, 0⟩
abbrev quartzStepTo_NS : FieldRef := ⟨.quartzStepTo, 63, 0⟩
abbrev quartzCounts_UNLOCKS : FieldRef := ⟨.quartzCounts, 63, 48⟩
abbrev quartzCounts_STEPS : FieldRef := ⟨.quartzCounts, 47, 32⟩
abbrev quartzCounts_REF_LOSSES : FieldRef := ⟨.quartzCounts, 31, 16⟩
abbrev quartzCounts_COUNTER_FIXES : FieldRef := ⟨.quartzCounts, 15, 0⟩
abbrev ptmStatus_PROP_DELAY_NS : FieldRef := ⟨.ptmStatus, 31, 16⟩
abbrev ptmStatus_SEQ : FieldRef := ⟨.ptmStatus, 15, 0⟩
abbrev ptmT1_NS : FieldRef := ⟨.ptmT1, 63, 0⟩
abbrev ptmT4_NS : FieldRef := ⟨.ptmT4, 63, 0⟩
abbrev ptmMaster_NS : FieldRef := ⟨.ptmMaster, 63, 0⟩
abbrev powerCmd_ID : FieldRef := ⟨.powerCmd, 47, 32⟩
abbrev powerCmd_ARG : FieldRef := ⟨.powerCmd, 23, 16⟩
abbrev powerCmd_ACTION : FieldRef := ⟨.powerCmd, 15, 8⟩
abbrev powerCmd_DKIND : FieldRef := ⟨.powerCmd, 7, 0⟩
abbrev powerStatus_DONE : FieldRef := ⟨.powerStatus, 63, 63⟩
abbrev powerStatus_BUSY : FieldRef := ⟨.powerStatus, 62, 62⟩
abbrev powerStatus_RESULT : FieldRef := ⟨.powerStatus, 55, 48⟩
abbrev railStatus_IOUT_DA : FieldRef := ⟨.railStatus, 47, 32⟩
abbrev railStatus_VOUT_MV : FieldRef := ⟨.railStatus, 31, 16⟩
abbrev railStatus_OUTSIDE_LIMITS : FieldRef := ⟨.railStatus, 6, 6⟩
abbrev railStatus_FAULT : FieldRef := ⟨.railStatus, 4, 4⟩
abbrev railStatus_OP_NOW : FieldRef := ⟨.railStatus, 2, 0⟩
abbrev railEnergy_ENERGY_UJ : FieldRef := ⟨.railEnergy, 63, 0⟩
abbrev thermal_TRIP : FieldRef := ⟨.thermal, 31, 31⟩
abbrev thermal_WARN : FieldRef := ⟨.thermal, 30, 30⟩
abbrev thermal_TJ_MAX_C : FieldRef := ⟨.thermal, 15, 8⟩
abbrev thermal_TJ_AT_TRIP_C : FieldRef := ⟨.thermal, 7, 0⟩
abbrev thermCtl_WARN_C : FieldRef := ⟨.thermCtl, 6, 0⟩
abbrev corePwr_RESET_PENDING : FieldRef := ⟨.corePwr, 3, 3⟩
abbrev corePwr_FENCED : FieldRef := ⟨.corePwr, 2, 2⟩
abbrev corePwr_STATE : FieldRef := ⟨.corePwr, 1, 0⟩
abbrev portPwr_FENCED : FieldRef := ⟨.portPwr, 3, 3⟩
abbrev portPwr_HOST_STATE : FieldRef := ⟨.portPwr, 2, 0⟩
abbrev faultSummary_OVERFLOW : FieldRef := ⟨.faultSummary, 7, 7⟩
abbrev faultSummary_RESPONSE_TAKEN : FieldRef := ⟨.faultSummary, 6, 6⟩
abbrev faultSummary_DIES : FieldRef := ⟨.faultSummary, 4, 0⟩
abbrev faultClassCount_COUNT : FieldRef := ⟨.faultClassCount, 31, 0⟩
abbrev resetCmd_ID : FieldRef := ⟨.resetCmd, 47, 32⟩
abbrev resetCmd_DKIND : FieldRef := ⟨.resetCmd, 7, 0⟩
abbrev resetStatus_DONE : FieldRef := ⟨.resetStatus, 63, 63⟩
abbrev resetStatus_BUSY : FieldRef := ⟨.resetStatus, 62, 62⟩
abbrev resetStatus_RESULT : FieldRef := ⟨.resetStatus, 55, 48⟩
abbrev bootStatus_LAST_CAUSE : FieldRef := ⟨.bootStatus, 11, 8⟩
abbrev bootStatus_STAGE : FieldRef := ⟨.bootStatus, 2, 0⟩
abbrev resetCounts_DEVICE_RESETS : FieldRef := ⟨.resetCounts, 63, 32⟩
abbrev resetCounts_PROCESSOR_RESETS : FieldRef := ⟨.resetCounts, 31, 0⟩
abbrev hbHostAddr_ADDR : FieldRef := ⟨.hbHostAddr, 63, 3⟩
abbrev hbHostAddr_ENABLE : FieldRef := ⟨.hbHostAddr, 0, 0⟩
abbrev stewardHb_COUNT : FieldRef := ⟨.stewardHb, 63, 16⟩
abbrev stewardHb_LADLES_ALIVE : FieldRef := ⟨.stewardHb, 7, 4⟩
abbrev stewardHb_STAGE : FieldRef := ⟨.stewardHb, 3, 0⟩
abbrev ladleHb_COUNTS : FieldRef := ⟨.ladleHb, 63, 0⟩
abbrev pkettleCtl_LOCK : FieldRef := ⟨.pkettleCtl, 1, 1⟩
abbrev pkettleCtl_ENABLE : FieldRef := ⟨.pkettleCtl, 0, 0⟩
abbrev pkettleKey_KEY : FieldRef := ⟨.pkettleKey, 31, 0⟩
abbrev pkettleWindow_CLOSE_US : FieldRef := ⟨.pkettleWindow, 55, 32⟩
abbrev pkettleWindow_OPEN_US : FieldRef := ⟨.pkettleWindow, 23, 0⟩
abbrev pkettleStatus_EXPIRIES : FieldRef := ⟨.pkettleStatus, 31, 16⟩
abbrev pkettleStatus_EXPIRED_KIND : FieldRef := ⟨.pkettleStatus, 7, 6⟩
abbrev pkettleStatus_EXPIRED : FieldRef := ⟨.pkettleStatus, 5, 5⟩
abbrev pkettleStatus_REASON : FieldRef := ⟨.pkettleStatus, 1, 0⟩
abbrev pkettleKick_KICK : FieldRef := ⟨.pkettleKick, 0, 0⟩
abbrev pkettleEvidence_PC : FieldRef := ⟨.pkettleEvidence, 63, 0⟩
abbrev pkettleLastKick_NS : FieldRef := ⟨.pkettleLastKick, 63, 0⟩
abbrev domainGen_LATE_REPLIES : FieldRef := ⟨.domainGen, 31, 8⟩
abbrev domainGen_GEN : FieldRef := ⟨.domainGen, 7, 0⟩
abbrev fwCmd_MASK : FieldRef := ⟨.fwCmd, 12, 8⟩
abbrev fwCmd_OP : FieldRef := ⟨.fwCmd, 3, 0⟩
abbrev fwSrcAddr_ADDR : FieldRef := ⟨.fwSrcAddr, 63, 6⟩
abbrev fwSrcLen_LEN : FieldRef := ⟨.fwSrcLen, 31, 0⟩
abbrev fwStatus_DONE : FieldRef := ⟨.fwStatus, 63, 63⟩
abbrev fwStatus_REASON : FieldRef := ⟨.fwStatus, 55, 48⟩
abbrev fwStatus_HANDOVER : FieldRef := ⟨.fwStatus, 44, 40⟩
abbrev fwStatus_UPDATED : FieldRef := ⟨.fwStatus, 36, 32⟩
abbrev fwStatus_FLASH_SLOT : FieldRef := ⟨.fwStatus, 8, 8⟩
abbrev fwStatus_STATE : FieldRef := ⟨.fwStatus, 3, 0⟩
abbrev fwVersion_FW_SERIAL : FieldRef := ⟨.fwVersion, 63, 32⟩
abbrev fwVersion_STATE_VERSION : FieldRef := ⟨.fwVersion, 31, 16⟩
abbrev fwVersion_PROTO_MAJOR : FieldRef := ⟨.fwVersion, 15, 8⟩
abbrev fwVersion_PROTO_MINOR : FieldRef := ⟨.fwVersion, 7, 0⟩
abbrev fwEvents_EVENTS : FieldRef := ⟨.fwEvents, 63, 0⟩
abbrev fuseId_DEVICE_ID : FieldRef := ⟨.fuseId, 63, 0⟩
abbrev fusePart_STEPPING : FieldRef := ⟨.fusePart, 31, 16⟩
abbrev fusePart_ORDER_CODE : FieldRef := ⟨.fusePart, 15, 0⟩
abbrev fuseState_IDENTITY_FAULT : FieldRef := ⟨.fuseState, 16, 16⟩
abbrev fuseState_SCAN_SESSIONS : FieldRef := ⟨.fuseState, 15, 12⟩
abbrev fuseState_TEST_LOCK : FieldRef := ⟨.fuseState, 9, 8⟩
abbrev fuseState_SLOTS : FieldRef := ⟨.fuseState, 7, 0⟩
abbrev fuseFloors_FW_FLOOR : FieldRef := ⟨.fuseFloors, 63, 32⟩
abbrev fuseFloors_IMAGE_FLOOR : FieldRef := ⟨.fuseFloors, 31, 0⟩
abbrev fuseNonce_NONCE : FieldRef := ⟨.fuseNonce, 63, 0⟩
abbrev fuseReqAddr_ADDR : FieldRef := ⟨.fuseReqAddr, 63, 6⟩
abbrev fuseCmd_GO : FieldRef := ⟨.fuseCmd, 0, 0⟩
abbrev fuseStatus_DONE : FieldRef := ⟨.fuseStatus, 31, 31⟩
abbrev fuseStatus_BUSY : FieldRef := ⟨.fuseStatus, 30, 30⟩
abbrev fuseStatus_COPY_FIXES : FieldRef := ⟨.fuseStatus, 23, 16⟩
abbrev fuseStatus_REASON : FieldRef := ⟨.fuseStatus, 7, 0⟩
abbrev fuseKey_HASH : FieldRef := ⟨.fuseKey, 63, 0⟩
abbrev bistCmd_ID : FieldRef := ⟨.bistCmd, 31, 16⟩
abbrev bistCmd_MODE : FieldRef := ⟨.bistCmd, 1, 0⟩
abbrev testBistStatus_DONE : FieldRef := ⟨.testBistStatus, 63, 63⟩
abbrev testBistStatus_BUSY : FieldRef := ⟨.testBistStatus, 62, 62⟩
abbrev testBistStatus_RESULT : FieldRef := ⟨.testBistStatus, 57, 56⟩
abbrev testBistStatus_CHANNELS : FieldRef := ⟨.testBistStatus, 47, 16⟩
abbrev testBistStatus_FAILED : FieldRef := ⟨.testBistStatus, 8, 0⟩
abbrev bistArrays_ARRAYS : FieldRef := ⟨.bistArrays, 63, 0⟩
abbrev testStatus_BOOT_FAILS : FieldRef := ⟨.testStatus, 15, 8⟩
abbrev testStatus_BOOT_HUB_FAIL : FieldRef := ⟨.testStatus, 5, 5⟩
abbrev testStatus_EXTEST_REFUSED : FieldRef := ⟨.testStatus, 4, 4⟩
abbrev testStatus_CLEAR_FAILED : FieldRef := ⟨.testStatus, 2, 2⟩
abbrev testStatus_SECRETS_CLEARED : FieldRef := ⟨.testStatus, 1, 1⟩
abbrev testStatus_SCAN_OPEN : FieldRef := ⟨.testStatus, 0, 0⟩
abbrev debugCtl_DEBUG_LOCK : FieldRef := ⟨.debugCtl, 31, 31⟩
abbrev debugCtl_PORT_LEVEL : FieldRef := ⟨.debugCtl, 17, 16⟩
abbrev debugCtl_CONTROL_FOLDS : FieldRef := ⟨.debugCtl, 15, 0⟩
abbrev pcieStatus_WIDTH : FieldRef := ⟨.pcieStatus, 20, 16⟩
abbrev pcieStatus_SPEED : FieldRef := ⟨.pcieStatus, 15, 12⟩
abbrev pcieStatus_FLIT : FieldRef := ⟨.pcieStatus, 11, 11⟩
abbrev pcieStatus_BME : FieldRef := ⟨.pcieStatus, 10, 10⟩
abbrev pcieStatus_D3HOT : FieldRef := ⟨.pcieStatus, 9, 9⟩
abbrev pcieStatus_LINK_UP : FieldRef := ⟨.pcieStatus, 0, 0⟩
abbrev pcieCounts_CPL_TIMEOUTS : FieldRef := ⟨.pcieCounts, 63, 48⟩
abbrev pcieCounts_POISON_RX : FieldRef := ⟨.pcieCounts, 47, 32⟩
abbrev pcieCounts_FENCED_HOST : FieldRef := ⟨.pcieCounts, 31, 16⟩
abbrev pcieCounts_WRITES_LOST : FieldRef := ⟨.pcieCounts, 15, 0⟩
abbrev sbCtl_WINDOW_WRITE : FieldRef := ⟨.sbCtl, 1, 1⟩
abbrev sbCtl_MCTP_ENABLE : FieldRef := ⟨.sbCtl, 0, 0⟩
abbrev sbStatus_PEC_ERRORS : FieldRef := ⟨.sbStatus, 63, 48⟩
abbrev sbStatus_REFUSED : FieldRef := ⟨.sbStatus, 47, 32⟩
abbrev sbStatus_ADDRESS : FieldRef := ⟨.sbStatus, 14, 8⟩
abbrev sbStatus_EID : FieldRef := ⟨.sbStatus, 7, 0⟩
abbrev coreParked_PARKED : FieldRef := ⟨.coreParked, 63, 0⟩
abbrev msixAddr_ADDR : FieldRef := ⟨.msixAddr, 63, 2⟩
abbrev msixData_DATA : FieldRef := ⟨.msixData, 31, 0⟩
abbrev msixVectorCtl_MASK : FieldRef := ⟨.msixVectorCtl, 0, 0⟩
abbrev msixPba_PENDING : FieldRef := ⟨.msixPba, 63, 0⟩
abbrev pinStraps_BOOT_SEL : FieldRef := ⟨.pinStraps, 9, 8⟩
abbrev pinStraps_ADDR_STRAP : FieldRef := ⟨.pinStraps, 1, 0⟩
abbrev pinLevels_GPIO_IN : FieldRef := ⟨.pinLevels, 23, 16⟩
abbrev pinLevels_THERM_LOW : FieldRef := ⟨.pinLevels, 4, 4⟩
abbrev pinLevels_ALERT_LOW : FieldRef := ⟨.pinLevels, 3, 3⟩
abbrev pinLevels_FAULT_LOW : FieldRef := ⟨.pinLevels, 2, 2⟩
abbrev pinLevels_PERST_N : FieldRef := ⟨.pinLevels, 1, 1⟩
abbrev pinLevels_PWR_OK : FieldRef := ⟨.pinLevels, 0, 0⟩
abbrev gpioCtl_DIR : FieldRef := ⟨.gpioCtl, 15, 8⟩
abbrev gpioCtl_OUT : FieldRef := ⟨.gpioCtl, 7, 0⟩
abbrev coreViol_COUNT : FieldRef := ⟨.coreViol, 31, 0⟩
abbrev ringViol_COUNT : FieldRef := ⟨.ringViol, 31, 0⟩
abbrev portViol_COUNT : FieldRef := ⟨.portViol, 31, 0⟩
abbrev contextViol_COUNT : FieldRef := ⟨.contextViol, 31, 0⟩
abbrev procViol_COUNT : FieldRef := ⟨.procViol, 31, 0⟩
abbrev hostViol_COUNT : FieldRef := ⟨.hostViol, 31, 0⟩
abbrev paceStatus_SLEWING : FieldRef := ⟨.paceStatus, 23, 23⟩
abbrev paceStatus_OP_TARGET : FieldRef := ⟨.paceStatus, 22, 20⟩
abbrev paceStatus_OP_NOW : FieldRef := ⟨.paceStatus, 19, 17⟩
abbrev paceStatus_BEATS_PER_US : FieldRef := ⟨.paceStatus, 15, 0⟩
abbrev stallFirst_VALID : FieldRef := ⟨.stallFirst, 63, 63⟩
abbrev stallFirst_CHANNEL_ID : FieldRef := ⟨.stallFirst, 47, 32⟩
abbrev stallFirst_DETECT_TIME : FieldRef := ⟨.stallFirst, 31, 0⟩
abbrev stallCount_COUNT : FieldRef := ⟨.stallCount, 31, 0⟩
abbrev holdCount_COUNT : FieldRef := ⟨.holdCount, 31, 0⟩
abbrev stallLimitNow_LIMIT_US : FieldRef := ⟨.stallLimitNow, 6, 0⟩
abbrev fcActive_VALID : FieldRef := ⟨.fcActive, 63, 63⟩
abbrev fcActive_MIXED : FieldRef := ⟨.fcActive, 62, 62⟩
abbrev fcActive_REPRESENTED : FieldRef := ⟨.fcActive, 61, 61⟩
abbrev fcActive_CLASS : FieldRef := ⟨.fcActive, 55, 48⟩
abbrev fcActive_DOMAIN_KIND : FieldRef := ⟨.fcActive, 47, 44⟩
abbrev fcActive_DOMAIN_INDEX : FieldRef := ⟨.fcActive, 43, 32⟩
abbrev fcActive_COUNT : FieldRef := ⟨.fcActive, 31, 16⟩
abbrev fcActive_RESPONSES : FieldRef := ⟨.fcActive, 12, 8⟩
abbrev fcActiveTime_NS : FieldRef := ⟨.fcActiveTime, 63, 0⟩
abbrev fcActiveDetail_DETAIL : FieldRef := ⟨.fcActiveDetail, 63, 0⟩
abbrev fcPending_VALID : FieldRef := ⟨.fcPending, 63, 63⟩
abbrev fcPending_MIXED : FieldRef := ⟨.fcPending, 62, 62⟩
abbrev fcPending_REPRESENTED : FieldRef := ⟨.fcPending, 61, 61⟩
abbrev fcPending_CLASS : FieldRef := ⟨.fcPending, 55, 48⟩
abbrev fcPending_DOMAIN_KIND : FieldRef := ⟨.fcPending, 47, 44⟩
abbrev fcPending_DOMAIN_INDEX : FieldRef := ⟨.fcPending, 43, 32⟩
abbrev fcPending_COUNT : FieldRef := ⟨.fcPending, 31, 16⟩
abbrev fcPending_RESPONSES : FieldRef := ⟨.fcPending, 12, 8⟩
abbrev fcPendingTime_NS : FieldRef := ⟨.fcPendingTime, 63, 0⟩
abbrev fcPendingDetail_DETAIL : FieldRef := ⟨.fcPendingDetail, 63, 0⟩
abbrev fcAck_ACK : FieldRef := ⟨.fcAck, 0, 0⟩
abbrev fcCounts_OVERFLOW : FieldRef := ⟨.fcCounts, 63, 32⟩
abbrev fcCounts_DETECTIONS : FieldRef := ⟨.fcCounts, 31, 0⟩
abbrev bistStatus_TESTS_DONE : FieldRef := ⟨.bistStatus, 63, 32⟩
abbrev bistStatus_FAILURES : FieldRef := ⟨.bistStatus, 31, 16⟩
abbrev bistStatus_LAST_CORE : FieldRef := ⟨.bistStatus, 12, 6⟩
abbrev bistStatus_LAST_ARRAY : FieldRef := ⟨.bistStatus, 5, 0⟩
abbrev tureenStatus_SEGS_DONE : FieldRef := ⟨.tureenStatus, 63, 32⟩
abbrev tureenStatus_FLAGS : FieldRef := ⟨.tureenStatus, 6, 0⟩
abbrev tureenNum_LAST_SAT : FieldRef := ⟨.tureenNum, 63, 32⟩
abbrev tureenNum_LAST_FLUSH : FieldRef := ⟨.tureenNum, 31, 0⟩
abbrev tureenCounts_RESIDUE_COUNT : FieldRef := ⟨.tureenCounts, 63, 48⟩
abbrev tureenCounts_DROPS : FieldRef := ⟨.tureenCounts, 47, 32⟩
abbrev tureenCounts_ABORTS : FieldRef := ⟨.tureenCounts, 31, 0⟩
abbrev hbmPwrCmd_CMD : FieldRef := ⟨.hbmPwrCmd, 1, 0⟩
abbrev hbmPwrStatus_DONE : FieldRef := ⟨.hbmPwrStatus, 31, 31⟩
abbrev hbmPwrStatus_RESULT : FieldRef := ⟨.hbmPwrStatus, 3, 2⟩
abbrev hbmPwrStatus_STATE : FieldRef := ⟨.hbmPwrStatus, 1, 0⟩
abbrev portCtl_SPEED_SEL : FieldRef := ⟨.portCtl, 1, 0⟩
abbrev portCmd_CMD : FieldRef := ⟨.portCmd, 1, 0⟩
abbrev portStatus_GEN : FieldRef := ⟨.portStatus, 39, 32⟩
abbrev portStatus_LANES_FAILED : FieldRef := ⟨.portStatus, 31, 28⟩
abbrev portStatus_PEER_RX_GOOD : FieldRef := ⟨.portStatus, 27, 24⟩
abbrev portStatus_RX_LANE_MAP : FieldRef := ⟨.portStatus, 23, 20⟩
abbrev portStatus_TX_LANE_MAP : FieldRef := ⟨.portStatus, 19, 16⟩
abbrev portStatus_IN_USE : FieldRef := ⟨.portStatus, 8, 8⟩
abbrev portStatus_SPEED : FieldRef := ⟨.portStatus, 7, 6⟩
abbrev portStatus_STATE : FieldRef := ⟨.portStatus, 2, 0⟩
abbrev portFec_CORRECTED : FieldRef := ⟨.portFec, 63, 32⟩
abbrev portFec_UNCORRECTABLE : FieldRef := ⟨.portFec, 31, 0⟩
abbrev portRetry_CRC_ERRORS : FieldRef := ⟨.portRetry, 63, 32⟩
abbrev portRetry_REPLAYS : FieldRef := ⟨.portRetry, 31, 0⟩
abbrev portEvents_RETRAINS : FieldRef := ⟨.portEvents, 63, 48⟩
abbrev portEvents_DEGRADES : FieldRef := ⟨.portEvents, 47, 32⟩
abbrev portEvents_PROTO_ERRORS : FieldRef := ⟨.portEvents, 31, 16⟩
abbrev portEvents_TIMEOUTS : FieldRef := ⟨.portEvents, 15, 0⟩
abbrev portReq_LATE_DROPS : FieldRef := ⟨.portReq, 63, 32⟩
abbrev portReq_OUTSTANDING : FieldRef := ⟨.portReq, 10, 0⟩
abbrev l2EccCounts_CORRECTED : FieldRef := ⟨.l2EccCounts, 63, 32⟩
abbrev l2EccCounts_UNCORRECTABLE : FieldRef := ⟨.l2EccCounts, 31, 0⟩
abbrev l2Pressure_EVICTIONS : FieldRef := ⟨.l2Pressure, 63, 32⟩
abbrev l2Pressure_PINNED_SET_EVICTIONS : FieldRef := ⟨.l2Pressure, 31, 0⟩
abbrev l2PinState_PIN_REFUSED : FieldRef := ⟨.l2PinState, 47, 32⟩
abbrev l2PinState_PINNED_LINES : FieldRef := ⟨.l2PinState, 11, 0⟩
abbrev l2Fault_VALID : FieldRef := ⟨.l2Fault, 63, 63⟩
abbrev l2Fault_KIND : FieldRef := ⟨.l2Fault, 62, 60⟩
abbrev l2Fault_ADDR : FieldRef := ⟨.l2Fault, 47, 6⟩
abbrev hbmStatus_STACK_TEMP : FieldRef := ⟨.hbmStatus, 15, 8⟩
abbrev hbmStatus_REFRESH_2X : FieldRef := ⟨.hbmStatus, 4, 4⟩
abbrev hbmStatus_STATE : FieldRef := ⟨.hbmStatus, 3, 0⟩
abbrev hbmEccCounts_SYMBOL_CORRECTED : FieldRef := ⟨.hbmEccCounts, 63, 32⟩
abbrev hbmEccCounts_UNCORRECTABLE : FieldRef := ⟨.hbmEccCounts, 31, 16⟩
abbrev hbmEccCounts_RETRIED : FieldRef := ⟨.hbmEccCounts, 15, 0⟩
abbrev hbmPatrol_PASSES : FieldRef := ⟨.hbmPatrol, 63, 32⟩
abbrev hbmPatrol_NEXT_LINE : FieldRef := ⟨.hbmPatrol, 24, 0⟩
abbrev hbmEcs_SEV_COUNT : FieldRef := ⟨.hbmEcs, 31, 16⟩
abbrev hbmEcs_ECS_COUNT : FieldRef := ⟨.hbmEcs, 15, 0⟩
abbrev garnetStatus_FLASH_RETIRED : FieldRef := ⟨.garnetStatus, 4, 4⟩
abbrev garnetStatus_LOG_LOST : FieldRef := ⟨.garnetStatus, 3, 3⟩
abbrev garnetStatus_RETIRED : FieldRef := ⟨.garnetStatus, 1, 0⟩
abbrev garnetSeq_SEQ_NEXT : FieldRef := ⟨.garnetSeq, 63, 0⟩
abbrev garnetFlushed_SEQ_NEXT : FieldRef := ⟨.garnetFlushed, 63, 0⟩
abbrev garnetCounts_UNFLUSHED_LOST : FieldRef := ⟨.garnetCounts, 63, 32⟩
abbrev garnetCounts_FLUSH_FAILS : FieldRef := ⟨.garnetCounts, 31, 16⟩
abbrev garnetCounts_CRC_REPAIRS : FieldRef := ⟨.garnetCounts, 15, 0⟩
abbrev fwlogBase_ADDR : FieldRef := ⟨.fwlogBase, 63, 12⟩
abbrev fwlogHeadAddr_ADDR : FieldRef := ⟨.fwlogHeadAddr, 63, 3⟩
abbrev fwlogCtl_ENABLE : FieldRef := ⟨.fwlogCtl, 31, 31⟩
abbrev fwlogCtl_GARNET : FieldRef := ⟨.fwlogCtl, 30, 30⟩
abbrev fwlogCtl_IRQ : FieldRef := ⟨.fwlogCtl, 29, 29⟩
abbrev fwlogCtl_REASON : FieldRef := ⟨.fwlogCtl, 28, 27⟩
abbrev fwlogCtl_SIZE : FieldRef := ⟨.fwlogCtl, 16, 0⟩
abbrev fwlogTail_CONSUMED : FieldRef := ⟨.fwlogTail, 63, 0⟩
abbrev fwlogCounts_WRITTEN : FieldRef := ⟨.fwlogCounts, 63, 32⟩
abbrev fwlogCounts_DROPS : FieldRef := ⟨.fwlogCounts, 31, 0⟩
abbrev traceMask_POINTS : FieldRef := ⟨.traceMask, 7, 0⟩
abbrev coreStatus_ISSUE_LEVEL : FieldRef := ⟨.coreStatus, 47, 8⟩
abbrev coreStatus_PRIV : FieldRef := ⟨.coreStatus, 5, 5⟩
abbrev coreStatus_ENGINES_IDLE : FieldRef := ⟨.coreStatus, 4, 4⟩
abbrev coreStatus_TWIN_STATE : FieldRef := ⟨.coreStatus, 3, 0⟩
abbrev twinCmd_CMD : FieldRef := ⟨.twinCmd, 1, 0⟩
abbrev twinBootPc_PC : FieldRef := ⟨.twinBootPc, 63, 2⟩
abbrev twinPc_PC : FieldRef := ⟨.twinPc, 63, 0⟩
abbrev parkInfo_REASON : FieldRef := ⟨.parkInfo, 7, 0⟩
abbrev lockstepStatus_VALID : FieldRef := ⟨.lockstepStatus, 63, 63⟩
abbrev lockstepStatus_KIND : FieldRef := ⟨.lockstepStatus, 62, 60⟩
abbrev lockstepStatus_DETECT_TIME : FieldRef := ⟨.lockstepStatus, 31, 0⟩
abbrev twinCounts_MISCOMPARE_COUNT : FieldRef := ⟨.twinCounts, 63, 48⟩
abbrev twinCounts_RESCUE_COUNT : FieldRef := ⟨.twinCounts, 47, 32⟩
abbrev twinCounts_CACHE_FIX_COUNT : FieldRef := ⟨.twinCounts, 31, 0⟩
abbrev kettleCtl_LOCK : FieldRef := ⟨.kettleCtl, 1, 1⟩
abbrev kettleCtl_ENABLE : FieldRef := ⟨.kettleCtl, 0, 0⟩
abbrev kettleKey_KEY : FieldRef := ⟨.kettleKey, 31, 0⟩
abbrev kettleWindow_CLOSE_US : FieldRef := ⟨.kettleWindow, 55, 32⟩
abbrev kettleWindow_OPEN_US : FieldRef := ⟨.kettleWindow, 23, 0⟩
abbrev kettleStatus_EXPIRED_KIND : FieldRef := ⟨.kettleStatus, 7, 6⟩
abbrev kettleStatus_EXPIRED : FieldRef := ⟨.kettleStatus, 5, 5⟩
abbrev kettleStatus_REASON : FieldRef := ⟨.kettleStatus, 1, 0⟩
abbrev eventLatch_EVENTS : FieldRef := ⟨.eventLatch, 63, 0⟩
abbrev matrixStatus_ROW_BLOCK : FieldRef := ⟨.matrixStatus, 56, 44⟩
abbrev matrixStatus_ROUND : FieldRef := ⟨.matrixStatus, 43, 32⟩
abbrev matrixStatus_REASON : FieldRef := ⟨.matrixStatus, 31, 16⟩
abbrev matrixStatus_WAIT_DRAIN : FieldRef := ⟨.matrixStatus, 4, 4⟩
abbrev matrixStatus_WAIT_POUR : FieldRef := ⟨.matrixStatus, 3, 3⟩
abbrev matrixStatus_STATE : FieldRef := ⟨.matrixStatus, 2, 0⟩
abbrev matrixCtl_CMD : FieldRef := ⟨.matrixCtl, 1, 0⟩
abbrev matrixFault_VALID : FieldRef := ⟨.matrixFault, 63, 63⟩
abbrev matrixFault_REASON : FieldRef := ⟨.matrixFault, 47, 32⟩
abbrev matrixFault_ARRAY : FieldRef := ⟨.matrixFault, 31, 26⟩
abbrev matrixFault_ROW_BLOCK : FieldRef := ⟨.matrixFault, 25, 13⟩
abbrev matrixFault_COL_BLOCK : FieldRef := ⟨.matrixFault, 12, 0⟩
abbrev arrayOut_OUT : FieldRef := ⟨.arrayOut, 63, 0⟩
abbrev arrayAvail_AVAIL : FieldRef := ⟨.arrayAvail, 63, 0⟩
abbrev matrixCounts_RESIDUE_COUNT : FieldRef := ⟨.matrixCounts, 63, 48⟩
abbrev matrixCounts_WORDS_DONE : FieldRef := ⟨.matrixCounts, 47, 0⟩
abbrev numFlags_POUR_FLAGS : FieldRef := ⟨.numFlags, 30, 24⟩
abbrev numFlags_WHISK_FLAGS : FieldRef := ⟨.numFlags, 22, 16⟩
abbrev numFlags_VECTOR_FLAGS : FieldRef := ⟨.numFlags, 14, 8⟩
abbrev numFlags_MATRIX_FLAGS : FieldRef := ⟨.numFlags, 6, 0⟩
abbrev numCounts_SAT_COUNT : FieldRef := ⟨.numCounts, 63, 32⟩
abbrev numCounts_FLUSH_COUNT : FieldRef := ⟨.numCounts, 31, 0⟩
abbrev numLast_LAST_SAT : FieldRef := ⟨.numLast, 63, 32⟩
abbrev numLast_LAST_FLUSH : FieldRef := ⟨.numLast, 31, 0⟩
abbrev vectorStatus_ROW : FieldRef := ⟨.vectorStatus, 47, 32⟩
abbrev vectorStatus_REASON : FieldRef := ⟨.vectorStatus, 31, 16⟩
abbrev vectorStatus_STATE : FieldRef := ⟨.vectorStatus, 1, 0⟩
abbrev vectorCtl_CMD : FieldRef := ⟨.vectorCtl, 1, 0⟩
abbrev vectorFault_VALID : FieldRef := ⟨.vectorFault, 63, 63⟩
abbrev vectorFault_REASON : FieldRef := ⟨.vectorFault, 47, 32⟩
abbrev vectorFault_ROW : FieldRef := ⟨.vectorFault, 31, 16⟩
abbrev vectorFault_GRANULE : FieldRef := ⟨.vectorFault, 15, 0⟩
abbrev vectorCounts_RESIDUE_COUNT : FieldRef := ⟨.vectorCounts, 63, 48⟩
abbrev vectorCounts_PARITY_COUNT : FieldRef := ⟨.vectorCounts, 47, 32⟩
abbrev vectorCounts_WORDS_DONE : FieldRef := ⟨.vectorCounts, 31, 0⟩
abbrev arrWatch_WATCH : FieldRef := ⟨.arrWatch, 63, 0⟩
abbrev bankWaits_COUNT : FieldRef := ⟨.bankWaits, 63, 0⟩
abbrev moverStatus_OUTSTANDING : FieldRef := ⟨.moverStatus, 47, 40⟩
abbrev moverStatus_REASON : FieldRef := ⟨.moverStatus, 31, 16⟩
abbrev moverStatus_STATE : FieldRef := ⟨.moverStatus, 1, 0⟩
abbrev moverCtl_CMD : FieldRef := ⟨.moverCtl, 1, 0⟩
abbrev moverFault_VALID : FieldRef := ⟨.moverFault, 63, 63⟩
abbrev moverFault_REASON : FieldRef := ⟨.moverFault, 47, 32⟩
abbrev moverFault_PIECES_DONE : FieldRef := ⟨.moverFault, 31, 0⟩
abbrev moverFaultAddr_ADDR : FieldRef := ⟨.moverFaultAddr, 63, 0⟩
abbrev moverCounts_PIECES : FieldRef := ⟨.moverCounts, 63, 32⟩
abbrev moverCounts_WORDS_DONE : FieldRef := ⟨.moverCounts, 31, 0⟩
abbrev pourStatus_REASON : FieldRef := ⟨.pourStatus, 31, 16⟩
abbrev pourStatus_STATE : FieldRef := ⟨.pourStatus, 1, 0⟩
abbrev pourCtl_CMD : FieldRef := ⟨.pourCtl, 1, 0⟩
abbrev pourFault_VALID : FieldRef := ⟨.pourFault, 63, 63⟩
abbrev pourFault_REASON : FieldRef := ⟨.pourFault, 47, 32⟩
abbrev pourFault_TILE : FieldRef := ⟨.pourFault, 31, 0⟩
abbrev pourCounts_CRC_COUNT : FieldRef := ⟨.pourCounts, 63, 48⟩
abbrev pourCounts_RESIDUE_COUNT : FieldRef := ⟨.pourCounts, 47, 32⟩
abbrev pourCounts_STREAMS_DONE : FieldRef := ⟨.pourCounts, 31, 0⟩
abbrev pourPort_IN_USE : FieldRef := ⟨.pourPort, 63, 63⟩
abbrev pourPort_ENDED : FieldRef := ⟨.pourPort, 62, 62⟩
abbrev pourPort_TREE_ID : FieldRef := ⟨.pourPort, 57, 48⟩
abbrev pourPort_SLOTS_FULL : FieldRef := ⟨.pourPort, 34, 32⟩
abbrev pourPort_TILES_TAKEN : FieldRef := ⟨.pourPort, 31, 0⟩
abbrev tdbgCmd_CMD : FieldRef := ⟨.tdbgCmd, 1, 0⟩
abbrev tdbgStatus_HALT_CAUSE : FieldRef := ⟨.tdbgStatus, 1, 0⟩
abbrev tdbgSel_SPECIAL : FieldRef := ⟨.tdbgSel, 5, 5⟩
abbrev tdbgSel_REG : FieldRef := ⟨.tdbgSel, 4, 0⟩
abbrev tdbgData_VALUE : FieldRef := ⟨.tdbgData, 63, 0⟩
abbrev tdbgBreak_ADDR : FieldRef := ⟨.tdbgBreak, 63, 2⟩
abbrev tdbgBreak_ENABLE : FieldRef := ⟨.tdbgBreak, 0, 0⟩
abbrev tdbgPc_PC : FieldRef := ⟨.tdbgPc, 63, 0⟩
abbrev whiskStatus_RESIDENT : FieldRef := ⟨.whiskStatus, 47, 40⟩
abbrev whiskStatus_REASON : FieldRef := ⟨.whiskStatus, 31, 16⟩
abbrev whiskStatus_STATE : FieldRef := ⟨.whiskStatus, 1, 0⟩
abbrev whiskCtl_CMD : FieldRef := ⟨.whiskCtl, 1, 0⟩
abbrev whiskFault_VALID : FieldRef := ⟨.whiskFault, 63, 63⟩
abbrev whiskFault_REASON : FieldRef := ⟨.whiskFault, 47, 32⟩
abbrev whiskFault_SLOT : FieldRef := ⟨.whiskFault, 29, 24⟩
abbrev whiskCounts_RESIDUE_COUNT : FieldRef := ⟨.whiskCounts, 63, 48⟩
abbrev whiskCounts_PARITY_COUNT : FieldRef := ⟨.whiskCounts, 47, 32⟩
abbrev whiskCounts_LAUNCHES_DONE : FieldRef := ⟨.whiskCounts, 31, 0⟩
abbrev parkMask_PARKED : FieldRef := ⟨.parkMask, 47, 0⟩
abbrev groupCmd_CMD : FieldRef := ⟨.groupCmd, 11, 8⟩
abbrev groupCmd_CREW : FieldRef := ⟨.groupCmd, 7, 7⟩
abbrev groupCmd_SLOT : FieldRef := ⟨.groupCmd, 5, 0⟩
abbrev dbgSel_PRED : FieldRef := ⟨.dbgSel, 17, 17⟩
abbrev dbgSel_REG : FieldRef := ⟨.dbgSel, 16, 11⟩
abbrev dbgSel_LANE : FieldRef := ⟨.dbgSel, 10, 6⟩
abbrev dbgSel_SLOT : FieldRef := ⟨.dbgSel, 5, 0⟩
abbrev dbgData_VALUE : FieldRef := ⟨.dbgData, 31, 0⟩
abbrev groupInfo_PARK_REASON : FieldRef := ⟨.groupInfo, 63, 56⟩
abbrev groupInfo_STATE : FieldRef := ⟨.groupInfo, 51, 48⟩
abbrev groupInfo_CREW_SLOT : FieldRef := ⟨.groupInfo, 47, 42⟩
abbrev groupInfo_GROUP_INDEX : FieldRef := ⟨.groupInfo, 31, 0⟩
abbrev groupPc_PC : FieldRef := ⟨.groupPc, 63, 0⟩

end Fd

end Sys2Proof.Machine
end

