-- ==== Sys2Proof/Machine/State.lean ====
section
/-!
DEFINITION. The state of the package: every register (regs, by name, unit and sub-index, in the layout of RegTable), device
memory, the structure image, the cores with their twins and engines, the L2 slices, the rings, the ports, the collectives, time,
power, reset, firmware, log, host interface and test port, and the queue of commands that wait. All of it is plain data.
-/
namespace Sys2Proof.Machine

/-- How a request was answered: performed, fenced, host map miss, poisoned, or in error (Table 14.7, R84); dropped is a violation, of
which nothing is performed, and which its source sees as performed (R166). -/
inductive Answer where
  | done
  | dropped
  | fenced
  | miss
  | poisoned
  | error
  deriving DecidableEq, Repr

/-- What leaves the block, newest first: everything a host, a peer, a board or a tester can see happen. -/
inductive Out where
  | hostWrite (addr : Nat) (data : Bytes)
  | hostRead (tag addr len : Nat)
  | hostAtomic (tag addr aop : Nat) (operand expect : Nat) (size : Nat)
  | msix (vector : Nat) (addr data : Nat)

  | cpl (data : Bytes) (poisoned : Bool)
  | regRead (v : Word)
  | smbus (data : Bytes)
  | tdo (v : Nat)
  | flit (port : Nat) (bytes : Bytes)
  | tod (data : Bytes)
  | pps
  | avs (rail mv : Nat)
  | flash (off : Nat) (data : Bytes)
  | l2Data (slice line : Nat) (data : Bytes) (answer : Answer)
  | aer (status : String)
  | ptmRequest
  deriving DecidableEq, Repr

/-- The key state of a Kettle (R709): idle, a first word pending, or a window open; with its source and elapsed time. -/
inductive KeyState where
  | idle
  | first (src : Source) (at' : Nat)
  | window (src : Source) (at' : Nat)
  deriving DecidableEq, Repr

/-- A Kettle's hidden state: key state, start of the running window (elapsed ns), Quartz value of the last kick. -/
structure Kettle where
  key : KeyState := .idle
  start : Nat := 0
  lastKick : Nat := 0
  deriving DecidableEq, Repr

/-- One engine instruction word of 32 bytes (R175), and whether a double error has poisoned it (R660). -/
structure EWord where
  w0 : Word := 0
  w1 : Word := 0
  w2 : Word := 0
  w3 : Word := 0
  bad : Bool := false
  deriving DecidableEq, Repr

/-- Twin states (Table 5.9). -/
inductive TwinState where
  | resetHold
  | running
  | parked
  | halted
  | stopped
  deriving DecidableEq, Repr

/-- Fence phases (R629). -/
inductive FencePhase where
  | none
  | fencing
  | fenced
  deriving DecidableEq, Repr

/-- An output of a twin that its release buffer holds until B's matching output has compared equal (R211): a store or a signal at an
address, or a word issued to an engine. -/
inductive HeldOut where
  | store (addr : Nat) (data : Bytes)
  | signal (addr v : Nat)
  | issue (e : Nat) (w : EWord)
  deriving DecidableEq, Repr

/-- A core's twin. Its general registers g1 to g31 are listed where they are not zero; time is in elapsed ns. excs are the exceptions its
engines have handed it and it has not taken; began tells that an access or a fetch of the instruction at pc is under way, waiting that
the instruction waits under R189, haltAt the HALT_CAUSE with which it halts at the next instruction boundary; rel is the release buffer,
oldest first (R211). -/
structure TwinSt where
  g : NMap Word := []
  status : Word := 0
  epc : Word := 0
  cause : Word := 0
  evalue : Word := 0
  vbase : Word := 0
  stackLimit : Word := 0
  tcmp : Word := 0
  tcmpArmed : Bool := false
  events : Word := 0
  eventMask : Word := 0
  kscratch : Word := 0
  uscratch : Word := 0
  pc : Word := 0
  lastPc : Word := 0
  mode : TwinState := .resetHold
  icache : List (Nat × Bytes) := []
  dcache : List (Nat × Bytes) := []
  kettle : Kettle := {}
  excs : List (Nat × Nat) := []
  began : Bool := false
  waiting : Bool := false
  haltAt : Option Nat := none
  rel : List HeldOut := []
  deriving DecidableEq, Repr

/-- The part of a command a core has in its mailbox (R485 to R488): its ring, its SEQ, the statuses its engines marked (bit 0
DATA_POISONED, bit 1 ENGINE_FAULT), whether an ABORT stop has cut it, and whether it then waits for the mover's last response (R396). -/
structure Part where
  ring : Nat
  seq : Nat
  mark : Nat := 0
  cut : Bool := false
  wait : Bool := false
  deriving DecidableEq, Repr

/-- The word a MATRIX engine runs (R234): the arrays used, the round and row block it has reached, the B panels of the round and those of the
next (R222), the column block at which a poured panel failed (POUR_FORMAT), and the finished steps whose results the drain has not written yet:
of each row where it goes, the bits of an element, and the results. -/
structure MatSt where
  word : Option EWord := none
  arrays : List Nat := []
  round : Nat := 0
  row : Nat := 0
  panels : List Bytes := []
  limit : Option Nat := none
  drain : List (List (Nat × Nat × List Res)) := []
  deriving DecidableEq, Repr

/-- The word a mover runs (R371): the bytes passed, the pieces performed, and the reads of the piece under way; skipped and again hold
where the pieces begin that were answered FENCED or not performed, and those that RESUME issues again (R402); cut that an ABORT stop has ended
the word but for the piece outstanding (R396). -/
structure MovSt where
  word : Option EWord := none
  at' : Nat := 0
  done : Nat := 0
  r1 : Option (Answer × Bytes) := none
  r2 : Option (Answer × Bytes) := none
  skipped : List Nat := []
  again : List Nat := []
  cut : Bool := false
  deriving DecidableEq, Repr

/-- Where the piece under way begins within its word: one to issue again, or the next. -/
def MovSt.pos (m : MovSt) : Nat := m.again.headD m.at'

/-- A line of the Whisk L1 (R342): its local granule number, the fold whose home holds it, the bytes valid and dirty. -/
structure L1Line where
  g : Nat
  f : Nat
  valid : Nat
  dirty : Nat
  data : Bytes
  deriving DecidableEq, Repr

/-- What a Whisk group waits for at a barrier (R333, R336): the generation of its arrival, or, having arrived twice, the current one. -/
inductive GroupWait where
  | none
  | meet (b : Nat)
  | await (b : Nat)
  | second (b : Nat) (meet : Bool)
  deriving DecidableEq, Repr

/-- A Whisk group (R321, R325): its crew, indices and program counter; its lane registers, by 32 × register + lane, and predicates, where
they are not zero; what it waits for; why it is parked (Table 9.7) and on which contexts it missed; whether it steps (R349); the
generation of its last arrival at each barrier; and the lanes of the instruction under way that are performed, missed or poisoned. -/
structure WGroup where
  crew : Nat
  index : Nat
  rank : Nat
  pc : Word
  t : NMap Word32 := []
  p : NMap Word32 := []
  wait : GroupWait := .none
  park : Nat := 0
  missCtx : List Nat := []
  step : Bool := false
  last : NMap Nat := []
  done : Nat := 0
  missed : Nat := 0
  poisoned : Nat := 0
  deriving DecidableEq, Repr

/-- A crew (R322, R323): its slots, the generation of each barrier, the slots arrived in it, and when a group last retired. -/
structure Crew where
  slots : List Nat
  gens : List Nat := [0, 0, 0, 0, 0, 0, 0, 0]
  arrived : List (List Nat) := [[], [], [], [], [], [], [], []]
  since : Nat := 0
  deriving DecidableEq, Repr

/-- The Whisk engine: its launch word, the next group to become resident, groups by slot, crews by number, the L1 and the instruction
cache. -/
structure WhiskSt where
  word : Option EWord := none
  next : Nat := 0
  groups : NMap WGroup := []
  crews : NMap Crew := []
  l1 : List L1Line := []
  icache : List (Nat × Bytes) := []
  deriving DecidableEq, Repr

/-- What is left of a Whisk engine when a fence, an ABORT stop or a fault response stops it (R351). -/
def WhiskSt.discarded (w : WhiskSt) : WhiskSt := { l1 := w.l1.filter fun l => l.dirty == 0, icache := w.icache }

/-- A tile held by a node of a Pour tree (R450): its index, header and payload, the children still to accept it, whether its panel
has been taken or is not this core's, whether it is the last of its stream, and whether a later stream has started since. -/
structure PourTile where
  idx : Nat
  data : Bytes
  pending : List Nat
  taken : Bool
  last : Bool := false
  old : Bool := false
  deriving DecidableEq, Repr

/-- An entry of a core's Pour port (R450): its tree and the tiles held; and, of the stream whose panels it releases, the index that
follows the panels released without a gap from the first, with their saturated and flushed results (R451). -/
structure PourEntry where
  tree : Nat
  tiles : List PourTile := []
  next : Nat := 0
  sat : Nat := 0
  fls : Nat := 0
  deriving DecidableEq, Repr

/-- A core: its twin, the five issue queues and two summary queues, the parts in its mailbox, and its engines. nums holds, for MATRIX,
VECTOR and WHISK, the saturated and flushed results of the word that runs; vecSum is the summary of a vector word that waits for room in its queue (R187); hops
holds, for each parent of the core in a Pour tree, the tree last served on that hop (R459); test is the array under in-field test. -/
structure CoreSt where
  twin : TwinSt := {}
  queues : List (List EWord) := [[], [], [], [], []]
  sums : List (List Word) := [[], []]
  parts : List Part := []
  nums : List (Nat × Nat) := [(0, 0), (0, 0), (0, 0)]
  mat : MatSt := {}
  vecSum : Option Word := none
  test : Option Nat := none
  vregs : NMap Bytes := []
  mov : MovSt := {}
  whisk : WhiskSt := {}
  pour : NMap PourEntry := []
  hops : NMap Nat := []
  wasReset : Bool := false
  advanced : Bool := false
  deriving DecidableEq, Repr

/-- A stream of a Pour tree (R448): its issuing core and fold, its word, the next tile and its byte offset, the tile the root holds, whether
it must be aborted (R457), whether its issuer has been reset, and whether a tile check has stopped it while earlier tiles go on to their
destinations (R462). -/
structure StreamSt where
  core : Nat
  fold : Nat
  word : EWord
  tile : Nat := 0
  at' : Nat := 0
  inj : Option PourTile := none
  cut : Bool := false
  orphan : Bool := false
  ended : Bool := false
  deriving DecidableEq, Repr

/-- Who waits for the reply of a request: a twin, an engine of a core with a number of its own (a Whisk lane's granule, a mover
piece), a ring's TIMESTAMP or completion signal, a collective slot's granule, or a member for which a request is forwarded (R524). A request that its own domain has answered
belongs to late: its reply is only counted (R702). -/
inductive Requester where
  | twin (core : Nat)
  | engine (core agent key : Nat)
  | ring (r : Nat)
  | coll (ring slot key : Nat)
  | forward (port tag gen : Nat)
  | late (dom : Nat)
  deriving DecidableEq, Repr

/-- A reply that waits for its requester. -/
structure Reply where
  by' : Requester
  answer : Answer
  data : Bytes := []
  deriving DecidableEq, Repr

/-- A request outstanding on a port (R530): its requester, packet type, address and length, and elapsed time of sending. -/
structure OutReq where
  by' : Requester
  typ : Nat
  addr : Nat
  len : Nat
  since : Nat
  gen : Nat := 0
  deriving DecidableEq, Repr

/-- One lane's receiver (R512, R534): consecutive good codewords, the last CW_SEQ, consecutive failures, the elapsed times of the failures of
the last 100 µs, whether the lane is locked, and whether it has been found bad. -/
structure LaneRx where
  good : Nat := 0
  seq : Nat := 0
  fails : Nat := 0
  badAt : List Nat := []
  lock : Bool := false
  lost : Bool := false
  deriving DecidableEq, Repr

/-- A codeword that waits for the rest of its round (R513): its CW_SEQ, its lane, the LANE_MAP of its header, and its flits, none where it
could not be corrected. -/
structure RxCodeword where
  seq : Nat
  lane : Nat
  map : Nat
  flits : List Bytes
  deriving DecidableEq, Repr

/-- An Oznum port beside its registers. Credits are by VC in the order of Table 14.4. wait holds the packets that wait for credits, with
their VC; txq the flits beyond the window of 512 (R531); rounds the codewords whose round, the next being round, is not complete (R513);
stream the slots received of a packet that is not (R517); fwd the requests that arrived and cannot be forwarded yet (R524). -/
structure PortSt where
  outst : NMap OutReq := []
  retired : NMap Nat := []
  nextTag : Nat := 0
  txCred : List Nat := [1024, 2048, 2048, 128]
  rxCred : List Nat := [1024, 2048, 2048, 128]
  wait : List (Nat × List Word) := []
  txSeq : Nat := 0
  txq : List (List Word) := []
  unacked : List (Nat × List Word) := []
  oldest : Nat := 0
  replays : Nat := 0
  rxSeq : Nat := 0
  nakAt : Option (Nat × Nat) := none
  lanes : List LaneRx := [{}, {}, {}, {}]
  rounds : List RxCodeword := []
  round : Option Nat := none
  stream : List Word := []
  fwd : List (List Word) := []
  since : Nat := 0
  width : Nat := 4
  agreeRx : List Word := []
  agreeAt : Option Nat := none
  agreeTx : Nat := 0
  agreeSeq : Nat := 0
  lastTx : List Word := []
  linkLatched : Bool := false
  deriving DecidableEq, Repr

/-- A segment of a ring's entries, posted by one doorbell (R469, R481): the entries not yet retired, the start value of a timed doorbell,
whether it is still held, whether it is late, whether Quartz was time-unlocked at its release (R482), the Quartz time of its release until its
first command starts (R498), and whether a fold update has cancelled it (R504). -/
structure Seg where
  count : Nat
  start : Nat := 0
  held : Bool := false
  late : Bool := false
  unlocked : Bool := false
  rel : Option Nat := none
  gone : Bool := false
  deriving DecidableEq, Repr

/-- Where a fetched command stands: its handles are being relocated, its checks have passed, it has started, its work is under way, or it
has completed. -/
inductive CmdPhase where
  | checking
  | ready
  | started
  | running
  | done
  deriving DecidableEq, Repr

/-- A fetched command of a ring (R475, R478): its entry, SEQ and descriptor (empty where it could not be read); the handle whose table
entry is being read (0 none), whether an invalidation has passed that read; the relocated addresses by handle (1 CODE, 2 ARG or SRC,
3 CTR or DST, 4 SIG, 5 the argument bound); the parts still open; status and DETAIL; start and end; whether an ABORT stop has cut it;
whether its TIMESTAMP write or its signal is under way, and the signal's DETAIL bits once it is settled; whether its record has been written
already, as a cancelled command's (R504). -/
structure RingCmd where
  idx : Nat
  seq : Nat
  desc : Bytes
  phase : CmdPhase := .checking
  need : Nat := 0
  stale : Bool := false
  addrs : NMap Nat := []
  left : Nat := 0
  status : Nat := 0
  detail : Nat := 0
  start : Nat := 0
  fin : Nat := 0
  cut : Bool := false
  sent : Bool := false
  sig : Option Nat := none
  told : Bool := false
  deriving DecidableEq, Repr

/-- A ring beside its registers: its segments, the commands fetched and not retired, the DB_START value (R483), the entries a STOP_ABORT
applies to (R495), and of the timed doorbells a fold update has cancelled (R504) the entries still to fetch, each with its SEQ, and the
commands fetched whose record is still to write. -/
structure RingSt where
  segs : List Seg := []
  cmds : List RingCmd := []
  dbStart : Nat := 0
  abortLeft : Nat := 0
  due : List (Nat × Nat) := []
  cancelled : List RingCmd := []
  deriving DecidableEq, Repr

/-- An open collective (R568 to R573): its ring, SEQ and fold; the fields of its descriptor; its places in the fold's home; the neighbours
whose OPEN has arrived; elapsed time of the last packet received and of the last OPENs sent. Of its segments: the level results by
16 × segment + level, the partials received, those sent or folded, the segments whose final values are known, with their bytes until
written, the packets to send (neighbour, segment, slots), the DST pieces to write, and the SRC granules read. Counts of saturated and
flushed results by quarter. -/
structure Coll where
  ring : Nat
  seq : Nat
  fold : Nat
  id : Nat
  epoch : Nat
  kind : Nat
  rop : Nat
  inFmt : Nat
  outFmt : Nat
  elems : Nat
  src : Nat
  dst : Nat
  arr : Nat
  opened : List Nat := []
  lastRx : Nat := 0
  lastOpen : Nat := 0
  vals : NMap (List Nat) := []
  inbox : NMap (List Nat) := []
  folded : NMap Unit := []
  fins : NMap Unit := []
  sends : List (Nat × Nat × List Word) := []
  writes : List (Nat × Bytes) := []
  reads : NMap Bytes := []
  nums : List (Nat × Nat) := [(0, 0), (0, 0), (0, 0), (0, 0)]
  deriving DecidableEq, Repr

/-- A held OPEN or ABORT of a collective not yet started here (R569, R579): the packet's slots and the member that sent it; for an ABORT
its reason. -/
structure HeldColl where
  id : Nat
  epoch : Nat
  src : Nat
  kind : Nat
  slots : List Word
  deriving DecidableEq, Repr

/-- An access to a host slice under way (R151, R152): its requester, what it does, context, page and offset, and whether its map
entry is held (stage 1) or still being read (stage 0); once its tag is retired, since when. op: 0 load, 1 store, 2 atomic. mask marks the
bytes a store writes; pairs are those a CAS has yet to try at its host address bus, acc what the earlier ones observed. -/
structure HostOp where
  by' : Requester
  op : Nat
  ctx : Nat
  off : Nat
  len : Nat
  data : Bytes := []
  aop : Nat := 0
  expect : Nat := 0
  stage : Nat := 0
  gen : Nat := 0
  since : Nat := 0
  mask : Nat := 2 ^ 64 - 1
  pairs : List (Nat × Nat) := []
  acc : Bytes := []
  bus : Nat := 0
  deriving DecidableEq, Repr

/-- One way of an L2 slice (R406): the line's place in its channel, the bytes valid and dirty, the fold that pinned it, poison. -/
structure L2Line where
  q : Nat
  valid : Nat
  dirty : Nat
  data : Bytes
  pin : Option Nat := none
  poison : Bool := false
  deriving DecidableEq, Repr

/-- A pin command that runs (R419): its result and the lines it was refused. -/
structure PinRun where
  result : Nat
  refused : Nat
  deriving DecidableEq, Repr

/-- A wait on an arrival counter (R393): the counter, the threshold, and the value that released it. -/
structure Waiter where
  ctr : Nat
  thr : Nat
  hit : Option Nat := none
  deriving DecidableEq, Repr

/-- A firmware processor (chapters 19 and 20). -/
structure ProcSt where
  running : Bool := false
  kettle : Kettle := {}
  handover : Bool := false
  cause : Nat := 0
  timers : NMap Nat := []
  timerDone : NMap Unit := []
  events : Nat := 0
  submit : Bytes := []
  beat : Nat := 0
  badMem : Bool := false
  starts : Bool := false
  copy : Bytes := []
  prev : Option Bytes := none
  hoAt : Nat := 0
  record : Bytes := []
  deriving DecidableEq, Repr

/-- A power command that runs (R632): what it names, where it came from, and its result once it has ended. -/
structure PowerRun where
  ring : Option Nat
  dkind : Nat
  id : Nat
  action : Nat
  arg : Nat
  result : Option Nat := none
  waitReset : Bool := false
  hbm : Bool := false
  deriving DecidableEq, Repr

/-- A reset command that runs (R696). -/
structure ResetRun where
  dkind : Nat
  id : Nat
  waitPower : Bool := false
  result : Option Nat := none
  deriving DecidableEq, Repr

/-- Time: Quartz and elapsed time in units of 10^-8 ns, and what the servo holds beside the registers. -/
structure TimeSt where
  q : Nat := 0
  el : Nat := 0
  adverts : NMap (List Nat) := []
  epochs : List (Nat × Nat) := []
  reqs : NMap (List Nat) := []
  seq : Nat := 0
  good : Nat := 0
  lastMeas : Nat := 0
  lead : List Nat := []
  holdStart : Nat := 0
  edge : Nat := 0
  delay : Int := 0
  ppsAt : Option Nat := none
  todDue : Option Bytes := none
  ptmBusy : Bool := false
  ptmAt : Option Nat := none
  snap : Nat := 0
  deriving DecidableEq, Repr

/-- The Garnet log and the host log ring. Banks and flash map an index to a 64-byte entry. -/
structure LogSt where
  bank0 : NMap Bytes := []
  bank1 : NMap Bytes := []
  flash : NMap Bytes := []
  oldest : Nat := 0
  failRow : Nat := 0
  ringQ : List Bytes := []
  ringN : Nat := 0
  dropped : Nat := 0
  lostNoted : Bool := false
  lastIrq : Nat := 0
  deriving DecidableEq, Repr

/-- The PCIe endpoint and the SMBus target beside their registers. -/
structure HostSt where
  memSpace : Bool := false
  fnMask : Bool := false
  atomicReq : Bool := false
  ptmOn : Bool := false
  bar4 : Nat := 39
  held : List Out := []
  winAddr : Nat := 0
  readings : List Nat := []
  deriving DecidableEq, Repr

/-- A fuse request that is being programmed (R773): OP, target slot, value, key hash, and whether it came from the test port. -/
structure FuseRun where
  op : Nat
  slot : Nat
  value : Nat
  hash : Bytes
  deriving DecidableEq, Repr

/-- An offline self-test that runs (R777): of a core or of a stack. -/
structure BistRun where
  stack : Bool
  id : Nat
  deriving DecidableEq, Repr

/-- An image command: its operation and source, and what its fetch brings (R103); got tells whether the row that wrote it brought that, or
IMAGE_VALIDATE is still to. -/
structure ImageReq where
  full : Bool
  flash : Bool
  hdr : Option Bytes := none
  data : HostRead := .timeout
  got : Bool := true
  deriving DecidableEq, Repr

/-- An image that is being applied (R108, R115): a FULL one or a fold update, the next step, and the fold's sections before it. -/
structure Applying where
  full : Bool
  step : Nat
  old : FoldSec
  deriving DecidableEq, Repr

/-- The test port (R767, R770): the instruction register, whether its instruction has effect or selects the bypass register, the
preloaded boundary register, the access under way with its status and data, and what the next capture of DEBUG_ACCESS loads. -/
structure TapSt where
  ir : Nat := 1
  bypass : Bool := false
  boundary : Bytes := []
  access : Option (Nat × Nat) := none
  status : Nat := 0
  data : Nat := 0
  deriving DecidableEq, Repr

/-- Where start-up stands (R52, R726): power, PERST_N, the boot ROM, firmware bundles in hub SRAM and the image command. updating is the
fold under FOLD_UPDATE (R123); imgDue, fwDue (OP and MASK) and fuseDue are an IMAGE_CMD, an FW_CMD and a FUSE_CMD written by a plain
register write, whose bytes the Steward has not fetched yet; begun names the collectors whose ACTIVE slot has its FAULT entry written and is
not yet acknowledged (R684, R685). -/
structure LifeSt where
  aonUp : Bool := false
  perst : Bool := true
  inReset : Bool := false
  cold : Bool := true
  devPend : Option DeviceCause := none
  flashWidth : Nat := 1
  bundle : Bytes := []
  staged : Bytes := []
  dirGen : Nat := 0
  dirOld : Nat := 0
  bootCores : Nat := 0
  bootSlices : Nat := 0
  bootArrays : NMap Nat := []
  bootFails : Nat := 0
  image : Option Loaded := none
  appliedAt : Nat := 0
  store : Bytes := []
  cmd : Option (Bool × Bool) := none
  fetchErr : Option ImageErr := none
  updating : Option Nat := none
  imgDue : Option ImageReq := none
  applying : Option Applying := none
  fwDue : Option (Nat × Nat) := none
  fuseDue : Bool := false
  fwMask : Nat := 0
  fwCur : Option Nat := none
  fwSince : Nat := 0
  fwOld : Nat := 0
  fuseReq : Option FuseRun := none
  bist : Option BistRun := none
  booted : Bool := false
  selfRefresh : Nat := 0
  imgWait : Option ImageReq := none
  scanWait : Option (Bytes × Bool) := none
  begun : List Nat := []
  deriving DecidableEq, Repr

/-- The fused values (Table 21.1), with the rows used for each floor, and whether a value lost both copies (R760). -/
structure FuseSt where
  orderCode : Nat := 4288
  stepping : Nat := 0x00A1
  deviceId : Nat := 0
  present : Nat := 2 ^ 288 - 1
  slots : List KeySlot := [{}, {}, {}, {}]
  imageFloor : Nat := 0
  fwFloor : Nat := 0
  testLock : Nat := 1
  sessions : Nat := 0
  imageRows : Nat := 0
  fwRows : Nat := 0
  lockRows : Nat := 0
  bad : Bool := false
  deriving DecidableEq, Repr

/-- The whole state. -/
structure State where
  regs : NMap (BitVec 64) := []
  mem : Memory := []
  poison : NMap Unit := []
  cores : NMap CoreSt := []
  fences : NMap FencePhase := []
  fenceSince : NMap Nat := []
  stallTick : NMap Nat := []
  hotFolds : NMap Nat := []
  thermLow : Bool := false
  time : TimeSt := {}
  life : LifeSt := {}
  fused : FuseSt := {}
  fuse : FuseSt := {}
  procs : NMap ProcSt := []
  power : Option PowerRun := none
  reset' : Option ResetRun := none
  opTarget : NMap Nat := []
  log : LogSt := {}
  host : HostSt := {}
  tap : TapSt := {}
  hubPaths : NMap Unit := []
  hubHeld : NMap Nat := []
  ports : NMap PortSt := []
  replies : List Reply := []
  hostOps : NMap HostOp := []
  l2 : NMap (List L2Line) := []
  patrol : NMap (List Nat) := []
  pins : NMap PinRun := []
  powerWait : List PowerRun := []
  arr : NMap Nat := []
  ctrPoison : NMap Unit := []
  waiters : NMap Waiter := []
  mapCopies : NMap Nat := []
  tests : NMap Nat := []
  streams : List StreamSt := []
  rings : NMap RingSt := []
  lastRing : Nat := 63
  htCopies : NMap Nat := []
  dispatch : NMap Nat := []
  colls : NMap Coll := []
  heldColls : List HeldColl := []
  freeCtr : Nat := 0
  out : List Out := []
  pending : List Instr := []
  deriving DecidableEq, Repr

/-- Faults. None: where the manual describes a failure the block goes on, and the failure is part of its state. -/
inductive Fault where
  deriving DecidableEq, Repr

/-- Refusals. -/
inductive Refusal where
  /-- The command has no meaning in the model yet. Raised only by the dispatch. Safe: nothing is claimed of it. -/
  | notModelled (mnemonic : String)
  deriving DecidableEq, Repr

/-- The machine right after a COLD reset. Every register reads its reset value (no register is listed). -/
def State.reset : State := {}

end Sys2Proof.Machine
end

