-- ==== Sys2Proof/Machine/Regs.lean ====
section
/-!
DEFINITION. Registers: reading and writing a register or a field, saturating counts, the resets of Table 0.6, and the place of
a register in BAR 0.
-/
namespace Sys2Proof.Machine

/-- The key of a register in State.regs: its name, unit and sub-index. -/
def regKey (r : RegName) (u k : Nat) : Nat := 2 ^ 64 * r.ctorIdx + 2 ^ 32 * (u % 2 ^ 32) + k % 2 ^ 32

/-- The reset value of a register: its fields' reset values at their places. -/
def RegName.resetValue (r : RegName) : Nat :=
  r.fields.foldl (fun v f => putBits v f.hi f.lo f.reset) 0

/-- The whole value of a register. -/
def State.reg (s : State) (r : RegName) (u : Nat := 0) (k : Nat := 0) : Nat :=
  match nfind s.regs (regKey r u k) with
  | some v => v.toNat
  | none => r.resetValue

/-- Set the whole value of a register. -/
def State.setReg (s : State) (r : RegName) (v : Nat) (u : Nat := 0) (k : Nat := 0) : State :=
  { s with regs := nset s.regs (regKey r u k) (BitVec.ofNat 64 v) }

/-- The value of a field. -/
def State.fget (s : State) (f : FieldRef) (u : Nat := 0) (k : Nat := 0) : Nat := bits (s.reg f.reg u k) f.hi f.lo

/-- Whether a one-bit field is 1. -/
def State.fon (s : State) (f : FieldRef) (u : Nat := 0) (k : Nat := 0) : Bool := s.fget f u k != 0

/-- Set a field. -/
def State.fset (s : State) (f : FieldRef) (v : Nat) (u : Nat := 0) (k : Nat := 0) : State :=
  s.setReg f.reg (putBits (s.reg f.reg u k) f.hi f.lo v) u k

/-- The largest value of a field. -/
def FieldRef.max (f : FieldRef) : Nat := 2 ^ (f.hi + 1 - f.lo) - 1

/-- Raise a count by n, saturating (every count of the manual saturates unless it says that it wraps). -/
def State.incBy (s : State) (f : FieldRef) (n : Nat) (u : Nat := 0) (k : Nat := 0) : State :=
  s.fset f (satAdd f.max (s.fget f u k) n) u k

/-- Raise a count by one, saturating. -/
def State.inc (s : State) (f : FieldRef) (u : Nat := 0) (k : Nat := 0) : State := s.incBy f 1 u k

/-- Raise a wrapping count by one. -/
def State.wrapInc (s : State) (f : FieldRef) (u : Nat := 0) (k : Nat := 0) : State :=
  s.fset f (s.fget f u k + 1) u k

/-- The name of a listed register's key. -/
def regOfKey (key : Nat) : Option RegName :=
  (regMap.find? fun e => e.reg.ctorIdx == key / 2 ^ 64).map (·.reg)

/-- A register's value with the fields of the given Known-after codes at their reset values. -/
def RegName.resetFields (r : RegName) (ks : List Known) (v : Nat) : Nat :=
  r.fields.foldl (fun v f => if ks.contains f.known then putBits v f.hi f.lo f.reset else v) v

/-- Reset the fields of the given Known-after codes in the listed registers a predicate picks by name and unit (R13). -/
def State.resetRegs (s : State) (ks : List Known) (p : RegName → Nat → Bool) : State :=
  { s with regs := s.regs.map fun (key, v) =>
      match regOfKey key with
      | none => (key, v)
      | some r => if p r (key / 2 ^ 32 % 2 ^ 32) then (key, BitVec.ofNat 64 (r.resetFields ks v.toNat)) else (key, v) }

/-- How many units a register has. -/
def RegName.units (r : RegName) : Nat := ((regMap.find? fun e => e.reg == r).map (·.ucount)).getD 1

/-- A register found at a BAR 0 offset: its name, unit, sub-index and the byte offset within it. -/
structure RegAt where
  reg : RegName
  u : Nat
  k : Nat
  o : Nat
  deriving DecidableEq, Repr

/-- Where a map entry places an offset, if it does. -/
def MapEntry.at (e : MapEntry) (off : Nat) : Option RegAt :=
  if off < e.base then none else
  let d := off - e.base
  let w := e.reg.width
  let u := if e.ucount = 1 then 0 else d / e.ustride
  let r := if e.ucount = 1 then d else d % e.ustride
  let k := if e.kcount = 1 then 0 else r / e.kstride
  let o := if e.kcount = 1 then r else r % e.kstride
  if u < e.ucount ∧ k < e.kcount ∧ o < w then some ⟨e.reg, u, k, o⟩ else none

/-- The register at a BAR 0 offset; FAULT_CLASS_COUNT_n exists for n = 0x01 to 0x1E, so its table's first eight bytes
    hold none (chapter 18's register table). -/
def regAt (off : Nat) : Option RegAt := if off / 8 = 0x1620 then none else regMap.findSome? fun e => e.at off

end Sys2Proof.Machine
end

