-- ==== Sys2Proof/Machine/Shape.lean ====
section
/-!
DEFINITION. The shape of a group (R552 to R556): ring sizes, digits, neighbours, and the segments' owners and directions. Levels are
numbered from 0 here: level k of the manual is k − 1.
-/
namespace Sys2Proof.Machine

/-- S of a level: the product of the fan-ins below it (R552). -/
def DevSec.levelBase (d : DevSec) (k : Nat) : Nat := (d.fanIn.take k).foldl (· * ·) 1

/-- The ring size of a level (R552). -/
def DevSec.ringSize (d : DevSec) (k : Nat) : Nat :=
  if k + 1 < d.levelCount then d.fanIn.getD k 1 else d.memberCount / d.levelBase k

/-- A member's digit at a level (R552). -/
def DevSec.digit (d : DevSec) (k m : Nat) : Nat := m / d.levelBase k % d.ringSize k

/-- Whether the group can run collectives (R553). -/
def DevSec.complete (d : DevSec) : Bool :=
  decide (0 < d.memberCount) && d.memberCount % d.levelBase (d.levelCount - 1) == 0

/-- The member one step along a level's line, up or down (R554). -/
def DevSec.step (d : DevSec) (k m : Nat) (up : Bool) : Nat :=
  let n := d.ringSize k
  let i := d.digit k m
  m - i * d.levelBase k + (if up then i + 1 else i + n - 1) % n * d.levelBase k

/-- The levels whose lines have more than one member. -/
def DevSec.levels (d : DevSec) : List Nat := (List.range d.levelCount).filter fun k => decide (2 ≤ d.ringSize k)

/-- A member's neighbours: next and prev of every level of more than one member, each once. -/
def DevSec.neighbours (d : DevSec) (m : Nat) : List Nat :=
  (d.levels.flatMap fun k => [d.step k m true, d.step k m false]).eraseDups

/-- The owner of a segment (R555). -/
def DevSec.owner (d : DevSec) (seg : Nat) : Nat := seg % d.memberCount

/-- Whether a segment runs upward (R555). -/
def segUp (seg : Nat) : Bool := seg % 2 == 0

/-- How many steps a member lies beyond the owner's digit at a level, in the segment's direction: the owner's own digit is 0, and the
chain of a reduction starts at 1 (R556). -/
def DevSec.place (d : DevSec) (seg k m : Nat) : Nat :=
  let n := d.ringSize k
  let o := d.digit k (d.owner seg)
  let i := d.digit k m
  if segUp seg then (i + n - o) % n else (o + n - i) % n

/-- Whether a member's line of a level takes part in a segment: its digits below equal the owner's (R556, and R558 by assumption
log 9). -/
def DevSec.takesPart (d : DevSec) (seg k m : Nat) : Bool :=
  (List.range k).all fun j => d.digit j m == d.digit j (d.owner seg)

end Sys2Proof.Machine
end

