-- ==== Sys2Proof/Machine/Ops.lean ====
section
/-!
DEFINITION. The operations every family shares: time, violations, MSI-X vectors and host writes, the Garnet log, ownership by
folds, fences, and the placing, answering and reporting of a fault detection.
-/
namespace Sys2Proof.Machine

/-! Time (R592, R594). -/

/-- Units of 10^-8 ns in a nanosecond. -/
abbrev tick : Nat := 100000000

/-- The Quartz value in ns. -/
def State.now (s : State) : Nat := s.time.q / tick % 2 ^ 64

/-- The visible fraction of the Quartz value (R592). -/
def State.frac (s : State) : Nat := 65536 * (s.time.q % tick) / tick

/-- Quartz elapsed time in ns (R594). -/
def State.elapsed (s : State) : Nat := s.time.el / tick

/-- Let time pass until the Quartz value is at least now: elapsed time advances by as much (R594). -/
def State.advance (s : State) (now : Nat) : State :=
  let d := tick * now - s.time.q
  { s with time := { s.time with q := s.time.q + d, el := s.time.el + d } }

/-- A free value (assumption log 4) and the state after it is taken. -/
def State.free (s : State) : Word × State := (Config.free s.freeCtr, { s with freeCtr := s.freeCtr + 1 })

/-- Add something that leaves the block. -/
def State.emit (s : State) (o : Out) : State := { s with out := o :: s.out }

/-! Structures of State. -/

/-- A core. -/
def State.core (s : State) (c : Nat) : CoreSt := nget {} s.cores c

/-- Set a core. -/
def State.setCore (s : State) (c : Nat) (v : CoreSt) : State := { s with cores := nset s.cores c v }

/-- Change a core. -/
def State.modCore (s : State) (c : Nat) (f : CoreSt → CoreSt) : State := s.setCore c (f (s.core c))

/-- Change a core's twin. -/
def State.modTwin (s : State) (c : Nat) (f : TwinSt → TwinSt) : State :=
  s.modCore c fun k => { k with twin := f k.twin }

/-- A firmware processor. -/
def State.proc (s : State) (n : Nat) : ProcSt := nget {} s.procs n

/-- Change a firmware processor. -/
def State.modProc (s : State) (n : Nat) (f : ProcSt → ProcSt) : State := { s with procs := nset s.procs n (f (s.proc n)) }

/-- The loaded image. -/
def State.image (s : State) : Option Loaded := s.life.image

/-- Whether an image is loaded. -/
def State.hasImage (s : State) : Bool := s.life.image.isSome

/-- The folds of the loaded image. -/
def State.foldSecs (s : State) : List FoldSec := (s.life.image.map fun l => l.folds).getD []

/-- The sections of a fold. -/
def State.foldSec (s : State) (f : Nat) : FoldSec := s.foldSecs.getD f {}

/-- The device-scope sections. -/
def State.devSec (s : State) : DevSec := (s.life.image.map fun l => l.dev).getD {}

/-- The device's member index, once an image is loaded (R135). -/
def State.member (s : State) : Option Nat := s.life.image.map fun l => l.memberIndex

/-- The fold that owns a unit by one of its bitmaps. -/
def State.ownerBy (s : State) (g : FoldSec → Nat) (i : Nat) : Option Nat :=
  (List.range s.foldSecs.length).find? fun f => (g (s.foldSec f)).testBit i

/-- The fold that owns a core (R38). -/
def State.foldOfCore (s : State) (c : Nat) : Option Nat := s.ownerBy (fun f => f.cores) c
/-- The fold that owns a port. -/
def State.foldOfPort (s : State) (p : Nat) : Option Nat := s.ownerBy (fun f => f.ports) p
/-- The fold that owns a ring. -/
def State.foldOfRing (s : State) (r : Nat) : Option Nat := s.ownerBy (fun f => f.ringSet) r
/-- The fold that owns a context. -/
def State.foldOfCtx (s : State) (c : Nat) : Option Nat := s.ownerBy (fun f => f.ctxSet) c

/-- The quarter of a core (R11). -/
def coreDie (c : Nat) : Nat := c / 72
/-- The quarter of a port (R29: nine ports a quarter). -/
def portDie (p : Nat) : Nat := p / 9
/-- The quarter of a channel (R137). -/
def chanDie (c : Nat) : Nat := c / 64

/-- Whether a core is present (R4, R50). -/
def State.corePresent (s : State) (c : Nat) : Bool := decide (c < 288) && s.fuse.present.testBit c

/-- Whether a core is mapped out (R49). -/
def State.coreOut (s : State) (c : Nat) : Bool := Nat.testBit (s.reg .coresOut (c / 64)) (c % 64)

/-- Whether a channel is mapped out. -/
def State.chanOut (s : State) (c : Nat) : Bool := Nat.testBit (s.reg .channelsOut (c / 64)) (c % 64)

/-- The lanes of a port that are mapped out, as four bits. -/
def State.lanesOutOf (s : State) (p : Nat) : Nat := bits (s.reg .lanesOut (p / 16)) (4 * (p % 16) + 3) (4 * (p % 16))

/-- Set bit i of the wide map a register's units hold, 64 bits each. -/
def State.setMapBit (s : State) (r : RegName) (i : Nat) : State :=
  s.setReg r ((s.reg r (i / 64)).lor (2 ^ (i % 64))) (i / 64)

/-! Violations (R26, R167). -/

/-- The counter a violation is charged to (Table 4.5). -/
inductive Viol where
  | ctx (c : Nat)
  | port (p : Nat)
  | ring (r : Nat)
  | core (c : Nat)
  | proc (n : Nat)
  | host
  deriving DecidableEq, Repr

/-- Count one violation (R166: the only trace). -/
def State.violate (s : State) : Viol → State
  | .ctx c => s.inc Fd.contextViol_COUNT c
  | .port p => s.inc Fd.portViol_COUNT p
  | .ring r => s.inc Fd.ringViol_COUNT r
  | .core c => s.inc Fd.coreViol_COUNT c
  | .proc n => s.inc Fd.procViol_COUNT n
  | .host => s.inc Fd.hostViol_COUNT

/-- Whether scan is open, or opening it failed (R775, R788). -/
def State.scanOn (s : State) : Bool := s.fon Fd.testStatus_SCAN_OPEN || s.fon Fd.testStatus_CLEAR_FAILED

/-- Whether the endpoint answers configuration requests: the device is out of reset (R810). -/
def State.configUp (s : State) : Bool := s.life.aonUp && !s.life.perst && !s.life.inReset

/-- Whether the BARs decode: the endpoint answers, Memory Space Enable is 1 and the function is not in D3hot (Table 22.4). -/
def State.barUp (s : State) : Bool := s.configUp && s.host.memSpace && !s.fon Fd.pcieStatus_D3HOT

/-- Whether a write of a source is turned away: the host's while the BARs do not decode (Table 22.4), or while scan is open (R775). -/
def State.shut (s : State) (src : Source) : Bool := src == .host && (!s.barUp || s.scanOn)

/-- Whether a read of a source is turned away: the host's while the BARs do not decode. -/
def State.dark (s : State) (src : Source) : Bool := src == .host && !s.barUp

/-- Charge a violation to a writing source (R26). The SMBus window and the test port have no counter (R815, R743). -/
def State.charge (s : State) : Source → State
  | .host => s.violate .host
  | .twin c => s.violate (.core c)
  | .proc n => s.violate (.proc n)
  | .smbus => s
  | .tap => s

/-- A request to no BAR, or while none decodes (R802, Table 22.4): nothing is performed, and the AER status is set; a device in reset
answers nothing. -/
def unsupported (s : State) : State := if s.configUp then { s with out := .aer "Unsupported Request" :: s.out } else s

/-- What becomes of a request that is turned away: Unsupported Request, or a violation while scan is open (R775). -/
def State.turned (s : State) (v : Viol) : State := if s.barUp then s.violate v else unsupported s

/-! MSI-X and host writes (R796a, R799, R800). -/

/-- Whether the device may issue requests and messages: Bus Master Enable is 1 and the function is not in D3hot (R799). -/
def State.mayMaster (s : State) : Bool := s.fon Fd.pcieStatus_BME && !s.fon Fd.pcieStatus_D3HOT

/-- Send the message of a vector whose pending bit is set, if nothing masks or holds it. -/
def State.flushVec (s : State) (v : Nat) : State :=
  if Nat.testBit (s.reg .msixPba (v / 64)) (v % 64) && !s.host.fnMask && !s.fon Fd.msixVectorCtl_MASK v && s.mayMaster then
    (s.setReg .msixPba ((s.reg .msixPba (v / 64)).xor (2 ^ (v % 64))) (v / 64)).emit
      (.msix v (s.reg .msixAddr v) (s.reg .msixData v))
  else s

/-- Raise a vector (R796a). -/
def State.raiseVec (s : State) (v : Nat) : State := (s.setMapBit .msixPba v).flushVec v

/-! The Garnet log (R733, R744). -/

/-- CRC-32C of a byte string (the Castagnoli polynomial, reflected). -/
def crc32c (b : Bytes) : Nat :=
  let step (c : Nat) : Nat := if c % 2 = 1 then (c / 2).xor 0x82F63B78 else c / 2
  (b.foldl (fun c x => step (step (step (step (step (step (step (step (c.xor x.toNat))))))))) 0xFFFFFFFF).xor 0xFFFFFFFF

/-- A body or a record padded with zeros to n bytes. -/
def padTo (n : Nat) (b : Bytes) : Bytes := b.take n ++ List.replicate (n - b.length) 0

/-- Bytes of a value at a place in a record. -/
def recBytes (n : Nat) (l : List (Nat × Nat × Nat)) : Bytes :=
  leBytes n (l.foldl (fun a (o, w, v) => a + (v % 2 ^ (8 * w)) * 2 ^ (8 * o)) 0)

/-- An entry of 64 bytes with its CRC (Table 20.6). -/
def garnetEntry (seq time typ source flags : Nat) (body : Bytes) : Bytes :=
  let b := leBytes 8 seq ++ leBytes 8 time ++ leBytes 2 typ ++ leBytes 1 source ++ leBytes 1 flags ++ padTo 40 body
  b ++ leBytes 4 (crc32c b)

/-- Change the log. -/
def State.modLog (s : State) (f : LogSt → LogSt) : State := { s with log := f s.log }

/-- An entry that goes only to the host log ring, if it is enabled: SEQ 0 and RING_ONLY set (R749, Table 20.7). -/
def State.ringOnly (s : State) (typ : Nat) (body : Bytes) : State :=
  if !s.fon Fd.fwlogCtl_ENABLE then s else
  s.modLog fun l => { l with ringQ := l.ringQ ++ [garnetEntry 0 s.now typ 7 2 body] }

/-- The log engine accepts an entry (R744): SEQ, TIME and CRC; both banks; the host log ring. With both banks retired the
entry takes SEQ as before and goes to the ring, preceded once by a LOG_LOST entry (R756). -/
def State.submit (s : State) (typ source flags : Nat) (body : Bytes) : State :=
  let seq := s.reg .garnetSeq
  let e := garnetEntry seq s.now typ source flags body
  let r := s.fget Fd.garnetStatus_RETIRED
  let i := seq % 4096
  let lost := decide (4096 ≤ seq) && decide (s.reg .garnetFlushed ≤ seq - 4096)
  let s := if lost then s.inc Fd.garnetCounts_UNFLUSHED_LOST else s
  let s := if s.reg .garnetFlushed = seq then s.modLog fun l => { l with oldest := s.elapsed } else s
  let s := s.modLog fun l => { l with bank0 := if bit r 0 then l.bank0 else nset l.bank0 i e
                                      bank1 := if bit r 1 then l.bank1 else nset l.bank1 i e }
  let s := s.setReg .garnetSeq (seq + 1)
  if s.fon Fd.fwlogCtl_GARNET && s.fon Fd.fwlogCtl_ENABLE then
    let s := if r = 3 && !s.log.lostNoted then (s.ringOnly 0x000E (leBytes 8 seq)).modLog fun l => { l with lostNoted := true } else s
    s.modLog fun l => { l with ringQ := l.ringQ ++ [e] }
  else s

/-- A Steward entry (R729). -/
def State.stewardLog (s : State) (typ : Nat) (body : Bytes) : State := s.submit typ 0 0 body

/-- A trace entry, if its point is enabled (R749). -/
def State.trace (s : State) (point : Nat) (body : Bytes := []) : State :=
  if bit (s.reg .traceMask) point then s.ringOnly (0x0100 + point) body else s

/-- Latch event bits in one firmware processor (Table 20.5). -/
def State.latchProc (s : State) (n bitNo : Nat) : State :=
  s.modProc n fun p => { p with events := p.events.lor (2 ^ bitNo) }

/-- Latch an event in every firmware processor. -/
def State.latchProcs (s : State) (bitNo : Nat) : State := (List.range 5).foldl (fun s n => s.latchProc n bitNo) s

/-! Ports and packets (R515 to R518, R531). -/

/-- A port. -/
def State.port (s : State) (p : Nat) : PortSt := nget {} s.ports p
/-- Change a port. -/
def State.modPort (s : State) (p : Nat) (f : PortSt → PortSt) : State := { s with ports := nset s.ports p (f (s.port p)) }
/-- PORT_STATUS.STATE: 0 OFF, 1 STANDBY, 2 TRAINING, 3 DOWN, 4 HELD, 5 ACTIVE. -/
def State.portState (s : State) (p : Nat) : Nat := s.fget Fd.portStatus_STATE p

/-- The VC of a packet type (Table 14.5); none for NULL and CREDIT. -/
def packetVc (typ : Nat) : Option Nat :=
  if 0x10 ≤ typ ∧ typ ≤ 0x14 then some 0 else if typ = 0x20 then some 1 else if typ = 0x30 then some 2
  else if typ = 0x40 ∨ typ = 0x41 then some 3 else none

/-- Cut a packet into flit payloads of 15 slots, padded with NULL (R515, R517). -/
def flitsOf : Nat → List Word → List (List Word)
  | 0, _ => []
  | n + 1, l => if l.isEmpty then [] else (l.take 15 ++ List.replicate (15 - l.length) 0) :: flitsOf n (l.drop 15)

/-- The 128 bytes of a flit (R515, Table 14.3): 15 slots, then the trailer with CRC-32C over bytes 0 to 123. KIND is 0 IDLE, 1 DATA, 2 NAK. -/
def flitBytes (kind fseq ack : Nat) (slots : List Word) : Bytes :=
  let b := padTo 120 (slots.flatMap fun w => leBytes 8 w.toNat) ++ leBytes 4 (2 ^ 6 * kind + 2 ^ 8 * ack + 2 ^ 20 * fseq)
  b ++ leBytes 4 (crc32c b)

/-- Send a flit of a kind, with the current ACK (R516). -/
def State.sendFlit (s : State) (p kind fseq : Nat) (slots : List Word) : State := s.emit (.flit p (flitBytes kind fseq (s.port p).rxSeq slots))

/-- Change what the servo holds beside the registers. -/
def State.modTime (s : State) (f : TimeSt → TimeSt) : State := { s with time := f s.time }

/-- A field of a packet: slot i, bits [hi:lo]. -/
def slotBits (l : List Word) (i hi lo : Nat) : Nat := bits (l.getD i 0).toNat hi lo

/-- A TIME packet has the time point of the flit that carries it, sent or replayed: its T_TX is written then, and so is the t1 of a REQ not yet
answered (R597, R620). Only the flit of a TIME packet is kept with fewer than 15 slots. -/
def State.restamp (s : State) (p : Nat) (slots : List Word) : State × List Word :=
  if slots.length = 15 then (s, slots) else
  let l := (slots.set 3 (BitVec.ofNat 64 s.now)).set 5 (BitVec.ofNat 64 (slotBits slots 5 63 16 * 65536 + s.frac))
  let seq := slotBits slots 0 39 24
  (s.modTime fun t => { t with reqs := match nfind t.reqs p with
    | some r => if slotBits slots 0 19 16 = 0 ∧ r.getD 0 0 = seq then nset t.reqs p [seq, s.now, s.frac, r.getD 3 0] else t.reqs
    | none => t.reqs }, l)

/-- Send a DATA flit, or send it again (R531, R597). -/
def State.sendData (s : State) (p : Nat) (u : Nat × List Word) : State :=
  let (s, l) := s.restamp p u.2
  s.sendFlit p 1 u.1 l

/-- Send the DATA flits that the replay buffer of 512 has room for, in order (R531). -/
def State.pump (s : State) (p : Nat) : State :=
  let q := s.port p
  let l := (q.txq.take (512 - q.unacked.length)).zipIdx.map fun (f, i) => ((q.txSeq + i) % 4096, f)
  if l.isEmpty then s else
  let s := s.modPort p fun q => { q with txq := q.txq.drop l.length, unacked := q.unacked ++ l, txSeq := (q.txSeq + l.length) % 4096
                                         oldest := if q.unacked.isEmpty then s.elapsed else q.oldest }
  l.foldl (fun s u => s.sendData p u) s

/-- Put a packet on the slot stream of a port (R517). Nothing else is to be sent at that moment, so its last flit is filled with NULL. -/
def State.transmit (s : State) (p : Nat) (slots : List Word) : State :=
  (s.modPort p fun q => { q with txq := q.txq ++ if slotBits slots 0 7 0 = 0x41 then [slots] else flitsOf slots.length slots }).pump p

/-- Send a packet when its VC holds the credits for all of it (R518); else it waits, in order, for CREDIT. -/
def State.sendPacket (s : State) (p : Nat) (slots : List Word) : State :=
  match packetVc ((slots.headD 0).toNat % 256) with
  | none => s.transmit p slots
  | some v =>
    let q := s.port p
    if q.wait.any (fun w => w.1 = v) || decide (q.txCred.getD v 0 < slots.length) then
      s.modPort p fun q => { q with wait := q.wait ++ [(v, slots)] }
    else (s.modPort p fun q => { q with txCred := q.txCred.set v (q.txCred.getD v 0 - slots.length) }).transmit p slots

/-- The ports in use of the group that carries a fold's requests to a member (R149, R527): none where no record names it. DEDUCED (log entry 72):
of several records that name the member, the first with a port in use serves, as R149 answers FENCED only where none has. -/
def State.groupPorts (s : State) (f m : Nat) : Option (List Nat) :=
  let gs := (s.foldSec f).groups.filter fun g => g.peer == m
  if gs.isEmpty ∨ s.devSec.memberCount ≤ m then none
  else
    let used (g : PortGroup) : List Nat := (bitList 36 g.set).filter fun p => s.fon Fd.portStatus_IN_USE p
    some ((gs.find? fun g => !(used g).isEmpty).map used |>.getD [])

/-! Commands of the rings (R470, R477, R488). -/

/-- A word of a fetched descriptor (R470): 0 where it could not be read. -/
def RingCmd.word (c : RingCmd) (n : Nat) : Nat := leNat ((c.desc.drop (8 * n)).take 8)
/-- OPC of a descriptor (Table 13.3): 1 NOP, 2 KERNEL, 3 WAIT, 4 TIMESTAMP, 5 COLLECTIVE, 6 DOMAIN. -/
def RingCmd.opc (c : RingCmd) : Nat := bits (c.word 0) 7 0

/-- A ring beside its registers. -/
def State.ring (s : State) (r : Nat) : RingSt := nget {} s.rings r
/-- Change a ring. -/
def State.modRing (s : State) (r : Nat) (f : RingSt → RingSt) : State := { s with rings := nset s.rings r (f (s.ring r)) }
/-- Change a command of a ring, by its SEQ. -/
def State.modCmd (s : State) (r seq : Nat) (f : RingCmd → RingCmd) : State :=
  let at' (l : List RingCmd) : List RingCmd := l.map fun c => if c.seq = seq then f c else c
  s.modRing r fun x => { x with cmds := at' x.cmds, cancelled := at' x.cancelled }

/-- A command completes with a status and DETAIL, unless it has already. -/
def State.cmdDone (s : State) (r seq st det : Nat) : State :=
  s.modCmd r seq fun c => if c.phase = .done then c else { c with phase := .done, status := st, detail := det, fin := s.now }

/-- The command of a ring that has started with an OPC, and whose work has not begun. -/
def State.startedCmd (s : State) (r opc : Nat) : Option RingCmd :=
  (s.ring r).cmds.find? fun c => c.phase == .started && c.opc == opc

/-- A started command's work is under way: with n parts (KERNEL). -/
def State.cmdRun (s : State) (r seq n : Nat) : State := s.modCmd r seq fun c => { c with phase := .running, left := n }

/-- A part of a KERNEL ends with a status (R488): the command keeps the first of DATA_POISONED, ENGINE_FAULT, PARTICIPANT_LOST, FENCED,
ABORTED and OK, which is the highest code, and completes with its last part. -/
def State.partEnd (s : State) (r seq st det : Nat) : State :=
  s.modCmd r seq fun c =>
    if c.phase ≠ .running ∨ c.left = 0 then c else
    let c := if c.status < st then { c with status := st, detail := det } else c
    if c.left = 1 then { c with left := 0, phase := .done, fin := s.now } else { c with left := c.left - 1 }

/-- How a part ends that ends with a status (R488): what its engines marked comes first. -/
def Part.result (p : Part) (st det : Nat) : Nat × Nat :=
  if p.mark.testBit 0 then (9, 3) else if p.mark.testBit 1 ∧ st < 8 then (8, 1) else (st, det)

/-- A part leaves its mailbox with a status: one that an ABORT stop has cut has ended before, or ends ABORTED now if it still waited. -/
def State.partOver (s : State) (p : Part) (st det : Nat) : State :=
  if p.wait then s.partEnd p.ring p.seq (p.result 1 0).1 (p.result 1 0).2
  else if p.cut then s else s.partEnd p.ring p.seq (p.result st det).1 (p.result st det).2

/-- The parts a core holds end with a status, and its mailbox holds none (R488, R508). -/
def State.endParts (s : State) (c st det : Nat) : State :=
  let l := (s.core c).parts
  if l.isEmpty then s else
  let s := s.modCore c fun k => { k with parts := [] }
  l.foldl (fun s p => s.partOver p st det) s

/-! The end of a collective (R573, R579). -/

/-- A COLL packet (Table 15.3): kind, level, sender, COLL_ID, epoch, shape (CKIND, ROP, OUT_FMT), SEG_LEN, REASON, SEG and data. -/
def collSlots (kind level src id epoch shape len reason seg : Nat) (data : List Word) : List Word :=
  [BitVec.ofNat 64 (0x30 + 2 ^ 8 * (3 + data.length) + 2 ^ 16 * kind + 2 ^ 20 * level + 2 ^ 24 * src + 2 ^ 40 * id),
   BitVec.ofNat 64 (epoch + 2 ^ 32 * shape + 2 ^ 48 * len + 2 ^ 59 * reason), BitVec.ofNat 64 seg] ++ data

/-- CKIND, ROP and OUT_FMT at their places in bits [47:32] of slot 1. -/
def Coll.shape (x : Coll) : Nat := x.kind + 2 ^ 8 * x.rop + 2 ^ 12 * x.outFmt

/-- The port a segment's packets to a neighbour leave on (R559): none where its group has no port in use. -/
def State.collPort (s : State) (f m seg : Nat) : Option Nat :=
  match s.groupPorts f m with
  | some (p :: ps) => some ((p :: ps).getD (seg % (ps.length + 1)) p)
  | _ => none

/-- Send OPEN (2), or ABORT (3) with a reason, of a collective to a neighbour. The last 3 COLL credits of a port are an ABORT's: an OPEN that
would spend them is left to its repeat (R569, R571). -/
def State.sendCollCtl (s : State) (x : Coll) (kind reason m : Nat) : State :=
  match s.collPort x.fold m 0 with
  | some p =>
    if kind = 2 ∧ (s.port p).txCred.getD 2 0 < 6 then s
    else s.sendPacket p (collSlots kind 0 (s.member.getD 0) x.id x.epoch x.shape 0 reason 0 [])
  | none => s

/-- A collective leaves its slot: its command completes, and every Tureen shows its counts of it (R576). -/
def State.endColl (s : State) (i st det : Nat) : State :=
  match nfind s.colls i with
  | none => s
  | some x =>
    let s := { s with colls := ndel s.colls i }
    let s := (s.fset Fd.collSlot_BUSY 0 i).fset Fd.groupStatus_OPEN s.colls.length
    let s := (List.range 4).foldl (fun s q =>
      let n := x.nums.getD q (0, 0)
      (s.fset Fd.tureenNum_LAST_SAT (min n.1 (2 ^ 32 - 1)) q).fset Fd.tureenNum_LAST_FLUSH (min n.2 (2 ^ 32 - 1)) q) s
    let keep (b : Requester) : Bool := match b with | .coll _ j _ => j != i | _ => true
    let s := { s with replies := s.replies.filter (fun r => keep r.by'), hostOps := s.hostOps.filter fun e => keep e.2.by' }
    s.cmdDone x.ring x.seq st det

/-- The status and DETAIL of an abort reason where it arose (Table 15.6). -/
def abortStatus (reason : Nat) : Nat × Nat :=
  if reason = 6 then (1, 0) else if reason = 7 then (8, 1) else if reason = 8 then (9, 3) else (7, 0)

/-- A collective aborts with a reason (R579): ABORT to every neighbour, and its command completes; away where another member's ABORT
brought it. The Tureen of quarter 0, which sends the ABORT, counts it. -/
def State.abortColl (s : State) (i reason : Nat) (away : Bool) : State :=
  match nfind s.colls i with
  | none => s
  | some x =>
    let s := (s.devSec.neighbours (s.member.getD 0)).foldl (fun s m => s.sendCollCtl x 3 reason m) s
    let s := (s.fset Fd.collSlot_LAST_ABORT reason i).inc Fd.tureenCounts_ABORTS 0
    let r := if away then (7, 0) else abortStatus reason
    s.endColl i r.1 r.2

/-- The slots of the open collectives a predicate picks. -/
def State.collsOf (s : State) (p : Coll → Bool) : List Nat := (s.colls.filter fun (e : Nat × Coll) => p e.2).map (·.1)

/-- Abort the collectives of a fold that is fenced (R579). -/
def State.abortFoldColls (s : State) (f : Nat) : State :=
  (s.collsOf fun x => x.fold == f).foldl (fun s i => s.abortColl i 1 false) s

/-- Abort collectives that need a port group with no port in use (R579). -/
def State.checkColls (s : State) : State :=
  (s.collsOf fun x => (s.devSec.neighbours (s.member.getD 0)).any fun m => (s.collPort x.fold m 0).isNone).foldl
    (fun s i => s.abortColl i 2 false) s

/-! Fences (R629, R634). -/

/-- The key of a domain's fence: cores 0 to 287, folds from 288, ports from 304. -/
def domKey : Domain → Nat
  | .core n => n.val
  | .fold n => 288 + n.val
  | .port n => 304 + n.val

/-- A fence phase by key. -/
def State.fenceAt (s : State) (k : Nat) : FencePhase := nget .none s.fences k
/-- The fence phase of a core. -/
def State.coreFence (s : State) (c : Nat) : FencePhase := s.fenceAt c
/-- The fence phase of a fold. -/
def State.foldFence (s : State) (f : Nat) : FencePhase := s.fenceAt (288 + f)
/-- The fence phase of a port. -/
def State.portFence (s : State) (p : Nat) : FencePhase := s.fenceAt (304 + p)

/-- Set a fence phase by key, and the FENCED bit that shows it (R629: 1 only in FENCED). The parts of a core that becomes FENCED end
(R488). -/
def State.setFence (s : State) (k : Nat) (ph : FencePhase) : State :=
  let s := { s with fences := if ph = FencePhase.none then ndel s.fences k else nset s.fences k ph }
  let v := b2n (decide (ph = FencePhase.fenced))
  if k < 288 then
    let s := s.fset Fd.corePwr_FENCED v k
    if ph = FencePhase.fenced then s.endParts k 4 0 else s
  else if k < 304 then s.fset Fd.foldStatus_FENCED v (k - 288)
  else s.fset Fd.portPwr_FENCED v (k - 304)

/-- The present cores a fold owns. -/
def State.foldCores (s : State) (f : Nat) : List Nat := (bitList 288 (s.foldSec f).cores).filter s.corePresent
/-- The ports a fold owns. -/
def State.foldPorts (s : State) (f : Nat) : List Nat := bitList 36 (s.foldSec f).ports

/-! Engines are numbered as in R185: 0 MATRIX, 1 VECTOR, 2 WHISK, 3 MOVER, 4 POUR. -/

/-- STATE of an engine: 0 IDLE, 1 RUNNING, 2 STOPPED. -/
def engStateF (e : Nat) : FieldRef :=
  match e with
  | 0 => Fd.matrixStatus_STATE
  | 1 => Fd.vectorStatus_STATE
  | 2 => Fd.whiskStatus_STATE
  | 3 => Fd.moverStatus_STATE
  | _ => Fd.pourStatus_STATE

/-- STATE of an engine of a core. -/
def State.engState (s : State) (c e : Nat) : Nat := s.fget (engStateF e) c
/-- Set STATE of an engine. -/
def State.setEngState (s : State) (c e v : Nat) : State := s.fset (engStateF e) v c

/-- The numeric engine of an engine: 0 MATRIX, 1 VECTOR, 2 WHISK, 3 the expander. -/
def numOf (e : Nat) : Nat := if e = 4 then 3 else e

/-- A word finishes or stops: NUM_LAST takes its counts (R279, R285). -/
def State.numEnd (s : State) (c e : Nat) : State :=
  let n := numOf e
  let p := (s.core c).nums.getD n (0, 0)
  let s := (s.fset Fd.numLast_LAST_SAT (min p.1 (2 ^ 32 - 1)) c n).fset Fd.numLast_LAST_FLUSH (min p.2 (2 ^ 32 - 1)) c n
  s.modCore c fun k => { k with nums := k.nums.set n (0, 0) }

/-- Show the count of resident groups. -/
def State.noteResident (s : State) (c : Nat) : State := s.fset Fd.whiskStatus_RESIDENT (s.core c).whisk.groups.length c

/-- The Whisk engine of a core discards its groups and its launch word (R351); NUM_LAST takes the counts of that word (R285). -/
def State.whiskCut (s : State) (c : Nat) : State :=
  let s := if (s.core c).whisk.word.isSome then s.numEnd c 2 else s
  (s.modCore c fun k => { k with whisk := k.whisk.discarded }).noteResident c

/-- A fence or a reset of a core stops an array test at once: the array returns untested and is due again at once (R683). -/
def State.cutTest (s : State) (c : Nat) : State :=
  if (s.core c).test.isNone then s
  else { s with tests := nset s.tests c (nget 0 s.tests c - 1) }.modCore c fun k => { k with test := none }

/-- Begin a fence of one core or port by its key: a fence there already is joined (R646). A core so fenced has not yet taken a
CORE reset since (R635); an instruction of its twin that waits ends without effect, and EPC names it (R202). -/
def State.beginFence (s : State) (k : Nat) : State :=
  if s.fenceAt k = FencePhase.none then
    let s := s.setFence k .fencing
    let s := { s with fenceSince := nset s.fenceSince k s.elapsed }
    if k < 288 then
      let t := (s.core k).twin
      let s := ((s.cutTest k).modCore k fun c => { c with wasReset := false }).whiskCut k
      if t.waiting then
        { s with waiters := ndel s.waiters k }.modTwin k fun t => { t with epc := t.pc, waiting := false }
      else s
    else s
  else s

/-- Fence a core (R634 steps 1 to 3). Its engines stop at their boundaries: no command of theirs acts while it is fenced. -/
def State.fenceCore (s : State) (c : Nat) : State := s.beginFence c
/-- Fence a port (R636). -/
def State.fencePort (s : State) (p : Nat) : State := s.beginFence (304 + p)
/-- Fence a fold: the fold, and every core and port it owns (Table 17.1); its collectives abort (R579). -/
def State.fenceFold (s : State) (f : Nat) : State :=
  let s := s.beginFence (288 + f)
  let s := (s.foldCores f).foldl State.fenceCore s
  let s := (s.foldPorts f).foldl State.fencePort s
  s.abortFoldColls f

/-- The folds that own a core or a port on a die; the hub counts for every fold (Table 18.5). -/
def State.foldsOnDie (s : State) (d : Nat) : List Nat :=
  (List.range s.foldSecs.length).filter fun f =>
    d = 4 || (bitList 288 (s.foldSec f).cores).any (fun c => coreDie c = d) || (s.foldPorts f).any fun p => portDie p = d

/-- The folds that have a line on a channel: with SPREAD every fold, since lines lie on all channels (R139, R435). -/
def State.foldsOnChannel (s : State) (c : Nat) : List Nat :=
  (List.range s.foldSecs.length).filter fun f => s.devSec.hashMode = 0 || (s.foldSec f).channels.testBit c

/-- Fence every fold of a list. -/
def State.fenceFolds (s : State) (l : List Nat) : State := l.foldl State.fenceFold s

/-- Before an image is loaded, a fence of the folds of a die fences its present cores and its ports (R689). -/
def State.fenceUnits (s : State) (d : Nat) : State :=
  let s := ((List.range 288).filter fun c => s.corePresent c && (d = 4 || coreDie c = d)).foldl State.fenceCore s
  ((List.range 36).filter fun p => d = 4 || portDie p = d).foldl State.fencePort s

/-- Fence what lies on a die. -/
def State.fenceDie (s : State) (d : Nat) : State := if s.hasImage then s.fenceFolds (s.foldsOnDie d) else s.fenceUnits d

/-! Fault detections (chapter 18). -/

/-- A detection: class, domain kind (1 CORE, 2 PORT, 3 CHANNEL, 4 DIE), domain index, DETAIL (R662, Table 18.9). -/
structure Det where
  cls : Nat
  kind : Nat
  idx : Nat
  detail : Nat := 0
  deriving DecidableEq, Repr

/-- The die of a domain. -/
def Det.die (d : Det) : Nat :=
  if d.kind = 1 then coreDie d.idx else if d.kind = 2 then portDie d.idx else if d.kind = 3 then chanDie d.idx else d.idx

/-- The default response of a class (Table 18.3). -/
def defaultResponse (c : Nat) : Nat :=
  if c = 1 ∨ c = 2 ∨ c = 3 then 2 else if c = 4 ∨ c = 5 then 1 else if 6 ≤ c ∧ c ≤ 9 then 2
  else if c = 0x0B ∨ c = 0x0E then 2 else if c = 0x12 ∨ c = 0x13 then 1 else 0

/-- The response the image gives a class (R97, R663). -/
def State.responseOf (s : State) (c : Nat) : Nat :=
  ((s.devSec.responses.find? fun r => r.1 == c).map (·.2)).getD (defaultResponse c)

/-- Map out a lane by response (R534). The number of lanes UNITS_SUMMARY shows is computed when it is read. -/
def State.mapOutLane (s : State) (p lane : Nat) : State :=
  let r := s.reg .lanesOut (p / 16)
  let s := s.setReg .lanesOut (r.lor (2 ^ (4 * (p % 16) + lane))) (p / 16)
  s.fset Fd.portStatus_LANES_FAILED ((s.fget Fd.portStatus_LANES_FAILED p).lor (2 ^ lane)) p

/-- Map out a channel (R435): the folds with a line on it are fenced, its slice's lines are discarded, and it is MAPPED_OUT. -/
def State.mapOutChannel (s : State) (c : Nat) : State :=
  let s := (s.fenceFolds (s.foldsOnChannel c)).setMapBit .channelsOut c
  { s with l2 := s.l2.filter fun e => e.1 / 256 != c }.fset Fd.hbmStatus_STATE 3 c

/-- The response that RESPONSES names: for QUEUE_UNCORRECTABLE, FENCE_CORE and FENCE_PORT both mean the fence of its domain (R663). -/
def Det.taken (d : Det) (r : Nat) : Nat :=
  if d.cls = 0x0B ∧ (r = 2 ∨ r = 4) then (if d.kind = 1 then 2 else if d.kind = 2 then 4 else 3) else r

/-- Act a response on the domain of a detection (Table 18.5). The fence of its domain, for QUEUE_UNCORRECTABLE of DIE 4, is that of the
fold of the ring its DETAIL names (R663). Before an image is loaded, units are fenced in place of folds (R689). -/
def State.respond (s : State) (d : Det) (r : Nat) : State :=
  if r = 0 then s
  else if r = 1 then
    if d.kind = 1 then
      if d.cls = 4 ∨ d.cls = 5 then s.setReg .arrayOut ((s.reg .arrayOut d.idx).lor (2 ^ (d.detail % 64))) d.idx
      else (s.fenceCore d.idx).setMapBit .coresOut d.idx
    else if d.kind = 2 then s.mapOutLane d.idx (d.detail % 4)
    else if d.kind = 3 then s.mapOutChannel d.idx
    else s
  else if r = 3 ∨ d.kind = 4 ∨ d.kind = 3 then
    if d.cls = 0x0B ∧ d.kind = 4 ∧ r ≠ 3 ∧ s.hasImage then
      match s.foldOfRing (d.detail % 256) with
      | some f => s.fenceFold f
      | none => s
    else if d.kind = 4 then s.fenceDie d.idx
    else if d.kind = 3 then s.fenceFolds (s.foldsOnChannel d.idx)
    else if d.kind = 2 then
      match s.foldOfPort d.idx with
      | some f => s.fenceFold f
      | none => if s.hasImage then s else s.fencePort d.idx
    else match s.foldOfCore d.idx with
      | some f => s.fenceFold f
      | none => if s.hasImage then s else s.fenceCore d.idx
  else if d.kind = 2 then s.fencePort d.idx
  else s.fenceCore d.idx

/-- The fence an overflow makes, whatever the class's response (R669 rule 4). -/
def State.overflowFence (s : State) (d : Det) : State :=
  if d.kind = 4 then s.fenceDie d.idx
  else if d.kind = 3 then s.fenceFolds (s.foldsOnChannel d.idx)
  else if d.kind = 2 then s.fencePort d.idx
  else s.fenceCore d.idx

/-- A slot of a collector: whether it holds a detection of the same domain. -/
def slotHolds (v : Nat) (d : Det) : Bool :=
  bit v 63 && bits v 47 44 == d.kind && bits v 43 32 == d.idx

/-- A slot that takes a detection. -/
def slotTake (d : Det) (r : Nat) : Nat :=
  2 ^ 63 + 2 ^ 48 * d.cls + 2 ^ 44 * d.kind + 2 ^ 32 * d.idx + 2 ^ 16 + 2 ^ (8 + r)

/-- A slot a detection is coalesced into: COUNT, MIXED and RESPONSES (R669 rule 1). -/
def slotMerge (v : Nat) (d : Det) (r : Nat) : Nat :=
  let v := putBits v 31 16 (satAdd 0xFFFF (bits v 31 16) 1)
  let v := if bits v 55 48 = d.cls then v else v.lor (2 ^ 62)
  v.lor (2 ^ (8 + r))

/-- Place a detection at its die's collector (R669). True when it overflowed. -/
def State.place (s : State) (die : Nat) (d : Det) (r : Nat) : State × Bool :=
  let s := s.inc Fd.fcCounts_DETECTIONS die
  let a := s.reg .fcActive die
  let p := s.reg .fcPending die
  if slotHolds a d then (s.setReg .fcActive (slotMerge a d r) die, false)
  else if slotHolds p d then (s.setReg .fcPending (slotMerge p d r) die, false)
  else if !bit a 63 then
    let s := s.setReg .fcActive (slotTake d r) die
    let s := s.setReg .fcActiveTime s.now die
    let s := s.setReg .fcActiveDetail d.detail die
    (s.latchProc (if die = 4 then 0 else die + 1) 17, false)
  else if !bit p 63 then
    let s := s.setReg .fcPending (slotTake d r) die
    let s := s.setReg .fcPendingTime s.now die
    (s.setReg .fcPendingDetail d.detail die, false)
  else (s.inc Fd.fcCounts_OVERFLOW die, true)

/-- Set bits of FAULT_SUMMARY; the fault vector is raised when a bit goes from 0 to 1 (R672). The falling edge of FAULT_N, which
RESPONSE_TAKEN and OVERFLOW drive, latches in every firmware processor (Table 20.5). -/
def State.summary (s : State) (m : Nat) : State :=
  let v := s.reg .faultSummary
  let v' := v.lor m
  let s := s.setReg .faultSummary v'
  let s := if v.land 0xC0 = 0 ∧ v'.land 0xC0 ≠ 0 then s.latchProcs 16 else s
  if v' = v then s else s.raiseVec 96

/-- The hub's count and report of a detection raised on a die (R668, R672); n detections at once after a path is restored. -/
def State.hubReport (s : State) (die cls n : Nat) (taken lost : Bool) : State :=
  let s := s.incBy Fd.faultClassCount_COUNT n cls
  s.summary (2 ^ die + (if taken then 0x40 else 0) + (if lost then 0x80 else 0))

/-- Whether a path from a quarter to the hub has failed (R687). -/
def State.pathDown (s : State) (q p : Nat) : Bool := nhas s.hubPaths (2 * q + p)

/-- A detection raised on a die: its response begins, it is placed in that die's collector, and the hub counts and reports it,
unless both paths of a quarter have failed: then the quarter counts it itself (R687). -/
def State.detectOn (s : State) (die : Nat) (d : Det) : State :=
  let r := s.responseOf d.cls
  let s := s.respond d r
  let (s, lost) := s.place die d (d.taken r)
  let s := if lost then s.overflowFence d else s
  let taken := decide (r ≠ 0) || lost
  if die < 4 ∧ s.pathDown die 0 ∧ s.pathDown die 1 then
    let k := 1024 * die + 2 * d.cls + b2n taken
    { s with hubHeld := nset s.hubHeld k (nget 0 s.hubHeld k + 1) }
  else
    let s := s.hubReport die d.cls 1 taken lost
    if d.cls = 0x1C then s.raiseVec 103 else s

/-- A detection raised on the die of its domain. -/
def State.detect (s : State) (d : Det) : State := s.detectOn d.die d

/-- A class on a core. -/
def State.detectCore (s : State) (cls c detail : Nat) : State := s.detect ⟨cls, 1, c, detail⟩
/-- A class on the hub. -/
def State.detectHub (s : State) (cls detail : Nat) : State := s.detect ⟨cls, 4, 4, detail⟩

/-! Ports (R518, R531, R532, R539). -/

/-- Latch event bits in a twin (Table 5.6). -/
def State.latchCore (s : State) (c bitNo : Nat) : State :=
  s.modTwin c fun t => { t with events := t.events ||| BitVec.ofNat 64 (2 ^ bitNo) }

/-- Latch an event in every core of a fold. -/
def State.latchFold (s : State) (f bitNo : Nat) : State := (s.foldCores f).foldl (fun s c => s.latchCore c bitNo) s

/-- Give a requester its reply. -/
def State.reply (s : State) (r : Reply) : State := { s with replies := s.replies ++ [r] }

/-- An RSP packet (R523). -/
def rspSlots (tag gen status : Nat) (data : Bytes) : List Word :=
  let n := (data.length + 7) / 8
  BitVec.ofNat 64 (0x20 + 2 ^ 8 * n + 2 ^ 24 * (tag % 2 ^ 16) + 2 ^ 40 * status + 2 ^ 48 * (gen % 256)) ::
    (List.range n).map fun i => BitVec.ofNat 64 (leNat ((data.drop (8 * i)).take 8))

/-- The status code of an answer (Table 14.7); an error is answered as fenced. -/
def Answer.code : Answer → Nat
  | .done => 0
  | .dropped => 0
  | .fenced => 1
  | .miss => 2
  | .poisoned => 3
  | .error => 1

/-- Give an answer to a requester: a forwarded request's RSP goes back on its arrival port with its tag and generation restored
(R524), if that port's generation still stands; any other reply waits for its requester. -/
def State.answer (s : State) (b : Requester) (a : Answer) (data : Bytes := []) : State :=
  match b with
  | .forward p tag gen => if s.portState p = 5 then s.sendPacket p (rspSlots tag gen a.code data) else s
  | .late n => s.inc Fd.domainGen_LATE_REPLIES n
  | b => s.reply ⟨b, a, data⟩

/-- Raise a generation tag by one, modulo 256 (R699). Ports keep theirs in PORT_STATUS. -/
def State.genPort (s : State) (p : Nat) : State := s.fset Fd.portStatus_GEN (s.fget Fd.portStatus_GEN p + 1) p

/-- A request that arrived on a port and is forwarded or waits for the host loses its way back: there is no port 36. -/
def Requester.orphan (p : Nat) : Requester → Requester
  | .forward q tag gen => if q = p then .forward 36 tag gen else .forward q tag gen
  | b => b

/-- Requests that arrived on a port and are not yet answered get no response (R539). -/
def State.orphanForwards (s : State) (p : Nat) : State :=
  { s with
    ports := s.ports.map fun (e : Nat × PortSt) => (e.1, { e.2 with
      outst := e.2.outst.map fun (r : Nat × OutReq) => (r.1, ({ r.2 with by' := r.2.by'.orphan p } : OutReq)) })
    hostOps := s.hostOps.map fun (e : Nat × HostOp) => (e.1, ({ e.2 with by' := e.2.by'.orphan p } : HostOp)) }

/-- Answer every request outstanding on a port FENCED, and drop what arrived on it and is not yet performed (R539), and the requests and COLL
packets that wait for credits: HELD carries none (R532). -/
def State.answerOutst (s : State) (p : Nat) : State :=
  let s := s.orphanForwards p
  let l := (s.port p).outst
  let s := s.modPort p fun q => { q with outst := [], retired := [], fwd := [], wait := q.wait.filter fun w => w.1 == 1 || w.1 == 3 }
  l.foldl (fun s r => s.answer r.2.by' .fenced) (s.fset (⟨.portReq, 10, 0⟩ : FieldRef) 0 p)

/-- Set a port's state; a change latches LINK for the cores of its fold and bit 18 for its Ladle and the Steward. -/
def State.setPortState (s : State) (p st : Nat) : State :=
  if s.portState p = st then s else
  let s := s.fset Fd.portStatus_STATE st p
  let s := s.modPort p fun q => { q with since := s.elapsed, linkLatched := true, lastTx := if st = 4 then [] else q.lastTx }
  let s := match s.foldOfPort p with
    | some f => s.latchFold f 4
    | none => s
  (s.latchProc 0 18).latchProc (portDie p + 1) 18

/-- Number of lanes in a lane map. -/
def lanesIn (m : Nat) : Nat := popcount 4 m

/-- The fewest lanes a port's group asks for (R533). -/
def State.minLanes (s : State) (p : Nat) : Option Nat :=
  match s.foldOfPort p with
  | none => none
  | some f => ((s.foldSec f).groups.find? fun g => g.set.testBit p).map (·.minLanes)

/-- Work out IN_USE of a port (R533). -/
def State.setInUse (s : State) (p : Nat) : State :=
  let use := match s.minLanes p with
    | none => false
    | some m => s.portState p == 5 && decide (m ≤ lanesIn (s.fget Fd.portStatus_TX_LANE_MAP p)) &&
        decide (m ≤ lanesIn (s.fget Fd.portStatus_RX_LANE_MAP p))
  (s.fset Fd.portStatus_IN_USE (b2n use) p).checkColls

/-- A port leaves ACTIVE, if it is there (R539), for a state. -/
def State.leaveActive (s : State) (p st : Nat) : State :=
  let s := if s.portState p = 5 then (s.genPort p).answerOutst p else s
  (s.setPortState p st).setInUse p

/-- A port that carries nothing has no lane maps and no speed (Table 14.14). -/
def State.noLanes (s : State) (p : Nat) : State :=
  ((s.fset Fd.portStatus_TX_LANE_MAP 0 p).fset Fd.portStatus_RX_LANE_MAP 0 p).fset Fd.portStatus_SPEED 0 p

/-- The link layer of a port that enters TRAINING restarts with FSEQ 0 and the credits of Table 14.4 (Table 14.8). -/
def PortSt.training (q : PortSt) (now : Nat) : PortSt := { q with
  txCred := [1024, 2048, 2048, 128], rxCred := [1024, 2048, 2048, 128], wait := [], txSeq := 0, txq := [], unacked := []
  replays := 0, rxSeq := 0, nakAt := none, lanes := [{}, {}, {}, {}], rounds := [], round := none, stream := [], since := now, agreeAt := none }

/-- A port enters TRAINING (Table 14.8). -/
def State.enterTraining (s : State) (p : Nat) : State :=
  let now := s.elapsed
  (((s.leaveActive p 2).inc Fd.portEvents_RETRAINS p).noLanes p).modPort p fun q => q.training now

/-- Whether a port is in HELD or ACTIVE. -/
def State.portUp (s : State) (p : Nat) : Bool := s.portState p == 4 || s.portState p == 5

/-- A port goes to TRAINING other than by command or reset: LINK_DOWN if it was in HELD or ACTIVE (Table 14.12). -/
def State.dropToTraining (s : State) (p : Nat) : State :=
  let up := s.portUp p
  let s := s.enterTraining p
  if up then s.detect ⟨0x14, 2, p, 0⟩ else s

/-- A protocol error (R545). -/
def State.protocolError (s : State) (p : Nat) : State :=
  let s := s.inc Fd.portEvents_PROTO_ERRORS p
  (s.dropToTraining p).detect ⟨0x15, 2, p, 0⟩

/-- A packet arrives at a port that carries its VC (R518, R519, R541, R545): one sent without the credits it needs is a protocol error;
else its slots are freed as it is taken, and their credits returned. The flag says whether it is taken. -/
def State.acceptPacket (s : State) (p : Nat) (slots : List Word) : State × Bool :=
  match packetVc ((slots.headD 0).toNat % 256) with
  | none => (s.protocolError p, false)
  | some v =>
    if (s.port p).rxCred.getD v 0 < slots.length then (s.protocolError p, false)
    else (s.transmit p [BitVec.ofNat 64 (1 + slots.length * 2 ^ (16 + 12 * v))], true)

/-- LANE_MAP of the lanes a sender may use, under a host-commanded width of 4, 2 or 1 (R535, R640): none where no lane is left. -/
def chooseLanes (g width : Nat) : Nat :=
  if width = 4 ∧ g % 16 = 15 then 15
  else if 2 ≤ width ∧ g % 4 = 3 then 3
  else if 2 ≤ width ∧ g / 4 % 4 = 3 then 12
  else ((List.range 4).find? fun i => g.testBit i).elim 0 fun i => 2 ^ i

/-- The lanes of a port that its peer receives well and that nothing here has taken out (R535). -/
def State.goodLanes (s : State) (p : Nat) : Nat :=
  (s.fget Fd.portStatus_PEER_RX_GOOD p).land (15 - (s.lanesOutOf p).lor (s.fget Fd.portStatus_LANES_FAILED p))

/-- A sender chooses its LANE_MAP (R535): with no lane left the port goes to TRAINING and raises LINK_DOWN. -/
def State.relane (s : State) (p : Nat) : State :=
  if !s.portUp p then s else
  let m := chooseLanes (s.goodLanes p) (s.port p).width
  if m = 0 then s.dropToTraining p else (s.fset Fd.portStatus_TX_LANE_MAP m p).setInUse p

/-- A write of the device to host memory: held while the device may not master (R799), lost while the link is down (R800). The
flag says whether it was sent or held. -/
def State.hostWriteF (s : State) (addr : Nat) (data : Bytes) (cause : Nat) : State × Bool :=
  if !s.mayMaster then ({ s with host := { s.host with held := s.host.held ++ [.hostWrite addr data] } }, true)
  else if s.fon Fd.pcieStatus_LINK_UP then (s.emit (.hostWrite addr data), true)
  else ((s.inc Fd.pcieCounts_WRITES_LOST).detectHub 0x1C cause, false)

/-- A write of the device to host memory. -/
def State.hostWrite (s : State) (addr : Nat) (data : Bytes) : State := (s.hostWriteF addr data 3).1

/-- A read request of the device to host memory, held as R799 states. -/
def State.hostReq (s : State) (o : Out) : State :=
  if s.mayMaster then s.emit o else { s with host := { s.host with held := s.host.held ++ [o] } }

end Sys2Proof.Machine
end

