-- ==== Sys2Proof/Machine/Mem.lean ====
section
/-!
DEFINITION. Device memory as the fabric's targets hold it: the slice hash and the L2 slices in front of HBM (chapter 11), Pantry
storage and the arrival counters (chapter 10), pinning, patrol and scrub.
-/
namespace Sys2Proof.Machine

/-! Places (R138, R408). -/

/-- Bytes of a fold's HBM region (R138). -/
def State.regionSize (s : State) (f : Nat) : Nat := Config.channelBytes * popcount 256 (s.foldSec f).channels

/-- First local address of a fold's HBM region (R138). -/
def State.regionBase (s : State) (f : Nat) : Nat := ((List.range f).map s.regionSize).foldl (· + ·) 0

/-- The fold whose HBM region holds a local address. -/
def State.hbmFold (s : State) (a : Nat) : Option Nat :=
  (List.range s.foldSecs.length).find? fun f => decide (s.regionBase f ≤ a) && decide (a < s.regionBase f + s.regionSize f)

/-- The channel list of the slice hash (R408). -/
def State.hashList (s : State) (f : Nat) : List Nat :=
  if s.devSec.hashMode = 0 then bitList 256 (s.foldSecs.foldl (fun m x => m.lor x.channels) 0) else bitList 256 (s.foldSec f).channels

/-- The rotation of R408 for a line number within the channels. -/
def hashRot (seed q : Nat) : Nat := ((0x9E3779B1 * q % 2 ^ 32).xor seed) / 65536

/-- The channel, and the line within it, of local line number l over a channel list (R408). -/
def hashPlace (seed : Nat) (list : List Nat) (l : Nat) : Nat × Nat :=
  let n := list.length
  let q := l / n
  (list.getD ((l % n + hashRot seed q) % n) 0, q)

/-- The set of a line (R408). -/
def hashSet (q : Nat) : Nat := ((bits q 7 0).xor (bits q 15 8)).xor ((bits q 23 16).xor (bits q 24 24))

/-- The pseudo-channel of a line (R408): both bursts of the line lie in it (Table 11.1). -/
def hashPseudo (q : Nat) : Nat := q % 2

/-- Where an HBM local address lies: channel and line (R408). -/
def State.hbmPlace (s : State) (a : Nat) : Option (Nat × Nat) :=
  (s.hbmFold a).map fun f =>
    hashPlace s.devSec.hashSeed (s.hashList f) ((if s.devSec.hashMode = 0 then a else a - s.regionBase f) / 64)

/-- The local address of a channel's line: the inverse of the hash. -/
def State.lineLocal (s : State) (ch q : Nat) : Nat :=
  let f := ((List.range s.foldSecs.length).find? fun f => (s.foldSec f).channels.testBit ch).getD 0
  let list := s.hashList f
  let n := list.length
  let i := ((List.range n).find? fun i => list.getD i 0 == ch).getD 0
  let rot := hashRot s.devSec.hashSeed q % n
  (if s.devSec.hashMode = 0 then 0 else s.regionBase f) + 64 * (q * n + (i + n - rot) % n)

/-! HBM lines (R411, R412). -/

/-- The memory key of a channel's line. -/
def hbmKey (ch q : Nat) : Nat := Config.channelBytes * ch + q * 64

/-- Whether a granule, by its memory key divided by 64, is poisoned. -/
def State.isPoison (s : State) (k : Nat) : Bool := nhas s.poison k
/-- Poison a granule or clear its poison. -/
def State.setPoison (s : State) (k : Nat) (p : Bool) : State :=
  { s with poison := if p then nset s.poison k () else ndel s.poison k }

/-- Write a string of bytes to device memory. -/
def State.put (s : State) (a : Nat) (b : Bytes) : State := { s with mem := mwrites s.mem a b }

/-- A line of HBM as its check symbols decode: its bytes and whether they decode as POISONED. -/
def State.hbmLine (s : State) (ch q : Nat) : Bytes × Bool := (mreads s.mem (hbmKey ch q) 64, s.isPoison (hbmKey ch q / 64))

/-- Write a whole line to HBM, poisoned or not. -/
def State.hbmStore (s : State) (ch q : Nat) (b : Bytes) (p : Bool) : State :=
  (s.put (hbmKey ch q) b).setPoison (hbmKey ch q / 64) p

/-! L2 slices (R406, R413). -/

/-- A mask of 64 bytes. -/
abbrev fullMask : Nat := 2 ^ 64 - 1

/-- The mask of len bytes from off. -/
def maskOf (off len : Nat) : Nat := (2 ^ len - 1) * 2 ^ off

/-- Choose, byte by byte, the first string where a mask bit is 1 and the second where it is 0. -/
def mergeMask (m : Nat) (a b : Bytes) : Bytes := (List.range 64).map fun i => if m.testBit i then a.getD i 0 else b.getD i 0

/-- The key of a set of a slice. -/
def l2Key (ch q : Nat) : Nat := ch * 256 + hashSet q

/-- The ways of a line's set, most recently used first. -/
def State.l2Set (s : State) (ch q : Nat) : List L2Line := nget [] s.l2 (l2Key ch q)

/-- Set the ways of a line's set. -/
def State.l2Put (s : State) (ch q : Nat) (l : List L2Line) : State :=
  { s with l2 := if l.isEmpty then ndel s.l2 (l2Key ch q) else nset s.l2 (l2Key ch q) l }

/-- The way that holds a line. -/
def State.l2Find (s : State) (ch q : Nat) : Option L2Line := (s.l2Set ch q).find? fun w => w.q == q

/-- Place a way as its set's most recently used. -/
def State.l2Touch (s : State) (ch : Nat) (w : L2Line) : State :=
  s.l2Put ch w.q (w :: (s.l2Set ch w.q).filter fun x => x.q != w.q)

/-- Write a way's dirty bytes back to HBM (R413, R412, R430): a line whose bytes are not all valid merges with HBM's, and its poison. -/
def State.writeBack (s : State) (ch : Nat) (w : L2Line) : State :=
  if w.dirty = 0 then s
  else if w.valid = fullMask then s.hbmStore ch w.q w.data w.poison
  else
    let (b, p) := s.hbmLine ch w.q
    s.hbmStore ch w.q (mergeMask w.valid w.data b) (p || w.poison)

/-- The least recently used way that is not pinned. -/
def victim (l : List L2Line) : Option L2Line := l.reverse.find? fun w => w.pin.isNone

/-- Make room for one more way in a line's set (R413): a set holds 16 ways. -/
def State.l2Room (s : State) (ch q : Nat) : State :=
  let l := s.l2Set ch q
  if l.length < 16 then s else
  match victim l with
  | none => s
  | some v =>
    let s := s.writeBack ch v
    let s := s.inc Fd.l2Pressure_EVICTIONS ch
    let s := if l.any fun w => w.pin.isSome then s.inc Fd.l2Pressure_PINNED_SET_EVICTIONS ch else s
    s.l2Put ch q (l.filter fun w => w.q != v.q)

/-- A way of a line with every byte valid: read from HBM and merged where it was not (Table 11.2). -/
def State.l2Fill (s : State) (ch q : Nat) : State × L2Line :=
  match s.l2Find ch q with
  | some w =>
    if w.valid = fullMask then (s.l2Touch ch w, w)
    else
      let (b, p) := s.hbmLine ch q
      let w := { w with data := mergeMask w.valid w.data b, valid := fullMask, poison := w.poison || p }
      (s.l2Touch ch w, w)
  | none =>
    let s := s.l2Room ch q
    let (b, p) := s.hbmLine ch q
    let w : L2Line := { q := q, valid := fullMask, dirty := 0, data := b, poison := p }
    (s.l2Touch ch w, w)

/-- A load at a slice (Table 11.2, R412). -/
def State.l2Load (s : State) (ch q off len : Nat) : State × Bytes × Bool :=
  match s.l2Find ch q with
  | some w =>
    if w.valid.land (maskOf off len) = maskOf off len then
      (s.l2Touch ch w, (w.data.drop off).take len, w.poison)
    else
      let (s, w) := s.l2Fill ch q
      (s, (w.data.drop off).take len, w.poison)
  | none =>
    let (s, w) := s.l2Fill ch q
    (s, (w.data.drop off).take len, w.poison)

/-- Replace the bytes of a 64-byte string from off. -/
def overlay (d : Bytes) (off : Nat) (b : Bytes) : Bytes := d.take off ++ b ++ d.drop (off + b.length)

/-- A store at a slice of the bytes a mask marks of a line's 64 (Table 11.2): a store of all 64 bytes clears the poison (R412). -/
def State.l2StoreMask (s : State) (ch q m : Nat) (b : Bytes) : State :=
  match s.l2Find ch q with
  | some w => s.l2Touch ch { w with data := mergeMask m b w.data, valid := w.valid.lor m, dirty := w.dirty.lor m,
                                     poison := w.poison && m != fullMask }
  | none => (s.l2Room ch q).l2Touch ch { q := q, valid := m, dirty := m, data := mergeMask m b [] }

/-- A store at a slice of a string of bytes from off. -/
def State.l2Store (s : State) (ch q off : Nat) (b : Bytes) : State :=
  if b.isEmpty then s else s.l2StoreMask ch q (maskOf off b.length) (overlay (List.replicate 64 0) off b)

/-- HBM_STATUS.STATE of a channel: 0 TRAINING, 1 ACTIVE, 2 SELF_REFRESH, 3 MAPPED_OUT, 4 TRAINING_FAILED. -/
def State.chanState (s : State) (ch : Nat) : Nat := s.fget Fd.hbmStatus_STATE ch

/-- How a channel that serves no request answers (R422, R435). -/
def State.chanAnswer (s : State) (ch : Nat) : Option Answer :=
  if s.chanState ch = 2 then some .fenced else if s.chanState ch = 3 then some .poisoned else none

/-! Atomics (Table 14.6). -/

/-- The atomic operations, by the codes of Table 14.6: 0 ADD, 1 AND, 2 OR, 3 XOR, 4 MIN, 5 MAX (signed), 6 MINU, 7 MAXU, 8 SWAP,
9 CAS. -/
def atomicOp (aop size old operand expect : Nat) : Nat :=
  let n := 8 * size
  let x := old % 2 ^ n
  let y := operand % 2 ^ n
  match aop with
  | 0 => (x + y) % 2 ^ n
  | 1 => x.land y
  | 2 => x.lor y
  | 3 => x.xor y
  | 4 => if sext n y < sext n x then y else x
  | 5 => if sext n x < sext n y then y else x
  | 6 => min x y
  | 7 => max x y
  | 8 => y
  | _ => if x = expect % 2 ^ n then y else x

/-- The pairs of a CAS of 4 bytes applied in order (R522): compare and swap values; the final value and what each pair observed. -/
def casPairs : Nat → List (Nat × Nat) → Nat × List Nat
  | x, [] => (x, [])
  | x, (c, w) :: l =>
    let (y, o) := casPairs (if x = c then w else x) l
    (y, x :: o)

/-! Pantry (R362 to R369, R403, R660). -/

/-- The memory key of a Pantry byte. -/
def pantryKey (c off : Nat) : Nat := Config.pantryBase + Config.pantryBytes * c + off

/-- Whether an offset lies among the arrival counters. -/
def isCtrOff (off : Nat) : Bool := decide (0xFC00 ≤ off) && decide (off < 0xFE00)
/-- Whether an offset lies in the rescue frame. -/
def isRescueOff (off : Nat) : Bool := decide (0xFE00 ≤ off) && decide (off < 0x10000)

/-- The key of counter n of core c. -/
def ctrKey (c n : Nat) : Nat := c * 64 + n

/-- The value of an arrival counter. -/
def State.ctr (s : State) (k : Nat) : Nat := nget 0 s.arr k

/-- The value of a counter, set to a value: every waiter compares it (R393), and a watched change latches ARRIVAL (R377). -/
def State.ctrSet (s : State) (k v : Nat) : State :=
  let old := s.ctr k
  let s := { s with arr := if v = 0 then ndel s.arr k else nset s.arr k v
                    waiters := s.waiters.map fun (e : Nat × Waiter) =>
                      if e.2.ctr = k ∧ e.2.hit.isNone ∧ e.2.thr ≤ v then (e.1, { e.2 with hit := some v }) else e }
  if old ≠ v ∧ (s.reg .arrWatch (k / 64)).testBit (k % 64) then s.latchCore (k / 64) 2 else s

/-- Add to a counter, saturating (Table 10.2). A poisoned counter stays as it is (R403). -/
def State.ctrAdd (s : State) (k v : Nat) : State :=
  if nhas s.ctrPoison k then s else s.ctrSet k (satAdd (2 ^ 64 - 1) (s.ctr k) v)

/-- Store 8 bytes to a counter: fresh check bits (R403). -/
def State.ctrStore (s : State) (k v : Nat) : State := ({ s with ctrPoison := ndel s.ctrPoison k }).ctrSet k v

/-- The counter a waiter of a core names (R376): its number, if the own Pantry offset is that of a counter. -/
def ctrOfOff (off : Nat) : Option Nat := if isCtrOff off ∧ off % 8 = 0 then some ((off - 0xFC00) / 8) else none

/-- One byte of a Pantry, the counters included. -/
def State.pantryByte (s : State) (c off : Nat) : Byte :=
  if isCtrOff off then BitVec.ofNat 8 (s.ctr (ctrKey c ((off - 0xFC00) / 8)) / 2 ^ (8 * (off % 8))) else mread s.mem (pantryKey c off)

/-- Bytes of a Pantry. -/
def State.pantryBytes (s : State) (c off len : Nat) : Bytes := (List.range len).map fun i => s.pantryByte c (off + i)

/-- Whether an access to Pantry storage meets poison: of the granule, or of a counter it covers. -/
def State.pantryPoison (s : State) (c off len : Nat) : Bool :=
  s.isPoison (pantryKey c off / 64) ||
    (isCtrOff off && (List.range 64).any fun n => nhas s.ctrPoison (ctrKey c n) && decide (0xFC00 + 8 * n < off + len) && decide (off < 0xFC08 + 8 * n))

/-- Write Pantry storage: a write of all 64 bytes clears the granule's poison (R660). -/
def State.pantryPut (s : State) (c off : Nat) (b : Bytes) : State :=
  let s := s.put (pantryKey c off) b
  if b.length = 64 ∧ off % 64 = 0 then s.setPoison (pantryKey c off / 64) false else s

/-- An access at its target. -/
inductive Act where
  | load
  | store (b : Bytes)
  | engineStore (b : Bytes)
  | signal (v : Nat)
  | atomic (aop size operand expect : Nat)
  | cas (pairs : List (Nat × Nat))
  | masked (mask : Nat) (b : Bytes)
  | poisonStore (b : Bytes)
  deriving DecidableEq, Repr

/-- What an access at its target gives: the state, the answer and the bytes, and whether it was a violation (Tables 4.3 and 10.2). -/
structure Got where
  st : State
  ans : Answer
  data : Bytes
  viol : Bool

/-- A Pantry access (Table 10.2, R366): off + len lies within one granule. -/
def State.pantryAccess (s : State) (c off len : Nat) (a : Act) : Got :=
  let p := s.pantryPoison c off len
  let ans (b : Bytes) : Answer × Bytes := if p then (.poisoned, b) else (.done, b)
  match a with
  | .load => let (r, b) := ans (s.pantryBytes c off len); ⟨s, r, b, false⟩
  | .store b =>
    if isCtrOff off then
      (if b.length = 8 ∧ off % 8 = 0 then ⟨s.ctrStore (ctrKey c ((off - 0xFC00) / 8)) (leNat b), .done, [], false⟩
      else ⟨s, .done, [], true⟩)
    else if isRescueOff off then ⟨s, .done, [], true⟩
    else
      let s' := s.pantryPut c off b
      ⟨s', if s'.isPoison (pantryKey c off / 64) then .poisoned else .done, [], false⟩
  | .engineStore b =>
    if isCtrOff off ∨ isRescueOff off then ⟨s, .done, [], true⟩
    else
      let s' := s.pantryPut c off b
      ⟨s', if s'.isPoison (pantryKey c off / 64) then .poisoned else .done, [], false⟩
  | .masked m b =>
    if isCtrOff off ∨ isRescueOff off then ⟨s, .done, [], true⟩
    else
      let g := off / 64 * 64
      let d := mergeMask m b (s.pantryBytes c g 64)
      let s' := if m % 2 ^ 64 = fullMask then s.pantryPut c g d else s.put (pantryKey c g) d
      ⟨s', if s'.isPoison (pantryKey c g / 64) then .poisoned else .done, [], false⟩
  | .poisonStore b =>
    if isCtrOff off ∨ isRescueOff off then ⟨s, .done, [], true⟩
    else ⟨(s.put (pantryKey c off) b).setPoison (pantryKey c off / 64) true, .done, [], false⟩
  | .signal v =>
    match ctrOfOff off with
    | some n => ⟨s.ctrAdd (ctrKey c n) v, .done, [], false⟩
    | none => ⟨s, .done, [], true⟩
  | .atomic aop size x e =>
    if isCtrOff off ∨ isRescueOff off then ⟨s, .done, leBytes size 0, true⟩
    else
      let old := leNat (s.pantryBytes c off size)
      if p then ⟨s, .poisoned, leBytes size old, false⟩
      else ⟨s.pantryPut c off (leBytes size (atomicOp aop size old x e)), .done, leBytes size old, false⟩
  | .cas l =>
    if isCtrOff off ∨ isRescueOff off then ⟨s, .done, List.replicate (4 * l.length) 0, true⟩
    else
      let old := leNat (s.pantryBytes c off 4)
      let (v, o) := casPairs old l
      if p then ⟨s, .poisoned, List.replicate (4 * l.length) 0, false⟩
      else ⟨s.pantryPut c off (leBytes 4 v), .done, o.flatMap (leBytes 4), false⟩

/-- An access to an HBM line through its slice (R407). -/
def State.lineAccess (s : State) (ch q off len : Nat) (a : Act) : Got :=
  if let .signal _ := a then ⟨s, .done, [], true⟩ else
  match s.chanAnswer ch with
  | some r => ⟨s, r, List.replicate len 0, false⟩
  | none =>
    match a with
    | .load => let (s, b, p) := s.l2Load ch q off len; ⟨s, if p then .poisoned else .done, b, false⟩
    | .store b => ⟨s.l2Store ch q off b, .done, [], false⟩
    | .engineStore b => ⟨s.l2Store ch q off b, .done, [], false⟩
    | .masked m b => ⟨if m % 2 ^ 64 = 0 then s else s.l2StoreMask ch q (m % 2 ^ 64) b, .done, [], false⟩
    | .poisonStore b =>
      let s := s.l2Store ch q off b
      let s := s.l2Put ch q ((s.l2Set ch q).map fun x => if x.q = q then { x with poison := true } else x)
      ⟨s.setPoison (hbmKey ch q / 64) true, .done, [], false⟩
    | .signal _ => ⟨s, .done, [], true⟩
    | .atomic aop size x e =>
      let (s, b, p) := s.l2Load ch q off size
      if p then ⟨s, .poisoned, b, false⟩
      else ⟨s.l2Store ch q off (leBytes size (atomicOp aop size (leNat b) x e)), .done, b, false⟩
    | .cas l =>
      let (s, b, p) := s.l2Load ch q off 4
      let (v, o) := casPairs (leNat b) l
      if p then ⟨s, .poisoned, List.replicate (4 * l.length) 0, false⟩
      else ⟨s.l2Store ch q off (leBytes 4 v), .done, o.flatMap (leBytes 4), false⟩

/-- An access to an HBM local address. -/
def State.hbmAccess (s : State) (addr len : Nat) (a : Act) : Got :=
  match s.hbmPlace addr with
  | some (ch, q) => s.lineAccess ch q (addr % 64) len a
  | none => ⟨s, .done, List.replicate len 0, true⟩

/-! Rows of the slices. -/

/-- Capture L2_FAULT while VALID is clear (R434). -/
def State.l2Capture (s : State) (ch q kind : Nat) : State :=
  if s.fon Fd.l2Fault_VALID ch then s else
  (((s.fset Fd.l2Fault_ADDR (s.lineLocal ch q / 64) ch).fset Fd.l2Fault_KIND kind ch).fset Fd.l2Fault_VALID 1 ch)

/-- The DETAIL of an L2 or HBM detection (Table 18.9). -/
def State.l2Detail (s : State) (ch q kind : Nat) : Nat := s.lineLocal ch q + 2 ^ 61 * kind

/-- A double error in a way: the line is poisoned and L2_UNCORRECTABLE is reported (Table 11.3). -/
def State.l2Double (s : State) (ch q kind : Nat) : State :=
  match s.l2Find ch q with
  | none => s
  | some w =>
    let s := s.l2Put ch q ((s.l2Set ch q).map fun x => if x.q = q then { w with poison := true } else x)
    let s := (s.inc Fd.l2EccCounts_UNCORRECTABLE ch).l2Capture ch q kind
    s.detect ⟨0x10, 3, ch, s.l2Detail ch q kind⟩

/-- An uncorrectable line of HBM (Table 11.3): poisoned in the slice, where it is held, and in HBM. -/
def State.hbmBad (s : State) (ch q kind : Nat) : State :=
  let s := s.setPoison (hbmKey ch q / 64) true
  let s := s.l2Put ch q ((s.l2Set ch q).map fun x => if x.q = q then { x with poison := true } else x)
  let s := (s.inc Fd.hbmEccCounts_UNCORRECTABLE ch).l2Capture ch q kind
  s.detect ⟨0x11, 3, ch, s.l2Detail ch q kind⟩

/-- An access at a slice met a single-bit or double error in the way it hit (R417). -/
def State.l2Ecc (s : State) (ch q : Nat) (e : Ecc) : State :=
  match s.l2Find ch q, e with
  | some _, .single => s.inc Fd.l2EccCounts_CORRECTED ch
  | some _, .double => s.l2Double ch q 0
  | _, _ => s

/-- The answer of a slice leaves it. -/
def State.l2Emit (ch q : Nat) (g : Got) : State := g.st.emit (.l2Data ch q g.data g.ans)

/-- L2_LOAD (R413). -/
def execL2Load (slice : ChanId) (line off len : Nat) (ecc : Ecc) (s : State) : Host.Outcome State Fault Refusal :=
  .next (State.l2Emit slice line ((s.l2Ecc slice line ecc).lineAccess slice line (off % 64) (min len (64 - off % 64)) .load))

/-- Whether an access from off reads a 64-bit word it covers, so that its check bits are looked at: any but a store of whole words (R660). -/
def Act.readsWord (a : Act) (off : Nat) : Bool :=
  match a with
  | .store b => off % 8 != 0 || b.length % 8 != 0
  | .engineStore b => off % 8 != 0 || b.length % 8 != 0
  | .poisonStore b => off % 8 != 0 || b.length % 8 != 0
  | .masked m _ => (List.range 8).any fun i => let x := m / 2 ^ (8 * i) % 256; x != 0 && x != 255
  | _ => true

/-- L2_STORE (R413, R417). -/
def execL2Store (slice : ChanId) (line off : Nat) (data : Bytes) (ecc : Ecc) (s : State) : Host.Outcome State Fault Refusal :=
  let a : Act := .store (data.take (64 - off % 64))
  let s := if a.readsWord off then s.l2Ecc slice line ecc else s
  .next (State.l2Emit slice line (s.lineAccess slice line (off % 64) 0 a))

/-- L2_ATOMIC (R413, R417): 4 or 8 bytes at their own alignment. -/
def execL2Atomic (slice : ChanId) (line off aop size : Nat) (operand expect : Word) (ecc : Ecc) (s : State) : Host.Outcome State Fault Refusal :=
  let n := if size = 4 then 4 else 8
  .next (State.l2Emit slice line
    ((s.l2Ecc slice line ecc).lineAccess slice line (off % 64 / n * n) n (.atomic aop n operand.toNat expect.toNat)))

/-- The read of a line from HBM returns to its slice: for a load, the line is held, merged; for a write-back, the merged line is
written back (R413, R430). -/
def State.hbmDeliver (s : State) (ch q : Nat) (merge : Bool) : State :=
  if merge then
    match s.l2Find ch q with
    | some w => (s.writeBack ch w).l2Put ch q ((s.l2Set ch q).map fun x => if x.q = q then { x with dirty := 0 } else x)
    | none => s
  else
    let (s, w) := s.l2Fill ch q
    s.emit (.l2Data ch q w.data (if w.poison then .poisoned else .done))

/-- The bursts of a line that the stack's severity indication marks are counted (R415): a line is two bursts. -/
def State.sevCount (s : State) (ch : Nat) (sev : Fin 3) : State := if sev.val = 0 then s else s.incBy Fd.hbmEcs_SEV_COUNT sev.val ch

/-- HBM_READ_COMPLETE (R868, R411, R415, R430, R437, Table 11.3). -/
def execHbmReadComplete (slice : ChanId) (line : Nat) (merge : Bool) (sev : Fin 3) (retried : Bool) (outcome : HbmDecode) (s : State) :
    Host.Outcome State Fault Refusal :=
  if s.chanState slice ≠ 1 then .next s else
  let s := if retried then s.inc Fd.hbmEccCounts_RETRIED slice else s
  let s := s.sevCount slice sev
  match outcome with
  | .clean => .next (s.hbmDeliver slice line merge)
  | .corrected => .next ((s.inc Fd.hbmEccCounts_SYMBOL_CORRECTED slice).hbmDeliver slice line merge)
  | .wrong d => .next (((s.hbmStore slice line (padTo 64 d) false).inc Fd.hbmEccCounts_SYMBOL_CORRECTED slice).hbmDeliver slice line merge)
  | .poisoned => .next ((s.setPoison (hbmKey slice line / 64) true).hbmDeliver slice line merge)
  | .detected =>
    if merge then .next ((s.hbmBad slice line 2).hbmDeliver slice line true)
    else .next ((s.hbmBad slice line 1).hbmDeliver slice line false)
  | .parity => .next (s.detect ⟨0x12, 3, slice.val, 1⟩)

/-- L2_SCRUB_READ (R417). -/
def execL2ScrubRead (slice : ChanId) (line : Nat) (ecc : Ecc) (s : State) : Host.Outcome State Fault Refusal :=
  if !bit s.devSec.policyFlags 0 then .next s else
  match s.l2Find slice line, ecc with
  | some _, .single => .next (s.inc Fd.l2EccCounts_CORRECTED slice)
  | some _, .double => .next (s.l2Double slice line 3)
  | _, _ => .next s

/-- The corrections and uncorrectable lines a channel's patrol pass has found so far. -/
def State.patrolCount (s : State) (ch i n : Nat) : State :=
  let l := nget [0, 0] s.patrol ch
  { s with patrol := nset s.patrol ch (l.set i (l.getD i 0 + n)) }

/-- Patrol moves to the next line; after the last, the pass is counted and its entry written by the quarter's Ladle (R416). -/
def State.patrolNext (s : State) (ch ecs : Nat) : State :=
  let n := s.fget Fd.hbmPatrol_NEXT_LINE ch + 1
  if n < Config.channelLines then s.fset Fd.hbmPatrol_NEXT_LINE n ch else
  let l := nget [0, 0] s.patrol ch
  let s := (s.fset Fd.hbmPatrol_NEXT_LINE 0 ch).inc Fd.hbmPatrol_PASSES ch
  let s := { s with patrol := ndel s.patrol ch }
  let s := s.fset Fd.hbmEcs_ECS_COUNT ecs ch
  s.submit 8 (chanDie ch + 1) 0 (recBytes 12 [(0, 2, ch), (4, 4, l.getD 0 0), (8, 2, l.getD 1 0), (10, 2, ecs)])

/-- HBM_PATROL_READ (R416, R415). A line held dirty in the slice is not patrolled from HBM. -/
def execHbmPatrolRead (channel : ChanId) (ecs : Nat) (outcome : HbmDecode) (sev : Fin 3) (s : State) : Host.Outcome State Fault Refusal :=
  if !bit s.devSec.policyFlags 1 || s.chanState channel != 1 then .next s else
  let q := s.fget Fd.hbmPatrol_NEXT_LINE channel
  if (match s.l2Find channel q with | some w => w.dirty != 0 | none => false) then .next (s.patrolNext channel ecs) else
  let s := s.sevCount channel sev
  match outcome with
  | .clean => .next (s.patrolNext channel ecs)
  | .corrected => .next (((s.inc Fd.hbmEccCounts_SYMBOL_CORRECTED channel).patrolCount channel 0 1).patrolNext channel ecs)
  | .wrong d =>
    let s := s.hbmStore channel q (padTo 64 d) false
    .next (((s.inc Fd.hbmEccCounts_SYMBOL_CORRECTED channel).patrolCount channel 0 1).patrolNext channel ecs)
  | .poisoned => .next ((s.setPoison (hbmKey channel q / 64) true).patrolNext channel ecs)
  | .detected => .next (((s.patrolCount channel 1 1).hbmBad channel q 3).patrolNext channel ecs)
  | .parity => .next (s.detect ⟨0x12, 3, channel.val, 1⟩)

/-- HBM_TEMPERATURE_READ (R410): the rate doubles above 85 °C. -/
def execHbmTemperatureRead (stack : Fin 8) (temp : Nat) (s : State) : Host.Outcome State Fault Refusal :=
  .next ((List.range 32).foldl (fun s i =>
    (s.fset Fd.hbmStatus_STACK_TEMP (min temp 255) (32 * stack.val + i)).fset Fd.hbmStatus_REFRESH_2X (b2n (decide (85 < temp))) (32 * stack.val + i)) s)

/-! Pinning (R418 to R421, R425, R427). -/

/-- The lines a fold has pinned. -/
def State.pinnedLines (s : State) (f : Nat) : Nat :=
  s.l2.foldl (fun n e => n + (e.2.filter fun w => w.pin = some f).length) 0

/-- The pinned lines of a slice. -/
def State.pinnedInSlice (s : State) (ch : Nat) : Nat :=
  (s.l2.filter fun e => e.1 / 256 == ch).foldl (fun n e => n + (e.2.filter fun w => w.pin.isSome).length) 0

/-- The HBM lines of a local range. -/
def State.pinRange (s : State) (base len : Nat) : List (Nat × Nat) :=
  (List.range (len / 64)).filterMap fun i => s.hbmPlace (base + 64 * i)

/-- The first check of R419 a pin command fails: 4 NO_PIN, 3 RANGE. -/
def State.pinCheck (s : State) (f base len : Nat) : Option Nat :=
  if (s.foldSec f).noPin then some 4
  else if base % 64 ≠ 0 ∨ len % 64 ≠ 0 ∨ base < s.regionBase f ∨ s.regionBase f + s.regionSize f < base + len then some 3
  else none

/-- Whether a fold has pinned a line. -/
def State.pinnedBy (s : State) (f : Nat) (p : Nat × Nat) : Bool :=
  match s.l2Find p.1 p.2 with
  | some w => w.pin == some f
  | none => false

/-- Pin one line (R419 step 4): refused at PIN_CAP, and where the channel serves no request. True when it was refused. -/
def State.pinLine (s : State) (f : Nat) (p : Nat × Nat) : State × Bool :=
  if s.pinnedBy f p then (s, false)
  else if (s.chanAnswer p.1).isSome then (s, true)
  else if s.devSec.pinCap ≤ ((s.l2Set p.1 p.2).filter fun w => w.pin.isSome).length then (s.inc Fd.l2PinState_PIN_REFUSED p.1, true)
  else
    let (s, w) := s.l2Fill p.1 p.2
    (s.l2Touch p.1 { w with pin := some f }, false)

/-- Clear the pins of a fold on the lines a predicate picks. -/
def State.unpinIf (s : State) (f : Nat) (p : Nat → L2Line → Bool) : State :=
  { s with l2 := s.l2.map fun (e : Nat × List L2Line) =>
      (e.1, e.2.map fun w => if w.pin = some f ∧ p (e.1 / 256) w then { w with pin := none } else w) }

/-- UNPIN_ALL (R420). -/
def State.unpinAll (s : State) (f : Nat) : State := s.unpinIf f fun _ _ => true

/-- A pin command begins to run: its work is done here and shown at PIN_COMMAND_DONE. -/
def State.pinStart (s : State) (f result refused : Nat) : State :=
  { s.fset Fd.pinStatus_BUSY 1 f with pins := nset s.pins f ⟨result, refused⟩ }

/-- The work of a PIN, UNPIN or UNPIN_ALL command (R419, R420, R425). LINES_REFUSED shows the last PIN's, so an UNPIN leaves it as it is. -/
def State.pinRun (s : State) (f op : Nat) : State :=
  let base := s.fget Fd.pinBase_ADDR f
  let len := s.reg .pinLen f
  let last := if op = 1 then 0 else s.fget Fd.pinStatus_LINES_REFUSED f
  if op = 3 then s.unpinAll f |>.pinStart f 0 last
  else match s.pinCheck f base len with
    | some r => s.pinStart f r last
    | none =>
      let lines := s.pinRange base len
      if op = 2 then (lines.foldl (fun s p => s.unpinIf f fun ch w => ch == p.1 && w.q == p.2) s).pinStart f 0 last
      else if 1024 * (s.foldSec f).pinKib < 64 * (s.pinnedLines f + (lines.filter fun p => !s.pinnedBy f p).length) ∧ len ≠ 0 then
        s.pinStart f 2 0
      else
        let (s, n) := lines.foldl (fun (x : State × Nat) p => let (s, r) := x.1.pinLine f p; (s, x.2 + b2n r)) (s, 0)
        s.pinStart f (if n = 0 then 0 else 1) n

/-- Whether a source may write a fold's pin registers: the host, or a twin at SUPERVISOR, which its own access checks (R418). -/
def State.pinCmd (s : State) (src : Source) (f op : Nat) : State :=
  if s.fon Fd.pinStatus_BUSY f || op == 0 || decide (s.foldSecs.length ≤ f) then s.charge src else s.pinRun f op

/-- PIN (R419). -/
def execPin (src : Source) (fold : FoldId) (s : State) : Host.Outcome State Fault Refusal :=
  if s.shut src then .next (s.turned .host) else .next (s.pinCmd src fold 1)
/-- UNPIN (R420). -/
def execUnpin (src : Source) (fold : FoldId) (s : State) : Host.Outcome State Fault Refusal :=
  if s.shut src then .next (s.turned .host) else .next (s.pinCmd src fold 2)
/-- UNPIN_ALL (R420). -/
def execUnpinAll (src : Source) (fold : FoldId) (s : State) : Host.Outcome State Fault Refusal :=
  if s.shut src then .next (s.turned .host) else .next (s.pinCmd src fold 3)

/-- PIN_COMMAND_DONE (R421). -/
def execPinCommandDone (fold : FoldId) (s : State) : Host.Outcome State Fault Refusal :=
  match nfind s.pins fold.val with
  | none => .next s
  | some r =>
    let s := { s with pins := ndel s.pins fold.val }
    let s := ((s.fset Fd.pinStatus_BUSY 0 fold).fset Fd.pinStatus_RESULT r.result fold).fset Fd.pinStatus_LINES_REFUSED (min r.refused (2 ^ 32 - 1)) fold
    .next ((s.fset Fd.pinStatus_DONE 1 fold).raiseVec 99)

/-! Scrub of the Pantries, the queues and hub SRAM (R658 to R660, R664). -/

/-- A double error at a Pantry offset: the counter, or the granule, is poisoned (R660, R403). -/
def State.pantryDouble (s : State) (c off : Nat) : State :=
  let o := off % Config.pantryBytes
  let s := if isCtrOff o then { s with ctrPoison := nset s.ctrPoison (ctrKey c ((o - 0xFC00) / 8)) () }
    else s.setPoison (pantryKey c o / 64) true
  s.detectCore 0x0A c (o / 64 * 64)

/-- Set the word at an index of an engine queue poisoned. -/
def poisonEntry (l : List EWord) (i : Nat) : List EWord :=
  match l[i]? with
  | some w => l.set i { w with bad := true }
  | none => l

end Sys2Proof.Machine
end

