-- ==== Sys2Proof/Machine/Access.lean ====
section
/-!
DEFINITION. Addresses, windows and protection (chapter 4): how a request resolves, where it is delivered, how it travels to another
member or to host memory, and how its answer comes back.
-/
namespace Sys2Proof.Machine

/-- The parts of the local map (Table 4.1). -/
inductive Place where
  | hbm (a : Nat)
  | pantry (c off : Nat)
  | regs (off : Nat)
  | host (c off : Nat)
  | none
  deriving DecidableEq, Repr

/-- The region a local address lies in (Table 4.1, R138). -/
def State.placeOf (s : State) (l : Nat) : Place :=
  if l < Config.hbmEnd then (if (s.hbmFold l).isSome then .hbm l else .none)
  else if Config.pantryBase ≤ l ∧ l < Config.pantryBase + 288 * Config.pantryBytes then
    .pantry ((l - Config.pantryBase) / Config.pantryBytes) ((l - Config.pantryBase) % Config.pantryBytes)
  else if Config.regBase ≤ l ∧ l < Config.regBase + Config.regBytes then .regs (l - Config.regBase)
  else if Config.hostBase ≤ l ∧ l < Config.hostBase + 16 * Config.sliceBytes then
    .host ((l - Config.hostBase) / Config.sliceBytes) ((l - Config.hostBase) % Config.sliceBytes)
  else .none

/-- The fold whose home holds a place (R140). -/
def State.homeOf (s : State) : Place → Option Nat
  | .hbm a => s.hbmFold a
  | .pantry c _ => if s.corePresent c && !s.coreOut c then s.foldOfCore c else none
  | .host c _ => s.foldOfCtx c
  | .regs _ => none
  | .none => none

/-- Whether an address names this device (R135). -/
def State.isSelf (s : State) (a : Nat) : Bool := a / 2 ^ 48 % 2 ^ 16 == 0xFFFF || s.member == some (a / 2 ^ 48 % 2 ^ 16)

/-- An address as it is compared (R135). -/
def State.norm (s : State) (a : Nat) : Nat := selfNorm s.member a

/-- The window of a fold that covers an address for a class of requester: 0 FOLD_CORES, 1 OTHER_FOLDS, 2 REMOTE_MEMBERS, 3 HOST
(R142, R143). -/
def State.window (s : State) (f cls a : Nat) : Option Window :=
  (s.foldSec f).windows.find? fun w =>
    bit w.sources cls && decide (s.norm w.base ≤ s.norm a) && decide (s.norm a < s.norm w.base + w.size)

/-- The target a window gives an address (R142), as it is compared. -/
def State.translate (s : State) (w : Window) (a : Nat) : Nat := s.norm ((w.target + (s.norm a - s.norm w.base)) % 2 ^ 64)

/-- Where a request goes: to a place of a fold, to a register, to another member over a fold's port groups, or nowhere: a
violation, with the counter it is charged to. -/
inductive Route where
  | here (f : Nat) (p : Place)
  | reg (off : Nat)
  | away (f addr : Nat)
  | viol (v : Viol)
  deriving DecidableEq, Repr

/-- The counter of a violation that reaches an offset of a context's host slice (R867): the context's where no fold owns it, its map is
disabled or the page lies beyond the map, else the requester's. -/
def State.sliceViol (s : State) (c off : Nat) (v : Viol) : Viol :=
  if (s.foldOfCtx c).isNone || !s.fon Fd.ctxMapCtl_ENABLE c || decide (s.fget Fd.ctxMapCtl_PAGES c ≤ off / 0x200000) then .ctx c else v

/-- The counter of a violation whose address was translated (R867): a context's as sliceViol says, else the requester's. -/
def State.charged (s : State) (t : Nat) (v : Viol) : Viol :=
  if !s.isSelf t then v else
  match s.placeOf (t % 2 ^ 48) with
  | .host c off => s.sliceViol c off v
  | _ => v

/-- Resolve a request through a window of fold f for class cls: what the window's target comes to in that fold (R145). -/
def State.letIn (s : State) (f cls perm a : Nat) (v : Viol) : Route :=
  match s.window f cls a with
  | none => .viol v
  | some w =>
    if !bit w.perm perm then .viol v else
    let t := s.translate w a
    if s.isSelf t then
      let p := s.placeOf (t % 2 ^ 48)
      if s.homeOf p = some f then .here f p else .viol (s.charged t v)
    else if cls = 2 then .away f t
    else .viol v

/-- Resolve a request of a core, or of the front end for it (R144, R484), in fold f. perm: 0 READ, 1 WRITE, 2 SIGNAL, 3 ATOMIC. -/
def State.resolveFold (s : State) (f perm a : Nat) (twin : Bool) (v : Viol) : Route :=
  let p := s.placeOf (a % 2 ^ 48)
  if s.isSelf a ∧ s.homeOf p = some f then .here f p
  else match s.window f 0 a with
    | none => .viol v
    | some w =>
      if !bit w.perm perm then .viol v else
      let t := s.translate w a
      if !s.isSelf t then .away f t else
      let p := s.placeOf (t % 2 ^ 48)
      match p, s.homeOf p with
      | .regs off, _ => if twin then .reg off else .viol v
      | p, some g => if g = f then .here f p else s.letIn g 1 perm (0xFFFF000000000000 + t % 2 ^ 48) (s.charged t v)
      | _, none => .viol (s.charged t v)

/-- Resolve a request of a core (R144). -/
def State.resolveCore (s : State) (c perm a : Nat) (twin : Bool) : Route :=
  match s.foldOfCore c with
  | none => .viol (.core c)
  | some f => s.resolveFold f perm a twin (.core c)

/-- The address that an address of a fold's core comes to after translation, permissions apart (R473): none where nothing admits it. -/
def State.foldTarget (s : State) (f a : Nat) : Option Nat :=
  if s.isSelf a ∧ s.homeOf (s.placeOf (a % 2 ^ 48)) = some f then some a
  else match s.window f 0 a with
    | none => none
    | some w =>
      let t := s.translate w a
      if !s.isSelf t then some t else
      match s.homeOf (s.placeOf (t % 2 ^ 48)) with
      | none => none
      | some g =>
        if g = f then some t else
        match s.window g 1 (0xFFFF000000000000 + t % 2 ^ 48) with
        | none => none
        | some x =>
          let u := s.translate x (0xFFFF000000000000 + t % 2 ^ 48)
          if s.isSelf u ∧ s.homeOf (s.placeOf (u % 2 ^ 48)) = some g then some u else none

/-- Resolve a host access through BAR 4 (R143, R145, R171). -/
def State.resolveHost (s : State) (perm off : Nat) : Route :=
  let a := 0xFFFF000000000000 + off % 2 ^ 48
  match (List.range s.foldSecs.length).find? fun f => (s.window f 3 a).isSome with
  | none => .viol .host
  | some f =>
    match s.letIn f 3 perm a .host with
    | .here f p => match p with
      | .host c o => .viol (s.sliceViol c o .host)
      | p => .here f p
    | r => r

/-- Resolve a request that arrives on a port (R146, R524). -/
def State.resolveRemote (s : State) (port perm a : Nat) : Route :=
  match s.foldOfPort port with
  | none => .viol (.port port)
  | some f =>
    if !s.isSelf a then .viol (.port port) else s.letIn f 2 perm (0xFFFF000000000000 + a % 2 ^ 48) (.port port)

/-- The kind of permission an access needs (Table 4.3). -/
def Act.perm : Act → Nat
  | .load => 0
  | .store _ => 1
  | .engineStore _ => 1
  | .masked _ _ => 1
  | .poisonStore _ => 1
  | .signal _ => 2
  | .atomic _ _ _ _ => 3
  | .cas _ => 3

/-- The bytes an access that is a violation returns: zeros (R166). -/
def Act.zeros (a : Act) (len : Nat) : Bytes :=
  match a with
  | .load => List.replicate len 0
  | .atomic _ n _ _ => List.replicate n 0
  | .cas l => List.replicate (4 * l.length) 0
  | _ => []

/-- Whether a place takes no traffic: its fold is fenced or being fenced, or its core is fenced or not ACTIVE (R78, R634, R628). -/
def State.placeFenced (s : State) (f : Nat) (p : Place) : Bool :=
  s.foldFence f != FencePhase.none ||
    match p with
    | .pantry c _ => s.coreFence c != FencePhase.none || s.fget Fd.corePwr_STATE c != 0
    | _ => false

/-! Host slices (R151, R152, R168, R866). -/

/-- The SOURCE of CTX_MISS for a requester (Table 4.11). Of a ring's work Table 4.11 names only the completion signal; the TIMESTAMP of a
ring and the accesses of its collective show 0x140 + r as well: DESIGN CHOICE (assumption log 37). A late requester below 288 is a core
whose access stands although the core no longer waits for it (R702). -/
def Requester.missSource : Requester → Nat
  | .twin c => c
  | .engine c _ _ => c
  | .ring r => 0x140 + r
  | .coll r _ _ => 0x140 + r
  | .forward _ _ _ => 0x1FF
  | .late n => if n < 288 then n else 0x1FF

/-- A miss on a context (R165, R168): counted, captured and its vector raised while VALID is clear. kind: 0 LOAD, 1 STORE,
2 ATOMIC. -/
def State.miss (s : State) (c page kind : Nat) (b : Requester) : State :=
  let s := s.inc Fd.ctxMissCount_COUNT c
  if s.fon Fd.ctxMiss_VALID c then s else
  let s := ((s.fset Fd.ctxMiss_PAGE page c).fset Fd.ctxMiss_SOURCE b.missSource c).fset Fd.ctxMiss_KIND kind c
  (s.fset Fd.ctxMiss_VALID 1 c).raiseVec (104 + c)

/-- The key of a held host map entry. -/
def mapKey (c page : Nat) : Nat := 2 ^ 21 * c + page

/-- A tag for a request of the hub to host memory. -/
def State.hostTag (s : State) : Nat := (s.hostOps.foldl (fun m e => max m e.1) 0) + 1

/-- The zeros a host slice access that is not performed returns (R166, R168, R169): for a CAS of several pairs, one value a pair. -/
def HostOp.zeros (o : HostOp) : Bytes := if o.op = 1 then [] else List.replicate (o.acc.length + o.len + 4 * o.pairs.length) 0

/-- The runs of consecutive bytes of a mask: first byte and length. -/
def maskRuns (m : Nat) : List (Nat × Nat) :=
  (List.range 64).filterMap fun i =>
    if m.testBit i && (i == 0 || !m.testBit (i - 1)) then
      some (i, ((List.range (64 - i)).find? fun k => !m.testBit (i + k)).getD (64 - i))
    else none

/-- A store to host memory of the bytes a mask marks (R152, R521): one write for each run of them; while the link is down the one store is
lost as a whole (R800). -/
def State.hostStore (s : State) (addr m : Nat) (d : Bytes) : State :=
  let put (s : State) (r : Nat × Nat) : State := s.hostWrite (addr + r.1) ((d.drop r.1).take r.2)
  match maskRuns (m % 2 ^ d.length) with
  | [] => s
  | r :: l => if s.mayMaster && !s.fon Fd.pcieStatus_LINK_UP then put s r else (r :: l).foldl put s

/-- Issue a host slice access whose entry is known (R152 steps 2 to 4); the fence of the slice's fold is consulted last (R159, R160).
None where the access waits for a completion. -/
def State.hostIssue (s : State) (o : HostOp) (entry : Nat) : State × Option (Answer × Bytes) :=
  let page := o.off / 0x200000
  if !bit entry 0 || bits entry 20 4 != 0 then (s.miss o.ctx page o.op o.by', some (.miss, o.zeros))
  else if !bit entry (o.op + 1) then (s.violate (.ctx o.ctx), some (.dropped, o.zeros))
  else if (s.foldOfCtx o.ctx).any fun f => s.foldFence f != FencePhase.none then (s, some (.fenced, o.zeros))
  else
    let addr := 0x200000 * bits entry 63 21 + o.off % 0x200000
    if o.op = 1 then (s.hostStore addr o.mask o.data, some (.done, []))
    else
      let tag := s.hostTag
      let s := { s with hostOps := nset s.hostOps tag { o with stage := 1, bus := addr } }
      if o.op = 0 then (s.hostReq (.hostRead tag addr o.len), none)
      else (s.hostReq (.hostAtomic tag addr o.aop (leNat o.data) o.expect o.len), none)

/-- Begin a host slice access (R152, R867): a violation before any entry is read, an entry held, or one to be read. -/
def State.hostStart (s : State) (o : HostOp) (other : Viol) : State × Option (Answer × Bytes) :=
  let page := o.off / 0x200000
  if !s.fon Fd.ctxMapCtl_ENABLE o.ctx || decide (s.fget Fd.ctxMapCtl_PAGES o.ctx ≤ page) then (s.violate (.ctx o.ctx), some (.dropped, o.zeros))
  else if o.op = 2 ∧ !(s.host.atomicReq && (o.aop == 0 || o.aop == 8 || o.aop == 9)) then (s.violate other, some (.dropped, o.zeros))
  else match nfind s.mapCopies (mapKey o.ctx page) with
    | some e => s.hostIssue o e
    | none =>
      let tag := s.hostTag
      let s := { s with hostOps := nset s.hostOps tag { o with stage := 0 } }
      (s.hostReq (.hostRead tag (4096 * s.fget Fd.ctxMapAddr_ADDR o.ctx + 8 * page) 8), none)

/-! Other members (R149, R520 to R530). -/

/-- Slots of a byte string, eight bytes a slot. -/
def slotsOf (b : Bytes) : List Word :=
  (List.range ((b.length + 7) / 8)).map fun i => BitVec.ofNat 64 (leNat ((b.drop (8 * i)).take 8))

/-- The packet of a request (Tables 14.5 and 14.6, R521, R522). -/
def requestSlots (a : Act) (addr len tag gen fwd arr : Nat) : List Word :=
  let hdr (typ l op cnt : Nat) : Word := BitVec.ofNat 64 (typ + 2 ^ 8 * l + 2 ^ 16 * fwd + 2 ^ 19 * cnt + 2 ^ 24 * tag + 2 ^ 40 * arr +
    2 ^ 48 * gen + 2 ^ 56 * op)
  let ad : Word := BitVec.ofNat 64 addr
  match a with
  | .load => [hdr 0x10 len 0 0, ad]
  | .store b => [hdr 0x11 b.length 0 0, ad] ++ slotsOf b
  | .engineStore b => [hdr 0x11 b.length 0 0, ad] ++ slotsOf b
  | .poisonStore b => [hdr 0x11 b.length 0 0, ad] ++ slotsOf b
  | .masked m b => [hdr 0x12 64 0 0, ad, BitVec.ofNat 64 m] ++ slotsOf b
  | .signal v => [hdr 0x13 8 0 0, ad, BitVec.ofNat 64 v]
  | .atomic op n x e =>
    if op = 9 then (if n = 8 then [hdr 0x14 8 9 0, ad, BitVec.ofNat 64 e, BitVec.ofNat 64 x]
      else [hdr 0x14 4 9 0, ad, BitVec.ofNat 64 (e % 2 ^ 32 + 2 ^ 32 * (x % 2 ^ 32))])
    else [hdr 0x14 n op 0, ad, BitVec.ofNat 64 (x % 2 ^ (8 * n))]
  | .cas l => [hdr 0x14 4 9 (l.length - 1), ad] ++ l.map fun p => BitVec.ofNat 64 (p.1 + 2 ^ 32 * p.2)

/-- Two requesters are one source (R367): a core's twin, an engine of a core, a ring, an arrival port. -/
def Requester.sameSource : Requester → Requester → Bool
  | .twin c, .twin d => c == d
  | .engine c a k, .engine d b l => c == d && a == b && (a != 3 || k / 64 == l / 64)
  | .ring r, .ring q => r == q
  | .forward p _ _, .forward q _ _ => p == q
  | _, _ => false

/-- Set the count PORT_REQ.OUTSTANDING shows. -/
def State.noteOutst (s : State) (p : Nat) : State := s.fset Fd.portReq_OUTSTANDING (s.port p).outst.length p

/-- Send a request to another member (R149, R527, R530, R636): an answer at once where it cannot leave, else none. It is not sent
while an earlier request of its source to the same granule is outstanding on another port, or the port holds 1,024 requests. -/
def State.sendRequest (s : State) (b : Requester) (f addr : Nat) (a : Act) (len fwd arr : Nat) (v : Viol) :
    State × Option (Answer × Bytes) :=
  match s.groupPorts f (addr / 2 ^ 48) with
  | none => (s.violate v, some (.dropped, a.zeros len))
  | some [] => (s, some (.fenced, a.zeros len))
  | some (p0 :: ps) =>
    let l := p0 :: ps
    let p := l.getD (bits addr 47 6 % l.length) p0
    if s.portFence p ≠ FencePhase.none then (s, some (.fenced, a.zeros len))
    else if s.ports.any (fun (e : Nat × PortSt) => e.1 != p && e.2.outst.any fun r => r.2.by'.sameSource b && r.2.addr / 64 == addr / 64) then (s, none)
    else
      let q := s.port p
      match (List.range 1024).find? fun t => !nhas q.outst t && !nhas q.retired t with
      | none => (s, none)
      | some t =>
        let gen := s.fget Fd.portStatus_GEN p
        let slots := requestSlots a addr len t gen fwd arr
        let typ := (slots.headD 0).toNat % 256
        let s := s.modPort p fun q => { q with outst := nset q.outst t ⟨b, typ, addr, len, s.elapsed, gen⟩ }
        ((s.noteOutst p).sendPacket p slots, none)

/-! Delivery. -/

/-- Deliver a routed request: the state, and its answer if it has one at once. arr is the counter a counted write raises, or 0x7F
(R368). -/
def State.deliver (s : State) (b : Requester) (r : Route) (a : Act) (len fwd arr : Nat) (v : Viol) : State × Option (Answer × Bytes) :=
  match r with
  | .viol w => (s.violate w, some (.dropped, a.zeros len))
  | .reg _ => (s.violate v, some (.dropped, a.zeros len))
  | .away f t => if 8 ≤ fwd then (s.violate v, some (.dropped, a.zeros len)) else s.sendRequest b f t a len fwd arr v
  | .here f p =>
    match p with
    | .host c off =>
      let start (op : Nat) (n : Nat) (d : Bytes) (aop e : Nat) (m : Nat := 2 ^ 64 - 1) (l : List (Nat × Nat) := []) : State × Option (Answer × Bytes) :=
        s.hostStart { by' := b, op := op, ctx := c, off := off, len := n, data := d, aop := aop, expect := e, mask := m, pairs := l } v
      match a with
      | .load => start 0 len [] 0 0
      | .store d => start 1 d.length d 0 0
      | .engineStore d => start 1 d.length d 0 0
      | .poisonStore d => start 1 d.length d 0 0
      | .masked m d => start 1 d.length d 0 0 m
      | .signal _ => (s.violate (s.sliceViol c off v), some (.dropped, []))
      | .atomic op n x e => start 2 n (leBytes n x) op e
      | .cas [] => (s, some (.done, []))
      | .cas ((x, w) :: l) => start 2 4 (leBytes 4 w) 9 x (l := l)
    | .pantry c off =>
      let g := s.pantryAccess c off len a
      if g.viol then (s.violate v, some (.dropped, a.zeros len))
      else if s.placeFenced f p then (s, some (.fenced, a.zeros len))
      else
        let s := if arr < 64 then g.st.ctrAdd (ctrKey c arr) 1 else g.st
        (s, some (g.ans, g.data))
    | .hbm x =>
      let g := s.hbmAccess x len a
      if g.viol then (s.violate v, some (.dropped, a.zeros len))
      else if s.placeFenced f p then (s, some (.fenced, a.zeros len))
      else (g.st, some (g.ans, g.data))
    | .regs _ => (s.violate v, some (.dropped, a.zeros len))
    | .none => (s.violate v, some (.dropped, a.zeros len))

/-- What the check bits at a target find as an access reads them (R660, R403, R417, Table 18.1): a double error poisons, and is reported,
before the access is performed; a single-bit error is corrected. An access that is a violation is not performed and finds nothing. -/
def State.eccMet (s : State) (r : Route) (a : Act) (len : Nat) (e : Ecc) : State :=
  match r with
  | .here _ (.pantry c off) => if e = .double ∧ a.readsWord off ∧ !(s.pantryAccess c off len a).viol then s.pantryDouble c off else s
  | .here _ (.hbm x) =>
    match s.hbmPlace x with
    | some (ch, q) => if a.readsWord x then s.l2Ecc ch q e else s
    | none => s
  | _ => s

/-- The reply that waits for a requester, and the state after it is taken. -/
def State.takeReply (s : State) (b : Requester) : Option (State × Answer × Bytes) :=
  (s.replies.find? fun r => r.by' == b).map fun r =>
    ({ s with replies := s.replies.eraseP fun x => x.by' == b }, r.answer, r.data)

/-- Whether a request of a requester is under way. -/
def State.inFlight (s : State) (b : Requester) : Bool :=
  s.ports.any (fun (e : Nat × PortSt) => e.2.outst.any fun r => r.2.by' == b) || s.hostOps.any fun h => h.2.by' == b

/-- One access of a core engine (R144): its answer, once it has one. An access under way is not issued again. -/
def State.request (s : State) (b : Requester) (c : Nat) (a : Act) (addr len arr : Nat) (twin : Bool) :
    State × Option (Answer × Bytes) :=
  match s.takeReply b with
  | some (s, r, d) => (s, some (r, d))
  | none =>
    if s.inFlight b then (s, none)
    else s.deliver b (s.resolveCore c a.perm addr twin) a len 0 arr (.core c)

/-! Completions from host memory (R152, R169, R800). -/

/-- PCIE_INTERFACE with a cause (Table 18.9). -/
def State.pcieFault (s : State) (cause : Nat) : State := s.detectHub 0x1C cause

/-- Answer a host operation and forget it. -/
def State.hostFinish (s : State) (tag : Nat) (a : Answer) (data : Bytes) : State :=
  match nfind s.hostOps tag with
  | none => s
  | some o => { s with hostOps := ndel s.hostOps tag }.answer o.by' a data

/-- A host map entry arrives (R152, R153): it is held, unless an invalidation has passed it. -/
def State.entryArrives (s : State) (tag e : Nat) : State :=
  match nfind s.hostOps tag with
  | none => s
  | some o =>
    if o.stage ≠ 0 then s else
    let s := { s with hostOps := ndel s.hostOps tag
                      mapCopies := if o.gen = 0 then nset s.mapCopies (mapKey o.ctx (o.off / 0x200000)) e else s.mapCopies }
    let (s, r) := s.hostIssue o e
    match r with
    | some (a, d) => s.answer o.by' a d
    | none => s

/-- A read of host memory that failed is reported (R800, Table 22.4). -/
def State.noteRead (s : State) : HostRead → State
  | .ok _ => s
  | .timeout => ((s.inc Fd.pcieCounts_CPL_TIMEOUTS).emit (.aer "Completion Timeout")).pcieFault 1
  | .refused => (s.emit (.aer "Unsupported Request")).pcieFault 2

/-- The bytes a read brought. -/
def readBytes : HostRead → Option Bytes
  | .ok b => some b
  | .timeout => none
  | .refused => none

/-- A host map entry that was to be read could not be: its access is answered poisoned (R169). -/
def State.entryFails (s : State) (tag : Nat) (r : HostRead) : State :=
  match nfind s.hostOps tag with
  | none => s
  | some o => if o.stage ≠ 0 then s else (s.hostFinish tag .poisoned o.zeros).noteRead r

/-- HOST_MAP_ENTRY_FETCH (R152, R169). -/
def execHostMapEntryFetch (tag : Nat) (entry : HostRead) (s : State) : Host.Outcome State Fault Refusal :=
  match entry with
  | .ok b => .next (s.entryArrives tag (leNat (b.take 8)))
  | r => .next (s.entryFails tag r)

/-- A read or an atomic of host memory succeeds: its access is answered, FENCED where the slice's fold has become FENCED since (R160); of
a CAS of several pairs the next pair is issued first, at the same host address, one AtomicOp a pair (R866; DESIGN CHOICE, assumption
log 37). -/
def State.hostGood (s : State) (tag : Nat) (o : HostOp) (data : Bytes) : State :=
  if (s.foldOfCtx o.ctx).any fun f => s.foldFence f == FencePhase.fenced then s.hostFinish tag .fenced o.zeros
  else match o.pairs with
    | [] => s.hostFinish tag .done (o.acc ++ padTo o.len data)
    | (x, w) :: l =>
      { s with hostOps := nset s.hostOps tag { o with data := leBytes 4 w, expect := x, pairs := l, acc := o.acc ++ padTo o.len data } }.hostReq
        (.hostAtomic tag o.bus o.aop w x o.len)

/-- A completion that no request of the device waits for any more, since a DEVICE reset came between: it is dropped (R807). -/
def HostOp.gone (o : HostOp) : Bool := o.by' == .late 304

/-- A completion of a device read to a host slice (R800). -/
def State.completionArrives (s : State) (tag : Nat) (status : CplStatus) (data : Bytes) : State :=
  match nfind s.hostOps tag with
  | none => s
  | some o =>
    if o.gone then s.hostFinish tag .done o.zeros else
    match status with
    | .sc => if o.stage = 0 then s.entryArrives tag (leNat (data.take 8)) else s.hostGood tag o data
    | .ur => (s.hostFinish tag .poisoned o.zeros).noteRead .refused
    | .ca => ((s.emit (.aer "Completer Abort")).hostFinish tag .poisoned o.zeros).pcieFault 2

/-- DEVICE_READ_COMPLETION (R800, R807): a completion that no request waits for is dropped. -/
def execDeviceReadCompletion (tag : Nat) (status : CplStatus) (data : Bytes) (s : State) : Host.Outcome State Fault Refusal :=
  .next (s.completionArrives tag status data)

/-- COMPLETION_TIMEOUT (R800). -/
def execCompletionTimeout (tag : Nat) (s : State) : Host.Outcome State Fault Refusal :=
  match nfind s.hostOps tag with
  | none => .next s
  | some o => if o.gone then .next { s with hostOps := ndel s.hostOps tag } else .next ((s.hostFinish tag .poisoned o.zeros).noteRead .timeout)

/-! Host maps (R153, R157, R163). -/

/-- A write of CTX_MAP_INVAL (R153, R163): ALL, or one page. -/
def State.mapInval (s : State) (src : Source) (c : Nat) (all : Bool) (page : Nat) : State :=
  if s.fon Fd.ctxMapCtl_INVAL_BUSY c then s.charge src else
  let hit (p : Nat) : Bool := all || p == page
  { s.fset Fd.ctxMapCtl_INVAL_BUSY 1 c with
    mapCopies := s.mapCopies.filter fun e => !(e.1 / 2 ^ 21 == c && hit (e.1 % 2 ^ 21))
    hostOps := s.hostOps.map fun (e : Nat × HostOp) =>
      if e.2.ctx = c ∧ e.2.stage = 0 ∧ hit (e.2.off / 0x200000) then (e.1, { e.2 with gen := 1 }) else e }

/-- CTX_MAP_INVAL (R153). -/
def execCtxMapInval (src : Source) (c : CtxId) (v : Word32) (s : State) : Host.Outcome State Fault Refusal :=
  if s.shut src then .next (s.turned .host) else
  .next (s.mapInval src c (bit v.toNat 31) (bits v.toNat 20 0))

/-- CTX_MAP_INVAL_DONE (R153): after every entry read it had to pass has returned. -/
def execCtxMapInvalDone (c : CtxId) (s : State) : Host.Outcome State Fault Refusal :=
  if s.hostOps.any fun (e : Nat × HostOp) => e.2.ctx == c.val && e.2.stage == 0 && e.2.gen == 1 then .next s
  else .next (s.fset Fd.ctxMapCtl_INVAL_BUSY 0 c)

/-- Disable a context's host map (R172, R173). -/
def State.mapDrop (s : State) (c : Nat) : State := { s with mapCopies := s.mapCopies.filter fun e => e.1 / 2 ^ 21 != c }

end Sys2Proof.Machine
end

