-- ==== Sys2Proof/Machine/Results.lean ====
section
/-!
DEFINITION. What an engine's results do to its core: the numeric flags and counts (R277 to R288), reads and writes of the own Pantry, and what
is left of the words that a fence or an ABORT stop cuts short.
-/
namespace Sys2Proof.Machine

/-! Numeric flags and counts (R277 to R285). -/

/-- Record the results of one write (R280). -/
def State.record (s : State) (c e : Nat) (l : List Res) : State :=
  let n := numOf e
  let fl := l.foldl (fun a r => a.lor r.flags) 0 % 128
  let sat := (l.filter fun r => r.sat).length
  let fls := (l.filter fun r => r.flush).length
  let s := if fl = 0 then s else s.setReg .numFlags ((s.reg .numFlags c).lor (fl * 2 ^ (8 * n))) c
  let s := if sat = 0 then s else s.incBy Fd.numCounts_SAT_COUNT sat c n
  let s := if fls = 0 then s else s.incBy Fd.numCounts_FLUSH_COUNT fls c n
  if e = 4 ∨ sat + fls = 0 then s else s.modCore c fun k =>
    let p := k.nums.getD n (0, 0)
    { k with nums := k.nums.set n (p.1 + sat, p.2 + fls) }

/-! Pantry operands and results. -/

/-- The bits of an element of a byte string. -/
def elemAt (b : Bytes) (pos n : Nat) : Nat := leNat ((b.drop (pos / 8)).take 9) / 2 ^ (pos % 8) % 2 ^ n

/-- Whether a range of a Pantry holds a poisoned granule or counter. -/
def State.rangePoison (s : State) (c off len : Nat) : Bool :=
  len != 0 && (List.range ((off + len - 1) / 64 - off / 64 + 1)).any fun i =>
    let g := (off / 64 + i) * 64
    s.pantryPoison c (max g off) (min (g + 64) (off + len) - max g off)

/-- Write bytes of an engine into its own Pantry granule by granule (Table 10.2): a granule among the counters or in the rescue frame
takes nothing and is a violation. What a granule writes is recorded by rec, given the bytes' place in the string. -/
def State.pantryWrite (s : State) (c off : Nat) (b : Bytes) (rec : Nat → Nat → State → State) : State :=
  if b.isEmpty then s else
  (List.range ((off + b.length - 1) / 64 - off / 64 + 1)).foldl (fun s i =>
    let lo := max ((off / 64 + i) * 64) off
    let hi := min ((off / 64 + i) * 64 + 64) (off + b.length)
    let g := s.pantryAccess c lo (hi - lo) (.engineStore ((b.drop (lo - off)).take (hi - lo)))
    if g.viol then s.violate (.core c) else rec (lo - off) (hi - off) g.st) s

/-- Bytes of a list of elements of n bits each, packed from the lowest bit upward (R228); pad fills the last byte. -/
def packElems (n pad : Nat) (l : List Nat) : Bytes :=
  if n % 8 = 0 then l.flatMap fun v => leBytes (n / 8) v
  else leBytes ((l.length * n + 7) / 8) ((l.zipIdx.map fun (v, i) => v % 2 ^ n * 2 ^ (n * i)).foldl (· + ·) (pad * 2 ^ (n * l.length)))

/-- The bits of a row's last byte beyond its last element: no rule gives them, so they are a free value (assumption log 4). -/
def State.padBits (s : State) (n count : Nat) : Nat × State :=
  if n * count % 8 = 0 then (0, s) else (s.free.1.toNat, s.free.2)

/-- The results whose last byte lies in bytes lo up to hi of a row of n-bit elements. -/
def resIn (n lo hi : Nat) (l : List Res) : List Res :=
  (l.zipIdx.filter fun (_, i) => decide (lo ≤ ((i + 1) * n - 1) / 8) && decide (((i + 1) * n - 1) / 8 < hi)).map (·.1)

/-- Write a row of results of n-bit elements into the own Pantry, recording their flags and counts per granule (R280). -/
def State.writeResults (s : State) (c e off n : Nat) (l : List Res) : State :=
  let (pad, s) := s.padBits n l.length
  s.pantryWrite c off (packElems n pad (l.map (·.bits))) fun lo hi s => s.record c e (resIn n lo hi l)

/-! Words cut short (R245, R285, R314). -/

/-- The current word of a core's MATRIX engine. -/
def State.mat (s : State) (c : Nat) : MatSt := (s.core c).mat
/-- Change the MATRIX engine of a core. -/
def State.modMat (s : State) (c : Nat) (f : MatSt → MatSt) : State := s.modCore c fun k => { k with mat := f k.mat }

/-- The drain of the arrays writes the finished blocks it holds, oldest first (R222, R240). -/
def State.matFlush (s : State) (c : Nat) : State :=
  let d := (s.mat c).drain.flatten
  d.foldl (fun s r => s.writeResults c 0 r.1 r.2.1 r.2.2) ((s.modMat c fun t => { t with drain := [] }).fset Fd.matrixStatus_WAIT_DRAIN 0 c)

/-- The arrays stop at the end of a step (R245): the drain is written, and the word is not resumed (R246). -/
def State.matCut (s : State) (c : Nat) : State :=
  if (s.mat c).word.isNone then s else
  (((s.matFlush c).modMat c fun _ => {}).fset Fd.matrixStatus_WAIT_POUR 0 c).numEnd c 0

/-- A vector word that waits for room in the summary queue is cut short: it delivers no summary (R314). -/
def State.vecCut (s : State) (c : Nat) : State :=
  if (s.core c).vecSum.isNone then s else (s.modCore c fun k => { k with vecSum := none }).numEnd c 1

/-- The engines of a core stop at their boundaries and run no word (R634, R496): those that ran show IDLE. -/
def State.enginesCut (s : State) (c : Nat) : State :=
  (List.range 5).foldl (fun s e => if s.engState c e = 1 then s.setEngState c e 0 else s) (((s.matCut c).vecCut c).whiskCut c)

end Sys2Proof.Machine
end

