-- ==== Sys2Proof/Machine/Time.lean ====
section
/-!
DEFINITION. Quartz (chapter 16): time-lock, the choice of a leader, the servo, forward steps, outputs, PTM and the reference
monitor.
-/
namespace Sys2Proof.Machine

/-- One period of REF_T passes (R592): the counter advances by 10 ns × (1 + RATE), and elapsed time with it (R594). -/
def State.idleTick (s : State) : State :=
  let d := (1000000000 + sext 24 (s.fget Fd.quartzServo_RATE_PPB)).toNat
  s.modTime fun t => { t with q := t.q + d, el := t.el + d }

/-- STATE of QUARTZ_STATUS (Table 16.1). -/
def State.qState (s : State) : Nat := s.fget Fd.quartzStatus_STATE

/-- Whether a Quartz state is time-locked while REF_OK is set (R595): LEADER, FREE_RUNNING, LOCKED, HOLDOVER. -/
def lockedState (st : Nat) : Bool := st == 1 || st == 2 || st == 4 || st == 5

/-- Work out TIME_LOCKED. Each change into or out of it writes a Garnet entry and raises the time vector (R606). -/
def State.noteLock (s : State) : State :=
  let l := lockedState s.qState && s.fon Fd.quartzStatus_REF_OK
  if l = s.fon Fd.quartzStatus_TIME_LOCKED then s else
  let s := s.fset Fd.quartzStatus_TIME_LOCKED (b2n l)
  let s := s.stewardLog 0x0007 (recBytes 12 [(0, 1, s.qState), (1, 1, b2n l), (2, 2, s.fget Fd.quartzStatus_LEADER_MEMBER),
    (4, 4, s.fget Fd.quartzStatus_TIME_EPOCH), (8, 4, s.fget Fd.quartzServo_OFFSET_NS)])
  s.raiseVec 100

/-- Enter a Quartz state. -/
def State.setQ (s : State) (st : Nat) : State := (s.fset Fd.quartzStatus_STATE st).noteLock

/-- Set RATE in parts per billion, limited to ±100 ppm (R592). -/
def State.setRate (s : State) (ppb : Int) : State :=
  s.fset Fd.quartzServo_RATE_PPB (unsext 24 (max (-100000) (min 100000 ppb)))

/-- A follower leaves time-locked state for another state, raising UNLOCKS if it was locked (R605). -/
def State.unlockTo (s : State) (st : Nat) : State :=
  let s := if s.qState = 4 ∨ s.qState = 5 then s.inc Fd.quartzCounts_UNLOCKS else s
  (s.modTime fun t => { t with good := 0 }).setQ st

/-- An advertisement heard on a port: leader, epoch, leader's member index, hops, locked, elapsed time. -/
structure Advert where
  port : Nat
  id : Nat
  epoch : Nat
  member : Nat
  hops : Nat
  deriving DecidableEq, Repr

/-- The candidates that peers advertise (R599): fresh, on an ACTIVE time port, fewer than 62 hops. -/
def State.adverts (s : State) : List Advert :=
  s.time.adverts.filterMap fun (p, l) =>
    let g (i : Nat) := l.getD i 0
    if s.devSec.timePorts.testBit p && s.portState p == 5 && decide (g 3 < 62) && decide (g 0 < 2 ^ 64 - 1) &&
        decide (s.elapsed ≤ g 5 + 5000000) then some ⟨p, g 0, g 1, g 2, g 3⟩ else none

/-- The better of two advertisements: lowest leader, then greater epoch (R618), fewest hops, lowest port. -/
def Advert.better (a b : Advert) : Bool :=
  decide (a.id < b.id) || (a.id == b.id && (decide (b.epoch < a.epoch) || (a.epoch == b.epoch &&
    (decide (a.hops < b.hops) || (a.hops == b.hops && decide (a.port ≤ b.port))))))

/-- The best advertisement. -/
def bestAdvert (l : List Advert) : Option Advert :=
  l.foldl (fun o a => match o with | none => some a | some b => if a.better b then some a else some b) none

/-- Enter LEADER with a new epoch (R600): one more than the greatest received in the last second, or than its own. -/
def State.becomeLeader (s : State) : State :=
  let heard := ((s.time.epochs.filter fun e => s.elapsed ≤ e.2 + 1000000000).map (·.1)).foldl max 0
  let s := s.fset Fd.quartzStatus_TIME_EPOCH (max heard (s.fget Fd.quartzStatus_TIME_EPOCH) + 1)
  let s := s.setReg .quartzLeaderId s.fuse.deviceId
  let s := s.fset Fd.quartzStatus_LEADER_MEMBER (s.member.getD 0)
  let s := (s.fset Fd.quartzServo_HOPS 0).fset Fd.quartzStatus_PARENT_PORT 0x3F
  (s.setRate 0).setQ 2

/-- Follow an advertisement (R599, R600). A change of leader or of its epoch starts in ACQUIRING (R605, R607). -/
def State.follow (s : State) (a : Advert) : State :=
  let s := s.setReg .quartzLeaderId a.id
  let s := (s.fset Fd.quartzStatus_TIME_EPOCH a.epoch).fset Fd.quartzStatus_LEADER_MEMBER a.member
  let s := (s.fset Fd.quartzServo_HOPS (a.hops + 1)).fset Fd.quartzStatus_PARENT_PORT a.port
  if s.time.lead = [a.id, a.epoch] ∧ s.qState ≠ 0 ∧ s.qState ≠ 2 then s
  else (s.unlockTo 3).modTime fun t => { t with lead := [a.id, a.epoch] }

/-- Choose a leader (R599). With no candidate, a member that led or was acquiring is UNLOCKED. -/
def State.chooseLeader (s : State) : State :=
  if !s.hasImage || s.devSec.role == 2 then s else
  let self := s.devSec.role == 1 && s.fon Fd.quartzStatus_REF_OK
  match bestAdvert s.adverts with
  | some a =>
    if self && decide (s.fuse.deviceId ≤ a.id) then (if s.qState = 2 then s else s.becomeLeader) else s.follow a
  | none =>
    if self then (if s.qState = 2 then s else s.becomeLeader)
    else
      let s := s.setReg .quartzLeaderId (2 ^ 64 - 1)
      let s := (s.fset Fd.quartzServo_HOPS 0xFF).fset Fd.quartzStatus_PARENT_PORT 0x3F
      if s.qState = 4 ∨ s.qState = 5 then s else s.setQ 6

/-- The loaded image's TIME_ROLE applies (R595, R624). A FREE_RUNNING member follows no leader. -/
def State.applyRole (s : State) : State :=
  if s.devSec.role = 2 then
    let s := (s.setReg .quartzLeaderId (2 ^ 64 - 1)).fset Fd.quartzStatus_LEADER_MEMBER (s.member.getD 0)
    let s := (s.fset Fd.quartzServo_HOPS 0xFF).fset Fd.quartzStatus_PARENT_PORT 0x3F
    (s.setRate 0).setQ 1
  else if s.qState = 2 ∧ s.devSec.role = 1 ∧ s.fon Fd.quartzStatus_REF_OK then s.noteLock
  else s.chooseLeader

/-- The slots of a TIME packet of this member (Table 16.2). -/
def State.timePacket (s : State) (kind seq tx txf rx rxf : Nat) : List Word :=
  [BitVec.ofNat 64 (0x41 + 6 * 2 ^ 8 + 2 ^ 16 * kind + 2 ^ 24 * (seq % 2 ^ 16) + 2 ^ 40 * (s.member.getD 0xFFFF % 2 ^ 16)),
   BitVec.ofNat 64 (s.reg .quartzLeaderId),
   BitVec.ofNat 64 (s.fget Fd.quartzStatus_TIME_EPOCH + 2 ^ 32 * s.fget Fd.quartzStatus_LEADER_MEMBER +
     2 ^ 48 * s.fget Fd.quartzServo_HOPS + 2 ^ 56 * s.fget Fd.quartzStatus_TIME_LOCKED),
   BitVec.ofNat 64 tx, BitVec.ofNat 64 rx, BitVec.ofNat 64 (txf % 65536 + 65536 * (rxf % 65536))]

/-- Whether a TIME packet of a kind is well formed (R596). -/
def timeOk (kind : Nat) (l : List Word) : Bool :=
  l.length == 6 && slotBits l 0 7 0 == 0x41 && slotBits l 0 15 8 == 6 && slotBits l 0 19 16 == kind &&
    slotBits l 0 23 20 == 0 && slotBits l 0 63 56 == 0 && slotBits l 2 63 57 == 0 && slotBits l 5 63 32 == 0 &&
    (slotBits l 2 55 48 ≤ 62 || slotBits l 2 55 48 == 0xFF) && (kind == 1 || slotBits l 4 63 0 == 0)

/-- Record what a TIME packet advertises, and choose anew (R599, R600). -/
def State.hear (s : State) (p : Nat) (l : List Word) : State :=
  let e := slotBits l 2 31 0
  let a := [slotBits l 1 63 0, e, slotBits l 2 47 32, slotBits l 2 55 48, slotBits l 2 56 56, s.elapsed]
  (s.modTime fun t => { t with adverts := nset t.adverts p a
                               epochs := (e, s.elapsed) :: t.epochs.filter (fun x => x.1 ≠ e) }).chooseLeader

/-- TIME_REQ_SEND (R598). -/
def execTimeReqSend (port : PortId) (now : Nat) (s : State) : Host.Outcome State Fault Refusal :=
  let s := s.advance now
  let last := (nfind s.time.reqs (100 + port.val)).map fun l => l.getD 0 0
  let due := match last with
    | none => true
    | some t => decide (t + 1000000 ≤ s.elapsed)
  if s.hasImage && s.devSec.timePorts.testBit port && s.portState port == 5 && due then
    let seq := s.time.seq
    let s := s.sendPacket port (s.timePacket 0 seq s.now s.frac 0 0)
    .next (s.modTime fun t => { t with
      seq := (seq + 1) % 65536
      reqs := nset (nset t.reqs port.val [seq, s.now, s.frac, s.elapsed]) (100 + port.val) [s.elapsed] })
  else .next s

/-- A TIME REQ arrives (R598): answered with the arrival's and the answer's time points, locked or not. -/
def State.timeReqArrives (s : State) (port : Nat) (slots : List Word) (rx rxFrac : Nat) : State :=
  if !s.portUp port || !s.hasImage then s
  else if !timeOk 0 slots then s.protocolError port
  else
    let (s, ok) := s.acceptPacket port slots
    if !ok then s else
    let s := s.hear port slots
    s.sendPacket port (s.timePacket 1 (slotBits slots 0 39 24) s.now s.frac rx rxFrac)

/-- TIME_REQ (R598). -/
def execTimeReq (port : PortId) (slots : List Word) (rx rxFrac now : Nat) (s : State) : Host.Outcome State Fault Refusal :=
  .next ((s.advance now).timeReqArrives port slots rx rxFrac)

/-- Deadlines a forward step from old to new passes fall due once (R615): timer compares and firmware timers. Held doorbells it passes
become late, and are released by their own command, which the step has made due. -/
def State.stepPast (s : State) (old new : Nat) : State :=
  let s := { s with rings := s.rings.map fun (e : Nat × RingSt) => (e.1, { e.2 with
      segs := e.2.segs.map fun (g : Seg) => if g.held ∧ old < g.start ∧ g.start < new then ({ g with late := true } : Seg) else g }) }
  let s := (s.cores.map (·.1)).foldl (fun s c =>
    let t := (s.core c).twin
    if t.tcmpArmed && decide (old < t.tcmp.toNat) && decide (t.tcmp.toNat ≤ new) then
      (s.latchCore c 0).modTwin c fun t => { t with tcmpArmed := false } else s) s
  (List.range 5).foldl (fun s n => s.modProc n fun p =>
    p.timers.foldl (fun p (k, v) => if v ≠ 0 ∧ !nhas p.timerDone k ∧ old < v ∧ v ≤ new then
      { p with events := p.events.lor (2 ^ k), timerDone := nset p.timerDone k () } else p) p) s

/-- The counter steps forward by d units of 10^-8 ns; no elapsed time passes (R594). -/
def State.stepBy (s : State) (d : Nat) : State :=
  let old := s.now
  let s := (s.modTime fun t => { t with q := t.q + d }).inc Fd.quartzCounts_STEPS
  s.stepPast old s.now

/-- The servo uses a measurement of the parent port: offset in 1/65536 ns, positive when behind (R602 to R605). -/
def State.servo (s : State) (offset : Int) : State :=
  let us : Int := 1000 * 65536
  let s := s.fset Fd.quartzServo_OFFSET_NS (unsext 32 (max (-(2 ^ 31)) (min (2 ^ 31 - 1) (offset.tdiv 65536))))
  let near := decide (offset.natAbs ≤ us.natAbs)
  let s := s.modTime fun t => { t with lastMeas := s.elapsed, good := if near then t.good + 1 else 0 }
  let s := if !near && (s.qState == 4 || s.qState == 5) then s.unlockTo 6 else s
  let s := if us < offset then s.stepBy (tick * offset.toNat / 65536)
    else if offset < -us then s.setRate (-100000)
    else s.setRate ((15625 * offset).tdiv (65536 * 1000))
  if 8 ≤ s.time.good ∧ (s.qState = 3 ∨ s.qState = 6 ∨ s.qState = 5) then s.setQ 4 else s

/-- A TIME RSP arrives (R598, R602): the measurement's offset and delay, and on the parent port the servo's use of it. -/
def State.timeRspArrives (s : State) (port : Nat) (slots : List Word) (rx rxFrac : Nat) : State :=
  if !s.portUp port || !s.hasImage then s
  else if !timeOk 1 slots then s.protocolError port
  else
    let (s, ok) := s.acceptPacket port slots
    if !ok then s else
    let s := s.hear port slots
    match nfind s.time.reqs port with
    | none => s
    | some r =>
      if r.getD 0 0 ≠ slotBits slots 0 39 24 then s else
      let s := s.modTime fun t => { t with reqs := ndel t.reqs port }
      let fx (ns fr : Nat) : Int := (65536 * ns + fr : Nat)
      let t1 := fx (r.getD 1 0) (r.getD 2 0)
      let t2 := fx (slotBits slots 4 63 0) (slotBits slots 5 31 16)
      let t3 := fx (slotBits slots 3 63 0) (slotBits slots 5 15 0)
      let t4 := fx rx rxFrac
      let offset := ((t2 - t1) - (t4 - t3)).tdiv 2
      if r.getD 3 0 + 2000000 < s.elapsed then s
      else
        let s := s.modTime fun t => { t with delay := ((t2 - t1) + (t4 - t3)).tdiv 2 }
        if s.fget Fd.quartzStatus_PARENT_PORT = port ∧ s.qState ≠ 1 ∧ s.qState ≠ 2 then s.servo offset else s

/-- TIME_RSP (R598, R602). -/
def execTimeRsp (port : PortId) (slots : List Word) (rx rxFrac now : Nat) (s : State) : Host.Outcome State Fault Refusal :=
  .next ((s.advance now).timeRspArrives port slots rx rxFrac)

/-- MEASUREMENT_TIMEOUT (R598). -/
def execMeasurementTimeout (port : PortId) (now : Nat) (s : State) : Host.Outcome State Fault Refusal :=
  let s := s.advance now
  match nfind s.time.reqs port.val with
  | some r => if r.getD 3 0 + 2000000 ≤ s.elapsed then
      .next (s.modTime fun t => { t with reqs := ndel t.reqs port.val }) else .next s
  | none => .next s

/-- ADVERTISEMENT_AGE_OUT (R599). -/
def execAdvertisementAgeOut (port : PortId) (now : Nat) (s : State) : Host.Outcome State Fault Refusal :=
  let s := s.advance now
  match nfind s.time.adverts port.val with
  | some a => if a.getD 5 0 + 5000000 ≤ s.elapsed then
      .next (s.modTime fun t => { t with adverts := ndel t.adverts port.val }).chooseLeader else .next s
  | none => .next s

/-- HOLDOVER_ENTRY (R605): a LOCKED follower with no measurement for 5 ms. -/
def execHoldoverEntry (now : Nat) (s : State) : Host.Outcome State Fault Refusal :=
  let s := s.advance now
  if s.qState = 4 ∧ s.time.lastMeas + 5000000 ≤ s.elapsed then
    .next ((s.modTime fun t => { t with holdStart := s.elapsed, good := 0 }).setQ 5)
  else .next s

/-- HOLDOVER_EXPIRY (R605): HOLDOVER for 100 ms. -/
def execHoldoverExpiry (now : Nat) (s : State) : Host.Outcome State Fault Refusal :=
  let s := s.advance now
  if s.qState = 5 ∧ s.time.holdStart + 100000000 ≤ s.elapsed then .next (s.unlockTo 6) else .next s

/-- STEP_FORWARD of QUARTZ_CMD (R607). -/
def State.stepForward (s : State) : State :=
  let at' := s.reg .quartzStepTo
  if s.qState ≠ 1 ∧ s.qState ≠ 2 then s.fset Fd.quartzStatus_CMD_REASON 1
  else if at' ≤ s.now then s.fset Fd.quartzStatus_CMD_REASON 2
  else
    let s := s.stepBy (tick * at' - s.time.q)
    if s.qState = 2 then s.wrapInc Fd.quartzStatus_TIME_EPOCH else s

/-- STEP_FORWARD (R607). -/
def execStepForward (src : Source) (now : Nat) (s : State) : Host.Outcome State Fault Refusal :=
  if s.shut src then .next (s.turned .host) else
  .next (s.advance now).stepForward

/-- Whether the PTM requester is enabled by the image and by the host (R612). -/
def State.ptmEnabled (s : State) : Bool := s.devSec.timeOutputs.testBit 2 && s.host.ptmOn

/-- Start one PTM dialog. -/
def State.startPtm (s : State) : State := (s.modTime fun t => { t with ptmBusy := true }).hostReq .ptmRequest

/-- The dialog of every 100 ms (R612). -/
def State.ptmPeriod (s : State) : State :=
  if s.ptmEnabled && (s.time.ptmAt.map fun t => decide (t + 100000000 ≤ s.elapsed)).getD true then
    (s.modTime fun t => { t with ptmAt := some s.elapsed }).startPtm
  else s

/-- PTM_SAMPLE of QUARTZ_CMD (R612). -/
def State.ptmSample (s : State) : State :=
  if s.ptmEnabled then s.startPtm else s.fset Fd.quartzStatus_CMD_REASON 3

/-- PTM_SAMPLE (R612). -/
def execPtmSample (src : Source) (now : Nat) (s : State) : Host.Outcome State Fault Refusal :=
  if s.shut src then .next (s.turned .host) else
  .next (s.advance now).ptmSample

/-- PTM_PERIODIC (R612). -/
def execPtmPeriodic (now : Nat) (s : State) : Host.Outcome State Fault Refusal := .next (s.advance now).ptmPeriod

/-- PTM_DIALOG_DONE (R612). -/
def execPtmDialogDone (t1 t4 master : Word) (delay : Nat) (s : State) : Host.Outcome State Fault Refusal :=
  if !s.time.ptmBusy then .next s else
  let s := s.modTime fun t => { t with ptmBusy := false }
  let s := ((s.setReg .ptmT1 t1.toNat).setReg .ptmT4 t4.toNat).setReg .ptmMaster master.toNat
  .next ((s.fset Fd.ptmStatus_PROP_DELAY_NS delay).wrapInc Fd.ptmStatus_SEQ)


/-- CRC-16 of the TOD_OUT message (Table 16.3). -/
def crc16 (b : Bytes) : Nat :=
  let step (c : Nat) : Nat := if bit c 15 then ((c * 2) % 65536).xor 0x1021 else (c * 2) % 65536
  b.foldl (fun c x => step (step (step (step (step (step (step (step (c.xor (x.toNat * 256)))))))))) 0xFFFF

/-- The TOD_OUT message that describes a second boundary (Table 16.3). -/
def State.todBytes (s : State) (sec : Nat) : Bytes :=
  let st := s.qState
  let flags := s.fget Fd.quartzStatus_TIME_LOCKED + 2 * b2n (st == 2) + 4 * b2n (st == 5) + 8 * b2n (st == 1) +
    16 * b2n (!s.fon Fd.quartzStatus_REF_OK)
  let b : Bytes := [0x51, 0xA5, 0x01, BitVec.ofNat 8 flags] ++ leBytes 6 sec ++
    leBytes 2 (s.fget Fd.quartzStatus_LEADER_MEMBER) ++ leBytes 2 (s.fget Fd.quartzStatus_TIME_EPOCH)
  b ++ beBytes 2 (crc16 b)

/-- The level of PPS_OUT: high for 100 ms after each rise (R610). -/
def State.ppsHigh (s : State) : Bool := (s.time.ppsAt.map fun t => decide (s.elapsed < t + 100000000)).getD false

/-- PPS_CROSSING (R610): one pulse for the last second boundary crossed since the last pulse, when PPS_OUT is enabled; PPS latches
for every fold and every firmware processor in any case. The message that describes the edge is sent later (R611). -/
def execPpsCrossing (now : Nat) (s : State) : Host.Outcome State Fault Refusal :=
  let s := s.advance now
  let e := s.now / 1000000000
  if e ≤ s.time.edge then .next s else
  let s := s.modTime fun t => { t with edge := e }
  let s := (List.range s.foldSecs.length).foldl (fun s f => s.latchFold f 3) s
  let s := s.latchProcs 19
  if s.devSec.timeOutputs.testBit 0 then
    let s := (s.emit .pps).modTime fun t => { t with ppsAt := some s.elapsed }
    .next (if s.devSec.timeOutputs.testBit 1 then s.modTime fun t => { t with todDue := some (s.todBytes e) } else s)
  else .next s

/-- TOD_MESSAGE (R611): 10 ms after the pulse's rising edge, describing that edge. -/
def execTodMessage (now : Nat) (s : State) : Host.Outcome State Fault Refusal :=
  let s := s.advance now
  match s.time.todDue with
  | some b => if s.time.ppsAt.getD 0 + 10000000 ≤ s.elapsed then
      .next ((s.modTime fun t => { t with todDue := none }).emit (.tod b)) else .next s
  | none => .next s

/-- REF_T_LOSS (R621, R605). -/
def execRefTLoss (now : Nat) (s : State) : Host.Outcome State Fault Refusal :=
  let s := s.advance now
  if !s.fon Fd.quartzStatus_REF_OK then .next s else
  let s := (s.fset Fd.quartzStatus_REF_OK 0).inc Fd.quartzCounts_REF_LOSSES
  let s := if s.qState = 4 ∨ s.qState = 5 then s.unlockTo 6 else if s.qState = 2 then (if s.hasImage then s.chooseLeader else s.setQ 6) else s
  .next (s.noteLock.detectHub 0x17 0)

/-- REF_T_ACCEPT (R621): the counter returns to REF_T without a step. -/
def execRefTAccept (now : Nat) (s : State) : Host.Outcome State Fault Refusal :=
  let s := s.advance now
  if !s.life.aonUp || s.fon Fd.quartzStatus_REF_OK then .next s else
  .next (s.fset Fd.quartzStatus_REF_OK 1).noteLock.chooseLeader

/-- QUARTZ_COUNTER (R622): what the two counters hold at the compare; the prediction is the model's own value. -/
def execQuartzCounter (a b : Word) (s : State) : Host.Outcome State Fault Refusal :=
  if a = b then .next s
  else if a.toNat = s.now ∨ b.toNat = s.now then .next ((s.inc Fd.quartzCounts_COUNTER_FIXES).detectHub 0x18 0)
  else
    let s := if s.qState = 4 ∨ s.qState = 5 then s.unlockTo 6 else if lockedState s.qState then s.setQ 6 else s
    .next (s.detectHub 0x18 0)

/-- A read of QUARTZ_NOW latches the fraction and STATE into QUARTZ_SNAP (R625). -/
def State.latchSnap (s : State) : State :=
  (s.fset Fd.quartzSnap_STATE s.qState).fset Fd.quartzSnap_FRAC s.frac

/-- QUARTZ_NOW_READ (R625): the same for every reader. -/
def execQuartzNowRead (src : Source) (s : State) : Host.Outcome State Fault Refusal :=
  if s.dark src then .next (unsupported s) else
  .next (s.latchSnap.emit (.regRead (BitVec.ofNat 64 s.now)))

end Sys2Proof.Machine
end

