-- ==== Sys2Proof/Machine/Reset.lean ====
section
/-!
DEFINITION. The resets of single units (Table 19.2): a core, a port, a ring's and a context's registers, a fold, a firmware
processor; and the generation tags they advance (R699).
-/
namespace Sys2Proof.Machine

/-- Advance a generation tag of DOMAIN_GEN (R699): cores from 0, folds from 288, the Steward at 304, the Ladles from 305. -/
def State.advanceGen (s : State) (n : Nat) : State := s.fset Fd.domainGen_GEN (s.fget Fd.domainGen_GEN n + 1) n

/-- The current generation tag of a core. -/
def State.coreGen (s : State) (c : Nat) : Nat := s.fget Fd.domainGen_GEN c

/-- Whether a requester belongs to a core. -/
def Requester.ofCore (r : Requester) (c : Nat) : Bool :=
  match r with
  | .twin n => n == c
  | .engine n _ _ => n == c
  | .ring _ => false
  | .coll _ _ _ => false
  | .forward _ _ _ => false
  | .late _ => false

/-- The core whose twin or Whisk slot a waiter on a counter is: twin c is waiter c, slot s of core c is 1000 + 48c + s, and ring r
is 20000 + r. -/
def waiterCore (k : Nat) : Option Nat := if k < 288 then some k else if 1000 ≤ k ∧ k < 20000 then some ((k - 1000) / 48) else none

/-- Every arrival counter of a core to zero with fresh check bits (R404, R628). -/
def State.clearCounters (s : State) (c : Nat) : State :=
  { s with arr := s.arr.filter fun e => e.1 / 64 != c, ctrPoison := s.ctrPoison.filter fun e => e.1 / 64 != c }

/-- The Pantry of a core and its counters, written with zero and fresh check bits (Table 17.2). -/
def State.clearPantry (s : State) (c : Nat) : State :=
  let lo := pantryKey c 0
  let hi := pantryKey c Config.pantryBytes
  { s.clearCounters c with mem := mclear s.mem lo hi, poison := s.poison.filter fun e => !(decide (lo ≤ e.1 * 64) && decide (e.1 * 64 < hi)) }

/-- Requests of some cores still open are left to late replies (R701, R702): tags on ports are retired, host operations counted when
they complete. -/
def State.retireRequests (s : State) (mine : Requester → Bool) : State :=
  let s := { s with ports := s.ports.map fun (e : Nat × PortSt) => (e.1, { e.2 with
      outst := e.2.outst.filter fun (r : Nat × OutReq) => !mine r.2.by'
      retired := (e.2.outst.filter fun (r : Nat × OutReq) => mine r.2.by').foldl (fun m (r : Nat × OutReq) => nset m r.1 s.elapsed) e.2.retired }) }
  let s := (s.ports.map fun (e : Nat × PortSt) => e.1).foldl State.noteOutst s
  { s with hostOps := s.hostOps.map fun (e : Nat × HostOp) =>
      match e.2.by' with
      | .twin c => if mine e.2.by' then (e.1, { e.2 with by' := .late c, since := s.elapsed }) else e
      | .engine c _ _ => if mine e.2.by' then (e.1, { e.2 with by' := .late c, since := s.elapsed }) else e
      | _ => e }

/-- The cores of a Pour tree (R441). -/
def Tree.cores (t : Tree) : List Nat := (t.hops.map fun h => h.2).filter fun n => decide (n < 288)

/-- The tree of a stream. -/
def State.streamTree (s : State) (x : StreamSt) : Option Tree :=
  (s.foldSec x.fold).trees.find? fun t => t.id == bits x.word.w0.toNat 17 8

/-- Every host operation under way when the device stops is left to its late reply, which is one of the hub's domains: the Steward's tag
counts it (R807, R702). -/
def State.lateHostOps (s : State) : NMap HostOp :=
  s.hostOps.map fun (e : Nat × HostOp) => (e.1, { e.2 with by' := .late 304, stage := 1, op := 0, since := s.elapsed })

/-- A CORE reset cuts every stream the core issued or that passes through it (R464): STREAM_ABORT ends it. -/
def State.cutStreams (s : State) (c : Nat) : State :=
  { s with streams := s.streams.map fun x =>
      if x.core = c then { x with cut := true, orphan := true }
      else match s.streamTree x with
        | some t => if t.cores.contains c then { x with cut := true } else x
        | none => { x with cut := true } }

/-- The mailbox of a core is emptied (R508): it holds no part, and its dispatch count restarts. The Pantry bytes of its records do not change
(R217). -/
def State.clearMailbox (s : State) (c : Nat) : State :=
  { s.modCore c fun k => { k with parts := [] } with dispatch := ndel s.dispatch c }

/-- What a CORE reset does outside the core before it resets it (R404, R464, R508, R702). -/
def State.coreResetHook (s : State) (c : Nat) : State :=
  let s := ((((s.endParts c 8 3).clearMailbox c).clearCounters c).cutStreams c).retireRequests fun r => r.ofCore c
  { s with waiters := s.waiters.filter fun e => waiterCore e.1 != some c }

/-- What a CORE reset keeps of a core. -/
def CoreSt.afterReset (_k : CoreSt) : CoreSt := {}

/-- CORE reset of one core (R217, R404 and the Start and reset sections of the engines): twin, queues, engines and registers
take their reset values; Pantry storage, LOCK and the map-outs stay. Replies that wait for the core are dropped. -/
def State.resetCore (s : State) (c : Nat) : State :=
  let s := (s.coreResetHook c).cutTest c
  let s := if (s.core c).advanced then s else s.advanceGen c
  let k := s.core c
  let s := s.setCore c { k.afterReset with wasReset := true }
  let s := s.resetRegs [.core] fun r u => u == c && r.units == 288
  let s := { s with replies := s.replies.filter fun r => !r.by'.ofCore c }
  s.fset Fd.corePwr_RESET_PENDING 0 c

/-- CORE reset when the core is next ACTIVE: at once if it is (R649). -/
def State.resetCoreOrPend (s : State) (c : Nat) : State :=
  if s.fget Fd.corePwr_STATE c = 0 then s.resetCore c else s.fset Fd.corePwr_RESET_PENDING 1 c

/-- CORE reset by a reset command (R696): its tag advances now, though a core that is not ACTIVE takes the reset later. -/
def State.resetCoreCmd (s : State) (c : Nat) : State :=
  if s.fget Fd.corePwr_STATE c = 0 then s.resetCore c
  else ((s.advanceGen c).modCore c fun k => { k with advanced := true }).fset Fd.corePwr_RESET_PENDING 1 c

/-- PORT reset (R548): the generation advances, outstanding requests are answered FENCED, an ACTIVE port goes to HELD, and the
counts and records known after PORT are cleared. FSEQ, credits and LANE_MAP stay. So do PORT_STATUS.PEER_RX_GOOD and SPEED, which the port
still shows of the link that is not retrained: DESIGN CHOICE (assumption log 66), since R548 clears the registers known after PORT. -/
def State.resetPort (s : State) (p : Nat) : State :=
  let s := (s.genPort p).answerOutst p
  let s := if s.portState p = 5 then (s.setPortState p 4).setInUse p else s
  let s := s.resetRegs [.port] fun r u => u == p && r.units == 36 && r != .portStatus
  s.modPort p fun q => { q with agreeRx := [], agreeAt := none }

/-- Registers of a ring. -/
def RegName.isRing (r : RegName) : Bool := r.units == 64
/-- Registers of a context. -/
def RegName.isCtx (r : RegName) : Bool :=
  [RegName.ctxMapAddr, .ctxMapCtl, .ctxMapInval, .ctxMiss, .ctxMissCount, .ctxHtAddr, .ctxHtCtl, .ctxHtInval, .contextViol].contains r
/-- Registers of a fold. -/
def RegName.isFold (r : RegName) : Bool :=
  [RegName.foldStatus, .pinBase, .pinLen, .pinCmd, .pinStatus, .pinBytes].contains r

/-- A ring is put in STOPPED with nothing posted, held or in flight, and no record is written (R507). -/
def State.clearRing (s : State) (r : Nat) : State :=
  let s := s.retireRequests fun b => b == .ring r
  { s with rings := ndel s.rings r, waiters := ndel s.waiters (20000 + r)
           replies := s.replies.filter (fun x => x.by' != .ring r)
           hostOps := s.hostOps.filter fun e => e.2.by' != .ring r }

/-- The held copies of a context's handle table are dropped (R474). -/
def State.htDrop (s : State) (c : Nat) (p : Nat → Bool) : State :=
  { s with htCopies := s.htCopies.filter fun e => !(e.1 / 65536 == c && p (e.1 % 65536)) }

/-- What a FOLD reset does to rings, contexts, pins and collectives beside their registers (R508, R172, R431, R590). -/
def State.foldResetHook (s : State) (f : Nat) : State :=
  let sec := s.foldSec f
  let s := s.abortFoldColls f
  let s := (bitList 64 sec.ringSet).foldl State.clearRing s
  let s := (bitList 16 sec.ctxSet).foldl (fun s c => s.htDrop c fun _ => true) s
  let s := { s with mapCopies := s.mapCopies.filter (fun e => !sec.ctxSet.testBit (e.1 / 2 ^ 21)), pins := ndel s.pins f }
  s.unpinAll f

/-- FOLD reset (R694, R508, R172, R431): its cores and ports are reset, its rings and contexts too, its pins are cleared; its
fence stays as it was. -/
def State.resetFold (s : State) (f : Nat) : State :=
  let sec := s.foldSec f
  let s := s.advanceGen (288 + f)
  let s := s.foldResetHook f
  let s := (s.foldCores f).foldl State.resetCoreCmd s
  let s := (s.foldPorts f).foldl State.resetPort s
  let s := s.resetRegs [.fold] fun r u => (r.isFold && u == f) || (r.isRing && sec.ringSet.testBit u) || (r.isCtx && sec.ctxSet.testBit u)
  s.fset Fd.foldStatus_FENCED (b2n (decide (s.foldFence f = FencePhase.fenced))) f

/-- Mark the slots of a collector that are still VALID as presented again (R684, R685). -/
def State.represent (s : State) (die : Nat) : State :=
  let m (r : RegName) (s : State) : State := if bit (s.reg r die) 63 then s.setReg r ((s.reg r die).lor (2 ^ 61)) die else s
  m .fcPending (m .fcActive s)

/-- PROCESSOR reset (R698): the processor stops and starts again from the copy in hub SRAM; hardware settings stay. It runs
again at PROCESSOR_START. -/
def State.resetProc (s : State) (n : Nat) (cause : Nat) : State :=
  let s := (s.advanceGen (304 + n)).inc Fd.resetCounts_PROCESSOR_RESETS
  let s := s.resetRegs [.processor] fun r u => r == .fwVersion && u == n
  let s := s.modProc n fun p => { p with running := false, cause := cause, starts := true, submit := [], badMem := false }
  if n = 0 then (List.range 5).foldl State.represent s else s.represent (n - 1)

end Sys2Proof.Machine
end

