-- ==== Sys2Proof/Machine/Faults.lean ====
section
/-!
DEFINITION. Stall monitors (chapter 2), the handling of collectors, and the detection paths to the hub (chapter 18).
-/
namespace Sys2Proof.Machine

/-- Whether a core position has a mesh neighbour of its own die at row − 1 (s = 0), row + 1, column − 1 or column + 1 (R10, Table 2.3a). -/
def meshFrom (kk s : Nat) : Bool :=
  match s with
  | 0 => kk % 8 != 0
  | 1 => kk % 8 != 7
  | 2 => kk / 8 != 0
  | 3 => kk / 8 != 8
  | _ => false

/-- The detections a root stall of a channel makes on a die (Tables 2.3a and 18.4); none for an index no channel has (R863): the mesh has
9 columns by 8 rows, an L2 slice lies beside a core of column 0 or 8 (Table 12.1), and Q0 and Q3 have one neighbour die each. -/
def stallDets (die ch : Nat) : List Det :=
  let cls := ch / 4096 % 16
  let i := ch % 4096
  let core (n : Nat) (ok : Bool) : List Det := if die < 4 ∧ i / n < 72 ∧ ok then [⟨1, 1, 72 * die + i / n, ch⟩] else []
  let hub (c detail : Nat) : List Det := [⟨c, 4, 4, detail⟩]
  if cls = 0 then core 8 (decide (i % 8 < 5))
  else if cls = 1 then core 33 true
  else if cls = 2 then core 4 (meshFrom (i / 4) (i % 4))
  else if cls = 3 then core 5 (meshFrom (i / 5) (i % 5) || (i % 5 == 4 && (i / 5 / 8 == 0 || i / 5 / 8 == 8)))
  else if cls = 4 then (if die < 4 ∧ i < 64 then [⟨0x12, 3, 64 * die + i, 3 + 65536 * ch⟩] else [])
  else if cls = 5 then
    if die < 4 ∧ i < 32 then (if (if i / 8 % 2 = 0 then die = 0 else die = 3) then [] else [⟨1, 4, die, ch⟩])
    else if die < 4 ∧ (i = 0x032 ∨ i = 0x033) then [⟨1, 4, die, ch⟩]
    else if die = 4 ∧ 0x020 ≤ i ∧ i < 0x030 then hub 1 ch else []
  else if cls = 6 then
    if die < 4 ∧ i < 9 then [⟨0x14, 2, 9 * die + i, 0⟩]
    else if die < 4 ∧ (i = 0x010 ∨ i = 0x011) then
      (List.range 32).map fun k => ⟨0x12, 3, 32 * (2 * die + (i - 0x010)) + k, 3 + 65536 * ch⟩
    else if die = 4 ∧ (i = 0x020 ∨ i = 0x022) then hub 0x1C 6
    else if die = 4 ∧ i = 0x021 then hub 0x18 0 else []
  else if cls = 7 ∧ die = 4 ∧ i < 0x048 then hub 1 ch
  else []

/-- Whether the domain a channel's receiver lies in takes no traffic or holds it (R77, R78, R79), so that an open request there is no stall:
a core that is fenced or not ACTIVE, a port that is fenced, not ACTIVE or sends its flits again, a channel whose folds are all fenced or
that serves no request. A domain still being fenced is not fenced yet. -/
def State.stallExempt (s : State) (d : Det) : Bool :=
  let fenced (k : Nat) : Bool := s.fenceAt k == FencePhase.fenced
  if d.kind = 1 then fenced d.idx || s.fget Fd.corePwr_STATE d.idx != 0
  else if d.kind = 2 then fenced (304 + d.idx) || s.portState d.idx != 5 || (s.port d.idx).replays != 0
  else if d.kind = 3 then
    let fs := s.foldsOnChannel d.idx
    (s.chanAnswer d.idx).isSome || (!fs.isEmpty && fs.all fun f => fenced (288 + f))
  else false

/-- Capture a root stall in STALL_FIRST while VALID is clear (R83), or in place of one captured on the same Quartz tick under a higher
CHANNEL_ID (R80). -/
def State.stallCapture (s : State) (die ch : Nat) : State :=
  if s.fon Fd.stallFirst_VALID die && !(nget 0 s.stallTick die == s.now / 1000 && decide (ch < s.fget Fd.stallFirst_CHANNEL_ID die)) then s else
  let s := { s with stallTick := nset s.stallTick die (s.now / 1000) }
  ((s.fset Fd.stallFirst_CHANNEL_ID ch die).fset Fd.stallFirst_DETECT_TIME s.now die).fset Fd.stallFirst_VALID 1 die

/-- A root stall of a channel, with the detections it makes (R83): counted, captured and reported; nothing where there is none. -/
def State.stallReport (s : State) (die ch : Nat) (l : List Det) : State :=
  if l.isEmpty then s else
  let s := (s.inc Fd.stallCount_COUNT die).stallCapture die ch
  l.foldl (fun s d => s.detectOn die d) s

/-- A root stall a monitor finds (R83), on the domains that are not exempt (R77 to R79). -/
def State.stall (s : State) (die ch : Nat) : State := s.stallReport die ch ((stallDets die ch).filter fun d => !s.stallExempt d)

/-- STALL_LIMIT in ns, as loaded from the image (R73). -/
def State.stallNs (s : State) : Nat := 1000 * s.devSec.stallUs

/-- ROOT_STALL (R81 to R83): openNs is how long the request has been open, held tells that its receiver's output is full or that it
refreshes (R77). Monitors count once the image's timeouts are loaded (R85), and expire from STALL_LIMIT on (R82). -/
def execRootStall (die : Fin 5) (channel openNs : Nat) (held : Bool) (now : Nat) (s : State) : Host.Outcome State Fault Refusal :=
  let s := s.advance now
  .next (if s.hasImage && !held && decide (s.stallNs ≤ openNs) then s.stall die channel else s)

/-- HELD_EPISODE (R77): the episode has lasted openNs, longer than STALL_LIMIT. -/
def execHeldEpisode (die : Fin 5) (openNs : Nat) (s : State) : Host.Outcome State Fault Refusal :=
  .next (if s.hasImage && decide (s.stallNs < openNs) then s.inc Fd.holdCount_COUNT die else s)

/-- The capture register of a detection's class (Table 20.7, body +24); zero for a class with none. -/
def State.captureOf (s : State) (die cls kind idx : Nat) : Nat :=
  if cls = 1 then s.reg .stallFirst die
  else if cls = 2 then s.reg .lockstepStatus idx
  else if cls = 3 then s.reg .kettleStatus idx
  else if cls = 4 ∨ cls = 5 then s.reg .matrixFault idx
  else if cls = 6 ∨ cls = 7 then s.reg .vectorFault idx
  else if cls = 8 ∨ cls = 9 then s.reg .whiskFault idx
  else if (cls = 0x0D ∨ cls = 0x0E) ∧ kind = 1 then s.reg .pourFault idx
  else if cls = 0x10 ∨ cls = 0x11 then s.reg .l2Fault idx
  else if cls = 0x19 then s.reg .thermal idx
  else if cls = 0x1A then s.reg .railStatus idx
  else 0

/-- The handler of a die's collector (R670): the Ladle of a quarter while it runs outside HANDOVER, else the Steward (R684). -/
def State.handlerOf (s : State) (die : Nat) : Nat :=
  if die < 4 ∧ (s.proc (die + 1)).running ∧ !(s.proc (die + 1)).handover then die + 1 else 0

/-- The FAULT entry of a collector's ACTIVE slot (R670), in the log unless its handler has submitted it already. The entry of a slot presented
again after that is a repeat: REPEAT is set, and FC_TIME is the same (R684, R685). -/
def State.faultEntry (s : State) (h die : Nat) : State :=
  let a := s.reg .fcActive die
  let kind := bits a 47 44
  let idx := bits a 43 32
  let cls := bits a 55 48
  let begun := s.life.begun.contains die
  let s := { s with life := { s.life with begun := s.life.begun.filter fun d => d != die } }
  if begun && !bit a 61 then s else
  s.submit 1 h (b2n begun) (recBytes 32 [(0, 1, cls), (1, 1, kind), (2, 2, idx), (4, 2, bits a 31 16), (6, 1, bits a 12 8),
    (7, 1, bits a 62 62 + 2 * bits a 61 61), (8, 8, s.reg .fcActiveTime die), (16, 8, s.reg .fcActiveDetail die),
    (24, 8, s.captureOf die cls kind idx)])

/-- The collectors whose ACTIVE slot a FAULT entry of a processor is about: those it handles that hold the entry's domain. -/
def State.entryOf (s : State) (n : Nat) (body : Bytes) : List Nat :=
  (List.range 5).filter fun d => s.handlerOf d == n && bit (s.reg .fcActive d) 63 &&
    bits (s.reg .fcActive d) 47 44 == imgN body 1 1 && bits (s.reg .fcActive d) 43 32 == imgN body 2 2

/-- The handler of a collector has submitted a FAULT entry of its ACTIVE slot itself (R670). -/
def State.entryWritten (s : State) (typ n : Nat) (body : Bytes) : State :=
  if typ ≠ 1 then s
  else { s with life := { s.life with begun := s.life.begun ++ (s.entryOf n body).filter fun d => !s.life.begun.contains d } }

/-- FC_ACK (R670, R671): the handler releases ACTIVE, its FAULT entry written; PENDING moves to ACTIVE. -/
def State.fcAck (s : State) (src : Source) (die : Nat) : State :=
  let h := s.handlerOf die
  let mine := match src with
    | .proc n => n.val == h
    | _ => false
  if !mine then s.charge src else
  let a := s.reg .fcActive die
  if !bit a 63 then s else
  let s := (s.faultEntry h die).trace 0
  let p := s.reg .fcPending die
  let s := (s.setReg .fcActive p die).setReg .fcActiveTime (s.reg .fcPendingTime die) die
  let s := s.setReg .fcActiveDetail (s.reg .fcPendingDetail die) die
  let s := ((s.setReg .fcPending 0 die).setReg .fcPendingTime 0 die).setReg .fcPendingDetail 0 die
  if bit p 63 then s.latchProc (if die = 4 then 0 else die + 1) 17 else s

/-- FC_ACK (R670, R671). -/
def execFcAck (src : Source) (die : Fin 5) (s : State) : Host.Outcome State Fault Refusal :=
  if s.shut src then .next (s.turned .host) else .next (s.fcAck src die)

/-- The CHANNEL_ID of a detection path from a quarter (Table 2.3a). -/
def pathChannel (q p : Nat) : Nat := 0x5020 + 4 * q + p

/-- HUB_PATH_FAILURE (R687): reported as HANDSHAKE_STALL of DIE 4 while the quarter's other path carries the report. -/
def execHubPathFailure (quarter : Fin 4) (path : Fin 2) (s : State) : Host.Outcome State Fault Refusal :=
  if s.pathDown quarter path then .next s else
  let s := { s with hubPaths := nset s.hubPaths (2 * quarter.val + path.val) () }
  if s.pathDown quarter (1 - path.val) then .next { s with hubPaths := nset s.hubPaths (100 + 2 * quarter.val + path.val) () }
  else .next (s.detectHub 1 (pathChannel quarter path))

/-- HUB_PATH_RESTORE (R687): the quarter's held counts are delivered; a failure of the other path that could not be reported is
reported now. -/
def execHubPathRestore (quarter : Fin 4) (path : Fin 2) (s : State) : Host.Outcome State Fault Refusal :=
  if !s.pathDown quarter path then .next s else
  let q := quarter.val
  let mine := s.hubHeld.filter fun h => h.1 / 1024 == q
  let s := { s with hubPaths := ndel (ndel s.hubPaths (2 * q + path.val)) (100 + 2 * q + path.val)
                    hubHeld := s.hubHeld.filter fun h => h.1 / 1024 != q }
  let s := mine.foldl (fun s h => s.hubReport q (h.1 % 1024 / 2) h.2 (h.1 % 2 == 1) false) s
  let o := 1 - path.val
  if nhas s.hubPaths (100 + 2 * q + o) then
    .next ({ s with hubPaths := ndel s.hubPaths (100 + 2 * q + o) }.detectHub 1 (pathChannel q o))
  else .next s

/-- The die a processor sits on (R707): the hub for the Steward, its quarter for a Ladle. -/
def procDie (n : Nat) : Nat := if n = 0 then 4 else n - 1

/-- PROCESSOR_FAULT of a processor with a cause (Table 18.9), with the processor's die as the domain, placed in the hub's collector
(R684 step 1). -/
def State.procFault (s : State) (n cause : Nat) : State := s.detectOn 4 ⟨0x1D, 4, procDie n, n + 16 * cause⟩

/-- PRIVATE_MEMORY_DOUBLE_ERROR (R725). -/
def execPrivateMemoryDoubleError (proc : Fin 5) (s : State) : Host.Outcome State Fault Refusal :=
  .next ((s.modProc proc fun p => { p with badMem := true }).procFault proc 3)

end Sys2Proof.Machine
end

