-- ==== Sys2Proof/Machine/Power.lean ====
section
/-!
DEFINITION. Power states, fences, operating points and telemetry (chapter 17), and the commanded resets of a core, a fold, a port
and a processor (chapter 19).
-/
namespace Sys2Proof.Machine

/-- HBM_PWR_STATUS.STATE: 0 ACTIVE, 1 ENTERING, 2 SELF_REFRESH, 3 EXITING. -/
def State.stackState (s : State) (st : Nat) : Nat := s.fget Fd.hbmPwrStatus_STATE st

/-- Whether every fold that has a line on a channel of a stack is fenced (R422). -/
def State.hbmFenceOk (s : State) (st : Nat) : Bool :=
  (List.range s.foldSecs.length).all fun f =>
    decide (s.foldFence f = FencePhase.fenced) ||
      !(s.devSec.hashMode == 0 || (List.range 32).any fun i => (s.foldSec f).channels.testBit (32 * st + i))

/-- Write back every dirty byte of a stack's 32 slices; the lines stay, clean (R422 step 1). -/
def State.stackClean (s : State) (st : Nat) : State :=
  (s.l2.filter fun e => e.1 / 256 / 32 == st).foldl (fun s (e : Nat × List L2Line) =>
    let s := e.2.foldl (fun s w => s.writeBack (e.1 / 256) w) s
    { s with l2 := nset s.l2 e.1 (e.2.map fun w => { w with dirty := 0 }) }) s

/-- Begin a stack's move (R422, R423): it ends at once where the stack is there already (R426). -/
def State.hbmBegin (s : State) (st : Nat) (self : Bool) : State × Option Nat :=
  if self then
    if s.stackState st = 2 then (s, some 0) else ((s.stackClean st).fset Fd.hbmPwrStatus_STATE 1 st, none)
  else if s.stackState st = 0 then (s, some 0) else (s.fset Fd.hbmPwrStatus_STATE 3 st, none)

/-- A stack's move arrives: its ACTIVE or SELF_REFRESH channels take the new state. -/
def State.hbmArrive (s : State) (st : Nat) : State :=
  let self := s.stackState st = 1
  let s := s.fset Fd.hbmPwrStatus_STATE (if self then 2 else 0) st
  (List.range 32).foldl (fun s i => if s.chanState (32 * st + i) = 1 ∨ s.chanState (32 * st + i) = 2 then
    s.fset Fd.hbmStatus_STATE (if self then 2 else 1) (32 * st + i) else s) s

/-- The target voltage in mV of an operating point (Table 2.2). -/
def opMv (op : Nat) : Nat := [550, 600, 630, 660, 690, 720, 780, 850].getD op 0

/-- The array beats in a microsecond at an operating point: the floor of any part, and 1.08 times the nominal rate (Table 2.2, R58). -/
def paceBounds (op : Nat) : Nat × Nat :=
  ([(0, 0), (780, 885), (900, 1026), (1020, 1155), (1130, 1285), (1240, 1404), (1360, 1544), (1470, 1674)] : List (Nat × Nat)).getD op (0, 0)

/-- Whether a fold is under FOLD_UPDATE (R123). -/
def State.foldUpdating (s : State) (f : Nat) : Bool := s.life.updating == some f

/-- The fold a domain lies in, by kind and number. -/
def State.foldOfDomain (s : State) (dkind id : Nat) : Option Nat :=
  if dkind = 1 then s.foldOfCore id else if dkind = 2 then some id else if dkind = 3 then s.foldOfPort id else none

/-- Whether a kind and number name a unit of this part that is neither absent nor mapped out. -/
def State.domainOk (s : State) (dkind id : Nat) : Bool :=
  if dkind = 1 then s.corePresent id && !s.coreOut id
  else if dkind = 2 then decide (id < s.foldSecs.length)
  else if dkind = 3 then decide (id < 36) && s.lanesOutOf id != 15
  else if dkind = 4 then decide (id < 8)
  else if dkind = 5 then decide (id < 5)
  else false

/-- The fence key of a domain that can be fenced. -/
def domainKey (dkind id : Nat) : Option Nat :=
  if dkind = 1 then some id else if dkind = 2 then some (288 + id) else if dkind = 3 then some (304 + id) else none

/-- Whether a power command holds an ACTION, or an ARG, that Table 17.3 reserves: none of its kinds takes it. -/
def reservedPower (dkind action arg : Nat) : Bool :=
  if action = 1 ∨ action = 2 then arg != 0
  else if action = 3 then decide ((if dkind = 1 then 3 else if dkind = 4 then 1 else 4) < arg)
  else if action = 4 then decide (7 < arg) else true

/-- Whether a fold is INVALID after an update cut by a restart of the Steward (R126): it takes no work until a FOLD_UPDATE of it succeeds. -/
def State.foldInvalid (s : State) (f : Nat) : Bool := s.fget Fd.foldStatus_IMAGE_STATE f == 2

/-- Whether an action and its argument apply to a kind (Table 17.3). An UNFENCE of a core needs it ACTIVE (R637). -/
def State.actionOk (s : State) (dkind id action arg : Nat) : Bool :=
  if action = 1 then decide (1 ≤ dkind ∧ dkind ≤ 3) && arg == 0
  else if action = 2 then decide (1 ≤ dkind ∧ dkind ≤ 3) && arg == 0 && (dkind != 1 || s.fget Fd.corePwr_STATE id == 0)
  else if action = 3 then (dkind == 1 && decide (arg ≤ 3)) || (dkind == 3 && decide (arg ≤ 4)) || (dkind == 4 && decide (arg ≤ 1))
  else action == 4 && dkind == 5 && decide (arg ≤ 7)

/-- The cores whose beats follow a rail. -/
def railCores (k : Nat) : List Nat := if k < 4 then (List.range 72).map (fun i => 72 * k + i) else []

/-- HOT (R651): a fold the trip fenced may not be unfenced while a tripped die's TRIP is set or the die reads above 105 °C. -/
def State.hotFor (s : State) (dkind id : Nat) : Bool :=
  match s.foldOfDomain dkind id with
  | none => false
  | some f => (List.range 5).any fun d => bit (nget 0 s.hotFolds f) d &&
      (s.fon Fd.thermal_TRIP d || decide (105 < s.fget Fd.thermal_TJ_MAX_C d))

/-- The checks of Table 17.4, in order; the first that fails gives its code. The fold is a DOMAIN command's own (R631). An UNFENCE of an
INVALID fold, which takes no work (R126), is refused as that of a fold under update: DESIGN CHOICE (assumption log 65). A stack that is
in SELF_REFRESH already is not checked for it (R426). -/
def State.powerCheck (s : State) (ringFold : Option Nat) (dkind id action arg : Nat) : Option Nat :=
  if !s.hasImage && !(ringFold.isNone && dkind == 5 && action == 4 && arg == 5) then some 10
  else if !s.domainOk dkind id || (match ringFold with
      | some f => !(decide (1 ≤ dkind ∧ dkind ≤ 3) && s.foldOfDomain dkind id == some f)
      | none => false) then some 2
  else if !s.actionOk dkind id action arg then some 3
  else if action == 4 && s.hasImage && (let l := s.devSec.limits.getD id (0, 7); decide (arg < l.1) || decide (l.2 < arg)) then some 4
  else if action == 2 && (match s.foldOfDomain dkind id with | some f => s.foldUpdating f || s.foldInvalid f | none => false) then some 5
  else if action == 2 && s.hotFor dkind id then some 6
  else if action == 3 && ((dkind == 1 && arg != 0 && s.coreFence id == FencePhase.none) ||
      (dkind == 3 && decide (3 ≤ arg) && s.portFence id == FencePhase.none) ||
      (dkind == 4 && arg == 1 && s.stackState id != 2 && !s.hbmFenceOk id)) then some 1
  else if action == 3 && dkind == 1 && decide (arg ≤ 1) && s.fget Fd.railStatus_OP_NOW (coreDie id) == 0 then some 7
  else if action == 4 && arg == 0 &&
      (railCores id).any (fun c => s.corePresent c && decide (s.fget Fd.corePwr_STATE c ≤ 1)) then some 8
  else none

/-- Clear the fence of one core: CORE reset first unless it has taken one since it was fenced (R635). A mapped-out core is never
unfenced (R667). -/
def State.unfenceCore (s : State) (c : Nat) : State :=
  if s.coreFence c = FencePhase.none ∨ s.coreOut c then s else
  let s := if (s.core c).wasReset then s else s.resetCoreOrPend c
  s.setFence c FencePhase.none

/-- Clear the fence of a port at once (R636). -/
def State.unfencePort (s : State) (p : Nat) : State :=
  if s.portFence p = FencePhase.none then s else s.setFence (304 + p) FencePhase.none

/-- UNFENCE (R635). -/
def State.unfence (s : State) (dkind id : Nat) : State :=
  if dkind = 1 then s.unfenceCore id
  else if dkind = 3 then s.unfencePort id
  else
    let s := (s.foldCores id).foldl State.unfenceCore s
    let s := (s.foldPorts id).foldl State.unfencePort s
    { s.setFence (288 + id) FencePhase.none with hotFolds := ndel s.hotFolds id }

/-- FENCE of a domain (R634 steps 1 to 3). -/
def State.fence (s : State) (dkind id : Nat) : State :=
  if dkind = 1 then s.fenceCore id else if dkind = 3 then s.fencePort id else s.fenceFold id

/-- Set a port's power state (R640): widths at once; STANDBY and OFF leave ACTIVE; ACTIVE from there trains. -/
def State.portPower (s : State) (p arg : Nat) : State :=
  let was := s.portState p
  let s := s.fset Fd.portPwr_HOST_STATE arg p
  if arg ≤ 2 then
    let s := s.modPort p fun q => { q with width := [4, 2, 1].getD arg 4 }
    if was ≤ 1 then s.enterTraining p else s.relane p
  else
    let s := if was = 5 then s else s.genPort p
    (s.leaveActive p (if arg = 3 then 1 else 0)).noLanes p

/-- Begin a power command that passed its checks; the result is there at once where the action completes at once (R633). A SET_OP names
a point within the limits (R632, R654). -/
def State.powerBegin (s : State) (dkind id action arg : Nat) : State × Option Nat :=
  if action = 1 then
    let s := s.fence dkind id
    (s, match domainKey dkind id with
      | some k => if s.fenceAt k = FencePhase.fenced then some 0 else none
      | none => some 0)
  else if action = 2 then (s.unfence dkind id, some 0)
  else if action = 3 then
    if dkind = 1 then (s, if s.fget Fd.corePwr_STATE id = arg then some 0 else none)
    else if dkind = 3 then (if s.fget Fd.portPwr_HOST_STATE id = arg then s else s.portPower id arg, some 0)
    else s.hbmBegin id (arg == 1)
  else
    let s := s.fset Fd.railStatus_OUTSIDE_LIMITS 0 id
    if s.fget Fd.paceStatus_OP_NOW id = arg && s.fget Fd.paceStatus_OP_TARGET id == arg && !s.fon Fd.paceStatus_SLEWING id then (s, some 0) else
    let s := { s with opTarget := nset s.opTarget id arg }
    let s := (s.fset Fd.paceStatus_OP_TARGET arg id).fset Fd.paceStatus_SLEWING 1 id
    (s.emit (.avs id (opMv arg)), none)

/-- Whether a kind and number name a unit under offline test (R783). -/
def State.underTest (s : State) (dkind id : Nat) : Bool :=
  match s.life.bist with
  | some b => b.id == id && dkind == (if b.stack then 4 else 1)
  | none => false

/-- The power block takes a command (R632). One that names a unit being reset or tested waits (R718, R783). -/
def State.powerStart (s : State) (ring : Option Nat) (dkind id action arg : Nat) : State :=
  let s := s.fset Fd.powerStatus_BUSY 1
  let ringFold := ring.map fun r => (s.foldOfRing r).getD 16
  match s.powerCheck ringFold dkind id action arg with
  | some e => { s with power := some ⟨ring, dkind, id, action, arg, some e, false, false⟩ }
  | none =>
    if (match s.reset' with | some r => r.dkind == dkind && r.id == id | none => false) || s.underTest dkind id then
      { s with power := some ⟨ring, dkind, id, action, arg, none, true, false⟩ }
    else
      let (s, r) := s.powerBegin dkind id action arg
      { s with power := some ⟨ring, dkind, id, action, arg, r, false, false⟩ }

/-- An HBM_PWR_CMD has its turn at the power block (R422, R426). -/
def State.hbmStart (s : State) (p : PowerRun) : State :=
  let s := s.fset Fd.powerStatus_BUSY 1
  if p.arg = 1 ∧ s.stackState p.id ≠ 2 ∧ !s.hbmFenceOk p.id then { s with power := some { p with result := some 1 } }
  else if s.underTest 4 p.id then { s with power := some { p with waitReset := true } }
  else
    let (s, r) := s.hbmBegin p.id (p.arg == 1)
    { s with power := some { p with result := r } }

/-- The DOMAIN command of a ring has its turn: its work begins. -/
def State.domainStart (s : State) (r : Nat) (c : RingCmd) : State :=
  let w := c.word 1
  (s.cmdRun r c.seq 0).powerStart (some r) (bits w 7 0) (bits w 47 32) (bits w 15 8) (bits w 23 16)

/-- The first of some commands that waited for the power block that is still there begins (R426, R632); the others wait on. -/
def State.powerTurn (s : State) : List PowerRun → State
  | [] => { s with powerWait := [] }
  | p :: l =>
    match p.ring with
    | none => { s with powerWait := l }.hbmStart p
    | some r =>
      match s.startedCmd r 6 with
      | some c => { s with powerWait := l }.domainStart r c
      | none => s.powerTurn l

/-- The next command that waits for the power block, in order of arrival (R426, R632). -/
def State.nextPower (s : State) : State := if s.power.isSome then s else s.powerTurn s.powerWait

/-- A write of HBM_PWR_CMD (R422, R423, R426): it waits its turn at the power block. -/
def State.hbmPwrCmd (s : State) (src : Source) (st : Nat) (self : Bool) : State :=
  if s.stackState st = 1 ∨ s.stackState st = 3 ∨ s.powerWait.any fun p => p.hbm && p.id == st then s.charge src
  else { s with powerWait := s.powerWait ++ [(⟨none, 4, st, 3, b2n self, none, false, true⟩ : PowerRun)] : State }.nextPower

/-- HBM_SELF_REFRESH (R422). -/
def execHbmSelfRefresh (src : Source) (stack : Fin 8) (s : State) : Host.Outcome State Fault Refusal :=
  if s.shut src then .next (s.turned .host) else
  .next (s.hbmPwrCmd src stack true)

/-- HBM_ACTIVE (R423). -/
def execHbmActive (src : Source) (stack : Fin 8) (s : State) : Host.Outcome State Fault Refusal :=
  if s.shut src then .next (s.turned .host) else
  .next (s.hbmPwrCmd src stack false)

/-- HBM_POWER_DONE (R426): the stack has moved; DONE and the result are shown and vector 120 raised. -/
def execHbmPowerDone (s : State) : Host.Outcome State Fault Refusal :=
  match s.power with
  | none => .next s
  | some p =>
    if !p.hbm || (p.waitReset && p.result.isNone) then .next s else
    let s := if p.result.isNone then s.hbmArrive p.id else s
    let s := { s with power := none }.fset Fd.powerStatus_BUSY 0
    let s := (s.fset Fd.hbmPwrStatus_RESULT (p.result.getD 0) p.id).fset Fd.hbmPwrStatus_DONE 1 p.id
    .next ((s.raiseVec 120).trace 1).nextPower

/-- A write of POWER_CMD (R645, R810): ignored and charged while the block is busy, or by the host before firmware runs. A reserved ACTION
or ARG is charged (R20), and the command ends with DOMAIN_ACTION (R630, Table 17.4). -/
def State.powerCmd (s : State) (src : Source) (dkind id action arg : Nat) : State :=
  if s.power.isSome || (src == .host && s.fget Fd.fwStatus_STATE == 0) then s.charge src
  else
    let s := if reservedPower dkind action arg then s.charge src else s
    s.powerStart none dkind id action arg

/-- The DOMAIN command a ring has started goes to the power block (R630, R632, R645): while another command runs it waits its turn, in
the order of arrival. With an action named, only that action. -/
def State.domainRow (s : State) (r : Nat) (a : Option Nat) : State :=
  match s.startedCmd r 6 with
  | none => s
  | some c =>
    let w := c.word 1
    if (s.powerWait.any fun p => p.ring == some r) || (match a with | some a => bits w 15 8 != a | none => false) then s
    else if s.power.isSome then
      { s with powerWait := s.powerWait ++ [(⟨some r, bits w 7 0, bits w 47 32, bits w 15 8, bits w 23 16, none, false, false⟩ : PowerRun)] }
    else s.domainStart r c

/-- The status and DETAIL of a DOMAIN command by its result (Table 17.4). -/
def domainStatus (res : Nat) : Nat × Nat :=
  if res = 0 then (0, 0) else if res = 1 then (5, 0) else if res = 9 then (8, 4)
  else (3, [0, 0, 0x20, 0x21, 0x22, 0x23, 0x24, 0x25, 0x26].getD res 0x20)

/-- The DOMAIN command of a ring that the power block ran completes (R632). -/
def State.domainDone (s : State) (r res : Nat) : State :=
  match (s.ring r).cmds.find? fun c => c.phase == .running && c.opc == 6 with
  | some c => s.cmdDone r c.seq (domainStatus res).1 (domainStatus res).2
  | none => s

/-- One power action's row: from POWER_CMD, or as the DOMAIN command a ring has started. -/
def State.powerRow (s : State) (action : Nat) : PowerSource → State
  | .cmd src dkind id arg => if s.shut src then s.turned .host else s.powerCmd src dkind id action arg
  | .ring r => s.domainRow r (some action)

/-- FENCE (R634). -/
def execFence (p : PowerSource) (s : State) : Host.Outcome State Fault Refusal := .next (s.powerRow 1 p)

/-- UNFENCE (R635). -/
def execUnfence (p : PowerSource) (s : State) : Host.Outcome State Fault Refusal := .next (s.powerRow 2 p)

/-- SET_STATE (R628, R640). -/
def execSetState (p : PowerSource) (s : State) : Host.Outcome State Fault Refusal := .next (s.powerRow 3 p)

/-- SET_OP (R638). -/
def execSetOp (p : PowerSource) (s : State) : Host.Outcome State Fault Refusal := .next (s.powerRow 4 p)

/-- DOMAIN (R631). -/
def execDomain (ring : RingId) (s : State) : Host.Outcome State Fault Refusal := .next (s.domainRow ring none)

/-- Perform steps 2 and 3 of R696 on a fenced domain. -/
def State.resetDomain (s : State) (dkind id : Nat) : State :=
  if dkind = 1 then s.resetCoreCmd id else s.resetFold id

/-- Begin a reset command's action (R696 to R698). A PROCESSOR reset that meets one in progress is part of it (R717). -/
def State.resetBegin (s : State) (dkind id : Nat) : State × Option Nat :=
  if dkind = 3 then (s.resetPort id, some 0)
  else if dkind = 6 then (if (s.proc id).starts then s else s.resetProc id 3, none)
  else
    match domainKey dkind id with
    | none => (s, some 3)
    | some k =>
      let s := s.fence dkind id
      if s.fenceAt k = FencePhase.fenced then (s.resetDomain dkind id, some 0) else (s, none)

/-- The checks of Table 19.3, in order. -/
def State.resetCheck (s : State) (dkind id : Nat) : Option Nat :=
  if !(dkind == 1 || dkind == 2 || dkind == 3 || dkind == 6) then some 3
  else if dkind != 6 && !s.hasImage then some 10
  else if (if dkind = 6 then decide (5 ≤ id) else !s.domainOk dkind id) then some 2
  else if dkind != 6 && (match s.foldOfDomain dkind id with | some f => s.foldUpdating f | none => false) then some 5
  else none

/-- A write of RESET_CMD (R695, R718). A reserved DKIND is charged (R20), and the command ends with DOMAIN_ACTION (Table 19.3). -/
def State.resetCmd (s : State) (src : Source) (dkind id : Nat) : State :=
  if s.reset'.isSome then s.charge src else
  let s := if dkind = 1 ∨ dkind = 2 ∨ dkind = 3 ∨ dkind = 6 then s else s.charge src
  let s := s.fset Fd.resetStatus_BUSY 1
  match s.resetCheck dkind id with
  | some e => { s with reset' := some ⟨dkind, id, false, some e⟩ }
  | none =>
    if (match s.power with | some p => p.dkind == dkind && p.id == id | none => false) then
      { s with reset' := some ⟨dkind, id, true, none⟩ }
    else
      let (s, r) := s.resetBegin dkind id
      { s with reset' := some ⟨dkind, id, false, r⟩ }

/-- CORE_RESET (R696). -/
def execCoreReset (src : Source) (core : CoreId) (s : State) : Host.Outcome State Fault Refusal :=
  if s.shut src then .next (s.turned .host) else .next (s.resetCmd src 1 core)

/-- FOLD_RESET (R696). -/
def execFoldReset (src : Source) (fold : FoldId) (s : State) : Host.Outcome State Fault Refusal :=
  if s.shut src then .next (s.turned .host) else .next (s.resetCmd src 2 fold)

/-- PORT_RESET (R697). -/
def execPortReset (src : Source) (port : PortId) (s : State) : Host.Outcome State Fault Refusal :=
  if s.shut src then .next (s.turned .host) else .next (s.resetCmd src 3 port)

/-- PROCESSOR_RESET (R698). -/
def execProcessorReset (src : Source) (proc : Fin 5) (s : State) : Host.Outcome State Fault Refusal :=
  if s.shut src then .next (s.turned .host) else
  .next (s.resetCmd src 6 proc)

/-- A running power command gets its result. -/
def State.powerResult (s : State) (r : Nat) : State :=
  { s with power := s.power.map fun p => { p with result := some r } }

/-- Whether a CORE reset command waits for the drain of a core. -/
def State.coreResetWaits (s : State) (k : Nat) : Bool :=
  match s.reset' with
  | some r => !r.waitPower && r.result.isNone && r.dkind == 1 && r.id == k
  | none => false

/-- The drain of a domain ends (R634 step 5): it and, for a fold, its cores and ports are FENCED. A FENCE command that waited has
its result; a reset that waited takes its steps 2 and 3. The engines of a core have stopped at their boundaries, their words cut short. The parts of a core that waits for its CORE reset end with CORE_RESET (R508). -/
def State.drained (s : State) (k : Nat) : State :=
  let done (s : State) (k : Nat) : State :=
    if s.fenceAt k = FencePhase.fencing then
      let s := if s.coreResetWaits k then s.endParts k 8 3 else s
      (if k < 288 then s.enginesCut k else s).setFence k FencePhase.fenced
    else s
  let s := done s k
  let s := if 288 ≤ k ∧ k < 304 then
      let s := (s.foldCores (k - 288)).foldl done s
      (s.foldPorts (k - 288)).foldl (fun s p => done s (304 + p)) s
    else s
  let s := match s.power with
    | some p => if p.action == 1 && !p.waitReset && p.result.isNone && (match domainKey p.dkind p.id with
          | some k' => s.fenceAt k' == FencePhase.fenced
          | none => false) then s.powerResult 0 else s
    | none => s
  match s.reset' with
  | some r => if !r.waitPower && r.result.isNone && r.dkind != 6 && (match domainKey r.dkind r.id with
        | some k' => s.fenceAt k' == FencePhase.fenced
        | none => false) then
      { s.resetDomain r.dkind r.id with reset' := some { r with result := some 0 } } else s
  | none => s

/-- The cores of a fence domain. -/
def State.domainCores (s : State) : Domain → List Nat
  | .core n => [n.val]
  | .fold n => s.foldCores n
  | .port _ => []

/-- Whether a requester is one of a list of cores. -/
def Requester.among (r : Requester) (l : List Nat) : Bool := l.any fun c => r.ofCore c

/-- Whether a host access is one a domain has accepted and not performed: it is to a slice of a fold's context, and no late reply. -/
def State.accepted (s : State) (d : Domain) (h : HostOp) : Bool :=
  match d, h.by' with
  | _, .late _ => false
  | .fold f, _ => s.foldOfCtx h.ctx == some f.val
  | _, _ => false

/-- Whether a domain has requests outstanding on a port or toward the host, its own or accepted. -/
def State.openRequests (s : State) (d : Domain) : Bool :=
  let cs := s.domainCores d
  s.ports.any (fun p => p.2.outst.any fun r => r.2.by'.among cs) || (s.hostOps.any fun h => h.2.by'.among cs || s.accepted d h.2) ||
    cs.any fun c => !(s.core c).twin.rel.isEmpty

/-- Every request a fold has accepted and not performed is answered FENCED to its sender (R634 step 4); what the host still answers is a
late reply of the fold. -/
def State.cutAccepted (s : State) (d : Domain) : State :=
  let l := s.hostOps.filter fun h => s.accepted d h.2
  let cut (h : Nat × HostOp) : Nat × HostOp :=
    if s.accepted d h.2 then (h.1, { h.2 with by' := Requester.late (domKey d), since := s.elapsed }) else h
  l.foldl (fun s h => s.answer h.2.by' .fenced) { s with hostOps := s.hostOps.map cut }

/-- Answer every open request of some cores FENCED at the domain and retire its tag (R634 step 4, R701). -/
def State.cutRequests (s : State) (cs : List Nat) : State :=
  let cut := (s.ports.flatMap fun (e : Nat × PortSt) => (e.2.outst.filter fun r => r.2.by'.among cs).map fun r => r.2.by') ++
    (s.hostOps.filter fun h => h.2.by'.among cs).map fun h => h.2.by'
  let s := s.retireRequests fun r => r.among cs
  let s := cs.foldl (fun s c => if (s.core c).twin.rel.isEmpty then s else s.modTwin c fun t => { t with rel := [] }) s
  cut.foldl (fun s b => s.answer b .fenced) s

/-- DRAIN_LIMIT_EXPIRY (R634 steps 4 and 5). -/
def execDrainLimitExpiry (dom : Domain) (now : Nat) (s : State) : Host.Outcome State Fault Refusal :=
  let s := s.advance now
  if s.fenceAt (domKey dom) = FencePhase.fencing ∧ nget 0 s.fenceSince (domKey dom) + 1000 * s.devSec.drainUs ≤ s.elapsed then
    .next (((s.cutRequests (s.domainCores dom)).cutAccepted dom).drained (domKey dom))
  else .next s

/-- FENCE_COMPLETE (R634): a drain ends once nothing of the domain is open. -/
def execFenceComplete (dom : Domain) (s : State) : Host.Outcome State Fault Refusal :=
  if s.fenceAt (domKey dom) = FencePhase.fencing ∧ !s.openRequests dom then .next (s.drained (domKey dom)) else .next s

/-- CORE_STATE_REACHED (R628): HELD keeps all; RETAIN loses the arrival counters; OFF loses everything; on exit to ACTIVE the
Pantry of a core leaving OFF is zero, and a CORE reset follows RETAIN and OFF. RETAIN and OFF wait for FENCED (R633). -/
def execCoreStateReached (core : CoreId) (s : State) : Host.Outcome State Fault Refusal :=
  match s.power with
  | none => .next s
  | some p =>
    if p.dkind ≠ 1 ∨ p.id ≠ core.val ∨ p.action ≠ 3 ∨ p.result.isSome then .next s
    else if 2 ≤ p.arg ∧ s.coreFence core ≠ FencePhase.fenced then .next s
    else
      let was := s.fget Fd.corePwr_STATE core
      let s := s.fset Fd.corePwr_STATE p.arg core
      let s := if 2 ≤ p.arg then (s.clearCounters core).fset Fd.corePwr_RESET_PENDING 1 core else s
      let s := if p.arg = 3 ∨ (p.arg = 0 ∧ was = 3) then s.clearPantry core else s
      let s := if p.arg = 0 ∧ (2 ≤ was ∨ s.fon Fd.corePwr_RESET_PENDING core) then s.resetCore core else s
      .next (s.powerResult 0)

/-- OUTSIDE_LIMITS of every rail at an image load (R654): whether the loaded limits exclude OP5. -/
def State.checkLimits (s : State) : State :=
  (List.range 5).foldl (fun s k =>
    let l := s.devSec.limits.getD k (0, 7)
    s.fset Fd.railStatus_OUTSIDE_LIMITS (b2n (decide (5 < l.1) || decide (l.2 < 5))) k) s

/-- SET_OP_COMPLETE (R639): the read-back in mV lies within 5 mV of the target and the pace replica has reached the point: it counts a
number of beats that the point allows (R58). -/
def execSetOpComplete (rail : Fin 5) (mv pace : Nat) (s : State) : Host.Outcome State Fault Refusal :=
  match nfind s.opTarget rail.val with
  | none => .next s
  | some op =>
    if opMv op ≤ mv + 5 ∧ mv ≤ opMv op + 5 ∧ (paceBounds op).1 ≤ pace ∧ pace ≤ (paceBounds op).2 then
      let s := { s with opTarget := ndel s.opTarget rail.val }
      let s := (s.fset Fd.paceStatus_SLEWING 0 rail).fset Fd.paceStatus_OP_NOW op rail
      let s := (s.fset Fd.railStatus_OP_NOW op rail).fset Fd.railStatus_VOUT_MV mv rail
      match s.power with
      | some p => if p.dkind = 5 ∧ p.id = rail.val ∧ p.action = 4 ∧ p.result.isNone then .next (s.powerResult 0) else .next s
      | none => .next s
    else .next s

/-- RAIL_FAULT (R652). -/
def execRailFault (rail : Fin 5) (s : State) : Host.Outcome State Fault Refusal :=
  match nfind s.opTarget rail.val with
  | none => .next s
  | some _ =>
    let s := { s with opTarget := ndel s.opTarget rail.val }
    let s := (s.fset Fd.paceStatus_SLEWING 0 rail).fset Fd.railStatus_FAULT 1 rail
    let s := match s.power with
      | some p => if p.dkind = 5 ∧ p.id = rail.val ∧ p.action = 4 ∧ p.result.isNone then s.powerResult 9 else s
      | none => s
    .next (s.detect ⟨0x1A, 4, rail.val, rail.val⟩)

/-- POWER_COMMAND_DONE (R633): the command's result is shown, or completes its DOMAIN command, and the power vector is raised.
A reset that waited for it begins (R718). -/
def execPowerCommandDone (s : State) : Host.Outcome State Fault Refusal :=
  match s.power with
  | none => .next s
  | some p =>
    if p.hbm then .next s else
    let (s, res) := if p.dkind = 4 ∧ p.result.isNone ∧ !p.waitReset then (s.hbmArrive p.id, some 0) else (s, p.result)
    match res with
    | none => .next s
    | some r =>
      let s := { s with power := none }
      let s := s.fset Fd.powerStatus_BUSY 0
      let s := match p.ring with
        | some ring => s.domainDone ring r
        | none => ((s.fset Fd.powerStatus_RESULT r).fset Fd.powerStatus_DONE 1).raiseVec 98
      let s := (s.trace 1).nextPower
      match s.reset' with
      | some q => if q.waitPower && q.result.isNone then
          let (s, r) := s.resetBegin q.dkind q.id
          .next { s with reset' := some { q with waitPower := false, result := r } } else .next s
      | none => .next s


/-- A power command that waited for a reset or an offline test begins (R718, R783). -/
def State.powerGo (s : State) : State :=
  match s.power with
  | some p => if p.waitReset then
      let (s, r) := s.powerBegin p.dkind p.id p.action p.arg
      { s with power := some { p with waitReset := false, result := r } } else s
  | none => s

/-- RESET_DONE (R696, R724): the result is shown and the power vector is raised. A channel that did not acknowledge ends the
command RESET_STUCK and is a root stall. A power command that waited for the reset begins (R718). -/
def execResetDone (stuck : Option Nat) (s : State) : Host.Outcome State Fault Refusal :=
  match s.reset' with
  | none => .next s
  | some q =>
    let finish (s : State) (r : Nat) : State :=
      let s := { s with reset' := none }
      let s := ((s.fset Fd.resetStatus_BUSY 0).fset Fd.resetStatus_RESULT r).fset Fd.resetStatus_DONE 1
      ((s.raiseVec 98).trace 5).powerGo
    match stuck, q.result with
    | some ch, _ =>
      let die := if q.dkind = 1 then coreDie q.id else if q.dkind = 3 then portDie q.id else 4
      .next (finish (s.stallReport die ch (stallDets die ch)) 11)
    | none, some r => .next (finish s r)
    | none, none => .next s

/-- RAIL_TELEMETRY (R641): the regulator's reading and the energy of the interval. -/
def execRailTelemetry (rail : Fin 5) (mv da uj : Nat) (s : State) : Host.Outcome State Fault Refusal :=
  .next (((s.fset Fd.railStatus_VOUT_MV mv rail).fset Fd.railStatus_IOUT_DA da rail).incBy Fd.railEnergy_ENERGY_UJ uj rail)

/-- THERM_N (R642): low while any die reads at or above WARN_C, released when every die reads at least 5 °C below. -/
def State.thermN (s : State) : State :=
  let w := s.fget Fd.thermCtl_WARN_C
  let t (d : Nat) := s.fget Fd.thermal_TJ_MAX_C d
  let s := (List.range 5).foldl (fun s d =>
    if w ≤ t d then s.fset Fd.thermal_WARN 1 d else if t d + 5 ≤ w then s.fset Fd.thermal_WARN 0 d else s) s
  if (List.range 5).any fun d => decide (w ≤ t d) then
    (if s.thermLow then s else { s with thermLow := true }.latchProcs 21)
  else if (List.range 5).all fun d => decide (t d + 5 ≤ w) then { s with thermLow := false } else s

/-- THERMAL_SAMPLE (R641, R642, R650): the trip fences every fold that owns a core or a port on the die, latches TRIP with the
reading and reports THERMAL_TRIP. -/
def execThermalSample (die : Fin 5) (temp : Nat) (s : State) : Host.Outcome State Fault Refusal :=
  let s := (s.fset Fd.thermal_TJ_MAX_C (min temp 255) die).thermN
  if 115 ≤ temp ∧ !s.fon Fd.thermal_TRIP die then
    let l := s.foldsOnDie die
    let s := s.fenceFolds l
    let s := { s with hotFolds := l.foldl (fun m f => nset m f ((nget 0 m f).lor (2 ^ die.val))) s.hotFolds }
    let s := (s.fset Fd.thermal_TRIP 1 die).fset Fd.thermal_TJ_AT_TRIP_C (min temp 255) die
    .next (s.detect ⟨0x19, 4, die.val, min temp 255⟩)
  else .next s

/-- A write of THERM_CTL.WARN_C (R643): 60 to 110, else kept and charged. -/
def State.writeWarn (s : State) (src : Source) (v : Nat) : State :=
  let w := v % 128
  if 60 ≤ w ∧ w ≤ 110 then (s.fset Fd.thermCtl_WARN_C w).thermN else s.charge src

/-- THERM_CTL_WRITE (R643). -/
def execThermCtlWrite (src : Source) (v : Word32) (s : State) : Host.Outcome State Fault Refusal :=
  if s.shut src then .next (s.turned .host) else
  .next (s.writeWarn src v.toNat)

end Sys2Proof.Machine
end

