-- ==== Sys2Proof/Machine/Write.lean ====
section
/-!
DEFINITION. A write to a register, field by field, under the access codes of Table 0.5 (R12, R18 to R25, R862, R870), and the
locks of the RWL fields. What a written field starts is in RegHooks.
-/
namespace Sys2Proof.Machine

/-- Whether the lock of a register's RWL fields is set. -/
def State.locked (s : State) (r : RegName) (u : Nat) : Bool :=
  match r with
  | .ctxMapAddr => s.fon Fd.ctxMapCtl_ENABLE u
  | .ctxMapCtl => s.fon Fd.ctxMapCtl_ENABLE u
  | .ctxHtAddr => s.fon Fd.ctxHtCtl_ENABLE u
  | .ctxHtCtl => s.fon Fd.ctxHtCtl_ENABLE u
  | .ringBase => s.fget Fd.ringStatus_STATE u != 0
  | .ringCplBase => s.fget Fd.ringStatus_STATE u != 0
  | .ringSeqAddr => s.fget Fd.ringStatus_STATE u != 0
  | .ringCtl => s.fget Fd.ringStatus_STATE u != 0
  | .fwlogBase => s.fon Fd.fwlogCtl_ENABLE
  | .fwlogHeadAddr => s.fon Fd.fwlogCtl_ENABLE
  | .fwlogCtl => s.fon Fd.fwlogCtl_ENABLE
  | .debugCtl => s.fon Fd.debugCtl_DEBUG_LOCK
  | _ => false

/-- Whether a whole value written to a field is one its encoding table marks reserved (R20). -/
def reservedValue (r : RegName) (f : RegField) (whole x : Nat) : Bool :=
  match r with
  | .dbgSel => f.lo == 0 && decide (48 ≤ x)
  | .portCtl => f.lo == 0 && f.hi == 1 && x == 3
  | .debugCtl => f.lo == 16 && x == 3
  | .tdbgSel => f.lo == 0 && bit whole 5 && decide (16 ≤ x)
  | _ => false

/-- Write bits [hi:lo] of a register, v holding them in their places: each field by its own code (R23), RO, WO and reserved bits
ignored (R25). True when the write is refused in some field: a locked RWL field, an RWK field, which only its Kettle's own write
can set, or a reserved value (R20, R24). -/
def State.writeFields (s : State) (r : RegName) (u k hi lo v : Nat) : State × Bool :=
  let lock := s.locked r u
  r.fields.foldl (fun (s, bad) f =>
    if f.hi < lo ∨ hi < f.lo then (s, bad) else
    let b := min f.hi hi
    let a := max f.lo lo
    let x := bits v b a
    let cur := s.reg r u k
    let set := putBits cur b a x
    let res := reservedValue r f v (bits set f.hi f.lo)
    match f.acc with
    | .rw => if res then (s, true) else (s.setReg r set u k, bad)
    | .rwl => if lock || res then (s, true) else (s.setReg r set u k, bad)
    | .w1c => (s.setReg r (putBits cur b a ((bits cur b a).land (2 ^ (b + 1 - a) - 1 - x))) u k, bad)
    | .w1s => (s.setReg r (putBits cur b a ((bits cur b a).lor x)) u k, bad)
    | .rwk => (s, true)
    | .ro => (s, bad)
    | .wo => (s, bad)) (s, false)

/-- A write with no effect of its own beyond its fields: at most one violation, charged to its source (R24). -/
def State.plainWrite (s : State) (src : Source) (r : RegName) (u k hi lo v : Nat) : State :=
  let (s, bad) := s.writeFields r u k hi lo v
  if bad then s.charge src else s

end Sys2Proof.Machine
end

