-- ==== Sys2Proof/Machine/Log.lean ====
section
/-!
DEFINITION. The Garnet log and the host log ring (chapter 20): submission, bank failures, the window, the flush to flash, the ring.
-/
namespace Sys2Proof.Machine

/-- GARNET_BANK is reported with a detail, and event bit 20 is latched (R755, R757). -/
def State.bankReport (s : State) (detail : Nat) : State := (s.latchProcs 20).detectHub 0x1E detail

/-- A Garnet bank is retired (R755). With both gone the log is lost (R756): ALERT_N follows LOG_LOST (R672), and the log vector is
raised. -/
def State.retireBank (s : State) (b : Nat) : State :=
  let s := s.fset Fd.garnetStatus_RETIRED ((s.fget Fd.garnetStatus_RETIRED).lor (2 ^ b))
  if s.fget Fd.garnetStatus_RETIRED = 3 then (s.fset Fd.garnetStatus_LOG_LOST 1).raiseVec 101 else s

/-- The log engine accepts an entry, and finds on reading back that a bank failed (R744, R755, R756): the entry stays in the other
bank, LOG_BANK_FAIL follows it, the bank is retired. -/
def State.accept (s : State) (typ source flags : Nat) (body : Bytes) (fault : Option Nat) (cause : Nat) : State :=
  match fault with
  | none => s.submit typ source flags body
  | some b =>
    if bit (s.fget Fd.garnetStatus_RETIRED) b then s.submit typ source flags body
    else
      let seq := s.reg .garnetSeq
      let s := (s.retireBank b).submit typ source flags body
      let s := if s.fget Fd.garnetStatus_RETIRED = 3 then s
        else s.submit 0x000A 7 0 (recBytes 16 [(0, 1, b), (1, 1, cause), (8, 8, seq)])
      s.bankReport b

/-- GARNET_SUBMIT (R743, R744): bytes 16 to 59 of the entry, from the window's own processor. -/
def State.garnetSubmit (s : State) (src : Source) (n : Nat) (b : Bytes) (fault : Option Nat) : State :=
  match src with
  | .proc p => if p.val = n then
      (s.accept (imgN b 0 2) (imgN b 2 1) (imgN b 3 1) (padTo 40 (b.drop 4)) fault 1).entryWritten (imgN b 0 2) p (b.drop 4)
    else s.charge src
  | .smbus => (s.inc Fd.sbStatus_REFUSED).emit (.smbus [2])
  | .tap => s.emit (.tdo (2 ^ 88))
  | _ => s.charge src

/-- GARNET_SUBMIT (R743). -/
def execGarnetSubmit (src : Source) (proc : Fin 5) (bytes : Bytes) (bankFault : Option (Fin 2)) (now : Nat) (s : State) :
    Host.Outcome State Fault Refusal :=
  if s.shut src then .next (s.turned .host) else
  .next ((s.advance now).garnetSubmit src proc bytes (bankFault.map (·.val)))

/-- Whether an entry's CRC holds (Table 20.6). -/
def crcOk (e : Bytes) : Bool := e.length == 64 && leBytes 4 (crc32c (e.take 60)) == e.drop 60

/-- An entry of 64 zero bytes: an index never written. -/
def blankEntry : Bytes := List.replicate 64 0

/-- What GARNET_WINDOW returns at an index, and the state after a repair is counted (R745). -/
def State.windowRead (s : State) (i : Nat) : Bytes × State :=
  let r := s.fget Fd.garnetStatus_RETIRED
  let a := nget blankEntry s.log.bank0 i
  let b := nget blankEntry s.log.bank1 i
  if r = 3 then (a, s) else if r = 1 then (b, s) else if r = 2 then (a, s)
  else if crcOk a || !crcOk b then (a, s) else (b, s.inc Fd.garnetCounts_CRC_REPAIRS)

/-- GARNET_WINDOW_READ (R745). -/
def execGarnetWindowRead (src : Source) (index : Nat) (s : State) : Host.Outcome State Fault Refusal :=
  if s.dark src then .next (unsupported s) else
  let (b, s) := s.windowRead (index % 4096)
  .next (s.emit (.cpl b false))

/-- Whether a flush begins (R746): 256 entries are unflushed, or the oldest unflushed one is 10 s old. -/
def State.flushDue (s : State) : Bool :=
  let n := s.reg .garnetSeq - s.reg .garnetFlushed
  (s.proc 0).running && !s.fon Fd.garnetStatus_FLASH_RETIRED && s.fget Fd.fwStatus_STATE != 3 &&
    (decide (256 ≤ n) || (decide (0 < n) && decide (s.log.oldest + 10000000000 ≤ s.elapsed)))

/-- The entry with a SEQ that a bank in use holds. -/
def State.heldEntry (s : State) (seq : Nat) : Option Bytes :=
  let r := s.fget Fd.garnetStatus_RETIRED
  let good (o : Option Bytes) : Option Bytes := o.filter fun e => imgN e 0 8 == seq && crcOk e
  let a := if bit r 0 then none else good (nfind s.log.bank0 (seq % 4096))
  match a with
  | some e => some e
  | none => if bit r 1 then none else good (nfind s.log.bank1 (seq % 4096))

/-- Flush the entries from SEQ a up to but not including b (R746): a block is erased before its first entry is written. -/
def State.flushRange (s : State) (a b : Nat) : State :=
  let s := (List.range (b - a)).foldl (fun s i =>
    let q := a + i
    let k := q % 65536
    let s := if k % 1024 = 0 then s.modLog fun l => { l with flash := l.flash.filter fun e => e.1 / 1024 != k / 1024 } else s
    match s.heldEntry q with
    | some e => (s.modLog fun l => { l with flash := nset l.flash k e }).emit (.flash (0x01010000 + 64 * k) e)
    | none => s) s
  s.setReg .garnetFlushed b

/-- A flush that fails at a flash block (R757): what lies before the block is flushed. -/
def State.flushFail (s : State) (block cause : Nat) : State :=
  let a := s.reg .garnetFlushed
  let b := s.reg .garnetSeq
  let n := ((List.range (b - a)).find? fun i => (a + i) % 65536 / 1024 == block).getD 0
  let s := s.flushRange a (a + n)
  let s := s.inc Fd.garnetCounts_FLUSH_FAILS
  let s := s.stewardLog 0x000B (recBytes 16 [(0, 2, block), (2, 1, cause), (8, 8, a + n)])
  let s := s.bankReport (2 ^ 31 + block % 65536)
  let s := s.modLog fun l => { l with failRow := l.failRow + 1 }
  if 3 ≤ s.log.failRow then s.fset Fd.garnetStatus_FLASH_RETIRED 1 else s

/-- GARNET_FLUSH (R746, R757). -/
def execGarnetFlush (outcome : FlushOutcome) (now : Nat) (s : State) : Host.Outcome State Fault Refusal :=
  let s := s.advance now
  if !s.flushDue then .next s else
  match outcome with
  | .ok => .next ((s.flushRange (s.reg .garnetFlushed) (s.reg .garnetSeq)).modLog fun l => { l with failRow := 0 })
  | .erase b => .next (s.flushFail b 1)
  | .program b => .next (s.flushFail b 2)
  | .verify b => .next (s.flushFail b 3)
  | .timeout b => .next (s.flushFail b 4)

/-- Write one entry at the ring's next place, and then the count (R747, R748). -/
def State.ringPut (s : State) (e : Bytes) : State :=
  let n := s.log.ringN
  let size := s.fget Fd.fwlogCtl_SIZE
  let s := s.hostWrite (4096 * s.fget Fd.fwlogBase_ADDR + 64 * (n % size)) e
  let s := s.modLog fun l => { l with ringN := n + 1 }
  let s := (s.hostWrite (s.fget Fd.fwlogHeadAddr_ADDR * 8) (leBytes 8 (n + 1))).fset Fd.fwlogCounts_WRITTEN (n + 1)
  if s.fon Fd.fwlogCtl_IRQ && decide (s.log.lastIrq ≤ s.elapsed) then
    (s.raiseVec 101).modLog fun l => { l with lastIrq := s.elapsed + 100000 }
  else s

/-- The Steward takes the next entry for the ring (R747): dropped with the ring full; a DROPPED entry first once room returns. -/
def State.ringWrite (s : State) : State :=
  if !s.fon Fd.fwlogCtl_ENABLE || !(s.proc 0).running then s else
  match s.log.ringQ with
  | [] => s
  | e :: q =>
    if s.log.ringN = s.reg .fwlogTail + s.fget Fd.fwlogCtl_SIZE then
      (s.inc Fd.fwlogCounts_DROPS).modLog fun l => { l with ringQ := q, dropped := l.dropped + 1 }
    else if s.log.dropped ≠ 0 then
      (s.ringPut (garnetEntry 0 s.now 0x000F 7 2 (leBytes 4 s.log.dropped))).modLog fun l => { l with dropped := 0 }
    else (s.ringPut e).modLog fun l => { l with ringQ := q }

/-- HOST_LOG_RING_WRITE (R747). -/
def execHostLogRingWrite (s : State) : Host.Outcome State Fault Refusal := .next s.ringWrite

/-- A write to FWLOG_CTL (R750): ENABLE is taken only with a SIZE from 64 to 65,536. -/
def State.fwlogCtlWrite (s : State) (src : Source) (hi lo v : Nat) : State :=
  let was := s.fon Fd.fwlogCtl_ENABLE
  let (s, bad) := s.writeFields .fwlogCtl 0 0 hi lo v
  let s := if bad then s.charge src else s
  let n := s.fget Fd.fwlogCtl_SIZE
  if was || !s.fon Fd.fwlogCtl_ENABLE then s
  else if n = 0 then (s.fset Fd.fwlogCtl_ENABLE 0).fset Fd.fwlogCtl_REASON 1
  else if n < 64 ∨ 65536 < n then (s.fset Fd.fwlogCtl_ENABLE 0).fset Fd.fwlogCtl_REASON 2
  else s

/-- FWLOG_ENABLE (R750). -/
def execFwlogEnable (src : Source) (v : Word32) (s : State) : Host.Outcome State Fault Refusal :=
  if s.shut src then .next (s.turned .host) else
  .next (s.fwlogCtlWrite src 31 0 v.toNat)

end Sys2Proof.Machine
end

