-- ==== Sys2Proof/Machine/Proc.lean ====
section
/-!
DEFINITION. The firmware processors (chapters 19 and 20): start, restart, heartbeats, Kettles, on-line update, timers and events; the
rejection of an image command, which a restarted Steward also makes (R126).
-/
namespace Sys2Proof.Machine

/-- Change where start-up stands. -/
def State.modLife (s : State) (f : LifeSt → LifeSt) : State := { s with life := f s.life }

/-- An image command ends (R107, R129, R130): IMAGE_STATUS holds the reason, index and offset, DONE is set, the vector raised. -/
def State.imageDone (s : State) (reason idx off : Nat) : State :=
  let s := s.modLife fun l => { l with cmd := none, fetchErr := none, store := [], updating := none, imgDue := none, applying := none }
  let s := (s.fset Fd.imageStatus_BYTE_OFFSET off).fset Fd.imageStatus_SECTION_INDEX idx
  let s := (s.fset Fd.imageStatus_REASON reason).fset Fd.imageStatus_STATE (if s.hasImage then 2 else 0)
  ((s.fset Fd.imageStatus_DONE 1).raiseVec 97).trace 2

/-- An image is rejected (R129, R864). Its entry carries the IMAGE_SERIAL in the image store, and 0 where no header has reached it: the
spec says so for R126 only, and for the other rejections it is a DESIGN CHOICE (assumption log 67). -/
def State.imageReject (s : State) (e : ImageErr) : State :=
  let serial := imgN s.life.store 0x14 4
  let s := s.inc Fd.rejectCount_COUNT
  let s := s.stewardLog 3 (recBytes 12 [(0, 1, e.reason), (1, 1, e.secNo), (4, 4, e.offset), (8, 4, serial)])
  s.imageDone e.reason e.secNo e.offset

/-! Firmware bundles (R731, Table 20.3). -/

/-- The signature block that ends a signed object. -/
def sigBlock (b : Bytes) : Bytes := b.drop (b.length - 256)

/-- Authentication under R100: 1 the key slot fails, 2 the key hash, 3 the signature; none when authentic. -/
def authFail (slots : List KeySlot) (b : Bytes) : Option Nat :=
  let sb := sigBlock b
  match slots[imgN sb 4 1]? with
  | none => some 1
  | some k =>
    if k.hash.isNone || k.revoked then some 1
    else if some (sha384 ((sb.drop 0x10).take 96)) ≠ k.hash then some 2
    else if imgN sb 5 1 ≠ 1 then some 3
    else if !ecdsaVerify (b.take (b.length - 256)) (beNat ((sb.drop 0x10).take 48)) (beNat ((sb.drop 0x40).take 48))
        (beNat ((sb.drop 0x70).take 48)) (beNat ((sb.drop 0xA0).take 48)) then some 3
    else none

/-- Whether the slot that signed a bundle is PROGRAMMED. -/
def slotGood (slots : List KeySlot) (b : Bytes) : Bool :=
  match slots[imgN (sigBlock b) 4 1]? with
  | some k => k.hash.isSome && !k.revoked
  | none => false

/-- The key slots authentication sees: every one counts as revoked while scan is open (R775). -/
def State.keySlots (s : State) : List KeySlot :=
  if s.scanOn then s.fuse.slots.map fun k => { k with revoked := true }
  else s.fuse.slots

/-- Whether a length a bundle can have. -/
def fwLenBad (n : Nat) : Bool := n == 0 || n % 64 != 0 || decide (n < 576) || decide (0x400000 < n)

/-- Whether the segments of a bundle and its reserved bytes break Table 20.3. -/
def fwSegBad (b : Bytes) : Bool :=
  let so := imgN b 0x14 4
  let sl := imgN b 0x18 4
  let lo := imgN b 0x1C 4
  let ll := imgN b 0x20 4
  so % 64 != 0 || decide (so < 256) || sl == 0 || decide (0x200000 < sl) || lo % 64 != 0 || decide (lo < so + sl) || ll == 0 ||
    decide (0x100000 < ll) || decide (b.length - 256 < lo + ll) || imgN b 0x26 2 != 0 || imgN b 0x2C 212 != 0 ||
    imgN (sigBlock b) 6 10 != 0 || imgN (sigBlock b) 0xD0 48 != 0

/-- The checks of Table 20.8 that a bundle's bytes meet or fail, from BAD_MAGIC to SEGMENT_BOUNDS. -/
def bundleFail (slots : List KeySlot) (floor : Nat) (b : Bytes) : Option Nat :=
  if imgN b 0 4 ≠ 0x31574658 ∨ imgN b 4 2 ≠ 1 ∨ imgN (sigBlock b) 0 4 ≠ 0x47495358 then some 0x04
  else match authFail slots b with
    | some k => some (0x04 + k)
    | none =>
      if imgN b 0x24 2 ≠ 0x00A1 then some 0x08
      else if imgN b 0x10 4 < floor then some 0x09
      else if fwSegBad b then some 0x0A
      else none

/-- The Steward's heartbeat period in ns (R704). -/
def State.hbPeriod (s : State) : Nat := if s.hasImage then 1000 * s.devSec.heartbeatUs else 1000000

/-- The fold and every unit it owns are fenced (R115 step 6). -/
def State.holdFence (s : State) (f : Nat) : State :=
  let hold (s : State) (k : Nat) : State := if s.fenceAt k = FencePhase.fenced then s else s.setFence k .fenced
  let s := hold s (288 + f)
  let s := (s.foldCores f).foldl hold s
  (s.foldPorts f).foldl (fun s p => hold s (304 + p)) s

/-- The Steward restarts during an image command (R126): before its image is applied, the command is rejected with SOURCE_FAULT; then a
FULL load goes on, and a fold update is rejected and leaves its fold FENCED and INVALID. -/
def State.imageRestart (s : State) : State :=
  match s.life.applying with
  | none => s.imageReject ⟨0x45, 0xFF, 0⟩
  | some a =>
    if a.full then s else
    match s.life.updating with
    | some f => ((s.holdFence f).fset Fd.foldStatus_IMAGE_STATE 2 f).imageReject ⟨0x45, 0xFF, 0⟩
    | none => s.imageReject ⟨0x45, 0xFF, 0⟩

/-- A processor runs (R708, R739, R742): its Kettle's window starts, unless it is in HANDOVER; its version shows its copy; the
entries it owes are written; the collectors it handles are presented again. A restarted Steward ends an image command that was
under way (R126). -/
def State.procStart (s : State) (n : Nat) : State :=
  let p := s.proc n
  let b := p.copy
  let s := s.modProc n fun p => { p with
    running := true, starts := false, beat := s.elapsed
    kettle := if p.handover then p.kettle else { p.kettle with start := s.elapsed } }
  let s := (s.fset Fd.fwVersion_FW_SERIAL (imgN b 0x10 4) n).fset Fd.fwVersion_STATE_VERSION (imgN b 8 2) n
  let s := (s.fset Fd.fwVersion_PROTO_MAJOR (imgN b 6 1) n).fset Fd.fwVersion_PROTO_MINOR (imgN b 7 1) n
  let s := s.submit 0x000D n 0 (recBytes 12 [(0, 1, n), (1, 1, p.cause), (4, 4, imgN b 0x10 4), (8, 1, s.fget Fd.domainGen_GEN (304 + n))])
  let s := if p.cause = 2 then
      s.submit 0x0006 n 0 (recBytes 24 [(0, 1, n), (1, 1, s.fget Fd.pkettleStatus_EXPIRED_KIND n), (2, 2, s.fget Fd.pkettleStatus_EXPIRIES n),
        (8, 8, s.reg .pkettleEvidence n), (16, 8, s.reg .pkettleLastKick n)])
    else s
  if n = 0 then
    -- the Steward counts the heartbeats its Ladles miss afresh (R721)
    let s := { s with procs := s.procs.map fun (e : Nat × ProcSt) => (e.1, { e.2 with beat := s.elapsed }) }
    let s := (List.range 5).foldl State.represent s
    if s.life.cmd.isSome && p.cause != 0 && p.cause != 1 then s.imageRestart else s
  else
    let s := s.fset Fd.stewardHb_LADLES_ALIVE ((s.fget Fd.stewardHb_LADLES_ALIVE).lor (2 ^ (n - 1)))
    s.represent (n - 1)

/-- A reset command of a processor has its result (R695, R696). -/
def State.procResult (s : State) (n r : Nat) : State :=
  match s.reset' with
  | some q => if q.dkind = 6 ∧ q.id = n ∧ !q.waitPower ∧ q.result.isNone then { s with reset' := some { q with result := some r } } else s
  | none => s

/-- PROCESSOR_START (R698, R725, R742): a processor that was reset runs again, unless its copy fails authentication. A reset command
that waits for it has its result: OK, or RESET_STUCK where the processor stays stopped. -/
def execProcessorStart (proc : Fin 5) (copyOk : Bool) (now : Nat) (s : State) : Host.Outcome State Fault Refusal :=
  let s := s.advance now
  if !(s.proc proc).starts then .next s
  else if copyOk && slotGood s.keySlots (s.proc proc).copy then .next ((s.procStart proc).procResult proc 0)
  else .next (((s.modProc proc fun p => { p with starts := false }).procFault proc 4).procResult proc 11)

/-- STEWARD_HEARTBEAT (R704). -/
def execStewardHeartbeat (now : Nat) (s : State) : Host.Outcome State Fault Refusal :=
  let s := s.advance now
  if !(s.proc 0).running || decide (s.elapsed < (s.proc 0).beat + s.hbPeriod) then .next s else
  let s := s.modProc 0 fun p => { p with beat := s.elapsed }
  let s := (s.wrapInc Fd.stewardHb_COUNT).fset Fd.stewardHb_STAGE (s.fget Fd.bootStatus_STAGE)
  if s.fon Fd.hbHostAddr_ENABLE then .next (s.hostWrite (s.fget Fd.hbHostAddr_ADDR * 8) (leBytes 8 (s.reg .stewardHb))) else .next s

/-- LADLE_HEARTBEAT (R705, R753): recorded by the running Steward. -/
def execLadleHeartbeat (q : Fin 4) (now : Nat) (s : State) : Host.Outcome State Fault Refusal :=
  let s := s.advance now
  if !(s.proc 0).running || !(s.proc (q.val + 1)).running then .next s else
  let s := s.modProc (q.val + 1) fun p => { p with beat := s.elapsed }
  .next (s.fset (⟨.ladleHb, 16 * q.val + 15, 16 * q.val⟩ : FieldRef) (bits (s.reg .ladleHb) (16 * q.val + 15) (16 * q.val) + 1))

/-- LADLE_HUNG (R705): three heartbeats missed; reported, and the Ladle is reset. -/
def execLadleHung (q : Fin 4) (now : Nat) (s : State) : Host.Outcome State Fault Refusal :=
  let s := s.advance now
  let n := q.val + 1
  let p := s.proc n
  if !(s.proc 0).running || p.handover || !p.running || decide (s.elapsed < p.beat + 3000000) then .next s else
  let s := s.fset Fd.stewardHb_LADLES_ALIVE ((s.fget Fd.stewardHb_LADLES_ALIVE).land (15 - 2 ^ q.val))
  .next ((s.procFault n 2).resetProc n 4)

/-! Kettles (R707 to R712). -/

/-- A Kettle's hidden state. -/
def State.kettle (s : State) : KettleId → Kettle
  | .twin c => (s.core c).twin.kettle
  | .proc n => (s.proc n).kettle
/-- Change a Kettle's hidden state. -/
def State.modKettle (s : State) (f : Kettle → Kettle) : KettleId → State
  | .twin c => s.modTwin c fun t => { t with kettle := f t.kettle }
  | .proc n => s.modProc n fun p => { p with kettle := f p.kettle }
/-- A Kettle's LOCK. -/
def State.kettleLocked (s : State) : KettleId → Bool
  | .twin c => s.fon Fd.kettleCtl_LOCK c
  | .proc n => s.fon Fd.pkettleCtl_LOCK n
/-- Whether a source may write a Kettle's key register, RWK fields and LOCK (Table 19.4). -/
def kettleWriter (src : Source) : KettleId → Bool
  | .twin c => match src with
    | .host => true
    | .twin n => n == c
    | .proc n => n.val == 0 || n.val == coreDie c + 1
    | .smbus => false
    | .tap => false
  | .proc n => match src with
    | .proc m => m == n || m.val == 0
    | _ => false

/-- Whether a Kettle's key window is open for a source (R709). -/
def State.keyOpen (s : State) (id : KettleId) (src : Source) : Bool :=
  match (s.kettle id).key with
  | .window w t => w == src && decide (s.elapsed < t + 1000000)
  | _ => false

/-- Close a key window. -/
def State.keyClose (s : State) (id : KettleId) : State := s.modKettle (fun k => { k with key := .idle }) id

/-- A write to a Kettle's key register (R709, R710). -/
def State.keyWrite (s : State) (src : Source) (id : KettleId) (v : Nat) : State :=
  if !kettleWriter src id || s.kettleLocked id then s.charge src else
  match (s.kettle id).key with
  | .first w t =>
    if w = src ∧ v = 0x5EA1 ∧ s.elapsed ≤ t + 1000000 then s.modKettle (fun k => { k with key := .window src s.elapsed }) id
    else (s.keyClose id).charge src
  | _ =>
    if v = 0xC1A5 then s.modKettle (fun k => { k with key := .first src s.elapsed }) id else s.charge src

/-- KETTLE_KEY_WRITE (R709). -/
def execKettleKeyWrite (src : Source) (kettle : KettleId) (v : Word32) (now : Nat) (s : State) : Host.Outcome State Fault Refusal :=
  if s.shut src then .next (s.turned .host) else
  .next ((s.advance now).keyWrite src kettle v.toNat)

/-- Set a Kettle's REASON. -/
def State.kettleReason (s : State) (id : KettleId) (r : Nat) : State :=
  match id with
  | .twin c => s.fset Fd.kettleStatus_REASON r c
  | .proc n => s.fset Fd.pkettleStatus_REASON r n

/-- A write of a Kettle's window register that the key window admits: the range rules of R197 and R716 judge it, and a refused one
keeps the values (R709). -/
def State.kettleSetWindow (s : State) (id : KettleId) (open' close : Nat) : State :=
  if close = 0 then s.kettleReason id 1
  else if close < 10 ∨ 10000000 < close then s.kettleReason id 2
  else if close ≤ open' then s.kettleReason id 3
  else match id with
    | .twin c => (s.fset Fd.kettleWindow_CLOSE_US close c).fset Fd.kettleWindow_OPEN_US open' c
    | .proc n => (s.fset Fd.pkettleWindow_CLOSE_US close n).fset Fd.pkettleWindow_OPEN_US open' n

/-- A write to a Kettle's WINDOW register (R709, R710, R216). -/
def State.kettleWindowWrite (s : State) (src : Source) (id : KettleId) (v : Nat) : State :=
  if !kettleWriter src id || s.kettleLocked id || !s.keyOpen id src then s.charge src
  else (s.keyClose id).kettleSetWindow id (bits v 23 0) (bits v 55 32)

/-- Set a Kettle's ENABLE; its window starts when it is armed. -/
def State.kettleSetEnable (s : State) (id : KettleId) (on : Bool) : State :=
  let (was, s) := match id with
    | .twin c => (s.fon Fd.kettleCtl_ENABLE c, s.fset Fd.kettleCtl_ENABLE (b2n on) c)
    | .proc n => (s.fon Fd.pkettleCtl_ENABLE n, s.fset Fd.pkettleCtl_ENABLE (b2n on) n)
  if on && !was then s.modKettle (fun k => { k with start := s.elapsed }) id else s

/-- Set a Kettle's LOCK. -/
def State.kettleSetLock (s : State) : KettleId → State
  | .twin c => s.fset Fd.kettleCtl_LOCK 1 c
  | .proc n => s.fset Fd.pkettleCtl_LOCK 1 n

/-- A write to a Kettle's CTL register: LOCK is set-once; ENABLE is taken inside the key window, judged before the write (R862). -/
def State.kettleCtlWrite (s : State) (src : Source) (id : KettleId) (v : Nat) : State :=
  if !kettleWriter src id then s.charge src else
  let ok := s.keyOpen id src && !s.kettleLocked id
  let s := if ok then (s.keyClose id).kettleSetEnable id (bit v 0) else s.charge src
  if bit v 1 then s.kettleSetLock id else s

/-- KETTLE_WINDOW_WRITE (R709, R197, R716): a write of ENABLE or of the window. -/
def execKettleWindowWrite (src : Source) (kettle : KettleId) (field : KettleField) (v : Word) (now : Nat) (s : State) :
    Host.Outcome State Fault Refusal :=
  if s.shut src then .next (s.turned .host) else
  let s := s.advance now
  match field with
  | .enable => .next (s.kettleCtlWrite src kettle (v.toNat % 2))
  | .window => .next (s.kettleWindowWrite src kettle v.toNat)

/-- The value of a Kettle's ENABLE. -/
def State.kettleOn (s : State) : KettleId → Nat
  | .twin c => s.fget Fd.kettleCtl_ENABLE c
  | .proc n => s.fget Fd.pkettleCtl_ENABLE n

/-- KETTLE_LOCK (R711): a write of CTL with LOCK 1 and ENABLE as it stands. -/
def execKettleLock (src : Source) (kettle : KettleId) (s : State) : Host.Outcome State Fault Refusal :=
  if s.shut src then .next (s.turned .host) else
  .next (s.kettleCtlWrite src kettle (2 + s.kettleOn kettle))

/-- An expiry of a firmware Kettle (R708, R712): evidence, a PROCESSOR reset with a start cause, and PROCESSOR_FAULT. -/
def State.pkExpire (s : State) (n kind cause : Nat) (pc : Nat) : State :=
  let s := ((s.fset Fd.pkettleStatus_EXPIRED_KIND kind n).fset Fd.pkettleStatus_EXPIRED 1 n).inc Fd.pkettleStatus_EXPIRIES n
  let s := (s.setReg .pkettleEvidence pc n).setReg .pkettleLastKick (s.proc n).kettle.lastKick n
  (s.resetProc n cause).procFault n 1

/-- Whether a firmware Kettle counts: it is enabled, its processor runs, and it is not in HANDOVER. -/
def State.pkActive (s : State) (n : Nat) : Bool :=
  (s.proc n).running && s.fon Fd.pkettleCtl_ENABLE n && !(s.proc n).handover

/-- The processors an UPDATE hands over, in order (R737). -/
def fwOrder : List Nat := [1, 2, 3, 4, 0]

/-- An UPDATE ends (R737): FW_UPDATE is written, DONE is set, the old and staged copies are discarded. -/
def State.fwEnd (s : State) (reason : Nat) : State :=
  let new := imgN s.life.staged 0x10 4
  let s := s.stewardLog 0x000C (recBytes 12 [(0, 1, s.fget Fd.fwStatus_UPDATED), (1, 1, reason), (4, 4, s.life.fwOld), (8, 4, new)])
  let s := { s with procs := s.procs.map fun (e : Nat × ProcSt) => (e.1, { e.2 with prev := none }) }
  let s := s.modLife fun l => { l with staged := [], fwMask := 0, fwCur := none }
  let s := (s.fset Fd.fwStatus_STATE 1).fset Fd.fwStatus_REASON reason
  ((s.fset Fd.fwStatus_DONE 1).raiseVec 120).trace 2

/-- The next processor of an UPDATE is asked to hand over, or the UPDATE ends (R737). -/
def State.fwNext (s : State) : State :=
  match fwOrder.find? fun n => bit s.life.fwMask n with
  | some n => s.modLife fun l => { l with fwCur := some n, fwMask := l.fwMask.land (31 - 2 ^ n), fwSince := s.elapsed }
  | none => s.fwEnd 0

/-- Set a processor's bit of FW_STATUS.HANDOVER. -/
def State.setHandover (s : State) (n : Nat) (on : Bool) : State :=
  let h := s.fget Fd.fwStatus_HANDOVER
  let s := s.fset Fd.fwStatus_HANDOVER (if on then h.lor (2 ^ n) else h.land (31 - 2 ^ n))
  s.modProc n fun p => { p with handover := on }

/-- The incoming firmware's first kick (R739). -/
def State.handoverKick (s : State) (n : Nat) : State :=
  if !(s.proc n).handover || !(s.proc n).running then s else
  let s := s.setHandover n false
  let s := s.modProc n fun p => { p with kettle := { p.kettle with start := s.elapsed, lastKick := s.now } }
  let s := s.fset Fd.fwStatus_UPDATED ((s.fget Fd.fwStatus_UPDATED).lor (2 ^ n))
  if s.life.fwCur = some n then s.fwNext else s

/-- HANDOVER_KICK (R739). -/
def execHandoverKick (proc : Fin 5) (now : Nat) (s : State) : Host.Outcome State Fault Refusal :=
  .next ((s.advance now).handoverKick proc)

/-- A kick of a firmware Kettle (R707, R720): one earlier than OPEN_US, or as late as CLOSE_US, is an expiry. -/
def State.pkKick (s : State) (src : Source) (n pc : Nat) : State :=
  let mine := match src with
    | .proc m => m.val == n
    | _ => false
  if !mine then s.charge src
  else if (s.proc n).handover then s.handoverKick n
  else if !s.pkActive n then s
  else
    let t := s.elapsed - (s.proc n).kettle.start
    if t < 1000 * s.fget Fd.pkettleWindow_OPEN_US n then s.pkExpire n 1 2 pc
    else if 1000 * s.fget Fd.pkettleWindow_CLOSE_US n ≤ t then s.pkExpire n 2 2 pc
    else s.modProc n fun p => { p with kettle := { p.kettle with start := s.elapsed, lastKick := s.now } }

/-- PKETTLE_KICK (R707). -/
def execPkettleKick (src : Source) (proc : Fin 5) (pc : Word) (now : Nat) (s : State) : Host.Outcome State Fault Refusal :=
  if s.shut src then .next (s.turned .host) else
  .next ((s.advance now).pkKick src proc pc.toNat)

/-- PKETTLE_EXPIRY (R707, R708): no kick by CLOSE_US. -/
def execPkettleExpiry (proc : Fin 5) (pc : Word) (now : Nat) (s : State) : Host.Outcome State Fault Refusal :=
  let s := s.advance now
  if s.pkActive proc && decide ((s.proc proc).kettle.start + 1000 * s.fget Fd.pkettleWindow_CLOSE_US proc ≤ s.elapsed) then
    .next (s.pkExpire proc 2 2 pc.toNat) else .next s

/-! On-line update (R736 to R741). -/

/-- Whether firmware commands are refused before they start: the host before RUNNING (R810), anyone while one runs (R752). -/
def State.fwCmdRefused (s : State) (src : Source) : Bool :=
  (src == .host && s.fget Fd.fwStatus_STATE == 0) || decide (2 ≤ s.fget Fd.fwStatus_STATE)

/-- A firmware command ends with a reason and nothing else changed. -/
def State.fwFail (s : State) (reason : Nat) : State :=
  (((s.fset Fd.fwStatus_REASON reason).fset Fd.fwStatus_DONE 1).raiseVec 120).trace 2

/-- The first check of Table 20.8 an UPDATE fails. -/
def State.fwCheck (s : State) (mask : Nat) (data : Option Bytes) : Option Nat :=
  let n := s.reg .fwSrcLen
  if s.life.cmd.isSome then some 0x01
  else if fwLenBad n then some 0x02
  else match data with
    | none => some 0x03
    | some b =>
      let run := (s.proc 0).copy
      if b.length ≠ n then some 0x03
      else if imgN b 0xC 4 ≠ n then some 0x02
      else match bundleFail s.keySlots s.fuse.fwFloor b with
        | some e => some e
        | none =>
          if imgN b 6 1 ≠ imgN run 6 1 then some 0x0B
          else if imgN run 8 2 < imgN b 0xA 2 ∨ imgN b 8 2 < imgN run 8 2 then some 0x0C
          else if mask % 32 = 0 then some 0x0D
          else none

/-- Whether an UPDATE comes as far as its fetch (Table 20.8). -/
def State.fwReads (s : State) : Bool := s.life.cmd.isNone && !fwLenBad (s.reg .fwSrcLen)

/-- The bundle of an UPDATE has been fetched, FW_SRC_LEN bytes at FW_SRC_ADDR (R736, R737). -/
def State.fwFetched (s : State) (mask : Nat) (read : HostRead) : State :=
  let data := readBytes read
  let s := if s.fwReads then s.emit (.hostRead 0 (s.reg .fwSrcAddr) (s.reg .fwSrcLen)) else s
  match s.fwCheck mask data with
  | some e => (if e = 3 then s.noteRead read else s).fwFail e
  | none =>
    let s := s.modLife fun l => { l with staged := data.getD [], fwMask := mask % 32, fwOld := imgN (s.proc 0).copy 0x10 4 }
    let s := (s.fset Fd.fwStatus_STATE 2).fset Fd.fwStatus_UPDATED 0
    s.fwNext

/-- The FW_CMD that a plain register write has started goes on: its row brings what it still needs. -/
def State.fwClearDue (s : State) : State := (s.modLife fun l => { l with fwDue := none }).fset Fd.fwStatus_STATE 1

/-- An FW_CMD starts whose fetch, or whose flash write, is still to come: STATE shows it. -/
def State.fwBegin (s : State) (op mask : Nat) : State :=
  (s.modLife fun l => { l with fwDue := some (op, mask) }).fset Fd.fwStatus_STATE (op + 1)

/-- FW_CMD UPDATE (R736, R737): a write of FW_CMD with the bundle fetched, or the bundle of one written before. While the device may not master
the fetch is held (R799), and a later row brings the bundle. -/
def State.fwUpdate (s : State) (src : Source) (mask : Nat) (read : HostRead) : State :=
  match s.life.fwDue with
  | some (1, m) => if (s.proc 0).running && (s.mayMaster || !s.fwReads) then s.fwClearDue.fwFetched m read else s
  | _ =>
    if s.fwCmdRefused src then s.charge src
    else if !(s.proc 0).running then s
    else if s.fwReads && !s.mayMaster then s.fwBegin 1 mask
    else s.fwFetched mask read

/-- FW_UPDATE (R736). -/
def execFwUpdate (src : Source) (mask : Nat) (data : HostRead) (s : State) : Host.Outcome State Fault Refusal :=
  if s.shut src then .next (s.turned .host) else
  .next (s.fwUpdate src mask data)

/-- A directory copy (R730): ACTIVE_SLOT, and its generation, if it is valid. -/
def dirOf (o : Option Bytes) : Option (Nat × Nat) :=
  match o with
  | none => none
  | some b =>
    if b.take 4 = [0x58, 0x44, 0x49, 0x52] ∧ imgN b 12 4 = crc32c (b.take 12) ∧ 16 ≤ b.length then some (imgN b 4 1 % 2, imgN b 8 4)
    else none

/-- The bytes of a directory copy (R730). -/
def dirBytes (slot gen : Nat) : Bytes :=
  let b : Bytes := [0x58, 0x44, 0x49, 0x52] ++ leBytes 1 slot ++ [0, 0, 0] ++ leBytes 4 gen
  b ++ leBytes 4 (crc32c b)

/-- The work of a PERSIST (R741): the Steward's bundle goes to the slot the directory does not name, then the older directory copy names
it. -/
def State.persisted (s : State) (ok : Bool) : State :=
  if s.life.cmd.isSome then s.fwFail 0x01
  else if !ok then s.fwFail 0x12
  else
    let slot := 1 - s.fget Fd.fwStatus_FLASH_SLOT
    let s := s.emit (.flash (if slot = 0 then 0x10000 else 0x410000) (s.proc 0).copy)
    let g := s.life.dirGen + 1
    let s := s.emit (.flash (0x1000 * s.life.dirOld) (dirBytes slot g))
    let s := s.modLife fun l => { l with dirGen := g, dirOld := 1 - l.dirOld }
    (s.fset Fd.fwStatus_FLASH_SLOT slot).fwFail 0

/-- FW_CMD PERSIST (R741): a write of FW_CMD, or the end of one written before. -/
def State.persist (s : State) (src : Source) (ok : Bool) : State :=
  match s.life.fwDue with
  | some (2, _) => if (s.proc 0).running then s.fwClearDue.persisted ok else s
  | _ =>
    if s.fwCmdRefused src then s.charge src
    else if !(s.proc 0).running then s
    else s.persisted ok

/-- An FW_CMD written by a plain register write starts (R736, R741, Table 20.9): STATE shows it, and its row, which carries the bundle or
tells how the flash write ends, ends it (DESIGN CHOICE, assumption log 33). -/
def State.fwCmdWrite (s : State) (src : Source) (op mask : Nat) : State :=
  if (op != 1 && op != 2) || s.fwCmdRefused src then s.charge src
  else if !(s.proc 0).running then s
  else s.fwBegin op mask

/-- PERSIST (R741). -/
def execPersist (src : Source) (ok : Bool) (s : State) : Host.Outcome State Fault Refusal :=
  if s.shut src then .next (s.turned .host) else .next (s.persist src ok)

/-- FW_HANDOFF (R738): the processor whose turn it is hands over to the staged code. record is what it has written into its hand-over area of
64 KiB, which the incoming firmware, or after a rollback the outgoing one, finds there (R738, R740). -/
def State.fwHandoff (s : State) (src : Source) (n v : Nat) (record : Bytes) : State :=
  let mine := match src with
    | .proc m => m.val == n
    | _ => false
  if !mine || v != 0x60D0 then s.charge src
  else if s.life.fwCur ≠ some n ∨ (s.proc n).handover ∨ !(s.proc n).running then s
  else
    let s := s.setHandover n true
    let s := s.resetProc n 5
    s.modProc n fun p => { p with prev := some p.copy, copy := s.life.staged, hoAt := s.elapsed, record := record.take 65536 }

/-- FW_HANDOFF (R738). -/
def execFwHandoff (src : Source) (proc : Fin 5) (v : Word) (now : Nat) (record : Bytes) (s : State) : Host.Outcome State Fault Refusal :=
  if s.shut src then .next (s.turned .host) else
  .next ((s.advance now).fwHandoff src proc v.toNat record)

/-- NO_HANDOFF (R736): the outgoing processor did not write FW_HANDOFF within 100 ms. -/
def execNoHandoff (proc : Fin 5) (now : Nat) (s : State) : Host.Outcome State Fault Refusal :=
  let s := s.advance now
  if s.life.fwCur = some proc.val ∧ !(s.proc proc).handover ∧ s.life.fwSince + 100000000 ≤ s.elapsed then .next (s.fwEnd 0x10)
  else .next s

/-- HANDOVER_EXPIRY (R739, R740): the processor restarts from its previous bundle with cause ROLLBACK. -/
def execHandoverExpiry (proc : Fin 5) (pc : Word) (now : Nat) (s : State) : Host.Outcome State Fault Refusal :=
  let s := s.advance now
  let p := s.proc proc
  let ms := if s.hasImage then s.devSec.handoverMs else 500
  if !p.handover || decide (s.elapsed < p.hoAt + 1000000 * ms) then .next s else
  let s := (s.setHandover proc false).pkExpire proc 2 6 pc.toNat
  let s := s.modProc proc fun p => { p with copy := p.prev.getD p.copy, prev := none }
  .next (if s.life.fwCur = some proc.val then s.fwEnd 0x11 else s)

/-! Timers and events (R732). -/

/-- FW_TIMER_EXPIRY (R732): latched once. -/
def execFwTimerExpiry (proc : Fin 5) (k : Fin 16) (now : Nat) (s : State) : Host.Outcome State Fault Refusal :=
  let s := s.advance now
  let p := s.proc proc
  let v := nget 0 p.timers k.val
  if v ≠ 0 ∧ v ≤ s.now ∧ !nhas p.timerDone k.val then
    .next ((s.modProc proc fun p => { p with timerDone := nset p.timerDone k.val () }).latchProc proc k.val)
  else .next s

/-- A write of FW_TIMER_k (R732): 0 disarms. -/
def State.fwTimerWrite (s : State) (n k v : Nat) : State :=
  s.modProc n fun p => { p with timers := if v = 0 then ndel p.timers k else nset p.timers k v, timerDone := ndel p.timerDone k }

/-- FW_EVENT_TAKE (R732, R738, R739). Only the processor itself reaches it. -/
def execFwEventTake (src : Source) (proc : Fin 5) (s : State) : Host.Outcome State Fault Refusal :=
  if s.dark src then .next (unsupported s) else
  if src ≠ .proc proc then .next (s.charge src)
  else if (s.proc proc).handover then .next (s.emit (.regRead 0))
  else
    let s := s.emit (.regRead (BitVec.ofNat 64 (s.proc proc).events))
    .next (s.modProc proc fun p => { p with events := 0 })

end Sys2Proof.Machine
end

