-- ==== Sys2Proof/Machine/TwinCore.lean ====
section
/-!
DEFINITION. A core's twin (chapter 5): its registers, exception entry and the stack check, events, start, lockstep and its Kettle. Its
instructions are in Twin.
-/
namespace Sys2Proof.Machine

/-- General register n of a twin: g0 reads as zero (R178). -/
def TwinSt.gr (t : TwinSt) (n : Nat) : Word := if n = 0 then 0 else nget 0 t.g n

/-- Write a general register: writes to g0 are discarded (R178). -/
def TwinSt.setGr (t : TwinSt) (n : Nat) (v : Word) : TwinSt :=
  if n = 0 then t else { t with g := if v = 0 then ndel t.g n else nset t.g n v }

/-- A core's twin. -/
def State.twin (s : State) (c : Nat) : TwinSt := (s.core c).twin

/-- Write a general register of a core's twin. -/
def State.setG (s : State) (c n : Nat) (v : Word) : State := s.modTwin c fun t => t.setGr n v

/-- PRIV of STATUS: whether the twin runs at SUPERVISOR (Table 5.1). -/
def TwinSt.super (t : TwinSt) : Bool := t.status.toNat.testBit 0
/-- EVENTS_ON of STATUS. -/
def TwinSt.eventsOn (t : TwinSt) : Bool := t.status.toNat.testBit 1

/-- The words held in the five issue queues, seven bits each (s13). -/
def CoreSt.issueLevel (k : CoreSt) : Nat :=
  (k.queues.zipIdx.map fun (q, i) => q.length % 128 * 2 ^ (8 * i)).foldl (· + ·) 0

/-- The summaries held (s14). -/
def CoreSt.summaryLevel (k : CoreSt) : Nat := (k.sums.getD 0 []).length % 32 + 2 ^ 8 * ((k.sums.getD 1 []).length % 32)

/-- A special register (Table 5.1). -/
def State.special (s : State) (c n : Nat) : Word :=
  let t := s.twin c
  match n with
  | 0 => t.status
  | 1 => t.epc
  | 2 => t.cause
  | 3 => t.evalue
  | 4 => t.vbase
  | 5 => t.stackLimit
  | 6 => t.tcmp
  | 7 => BitVec.ofNat 64 s.now
  | 8 => t.events
  | 9 => t.eventMask
  | 10 => BitVec.ofNat 64 (c + 2 ^ 16 * (s.foldOfCore c).getD 0 + 2 ^ 32 * s.member.getD 0)
  | 11 => t.kscratch
  | 12 => t.uscratch
  | 13 => BitVec.ofNat 64 (s.core c).issueLevel
  | 14 => BitVec.ofNat 64 (s.core c).summaryLevel
  | _ => 0

/-- Mark the part of the command a core runs (R488): bit 0 DATA_POISONED, bit 1 ENGINE_FAULT. -/
def State.markPart (s : State) (c m : Nat) : State :=
  s.modCore c fun k => match k.parts with
    | [] => k
    | p :: ps => { k with parts := { p with mark := p.mark.lor m } :: ps }

/-! The release buffer (R211). -/

/-- A held access leaves its twin: it was held only where its target is answered at once, and an answer that it was not performed marks the
part (R84). -/
def State.releaseTo (s : State) (c addr : Nat) (a : Act) (len : Nat) : State :=
  match s.resolveCore c a.perm addr true with
  | .here f p =>
    let (s, r) := s.deliver (.twin c) (.here f p) a len 0 0x7F (.core c)
    match r with
    | some (.fenced, _) => s.markPart c 2
    | some (.error, _) => s.markPart c 2
    | _ => s
  | .viol v => s.violate v
  | _ => s

/-- A held output leaves its twin. -/
def State.releaseOut (s : State) (c : Nat) : HeldOut → State
  | .store a d => s.releaseTo c a (.store d) 0
  | .signal a v => s.releaseTo c a (.signal v) 8
  | .issue e w => s.modCore c fun k => { k with queues := k.queues.set e (k.queues.getD e [] ++ [w]) }

/-- Every output a twin's release buffer holds has compared equal and leaves it, oldest first. -/
def State.twinRelease (s : State) (c : Nat) : State :=
  let l := (s.twin c).rel
  if l.isEmpty then s else l.foldl (fun s h => s.releaseOut c h) (s.modTwin c fun t => { t with rel := [] })

/-- An output enters the release buffer; a full buffer stalls A until its oldest output has been released. -/
def State.hold (s : State) (c : Nat) (h : HeldOut) : State :=
  let s := match (s.twin c).rel with
    | x :: l => if 7 ≤ l.length then (s.modTwin c fun t => { t with rel := l }).releaseOut c x else s
    | [] => s
  s.modTwin c fun t => { t with rel := t.rel ++ [h] }

/-- Whether an access of a twin can be held: its target, a Pantry or HBM, is answered at once. -/
def State.canHold (s : State) (c perm addr : Nat) : Bool :=
  match s.resolveCore c perm addr true with
  | .here _ (.pantry _ _) => true
  | .here _ (.hbm _) => true
  | _ => false

/-- Whether a held output of a twin changes bytes of its own Pantry. -/
def State.heldTouches (s : State) (c off len : Nat) : Bool :=
  (s.twin c).rel.any fun h =>
    let at' (perm a n : Nat) : Bool := match s.resolveCore c perm a true with
      | .here _ (.pantry d o) => d == c && decide (o < off + len) && decide (off < o + n)
      | _ => false
    match h with
    | .store a d => at' 1 a d.length
    | .signal a _ => at' 2 a 8
    | .issue _ _ => false

/-- The first global address of a core's own Pantry window (R205). -/
def pantryP (c : Nat) : Nat := 0xFFFF000000000000 + pantryKey c 0

/-- The bits of the stack check that fail (R205, Table 5.7): 0 OUTSIDE, 1 MISALIGNED, 2 BELOW_LIMIT, 3 RESCUE_OVERLAP. -/
def State.stackFails (s : State) (c : Nat) : Nat :=
  let t := s.twin c
  let sp := s.norm (t.gr 30).toNat
  let p := pantryP c
  b2n (!(decide (p + 256 ≤ sp) && decide (sp ≤ p + 0x200000))) + 2 * b2n (sp % 16 != 0) +
    4 * b2n (decide ((sp : Int) - 256 < (s.norm t.stackLimit.toNat : Nat))) +
    8 * b2n (decide ((sp : Int) - 256 < (p + 0x10000 : Nat)) && decide (p + 0xFE00 < sp))

/-- Store one 8-byte value into a core's own Pantry, counters included. -/
def State.pantryStore8 (s : State) (c off v : Nat) : State := (s.pantryAccess c off 8 (.store (leBytes 8 v))).st

/-- Set a bit of CORE_PARKED; vector 102 is raised when it goes from 0 to 1 (Table 22.5). -/
def State.coreParked (s : State) (c : Nat) : State :=
  if Nat.testBit (s.reg .coreParked (c / 64)) (c % 64) then s else (s.setMapBit .coreParked c).raiseVec 102

/-- The rescue frame is written and the twin parks (R206, Table 5.7). -/
def State.park (s : State) (c fails : Nat) : State :=
  let s := s.inc Fd.twinCounts_RESCUE_COUNT c
  let t := s.twin c
  let w (v : Word) : Bytes := leBytes 8 v.toNat
  let frame := ((List.range 32).flatMap fun i => w (t.gr i)) ++ ((List.range 16).flatMap fun i => w (s.special c i)) ++
    w t.cause ++ w t.epc ++ w (t.gr 30) ++ leBytes 8 fails ++ leBytes 8 s.now ++ leBytes 8 (s.fget Fd.twinCounts_RESCUE_COUNT c) ++
    List.replicate 80 0
  let s := s.put (pantryKey c 0xFE00) frame
  let s := (List.range 8).foldl (fun s i => s.setPoison (pantryKey c 0xFE00 / 64 + i) false) s
  let s := (s.fset Fd.parkInfo_REASON 0x3F c).modTwin c fun t => { t with mode := .parked }
  s.coreParked c

/-- A twin stops at its instruction boundary in HALTED (R780): an instruction that waits ends without effect. -/
def State.haltTwin (s : State) (c cause : Nat) : State :=
  let s := s.twinRelease c
  let s := { s with waiters := ndel s.waiters c }
  (s.modTwin c fun t => { t with mode := .halted, began := false, waiting := false, haltAt := none }).fset Fd.tdbgStatus_HALT_CAUSE cause c

/-- The halt that is due at a running twin's instruction boundary. -/
def State.haltDue (s : State) (c : Nat) : State :=
  match (s.twin c).haltAt with
  | some k => if (s.twin c).mode = .running then s.haltTwin c k else s.modTwin c fun t => { t with haltAt := none }
  | none => s

/-- Exception entry (R198): every earlier instruction is complete, its outputs released; the frame goes to g30 − 64 if the stack check
passes, else the twin parks with DOUBLE_STACK. -/
def State.takeException (s : State) (c cause evalue : Nat) : State :=
  let s := s.twinRelease c
  let t := s.twin c
  let st := t.status.toNat
  let s := { s with waiters := ndel s.waiters c }.modTwin c fun t => { t with
    epc := t.pc, cause := BitVec.ofNat 64 cause, evalue := BitVec.ofNat 64 evalue, began := false, waiting := false
    status := BitVec.ofNat 64 (1 + 4 * (st % 2) + 8 * (st / 2 % 2)) }
  let fails := s.stackFails c
  if fails ≠ 0 then (s.park c fails).haltDue c
  else
    let sp := (t.gr 30).toNat
    let off := s.norm sp - pantryP c - 64
    let s := [(0, t.pc.toNat), (8, st), (16, cause), (24, evalue), (32, sp), (40, 0), (48, 0), (56, 0)].foldl
      (fun s (o, v) => s.pantryStore8 c (off + o) v) s
    ((s.setG c 30 (BitVec.ofNat 64 (sp - 64))).modTwin c fun t => { t with pc := t.vbase }).haltDue c

/-- An engine hands its twin an exception: taken at the twin's next instruction boundary, and by a halted twin once it runs again. -/
def State.engineExc (s : State) (c cause evalue : Nat) : State :=
  match (s.twin c).mode with
  | .running =>
    if (s.twin c).began then s.modTwin c fun t => { t with excs := t.excs ++ [(cause, evalue)] } else s.takeException c cause evalue
  | .halted => s.modTwin c fun t => { t with excs := t.excs ++ [(cause, evalue)] }
  | _ => s

/-- ENGINE_ERROR of an engine with a reason (Table 5.5). -/
def State.engineError (s : State) (c engine reason : Nat) : State := s.engineExc c 7 (2 ^ 60 * engine + reason % 2 ^ 16)

/-- HOST_MAP_MISS of an engine, or of the twin (15), at an address (Table 5.5). -/
def State.engineMiss (s : State) (c engine addr : Nat) : State := s.engineExc c 5 (2 ^ 60 * engine + addr % 2 ^ 60)

/-- The event bits that are set and enabled (R209). -/
def TwinSt.due (t : TwinSt) : Nat := (t.events &&& t.eventMask).toNat % 32

/-- Take an event that is due (R209, Table 5.5): TIMER before EVENT. -/
def State.takeEvent (s : State) (c : Nat) : State :=
  let d := (s.twin c).due
  if d.testBit 0 then s.takeException c (2 ^ 63 + 0x10) 0 else s.takeException c (2 ^ 63 + 0x11) d

/-- Whether a core takes beats and work: present, ACTIVE, neither fenced nor mapped out. -/
def State.coreLive (s : State) (c : Nat) : Bool :=
  s.corePresent c && s.coreFence c == FencePhase.none && s.fget Fd.corePwr_STATE c == 0 && !s.coreOut c

/-- Whether an access of the instruction a twin has begun has its answer. -/
def State.twinReplied (s : State) (c : Nat) : Bool :=
  (s.twin c).began && s.replies.any fun r => match r.by' with
    | .twin d => d == c
    | .engine d 7 _ => d == c
    | _ => false

/-- Whether a core's twin runs instructions. While its core drains, it ends the instruction whose access is under way, and stops at that
instruction boundary (R202, R634). -/
def State.twinRuns (s : State) (c : Nat) : Bool :=
  (s.twin c).mode == .running &&
    (s.coreLive c || (s.coreFence c == FencePhase.fencing && s.corePresent c && s.fget Fd.corePwr_STATE c == 0 && s.twinReplied c))

/-- Start a twin (R193). -/
def State.twinBegin (s : State) (c : Nat) : State :=
  s.modTwin c fun t => { t with
    mode := .running, status := 1, pc := BitVec.ofNat 64 (s.fget Fd.twinBootPc_PC c * 4), kettle := { t.kettle with start := s.elapsed } }

/-- A write of START to TWIN_CMD (R193, R218): a violation for a core absent or mapped out, ignored outside RESET_HOLD. -/
def State.twinStart (s : State) (src : Source) (c : Nat) : State :=
  if !s.corePresent c || s.coreOut c then s.charge src
  else if (s.twin c).mode ≠ .resetHold ∨ s.fget Fd.corePwr_STATE c ≠ 0 ∨ (s.foldOfCore c).isNone then s
  else s.twinBegin c

/-- START (R193). -/
def execTwinStart (src : Source) (core : CoreId) (s : State) : Host.Outcome State Fault Refusal :=
  if s.shut src then .next (s.turned .host) else .next (s.twinStart src core)

/-- TIMER_EVENT (Table 5.6): TIME has reached TCMP. -/
def execTimerEvent (core : CoreId) (now : Nat) (s : State) : Host.Outcome State Fault Refusal :=
  let s := s.advance now
  let t := s.twin core
  if t.tcmpArmed && decide (t.tcmp.toNat ≤ s.now) then
    .next ((s.latchCore core 0).modTwin core fun t => { t with tcmpArmed := false })
  else .next s

/-- A miscompare (R212): nothing further is released, and the work the core runs ends with ENGINE_FAULT. -/
def State.miscompare (s : State) (c kind : Nat) : State :=
  let s := (s.markPart c 2).modTwin c fun t => { t with mode := .stopped, rel := [] }
  let s := s.inc Fd.twinCounts_MISCOMPARE_COUNT c
  let s := if s.fon Fd.lockstepStatus_VALID c then s else
    ((s.fset Fd.lockstepStatus_KIND kind c).fset Fd.lockstepStatus_DETECT_TIME s.now c).fset Fd.lockstepStatus_VALID 1 c
  s.detectCore 2 c kind

/-- LOCKSTEP_SIGNATURE_CHECK (R210 to R212): whether the compares since the last check found a difference, and of what kind. Where they
found none, B's outputs have matched those held, which are released. -/
def execLockstepSignatureCheck (core : CoreId) (miscompare : Option (Fin 4)) (s : State) : Host.Outcome State Fault Refusal :=
  match miscompare with
  | none => .next (if s.coreFence core = FencePhase.fenced ∨ (s.twin core).mode = .stopped then s else s.twinRelease core)
  | some k => if s.twinRuns core then .next (s.miscompare core k) else .next s

/-- The twin's Kettle expires (R215): 1 EARLY, 2 LATE. Where the twin goes on, the window restarts. -/
def State.twinExpire (s : State) (c kind : Nat) : State :=
  let s := (s.fset Fd.kettleStatus_EXPIRED_KIND kind c).fset Fd.kettleStatus_EXPIRED 1 c
  let s := s.modTwin c fun t => { t with kettle := { t.kettle with start := s.elapsed } }
  s.detectCore 3 c (s.twin c).lastPc.toNat

/-- A KICK (R214). -/
def State.twinKick (s : State) (c : Nat) : State :=
  if !s.fon Fd.kettleCtl_ENABLE c then s else
  let t := s.elapsed - (s.twin c).kettle.start
  if t < 1000 * s.fget Fd.kettleWindow_OPEN_US c then s.twinExpire c 1
  else if 1000 * s.fget Fd.kettleWindow_CLOSE_US c ≤ t then s.twinExpire c 2
  else s.modTwin c fun t => { t with kettle := { t.kettle with start := s.elapsed, lastKick := s.now } }

/-- TWIN_KETTLE_EXPIRY (R214, R215): no KICK by CLOSE_US while enabled and RUNNING. -/
def execTwinKettleExpiry (core : CoreId) (now : Nat) (s : State) : Host.Outcome State Fault Refusal :=
  let s := s.advance now
  if s.twinRuns core && s.fon Fd.kettleCtl_ENABLE core &&
      decide ((s.twin core).kettle.start + 1000 * s.fget Fd.kettleWindow_CLOSE_US core ≤ s.elapsed) then .next (s.twinExpire core 2)
  else .next s

end Sys2Proof.Machine
end

