-- ==== Sys2Proof/Machine/Engine.lean ====
section
/-!
DEFINITION. What the engines of a core share: their queues, the stop of a word (R251), RESUME and DISCARD (R252). Engines are numbered as in R185: 0 MATRIX, 1 VECTOR, 2 WHISK, 3 MOVER, 4 POUR.
-/
namespace Sys2Proof.Machine

/-- REASON of an engine. -/
def engReasonF (e : Nat) : FieldRef :=
  match e with
  | 0 => Fd.matrixStatus_REASON
  | 1 => Fd.vectorStatus_REASON
  | 2 => Fd.whiskStatus_REASON
  | 3 => Fd.moverStatus_REASON
  | _ => Fd.pourStatus_REASON

/-- VALID of an engine's fault register. -/
def engValidF (e : Nat) : FieldRef :=
  match e with
  | 0 => Fd.matrixFault_VALID
  | 1 => Fd.vectorFault_VALID
  | 2 => Fd.whiskFault_VALID
  | 3 => Fd.moverFault_VALID
  | _ => Fd.pourFault_VALID

/-- REASON of an engine's fault register. -/
def engFaultF (e : Nat) : FieldRef :=
  match e with
  | 0 => Fd.matrixFault_REASON
  | 1 => Fd.vectorFault_REASON
  | 2 => Fd.whiskFault_REASON
  | 3 => Fd.moverFault_REASON
  | _ => Fd.pourFault_REASON

/-- An engine's queue. -/
def CoreSt.queue (k : CoreSt) (e : Nat) : List EWord := k.queues.getD e []
/-- Set an engine's queue. -/
def State.setQueue (s : State) (c e : Nat) (q : List EWord) : State := s.modCore c fun k => { k with queues := k.queues.set e q }

/-- Whether an engine of a core may take its next word: the core is live, its twin not parked (R206), the engine not STOPPED. -/
def State.engReady (s : State) (c e : Nat) : Bool :=
  s.coreLive c && (s.twin c).mode != .parked && s.engState c e != 2

/-- The word at the head of an engine's queue, if it may be issued: a poisoned word is not (R660). -/
def State.headWord (s : State) (c e : Nat) : Option EWord := ((s.core c).queue e).head?.filter fun w => !w.bad

/-- Take the word at the head of an engine's queue: the engine runs. -/
def State.dropWord (s : State) (c e : Nat) : State := (s.setQueue c e ((s.core c).queue e).tail).setEngState c e 1


/-! The end of a word. -/

/-- An engine stops with a reason (R251, R317, R359, R402, R462): the capture, STOPPED, NUM_LAST and the mark on the command's part.
cap fills the fault register's other fields. -/
def State.engHalt (s : State) (c e reason mark : Nat) (cap : State → State) : State :=
  let s := if s.fon (engValidF e) c then s else ((cap s).fset (engFaultF e) reason c).fset (engValidF e) 1 c
  let s := (s.setEngState c e 2).fset (engReasonF e) reason c
  let s := if e < 3 then s.numEnd c e else s
  if mark = 0 then s else s.markPart c mark

/-- An engine stops with a reason and hands the twin ENGINE_ERROR. -/
def State.engStop (s : State) (c e reason mark : Nat) (cap : State → State) : State :=
  (s.engHalt c e reason mark cap).engineError c e reason

/-- An engine finishes its word: the count of words done, and IDLE when none waits. -/
def State.engDone (s : State) (c e : Nat) (f : FieldRef) : State :=
  let s := s.inc f c
  let s := if e < 3 then s.numEnd c e else s
  s.setEngState c e (if ((s.core c).queue e).isEmpty then 0 else 1)

/-- RESUME (1) or DISCARD (2) of an engine's CTL (R252); clear forgets the failed word. A write while it is not STOPPED is a
violation. -/
def State.engCtl (s : State) (src : Source) (c e cmd : Nat) (clear : CoreSt → CoreSt) : State :=
  if s.engState c e ≠ 2 then s.charge src else
  let s := s.modCore c clear
  if cmd = 2 then (s.setQueue c e []).setEngState c e 0
  else s.setEngState c e (if ((s.core c).queue e).isEmpty then 0 else 1)

end Sys2Proof.Machine
end

