-- ==== Sys2Proof/Machine/Matrix.lean ====
section
/-!
DEFINITION. The matrix arrays (chapter 6): the array word, its checks, its steps and its rounding; and the in-field test of the arrays
(R673 to R676).
-/
namespace Sys2Proof.Machine

/-- The fields of an array word (Table 6.3). -/
structure MmaWord where
  n : Nat
  m : Nat
  sat : Nat
  round : Nat
  pour : Bool
  sb : Bool
  sa : Bool
  acc : Bool
  dfmt : Nat
  bfmt : Nat
  afmt : Nat
  mask : Nat
  aoff : Nat
  ldd : Nat
  lda : Nat
  k : Nat
  doff : Nat
  boff : Nat
  tree : Nat
  scale : Nat
  bad : Bool
  deriving DecidableEq, Repr

/-- Read an array word; bad tells that OPC is reserved or a reserved bit is set. -/
def EWord.mma (w : EWord) : MmaWord :=
  let a := w.w0.toNat
  let c := w.w2.toNat
  let d := w.w3.toNat
  { n := bits a 63 48, m := bits a 47 32, sat := bits a 27 27, round := bits a 26 25, pour := bit a 24, sb := bit a 23, sa := bit a 22,
    acc := bit a 21, dfmt := bits a 19 16, bfmt := bits a 15 12, afmt := bits a 11 8, mask := w.w1.toNat, aoff := bits c 52 38 * 64,
    ldd := bits c 37 25 * 16, lda := bits c 24 12 * 16, k := bits c 11 0, doff := bits d 61 47 * 64, boff := bits d 46 32 * 64,
    tree := bits d 41 32, scale := bits d 31 0,
    bad := bits a 7 0 != 1 || bits a 31 28 != 0 || bit a 20 || bits c 63 53 != 0 || bits d 63 62 != 0 ||
      (bit a 24 && bits d 46 42 != 0) }

/-- The class of an operand format (Table 6.1): 0 the 16-bit, 1 the 8-bit, 2 the 6-bit, 3 the 4-bit class. -/
def fmtClass (f : Nat) : Nat :=
  match fmtBits f with
  | 16 => 0
  | 8 => 1
  | 6 => 2
  | _ => 3

/-- Elements per cell per beat. -/
def kbOf (cls : Nat) : Nat := if cls = 0 then 2 else if cls = 3 then 8 else 4
/-- Step bytes per feeder per beat. -/
def stepBytesOf (cls : Nat) : Nat := if cls = 2 then 24 else 32
/-- The K limit of a class. -/
def kmaxOf (cls : Nat) : Nat := if cls = 0 then 512 else if cls = 3 then 2048 else 1024

/-- Whether a format may be that of A or B (Table 6.2). -/
def okAB (f : Nat) : Bool := (decide (2 ≤ f) && decide (f ≤ 8)) || f == 10 || f == 11
/-- Whether a format may be that of D. -/
def okD (f : Nat) : Bool := (decide (1 ≤ f) && decide (f ≤ 5)) || f == 9 || f == 10

/-- Bytes of a result element. -/
def MmaWord.db (w : MmaWord) : Nat := fmtBits w.dfmt / 8
/-- The class of the operands. -/
def MmaWord.cls (w : MmaWord) : Nat := fmtClass w.afmt
/-- Bytes of a row of A (R228). -/
def MmaWord.ra (w : MmaWord) : Nat := (w.k * fmtBits w.afmt + 7) / 8
/-- Column blocks. -/
def MmaWord.colBlocks (w : MmaWord) : Nat := (w.n + 7) / 8
/-- Row blocks. -/
def MmaWord.rowBlocks (w : MmaWord) : Nat := (w.m + 7) / 8
/-- Bytes of a panel of k rows of a class, with or without block scales (R229). -/
def panelBytes (cls k : Nat) (scaled : Bool) : Nat :=
  up64 ((k + kbOf cls - 1) / kbOf cls * stepBytesOf cls + (if scaled then 8 * (k / 32) else 0))
/-- Bytes of a panel of B. -/
def MmaWord.panel (w : MmaWord) : Nat := panelBytes w.cls w.k w.sb
/-- Where the block scales of A begin (R230). -/
def MmaWord.saOff (w : MmaWord) : Nat := up64 (w.aoff + w.m * w.lda)
/-- Whether the products accumulate as integers (R237). -/
def MmaWord.intAcc (w : MmaWord) : Bool := isIntFmt w.afmt && !w.sa && !w.sb

/-- Whether [a, b) and the rescue frame overlap. -/
def overRescue (a b : Nat) : Bool := decide (a < 0x10000) && decide (0xFE00 < b)

/-- Whether rows of len bytes at a stride overlap the rescue frame. -/
def rowsOverRescue (off rows stride len : Nat) : Bool :=
  len != 0 && (if stride = 0 then overRescue off (off + len)
  else (List.range (min rows (0x10000 / stride + 1))).any fun r => overRescue (off + r * stride) (off + r * stride + len))

/-- The trees of the fold of a core. -/
def State.treesOf (s : State) (c : Nat) : List Tree := ((s.foldOfCore c).map fun f => (s.foldSec f).trees).getD []

/-- The arrays of a core that are available (R233). -/
def State.arrayAvail (s : State) (c : Nat) : Nat :=
  if !s.corePresent c then 0 else
  let out := s.reg .arrayOut c
  let v := (2 ^ 64 - 1) - out
  match (s.core c).test with
  | some a => if v.testBit a then v - 2 ^ a else v
  | none => v

/-- The arrays a word uses: the S' lowest-numbered of those it selects (R233). -/
def State.arraysFor (s : State) (c : Nat) (w : MmaWord) : List Nat :=
  let l := bitList 64 (w.mask.land (s.arrayAvail c))
  let g := 8 / w.db
  l.take (l.length / g * g)

/-- The checks of Table 6.7 on a word, in the order of their codes (R250). -/
def State.mmaFail (s : State) (c : Nat) (w : MmaWord) : Option Nat :=
  let work := w.m ≠ 0 ∧ w.n ≠ 0
  if w.bad then some 0x10
  else if !okAB w.afmt || !okAB w.bfmt || !okD w.dfmt then some 0x11
  else if fmtClass w.afmt ≠ fmtClass w.bfmt ∨ isIntFmt w.afmt ≠ isIntFmt w.bfmt ∨ ((w.sa || w.sb) ∧ w.cls = 0) ∨
      (isIntFmt w.dfmt ∧ !w.intAcc) then some 0x12
  else if kmaxOf w.cls < w.k ∨ ((w.sa || w.sb) ∧ w.k % 32 ≠ 0) then some 0x13
  else if work ∧ (s.arraysFor c w).isEmpty then some 0x14
  else if (w.m ≠ 0 ∧ w.k ≠ 0 ∧ w.lda < w.ra) ∨ (work ∧ (w.ldd < w.n * w.db ∨ w.ldd = 0 ∨ w.ldd % 64 ≠ 0)) then some 0x15
  else if work ∧ ((w.k ≠ 0 ∧ (0x200000 < w.aoff + (w.m - 1) * w.lda + w.ra ∨
        (w.sa ∧ 0x200000 < w.saOff + w.m * (w.k / 32)) ∨ (!w.pour ∧ 0x200000 < w.boff + w.colBlocks * w.panel))) ∨
      0x200000 < w.doff + (w.m - 1) * w.ldd + w.n * w.db ∨ rowsOverRescue w.doff w.m w.ldd (w.n * w.db)) then some 0x16
  else if w.pour ∧ work ∧ !((s.treesOf c).any fun t => t.id == w.tree && t.dests.testBit c) then some 0x17
  else none

/-- The blocks of a round that are computed: all of them, or those before a failed panel. -/
def MatSt.roundEnd (t : MatSt) (w : MmaWord) : Nat :=
  let hi := min ((t.round + 1) * t.arrays.length) w.colBlocks
  match t.limit with
  | some l => min hi l
  | none => hi

/-- The panels the blocks of the current round want. -/
def MatSt.wants (t : MatSt) (w : MmaWord) : Nat := t.roundEnd w - t.round * t.arrays.length

/-- Show whether the arrays wait at the start of a round for a poured panel not yet delivered (Table 6.6). -/
def State.noteWaitPour (s : State) (c : Nat) (w : MmaWord) : State :=
  let t := s.mat c
  s.fset Fd.matrixStatus_WAIT_POUR (b2n (w.pour && w.k != 0 && t.row == 0 && decide (t.panels.length < t.wants w))) c

/-- The MATRIX engine stops (R251) at a row and column block. The blocks its drain holds are those of earlier steps: they are written. -/
def State.matStop (s : State) (c reason mark row col array : Nat) : State :=
  let s := (s.matFlush c).modMat c fun _ => {}
  (s.fset Fd.matrixStatus_WAIT_POUR 0 c).engStop c 0 reason mark fun s =>
    ((s.fset Fd.matrixFault_ROW_BLOCK row c).fset Fd.matrixFault_COL_BLOCK col c).fset Fd.matrixFault_ARRAY array c

/-- The MATRIX engine takes its next word (R233, R241, R249): a word without work finishes at once. -/
def State.mmaStart (s : State) (c : Nat) : State :=
  if !s.engReady c 0 || (s.mat c).word.isSome then s else
  match s.headWord c 0 with
  | none => s
  | some e =>
    let w := e.mma
    let s := s.dropWord c 0
    match s.mmaFail c w with
    | some r => s.matStop c r 0 0 0 0
    | none =>
      if w.m = 0 ∨ w.n = 0 then s.engDone c 0 Fd.matrixCounts_WORDS_DONE
      else
        let s := s.modMat c fun _ => { word := some e, arrays := s.arraysFor c w }
        ((s.fset Fd.matrixStatus_ROUND 0 c).fset Fd.matrixStatus_ROW_BLOCK 0 c).noteWaitPour c w

/-- MMA (R233). -/
def execMma (core : CoreId) (s : State) : Host.Outcome State Fault Refusal := .next (s.mmaStart core)

/-! One step (R236 to R240). -/

/-- Element k of column j of a panel (R229). -/
def panelElem (f : Nat) (p : Bytes) (k j : Nat) : Nat :=
  let cls := fmtClass f
  let kb := kbOf cls
  elemAt p ((k / kb) * stepBytesOf cls * 8 + (j * kb + k % kb) * fmtBits f) (fmtBits f)

/-- The block scale of block b and column j of a panel of k rows. -/
def panelScale (f : Nat) (p : Bytes) (k b j : Nat) : Nat :=
  let cls := fmtClass f
  (p.getD ((k + kbOf cls - 1) / kbOf cls * stepBytesOf cls + 8 * b + j) 0).toNat

/-- Add to an FP32 accumulator with one rounding to nearest-even: flags and the new bits. A rounding between an operation's operands and its
result sets INEXACT and OVERFLOW; UNDERFLOW is of the result (Table 7.5). -/
def accAdd (a : Nat × Nat) (x : Num) : Nat × Nat :=
  let r := roundFloat 1 0 0 ((fp32 a.2).add 0 x)
  (a.1.lor (r.flags.land 5), r.bits)

/-- The floating-point accumulator of a cell (R236): flags and bits. kb is how many products one rounding takes; sc gives the factor of
a group. -/
def cellFloat (kb : Nat) (sc : Nat → Num) : Nat → List (Num × Num) → Nat → Nat × Nat → Nat × Nat
  | 0, _, _, a => a
  | _ + 1, [], _, a => a
  | n + 1, l, g, a =>
    let sum := (l.take kb).foldl (fun (x : Option Num) p => some (match x with | none => p.1.mul p.2 | some x => x.add 0 (p.1.mul p.2))) none
    cellFloat kb sc n (l.drop kb) (g + 1) (accAdd a ((sum.getD (zeroOf false)).mul (sc g)))

/-- Whether FP32 bits are an infinity. -/
def isInf32 (v : Nat) : Bool := v % 2 ^ 31 == 0x7F800000

/-- The result of one element (R238): its operands' elements, the scales of their blocks, and C, if the word adds. -/
def mmaElem (w : MmaWord) (a b : List Nat) (sa sb : List Nat) (c : Option Nat) : Res :=
  let av := a.map (decodeNum w.afmt)
  let bv := b.map (decodeNum w.bfmt)
  let cv := c.map (decodeNum w.dfmt)
  let pairs := av.zip bv
  if w.intAcc then
    let p : Int := ((a.zip b).map fun (x, y) => sext (fmtBits w.afmt) x * sext (fmtBits w.bfmt) y).foldl (· + ·) 0
    if isIntFmt w.dfmt then limitInt w.dfmt w.sat (p + sext (fmtBits w.dfmt) (c.getD 0))
    else
      let sp := (fp32 w.scale).mul (.ofInt p)
      finish w.dfmt w.round w.sat (fp32 w.scale :: cv.toList) (match cv with | some x => x.add w.round sp | none => sp)
  else
    let scaled := w.sa || w.sb
    let one (l : List Nat) (g : Nat) : Num := if l.isEmpty then .ofInt 1 else scaleNum (l.getD g 127)
    let (fl, acc) := cellFloat (if scaled then 32 else kbOf w.cls) (fun g => if scaled then (one sa g).mul (one sb g) else .ofInt 1)
      (pairs.length + 1) pairs 0 (0, 0)
    let sp := (fp32 w.scale).mul (fp32 acc)
    let ops := av ++ bv ++ sa.map scaleNum ++ sb.map scaleNum ++ fp32 w.scale :: cv.toList
    (finish w.dfmt w.round w.sat ops (match cv with | some x => x.add w.round sp | none => sp)).mark fl

/-- The elements of row r of A. -/
def MmaWord.rowElems (w : MmaWord) (b : Bytes) : List Nat := (List.range w.k).map fun k => elemAt b (k * fmtBits w.afmt) (fmtBits w.afmt)

/-- The results of one row over the columns from j0 up to j1, given the row's A, its scales, the panels of the round from column j0, and
the prior row of D. With K zero a word that adds rewrites the prior content (Table 6.5). -/
def mmaRow (w : MmaWord) (a sa : List Nat) (panels : List Bytes) (j0 j1 : Nat) (prior : Bytes) : List Res :=
  (List.range (j1 - j0)).map fun i =>
    let c := elemAt prior (i * 8 * w.db) (8 * w.db)
    if w.k = 0 then ⟨if w.acc then c else 0, 0, false, false⟩ else
    let p := panels.getD (i / 8) []
    let b := (List.range w.k).map fun k => panelElem w.bfmt p k (i % 8)
    let sb := if w.sb then (List.range (w.k / 32)).map fun g => panelScale w.bfmt p w.k g (i % 8) else []
    mmaElem w a b sa sb (if w.acc then some c else none)

/-- The panels of a round of a word whose B lies in the Pantry: none where one is poisoned. -/
def State.pantryPanels (s : State) (c : Nat) (w : MmaWord) (lo hi : Nat) : List (Option Bytes) :=
  (List.range (hi - lo)).map fun i =>
    let off := w.boff + (lo + i) * w.panel
    if s.rangePoison c off w.panel then none else some (s.pantryBytes c off w.panel)

/-- Whether the running step is the last of its word. -/
def MatSt.lastStep (t : MatSt) (w : MmaWord) : Bool := decide (w.rowBlocks ≤ t.row + 1) && decide (w.colBlocks ≤ (t.round + 1) * t.arrays.length)

/-- Move past a finished step (R234): the next row block, the next round, whose panels are in use now (R222), or the end of the word. -/
def State.stepNext (s : State) (c : Nat) (w : MmaWord) : State :=
  let t := s.mat c
  if t.row + 1 < w.rowBlocks then
    (s.modMat c fun t => { t with row := t.row + 1 }).fset Fd.matrixStatus_ROW_BLOCK (t.row + 1) c
  else match t.limit.filter fun l => decide (l ≤ (t.round + 1) * t.arrays.length) with
    | some l => s.matStop c 0x18 0 0 l 0
    | none =>
      if (t.round + 1) * t.arrays.length < w.colBlocks then
        let s := s.modMat c fun t => { t with row := 0, round := t.round + 1, panels := t.panels.drop t.arrays.length }
        ((s.fset Fd.matrixStatus_ROW_BLOCK 0 c).fset Fd.matrixStatus_ROUND (t.round + 1) c).noteWaitPour c w
      else (s.modMat c fun _ => {}).engDone c 0 Fd.matrixCounts_WORDS_DONE

/-- The step's work (R238, R240, R245): the A rows, their scales and C are read, then every row's results are formed. A poisoned
operand stops the word before anything of the step is written. The drain writes the results; with hold it still holds them, as it may but for
the word's last step (R222, R241). -/
def State.stepRun (s : State) (c : Nat) (w : MmaWord) (badArray : Option Nat) (hold : Bool) : State :=
  let t := s.mat c
  let lo := t.round * t.arrays.length
  let hi := t.roundEnd w
  let rows := (List.range (min 8 (w.m - t.row * 8))).map fun i => t.row * 8 + i
  let j0 := lo * 8
  let j1 := min (hi * 8) w.n
  let dOff (r : Nat) : Nat := w.doff + r * w.ldd + j0 * w.db
  let poison := rows.any fun r =>
    (w.k != 0 && (s.rangePoison c (w.aoff + r * w.lda) w.ra || (w.sa && s.rangePoison c (w.saOff + r * (w.k / 32)) (w.k / 32)))) ||
      (w.acc && s.rangePoison c (dOff r) ((j1 - j0) * w.db))
  if poison then s.matStop c 0x22 1 t.row lo 0 else
  match badArray.bind fun a => (t.arrays.zipIdx.find? fun (x, i) => x == a && decide (lo + i < hi)) with
  | some (a, i) =>
    let s := s.inc Fd.matrixCounts_RESIDUE_COUNT c
    (s.matStop c 0x20 2 t.row (lo + i) a).detectCore 4 c a
  | none =>
    let results (r : Nat) : List Res :=
      let a := w.rowElems (s.pantryBytes c (w.aoff + r * w.lda) (if w.k = 0 then 0 else w.ra))
      let sa := if w.sa then (s.pantryBytes c (w.saOff + r * (w.k / 32)) (w.k / 32)).map (·.toNat) else []
      let prior := if w.acc then s.pantryBytes c (dOff r) ((j1 - j0) * w.db) else []
      mmaRow w a sa t.panels j0 j1 prior
    let s := s.modMat c fun t => { t with drain := t.drain ++ [rows.map fun r => (dOff r, 8 * w.db, results r)] }
    (if hold && !t.lastStep w then s else s.matFlush c).stepNext c w

/-- Whether the MATRIX engine of a core may run on: a fence, a test of an array the word uses, or STOPPED holds it (R245, R248). -/
def State.matRuns (s : State) (c : Nat) : Bool :=
  s.coreLive c && s.engState c 0 == 1 &&
    match (s.core c).test with
    | some a => !(s.mat c).arrays.contains a
    | none => true

/-- One step of the running word (R234, R238, R244): at the start of a round the panels of the round are loaded; a poured panel not yet
delivered makes the round wait, and so does a drain that is to hold a fifth block. -/
def State.matStep (s : State) (c : Nat) (badArray : Option Nat) (hold : Bool) : State :=
  let t := s.mat c
  match t.word with
  | none => s
  | some e =>
    if !s.matRuns c then s else
    let w := e.mma
    let lo := t.round * t.arrays.length
    let hi := t.roundEnd w
    if hold && decide (4 ≤ t.drain.length) then s.fset Fd.matrixStatus_WAIT_DRAIN 1 c
    else if t.row ≠ 0 ∨ w.k = 0 then s.stepRun c w badArray hold
    else if w.pour then
      if t.panels.length < t.wants w then s else s.stepRun c w badArray hold
    else
      let ps := s.pantryPanels c w lo hi
      match (ps.zipIdx.find? fun (p, _) => p.isNone) with
      | some (_, i) => s.matStop c 0x22 1 0 (lo + i) 0
      | none => (s.modMat c fun t => { t with panels := ps.filterMap id }).stepRun c w badArray hold

/-- MATRIX_STEP_END (R238): with hold, the drain does not write the step's blocks yet. -/
def execMatrixStepEnd (core : CoreId) (badArray : Option (Fin 64)) (hold : Bool) (s : State) : Host.Outcome State Fault Refusal :=
  .next (s.matStep core (badArray.map (·.val)) hold)

/-- MATRIX_CTL RESUME (R252). -/
def execMatrixResume (src : Source) (core : CoreId) (s : State) : Host.Outcome State Fault Refusal :=
  if s.shut src then .next (s.turned .host) else
  .next (s.engCtl src core 0 1 fun k => { k with mat := {} })
/-- MATRIX_CTL DISCARD (R252). -/
def execMatrixDiscard (src : Source) (core : CoreId) (s : State) : Host.Outcome State Fault Refusal :=
  if s.shut src then .next (s.turned .host) else
  .next (s.engCtl src core 0 2 fun k => { k with mat := {} })

/-! In-field test (R673 to R676). -/

/-- When the n-th test of a core falls due (R673), in elapsed ns; n counts from 1. -/
def State.testDue (s : State) (c n : Nat) : Nat :=
  s.life.appliedAt + 1000000000 * ((n * 72 + c % 72) * (s.devSec.bistS - 1)) / (64 * 72)

/-- A test falls due (R673, R674, R675): a mapped-out array is skipped; a core that is not ACTIVE or is fenced, or has another array
under test, keeps the test waiting. -/
def State.testStart (s : State) (c : Nat) : State :=
  let n := nget 0 s.tests c
  if !s.hasImage || !bit s.devSec.policyFlags 2 || decide (s.elapsed < s.testDue c (n + 1)) then s
  else
    let a := n % 64
    let s' : State := { s with tests := nset s.tests c (n + 1) }
    if (s.reg .arrayOut c).testBit a then s'
    else if !s.coreLive c || (s.core c).test.isSome then s
    else s'.modCore c fun k => { k with test := some a }

/-- ARRAY_TEST_DUE (R673). -/
def execArrayTestDue (core : CoreId) (now : Nat) (s : State) : Host.Outcome State Fault Refusal := .next ((s.advance now).testStart core)

/-- A test ends (R674, R676): the array returns, the quarter's counts follow, and a failure is reported. -/
def State.testFinish (s : State) (c : Nat) (ok : Bool) : State :=
  match (s.core c).test with
  | none => s
  | some a =>
    let q := coreDie c
    let s := s.modCore c fun k => { k with test := none }
    let s := ((s.inc Fd.bistStatus_TESTS_DONE q).fset Fd.bistStatus_LAST_CORE (c % 72) q).fset Fd.bistStatus_LAST_ARRAY a q
    if ok then s else (s.inc Fd.bistStatus_FAILURES q).detectCore 5 c a

/-- ARRAY_TEST_END (R674). -/
def execArrayTestEnd (core : CoreId) (ok : Bool) (s : State) : Host.Outcome State Fault Refusal := .next (s.testFinish core ok)

end Sys2Proof.Machine
end

