-- ==== Sys2Proof/Machine/Vector.lean ====
section
/-!
DEFINITION. The vector engine (chapter 8): the vector word, its checks, its operations, reductions and summaries.
-/
namespace Sys2Proof.Machine

/-- An operand of a vector word: mode (Table 8.1), format, offset field. -/
structure VecOp where
  mode : Nat
  fmt : Nat
  off : Nat
  deriving DecidableEq, Repr

/-- The fields of a vector word (Table 8.2). -/
structure VecWord where
  len : Nat
  a : VecOp
  b : VecOp
  c : VecOp
  dvreg : Bool
  sat : Nat
  round : Nat
  dfmt : Nat
  opc : Nat
  summary : Nat
  ldd : Nat
  lda : Nat
  doff : Nat
  imm : Nat
  rows : Nat
  rsv : Bool
  deriving DecidableEq, Repr

/-- Read a vector word. C is read in D_FMT (R297), or as INT64 by MASKPOS. -/
def EWord.vec (w : EWord) : VecWord :=
  let x := w.w0.toNat
  let y := w.w1.toNat
  let z := w.w2.toNat
  let v := w.w3.toNat
  { len := bits x 63 32, a := ⟨bits x 25 24, bits x 11 8, bits y 16 0⟩, b := ⟨bits x 27 26, bits x 15 12, bits y 33 17⟩,
    c := ⟨bits x 29 28, if bits x 7 0 = 0x45 then 12 else bits x 19 16, bits y 50 34⟩, dvreg := bit x 23, sat := bits x 22 22,
    round := bits x 21 20, dfmt := bits x 19 16, opc := bits x 7 0, summary := bits y 54 51, ldd := bits z 50 34, lda := bits z 33 17,
    doff := bits z 16 0, imm := bits v 63 32, rows := bits v 15 0,
    rsv := bits x 31 30 != 0 || bits y 63 55 != 0 || bits z 63 51 != 0 || bits v 31 16 != 0 }

/-- Whether an opcode is defined (Table 8.3). -/
def vecOpc (o : Nat) : Bool :=
  (decide (1 ≤ o) && decide (o ≤ 0x14)) || (decide (0x18 ≤ o) && decide (o ≤ 0x1A)) || (decide (0x20 ≤ o) && decide (o ≤ 0x22)) ||
    (decide (0x30 ≤ o) && decide (o ≤ 0x34)) || (decide (0x40 ≤ o) && decide (o ≤ 0x45))

/-- Whether an opcode reads A. -/
def vecUsesA (o : Nat) : Bool := o != 0x40
/-- Whether an opcode reads B. -/
def vecUsesB (o : Nat) : Bool :=
  (decide (1 ≤ o) && decide (o ≤ 7)) || (decide (0x10 ≤ o) && decide (o ≤ 0x1A)) || o == 0x40 || (decide (0x43 ≤ o) && decide (o ≤ 0x45))
/-- Whether an opcode reads C. -/
def vecUsesC (o : Nat) : Bool := o == 4 || o == 0x1A || o == 0x45
/-- Whether an opcode uses IMM. -/
def vecUsesImm (o : Nat) : Bool := o == 0x21 || o == 0x22 || (decide (0x40 ≤ o) && decide (o ≤ 0x42))
/-- Whether an opcode is a reduction. -/
def vecReduces (o : Nat) : Bool := decide (0x30 ≤ o) && decide (o ≤ 0x34)

/-- Whether a vector format code is defined (R296). -/
def vecFmt (f : Nat) : Bool := decide (1 ≤ f) && decide (f ≤ 12)

/-- Whether an operand's unused fields, or the reserved bits of a register's number, are nonzero. -/
def VecOp.bad (p : VecOp) (used : Bool) (fmtField : Nat) : Bool :=
  if used then decide (2 ≤ p.mode) && decide (64 ≤ p.off) else p.mode != 0 || p.off != 0 || fmtField != 0

/-- BAD_WORD (Table 8.8, R298): the fields an opcode does not use are zero. -/
def VecWord.badWord (w : VecWord) : Bool :=
  !vecOpc w.opc || w.rsv || w.a.bad (vecUsesA w.opc) w.a.fmt || w.b.bad (vecUsesB w.opc) w.b.fmt || w.c.bad (vecUsesC w.opc) 0 ||
    (!vecUsesImm w.opc && w.imm != 0) || (w.opc == 0x40 && w.lda != 0) || (w.dvreg && decide (64 ≤ w.doff)) || decide (5 < w.summary) ||
    (w.opc == 0x22 && w.round != 0)

/-- BAD_FORMAT. -/
def VecWord.badFormat (w : VecWord) : Bool :=
  (vecUsesA w.opc && !vecFmt w.a.fmt) || (vecUsesB w.opc && !vecFmt w.b.fmt) || !vecFmt w.dfmt

/-- Whether the used formats are all floating-point, or all integer. -/
def VecWord.oneKind (w : VecWord) (float : Bool) : Bool :=
  isFloat w.a.fmt == float && (!vecUsesB w.opc || isFloat w.b.fmt == float) && isFloat w.dfmt == float

/-- FORMAT_MIX (Table 8.3, R299, R300, R306). -/
def VecWord.badMix (w : VecWord) : Bool :=
  let o := w.opc
  let fi := w.oneKind true || w.oneKind false
  if o ≤ 3 ∨ o = 6 ∨ o = 7 ∨ o = 8 ∨ o = 9 then !fi
  else if o = 4 ∨ o = 5 ∨ (0x0A ≤ o ∧ o ≤ 0x0F) then !w.oneKind true
  else if 0x10 ≤ o ∧ o ≤ 0x14 then !w.oneKind false
  else if o ≤ 0x20 then false
  else if o = 0x21 then !(isFloat w.a.fmt && decide (4 ≤ w.dfmt) && decide (w.dfmt ≤ 8) && w.a.mode == 0 && !w.dvreg)
  else if o = 0x22 then !(decide (4 ≤ w.a.fmt) && decide (w.a.fmt ≤ 8) && decide (w.dfmt ≤ 3) && w.a.mode == 0 && !w.dvreg)
  else if o = 0x33 ∨ o = 0x34 then !w.oneKind true
  else if o ≤ 0x32 then !fi
  else if o = 0x40 then !(w.b.mode == 3 && w.b.fmt == 12 && w.dfmt == 12)
  else if o = 0x41 ∨ o = 0x42 then !(w.a.fmt == 12 && w.dfmt == 12)
  else if o = 0x43 ∨ o = 0x44 then !(w.a.fmt == 12 && w.a.mode != 1 && w.b.fmt == 1 && isFloat w.dfmt)
  else !(isFloat w.a.fmt && isFloat w.dfmt && w.b.fmt == 12 && w.c.mode != 1)

/-- Elements a register holds (R295). -/
def vregCap (f : Nat) : Nat := if fmtBits f = 6 then 340 else 2048 / fmtBits f

/-- Bytes of a row of elements. -/
def rowBytes (f n : Nat) : Nat := (n * fmtBits f + 7) / 8

/-- The operands that are read row by row: none of them a row operand (R300). -/
def VecWord.rowOps (w : VecWord) : List VecOp :=
  (if vecUsesA w.opc && !(w.opc == 0x43 || w.opc == 0x44) then [w.a] else []) ++ (if vecUsesB w.opc then [w.b] else []) ++
    (if vecUsesC w.opc && w.opc != 0x45 then [w.c] else [])

/-- The row operand, if the opcode has one. -/
def VecWord.posOp (w : VecWord) : Option VecOp :=
  if w.opc = 0x43 ∨ w.opc = 0x44 then some w.a else if w.opc = 0x45 then some w.c else none

/-- Elements of D in a row. -/
def VecWord.dlen (w : VecWord) : Nat := if vecReduces w.opc then 1 else w.len

/-- Where the scale area begins (R306). -/
def VecWord.scaleOff (w : VecWord) : Nat :=
  if w.opc = 0x21 then up64 (w.doff * 16 + w.rows * (w.ldd * 16)) else up64 (w.a.off * 16 + w.rows * (w.lda * 16))

/-- The first Pantry byte and the bytes an operand takes, if it lies in the Pantry. -/
def VecWord.extent (w : VecWord) (p : VecOp) : Option (Nat × Nat) :=
  if p.mode = 0 then some (p.off * 16, (w.rows - 1) * (w.lda * 16) + rowBytes p.fmt w.len)
  else if p.mode = 1 then some (p.off * 16, rowBytes p.fmt w.len) else none

/-- Every Pantry range the word reads. -/
def VecWord.reads (w : VecWord) : List (Nat × Nat) :=
  w.rowOps.filterMap w.extent ++ (match w.posOp with | some p => if p.mode = 0 then [(p.off * 16, 8 * w.rows)] else [] | none => []) ++
    (if w.opc = 0x22 then [(w.scaleOff, w.rows * w.len / 32)] else [])

/-- The Pantry range of D. -/
def VecWord.dExtent (w : VecWord) : Nat × Nat := (w.doff * 16, (w.rows - 1) * (w.ldd * 16) + rowBytes w.dfmt w.dlen)

/-- The checks of Table 8.8, in the order of their codes. -/
def VecWord.fail (w : VecWord) : Option Nat :=
  let work := w.len ≠ 0 ∧ w.rows ≠ 0
  let long (e : Nat × Nat) : Bool := decide (0x200000 < e.1 + e.2)
  if w.badWord then some 0x10
  else if w.badFormat then some 0x11
  else if w.badMix then some 0x12
  else if (w.opc = 0x21 ∨ w.opc = 0x22) ∧ w.len % 32 ≠ 0 then some 0x13
  else if 1 < w.rows ∧ ((w.rowOps.any (fun p => p.mode == 0 && (w.lda == 0 || decide (w.lda * 16 < rowBytes p.fmt w.len)))) ∨
      (w.lda = 0 ∧ w.posOp.any (fun p => p.mode == 0)) ∨
      (!w.dvreg ∧ (w.ldd = 0 ∨ w.ldd * 16 < rowBytes w.dfmt w.dlen))) then some 0x15
  else if work ∧ (w.reads.any long ∨ (!w.dvreg ∧ (long w.dExtent ∨ rowsOverRescue (w.doff * 16) w.rows (w.ldd * 16) (rowBytes w.dfmt w.dlen))) ∨
      (w.opc = 0x21 ∧ (long (w.scaleOff, w.rows * w.len / 32) ∨ overRescue w.scaleOff (w.scaleOff + w.rows * w.len / 32)))) then some 0x16
  else if work ∧ w.dvreg ∧ vregCap w.dfmt < w.rows * w.dlen then some 0x17
  else if ((w.opc = 0x41 ∨ w.opc = 0x42) ∧ w.imm = 0) ∨
      ((w.opc = 0x21 ∨ w.opc = 0x22) ∧ ((fp32 w.imm).isZero ∨ (fp32 w.imm).isInf ∨ (fp32 w.imm).isNan)) then some 0x19
  else none

/-! Reading operands (R297, R300, R312). -/

/-- What a word reads from: the state when it started, the state as it is being written, and the choice between them for each operand
granule where they differ (R312). -/
structure VecEnv where
  old : State
  cur : State
  pick : Nat → Bool

/-- One byte of an operand in the Pantry. -/
def VecEnv.byte (v : VecEnv) (c off : Nat) : Byte :=
  let a := v.old.pantryByte c off
  let b := v.cur.pantryByte c off
  if a = b then a else if v.pick (off / 64) then b else a

/-- A v register of a core. -/
def State.vreg (s : State) (c n : Nat) : Bytes := nget (List.replicate 256 0) (s.core c).vregs n

/-- One byte of a v register. -/
def VecEnv.vbyte (v : VecEnv) (c n i : Nat) : Byte :=
  let a := (v.old.vreg c n).getD i 0
  let b := (v.cur.vreg c n).getD i 0
  if a = b then a else if v.pick (i / 64) then b else a

/-- n bits at a bit position of a byte source. -/
def bitsFrom (f : Nat → Byte) (pos n : Nat) : Nat :=
  leNat ((List.range ((pos + n - 1) / 8 - pos / 8 + 1)).map fun i => f (pos / 8 + i)) / 2 ^ (pos % 8) % 2 ^ n

/-- Element (r, i) of an operand (Table 8.1). -/
def VecEnv.elem (v : VecEnv) (c : Nat) (w : VecWord) (p : VecOp) (r i : Nat) : Nat :=
  let n := fmtBits p.fmt
  match p.mode with
  | 0 => bitsFrom (fun k => v.byte c (p.off * 16 + r * (w.lda * 16) + k)) (i * n) n
  | 1 => bitsFrom (fun k => v.byte c (p.off * 16 + k)) (i * n) n
  | 2 => bitsFrom (v.vbyte c p.off) ((r * w.len + i) % vregCap p.fmt * n) n
  | _ => bitsFrom (v.vbyte c p.off) 0 n

/-- The row operand's value P (R300). -/
def VecEnv.pos (v : VecEnv) (c : Nat) (p : VecOp) (r : Nat) : Int :=
  sext 64 (match p.mode with
    | 0 => bitsFrom (fun k => v.byte c (p.off * 16 + 8 * r + k)) 0 64
    | 2 => bitsFrom (v.vbyte c p.off) (r % 32 * 64) 64
    | _ => bitsFrom (v.vbyte c p.off) 0 64)

/-! Results (R301 to R307). -/

/-- The value of an element as a result of D_FMT (CVT, R274, Table 7.4). -/
def cvt (sf df round sat v : Nat) : Res :=
  let x := decodeNum sf v
  if isFloat df then finish df round sat [x] x
  else if isFloat sf then (toInt df round x).mark (nanFlags [x] x)
  else limitInt df sat (sext (fmtBits sf) v)

/-- A floating-point operation of Table 8.3 on its operands' values. -/
def vecFloat (o round : Nat) (x y z : Num) : Num :=
  match o with
  | 0x01 => x.add round y
  | 0x02 => x.add round y.negate
  | 0x03 => x.mul y
  | 0x04 => (x.mul y).add round z
  | 0x05 => x.div y
  | 0x06 => x.min2 y
  | 0x07 => x.max2 y
  | 0x08 => x.abs
  | 0x09 => x.negate
  | 0x0A => numSqrt x
  | 0x0B => (Num.ofInt 1).div x
  | 0x0C => numRsqrt x
  | 0x0D => numExp2 x
  | 0x0E => numLog2 x
  | _ => numTanh x

/-- An integer operation of Table 8.3: the exact result. -/
def vecInt (o : Nat) (x y : Int) : Int :=
  let u := unsext 64 x
  let v := unsext 64 y
  match o with
  | 0x01 => x + y
  | 0x02 => x - y
  | 0x03 => x * y
  | 0x06 => min x y
  | 0x07 => max x y
  | 0x08 => if x < 0 then -x else x
  | 0x09 => -x
  | 0x10 => sext 64 (u.land v)
  | 0x11 => sext 64 (u.lor v)
  | 0x12 => sext 64 (u.xor v)
  | 0x13 => x * 2 ^ (v % 64)
  | _ => x / 2 ^ (v % 64)

/-- An element-wise result: raw elements of A, B and C, the row operand, and the element's index r × LEN + i. -/
def VecWord.elemRes (w : VecWord) (x y z : Nat) (p : Int) (idx : Nat) : Res :=
  let o := w.opc
  let a := decodeNum w.a.fmt x
  let b := decodeNum w.b.fmt y
  let cc := decodeNum w.c.fmt z
  let ai := sext (fmtBits w.a.fmt) x
  let bi := sext (fmtBits w.b.fmt) y
  let used := (if vecUsesA o then [a] else []) ++ (if vecUsesB o then [b] else []) ++ (if vecUsesC o then [cc] else [])
  let nan := if used.any Num.isNan then 16 else 0
  if o ≤ 0x0F then
    (if isFloat w.dfmt then finish w.dfmt w.round w.sat used (vecFloat o w.round a b cc) else limitInt w.dfmt w.sat (vecInt o ai bi))
  else if o ≤ 0x14 then limitInt w.dfmt w.sat (vecInt o ai bi)
  else if o = 0x18 ∨ o = 0x19 then
    let t := !(a.isNan || b.isNan) && (if o = 0x18 then a.lt b else !a.lt b && !b.lt a)
    ⟨if isFloat w.dfmt then (roundFloat w.dfmt 0 0 (.ofInt (b2n t))).bits else b2n t, nan, false, false⟩
  else if o = 0x1A then (if cc.isZero then cvt w.b.fmt w.dfmt w.round w.sat y else cvt w.a.fmt w.dfmt w.round w.sat x).mark nan
  else if o = 0x20 then cvt w.a.fmt w.dfmt w.round w.sat x
  else if o = 0x40 then limitInt 12 w.sat (bi + (idx : Int) * sext 32 w.imm)
  else if o = 0x41 then limitInt 12 w.sat (ai / (w.imm : Int))
  else if o = 0x42 then limitInt 12 w.sat (ai % (w.imm : Int))
  else if o = 0x43 ∨ o = 0x44 then finish w.dfmt w.round w.sat [b] (numPos (o == 0x43) p b)
  else if bi ≤ p then cvt w.a.fmt w.dfmt w.round w.sat x
  else (roundFloat w.dfmt w.round w.sat (.inf true)).mark nan

/-- One FP32 addition of a reduction (R303): flags so far, and the sum. -/
def sumStep (a b : Nat × Num) : Nat × Num :=
  let r := roundFloat 1 0 0 (a.2.add 0 b.2)
  ((a.1.lor b.1).lor (r.flags.land 5), fp32 r.bits)

/-- Sums of neighbouring pairs. -/
def pairSums : List (Nat × Num) → List (Nat × Num)
  | a :: b :: l => sumStep a b :: pairSums l
  | l => l

/-- The sum of a group of 32 elements as a binary tree. -/
def groupSum (l : List Num) : Nat × Num :=
  let l := (l ++ List.replicate (32 - l.length) (zeroOf false)).map fun x => (0, x)
  (pairSums (pairSums (pairSums (pairSums (pairSums l))))).headD (0, zeroOf false)

/-- The ordered sum of a row (R303). -/
def rowSum : Nat → Nat × Num → List Num → Nat × Num
  | 0, acc, _ => acc
  | n + 1, acc, l => if l.isEmpty then acc else rowSum n (sumStep acc (groupSum (l.take 32))) (l.drop 32)

/-- A reduction of a row (R303). -/
def VecWord.reduce (w : VecWord) (l : List Nat) : Res :=
  let v := l.map (decodeNum w.a.fmt)
  if isFloat w.a.fmt then
    let pick (g : Num → Num → Num) (v : List Num) : Num := match v with | [] => zeroOf false | x :: xs => xs.foldl g x
    match w.opc with
    | 0x31 => finish w.dfmt w.round w.sat v (pick Num.max2 v)
    | 0x32 => finish w.dfmt w.round w.sat v (pick Num.min2 v)
    | 0x33 => finish w.dfmt w.round w.sat v (pick Num.max2 (v.map Num.abs))
    | o =>
      let (fl, x) := rowSum (v.length + 1) (0, zeroOf false) (if o = 0x34 then v.map fun x => x.mul x else v)
      (finish w.dfmt w.round w.sat v x).mark fl
  else
    let i := l.map (sext (fmtBits w.a.fmt))
    let pick (g : Int → Int → Int) : Int := match i with | [] => 0 | x :: xs => xs.foldl g x
    match w.opc with
    | 0x31 => limitInt w.dfmt w.sat (pick max)
    | 0x32 => limitInt w.dfmt w.sat (pick min)
    | _ => limitInt w.dfmt w.sat (i.foldl (· + ·) 0)

/-- The largest exponent of a format that QUANT aims at (R307). -/
def quantEmax (f : Nat) : Int := if f = 4 then 15 else if f = 5 then 8 else if f = 6 then 4 else 2

/-- The scale byte of a block (R307). -/
def quantScale (f : Nat) (t : Num) (l : List Num) : Nat :=
  if l.any Num.isNan then 0xFF else
  match (l.foldl (fun m x => m.max2 x.abs) (zeroOf false)).div t.abs with
  | .nan => 0xFF
  | .inf _ => 254
  | .q n d _ => if n = 0 then 127 else (max 0 (min 254 (ilog2 n.natAbs d - quantEmax f + 127))).toNat

/-- The elements and scale bytes of a row of QUANT (R307). -/
def VecWord.quantRow (w : VecWord) (l : List Nat) : List Res × List Nat :=
  let t := fp32 w.imm
  let blocks := (List.range (w.len / 32)).map fun b => (l.drop (32 * b)).take 32 |>.map (decodeNum w.a.fmt)
  let es := blocks.map (quantScale w.dfmt t)
  ((blocks.zip es).flatMap fun (xs, e) => xs.map fun x =>
    let sc := scaleNum e
    finish w.dfmt w.round w.sat [x, sc] (if sc.isNan then .nan else x.div (t.mul sc)), es)

/-- The summary of the elements written (Table 8.5). -/
def vecSummary (code f : Nat) (l : List Nat) : Word :=
  let v := l.map (decodeNum f)
  let ok := v.filter fun x => !x.isNan
  let best (g : Num → Num → Num) : Option Num := match ok with | [] => none | x :: xs => some (xs.foldl g x)
  let show' (x : Option Num) (none' : Nat) : Nat :=
    match x with
    | none => none'
    | some x => if isFloat f then (roundFloat 1 0 0 x).bits else match x with | .q n _ _ => unsext 64 n | _ => 0
  BitVec.ofNat 64 (match code with
    | 1 => show' (best Num.max2) (if isFloat f then 0xFF800000 else 2 ^ 63)
    | 2 => show' (best Num.min2) (if isFloat f then 0x7F800000 else 2 ^ 63 - 1)
    | 3 => (v.filter fun x => !x.isZero).length
    | 4 => (v.filter Num.isNan).length
    | _ =>
      let es := ok.filterMap fun x => match x with | .q n d _ => if n = 0 then none else some (ilog2 n.natAbs d) | _ => none
      match es with | [] => 2 ^ 63 | e :: es => unsext 64 (es.foldl max e))

/-! The word (R308 to R317). -/

/-- One piece of a word's work: row, first element, end element, D granule in the row. -/
structure VecPiece where
  r : Nat
  i0 : Nat
  i1 : Nat
  g : Nat
  deriving DecidableEq, Repr

/-- The pieces of a row: the elements of each D granule in turn. A row of 6-bit elements, a register's row, a reduction and QUANT are one
piece. -/
def VecWord.pieces (w : VecWord) (r : Nat) : List VecPiece :=
  let n := fmtBits w.dfmt
  if w.dvreg ∨ n = 6 ∨ vecReduces w.opc ∨ w.opc = 0x21 then [⟨r, 0, w.len, 0⟩]
  else
    let start := w.doff * 16 + r * (w.ldd * 16)
    let last := start + rowBytes w.dfmt w.len - 1
    (List.range (last / 64 - start / 64 + 1)).map fun g =>
      let lo := max start ((start / 64 + g) * 64) - start
      let hi := min (last + 1) ((start / 64 + g) * 64 + 64) - start
      ⟨r, lo * 8 / n, min w.len (hi * 8 / n), g⟩

/-- The Pantry bytes a piece reads. -/
def VecWord.pieceReads (w : VecWord) (p : VecPiece) : List (Nat × Nat) :=
  let span (o : VecOp) : List (Nat × Nat) :=
    let n := fmtBits o.fmt
    let base := o.off * 16 + (if o.mode = 0 then p.r * (w.lda * 16) else 0)
    if o.mode ≤ 1 ∧ p.i0 < p.i1 then [(base + p.i0 * n / 8, (p.i1 * n + 7) / 8 - p.i0 * n / 8)] else []
  w.rowOps.flatMap span ++ (match w.posOp with | some o => if o.mode = 0 then [(o.off * 16 + 8 * p.r, 8)] else [] | none => []) ++
    (if w.opc = 0x22 then [(w.scaleOff + p.r * w.len / 32 + p.i0 / 32, (p.i1 + 31) / 32 - p.i0 / 32)] else [])

/-- The results of a piece, and the scale bytes of a row of QUANT. -/
def VecWord.compute (w : VecWord) (v : VecEnv) (c : Nat) (p : VecPiece) : List Res × List Nat :=
  let idx := (List.range (p.i1 - p.i0)).map (p.i0 + ·)
  if vecReduces w.opc then ([w.reduce (idx.map (v.elem c w w.a p.r))], [])
  else if w.opc = 0x21 then w.quantRow (idx.map (v.elem c w w.a p.r))
  else if w.opc = 0x22 then
    (idx.map fun i =>
      let x := decodeNum w.a.fmt (v.elem c w w.a p.r i)
      let sc := scaleNum (v.byte c (w.scaleOff + p.r * w.len / 32 + i / 32)).toNat
      finish w.dfmt 0 w.sat [x, sc] ((x.mul sc).mul (fp32 w.imm)), [])
  else
    let pos := match w.posOp with | some o => v.pos c o p.r | none => 0
    (idx.map fun i => w.elemRes
      (if vecUsesA w.opc && !(w.opc == 0x43 || w.opc == 0x44) then v.elem c w w.a p.r i else 0)
      (if vecUsesB w.opc then v.elem c w w.b p.r i else 0)
      (if vecUsesC w.opc && w.opc != 0x45 then v.elem c w w.c p.r i else 0) pos (p.r * w.len + i), [])

/-- Replace n-bit elements of a register from an element index. -/
def vregPut (b : Bytes) (n idx : Nat) (l : List Nat) : Bytes :=
  leBytes 256 ((l.zipIdx.foldl (fun v (x, i) => putBits v ((idx + i) * n + n - 1) ((idx + i) * n) x) (leNat b)))

/-- Write the results of a piece (R297, R304). -/
def VecWord.write (w : VecWord) (c : Nat) (p : VecPiece) (l : List Res) (sc : List Nat) (s : State) : State :=
  let n := fmtBits w.dfmt
  if w.dvreg then
    let i := p.r * w.dlen + p.i0
    let s := s.modCore c fun k =>
      { k with vregs := nset k.vregs w.doff (vregPut (nget (List.replicate 256 0) k.vregs w.doff) n i (l.map (·.bits))) }
    s.record c 1 l
  else
    let off := w.doff * 16 + p.r * (w.ldd * 16) + p.i0 * n / 8
    let s := s.writeResults c 1 off n l
    if w.opc = 0x21 then s.pantryWrite c (w.scaleOff + p.r * w.len / 32) (sc.map (BitVec.ofNat 8)) fun _ _ s => s else s

/-- The VECTOR engine stops (R317). -/
def State.vecStop (s : State) (c reason mark : Nat) (p : VecPiece) : State :=
  s.engStop c 1 reason mark fun s => (s.fset Fd.vectorFault_ROW p.r c).fset Fd.vectorFault_GRANULE p.g c

/-- How a run of a word's pieces ends: with the elements written, at a piece whose operand is poisoned, or at one whose self-check fails. -/
inductive VecEnd where
  | written (l : List Nat)
  | poisoned (p : VecPiece)
  | faulty (p : VecPiece)
  deriving DecidableEq, Repr

/-- Run the pieces in order; bad is how many are written before a self-check fails, if one does (R316). -/
def vecRun (w : VecWord) (c : Nat) (old : State) (ctr : Nat) (bad : Option Nat) :
    List VecPiece → Nat → List Nat → State → State × VecEnd
  | [], _, acc, s => (s, .written acc)
  | p :: ps, k, acc, s =>
    if (w.pieceReads p).any fun e => s.rangePoison c e.1 e.2 then (s, .poisoned p)
    else if bad = some k then (s, .faulty p)
    else
      let v : VecEnv := ⟨old, s, fun g => (Config.free (ctr + k)).toNat.testBit (g % 64)⟩
      let (l, sc) := w.compute v c p
      vecRun w c old ctr bad ps (k + 1) (acc ++ l.map (·.bits)) (w.write c p l sc s)

/-- Whether D overlaps an operand in the Pantry, or is an operand's register. -/
def VecWord.overlaps (w : VecWord) : Bool :=
  if w.dvreg then (w.rowOps ++ w.posOp.toList).any (fun p => decide (2 ≤ p.mode) && p.off == w.doff)
  else w.reads.any fun e => decide (e.1 < w.dExtent.1 + w.dExtent.2) && decide (w.dExtent.1 < e.1 + e.2)

/-- Deliver a summary (R309). -/
def State.putSum (s : State) (c q : Nat) (v : Word) : State :=
  s.modCore c fun k => { k with sums := k.sums.set q (k.sums.getD q [] ++ [v]) }

/-- A self-check of the vector engine fails (R316): the word stops at a piece, and the class is reported. -/
def State.vecFault (s : State) (c : Nat) (parity : Bool) (p : VecPiece) : State :=
  if parity then ((s.inc Fd.vectorCounts_PARITY_COUNT c).vecStop c 0x21 2 p).detectCore 7 c 0x21
  else ((s.inc Fd.vectorCounts_RESIDUE_COUNT c).vecStop c 0x20 2 p).detectCore 6 c 0x20

/-- The word has written its last D granule (R309): its summary enters the queue and it finishes; while the queue is full the summary, and the
word with it, waits (R187). -/
def State.vecEnd (s : State) (c : Nat) (sum : Option Word) : State :=
  match sum with
  | none => s.engDone c 1 Fd.vectorCounts_WORDS_DONE
  | some v =>
    if 16 ≤ ((s.core c).sums.getD 0 []).length then s.modCore c fun k => { k with vecSum := some v }
    else (s.putSum c 0 v).engDone c 1 Fd.vectorCounts_WORDS_DONE

/-- A summary has left a queue of a core: one that waits for room there enters it. -/
def State.sumRoom (s : State) (c : Nat) : State :=
  match (s.core c).vecSum with
  | none => s
  | some v => (s.modCore c fun k => { k with vecSum := none }).vecEnd c (some v)

/-- The VECTOR engine takes and runs its next word (R301 to R317). A fault strikes after so many granules as `after` says; a parity fault with
none written is found as the word is taken, any other as a granule or, past the last, the summary is formed. -/
def State.vecWord (s : State) (c : Nat) (fault : EngineFault) (after : Nat) : State :=
  if !s.engReady c 1 || (s.core c).vecSum.isSome then s else
  match s.headWord c 1 with
  | none => s
  | some e =>
    let w := e.vec
    let s := s.dropWord c 1
    let first : VecPiece := ⟨0, 0, 0, 0⟩
    if fault = .parity ∧ after = 0 then s.vecFault c true first else
    match w.fail with
    | some r => s.vecStop c r 0 first
    | none =>
      let ps := if w.len = 0 then [] else (List.range w.rows).flatMap w.pieces
      let ctr := s.freeCtr
      let s := if w.overlaps then { s with freeCtr := ctr + ps.length } else s
      let last := if w.summary = 0 then ps.length - 1 else ps.length
      let strikes := fault = .residue ∨ fault = .parity
      let (s', r) := vecRun w c s ctr (if strikes then some (min after last) else none) ps 0 [] s
      match r with
      | .poisoned p => (s'.fset Fd.vectorStatus_ROW p.r c).vecStop c 0x22 1 p
      | .faulty p => (s'.fset Fd.vectorStatus_ROW p.r c).vecFault c (fault == .parity) p
      | .written l =>
        let s := s'.fset Fd.vectorStatus_ROW (w.rows - 1) c
        if strikes ∧ w.summary ≠ 0 then s.vecFault c (fault == .parity) (ps.getLastD first)
        else s.vecEnd c (if w.summary = 0 then none else some (vecSummary w.summary w.dfmt l))

/-- VECTOR_WORD (R301). -/
def execVectorWord (core : CoreId) (fault : EngineFault) (after : Nat) (s : State) : Host.Outcome State Fault Refusal :=
  .next (s.vecWord core fault after)
/-- VECTOR_CTL RESUME (R317). -/
def execVectorResume (src : Source) (core : CoreId) (s : State) : Host.Outcome State Fault Refusal :=
  if s.shut src then .next (s.turned .host) else .next (s.engCtl src core 1 1 id)
/-- VECTOR_CTL DISCARD (R317). -/
def execVectorDiscard (src : Source) (core : CoreId) (s : State) : Host.Outcome State Fault Refusal :=
  if s.shut src then .next (s.turned .host) else .next (s.engCtl src core 1 2 id)

end Sys2Proof.Machine
end

