-- ==== Sys2Proof/Machine/Mover.lean ====
section
/-!
DEFINITION. The mover (chapter 10): COPY and FILL words, their pieces, counted writes, and the mover's stops.
-/
namespace Sys2Proof.Machine

/-- The fields of a mover word (Table 10.3). -/
structure MovWord where
  opc : Nat
  len : Nat
  arr : Nat
  src : Nat
  dst : Nat
  done : Nat
  rsv : Bool
  deriving DecidableEq, Repr

/-- Read a mover word. -/
def EWord.mov (w : EWord) : MovWord :=
  let a := w.w0.toNat
  let d := w.w3.toNat
  { opc := bits a 7 0, len := bits a 63 24, arr := bits a 14 8, src := w.w1.toNat, dst := w.w2.toNat, done := bits d 22 16,
    rsv := bits a 23 15 != 0 || bits d 63 23 != 0 || bits d 15 0 != 0 }

/-- Whether a counter index is a counter or none. -/
def idxOk (n : Nat) : Bool := decide (n < 64) || n == 0x7F

/-- The core whose Pantry window holds a local range wholly, if one does. -/
def pantryOfRange (l len : Nat) : Option Nat :=
  if Config.pantryBase ≤ l ∧ l < Config.pantryBase + 288 * Config.pantryBytes then
    let c := (l - Config.pantryBase) / Config.pantryBytes
    if l + len ≤ Config.pantryBase + Config.pantryBytes * (c + 1) then some c else none
  else none

/-- ARR_TARGET (R372): the target of the whole destination lies in one Pantry window. -/
def State.arrTargetOk (s : State) (c dst len : Nat) : Bool :=
  match s.foldOfCore c with
  | none => false
  | some f =>
    if s.isSelf dst && s.homeOf (s.placeOf (dst % 2 ^ 48)) == some f then (pantryOfRange (dst % 2 ^ 48) len).isSome
    else match s.window f 0 dst with
      | none => false
      | some w => decide (s.norm dst + len ≤ s.norm w.base + w.size) && (pantryOfRange (s.translate w dst % 2 ^ 48) len).isSome

/-- The checks of Table 10.8 on a word. -/
def State.movFail (s : State) (c : Nat) (w : MovWord) : Option Nat :=
  if (w.opc ≠ 1 ∧ w.opc ≠ 2) ∨ !idxOk w.arr ∨ !idxOk w.done ∨ w.rsv then some 0x10
  else if w.arr ≠ 0x7F ∧ w.len ≠ 0 ∧ !s.arrTargetOk c w.dst w.len then some 0x11
  else if 2 ^ 64 < s.norm w.dst + w.len ∨ (w.opc = 1 ∧ 2 ^ 64 < s.norm w.src + w.len) then some 0x12
  else none

/-- A core's mover. -/
def State.mov (s : State) (c : Nat) : MovSt := (s.core c).mov
/-- Change a core's mover. -/
def State.modMov (s : State) (c : Nat) (f : MovSt → MovSt) : State := s.modCore c fun k => { k with mov := f k.mov }

/-- The capture of MOVER_FAULT (R401). -/
def State.movCapture (c done addr : Nat) (s : State) : State :=
  (s.fset Fd.moverFault_PIECES_DONE (min done (2 ^ 32 - 1)) c).setReg .moverFaultAddr addr c

/-- The mover stops and drops its word (R401). -/
def State.movStop (s : State) (c reason mark addr : Nat) : State :=
  let done := (s.mov c).done
  ((s.modMov c fun _ => {}).fset Fd.moverStatus_OUTSTANDING 0 c).engStop c 3 reason mark (State.movCapture c done addr)

/-- The mover stops on a miss and keeps its word for RESUME (R401, R402). -/
def State.movMiss (s : State) (c addr : Nat) : State :=
  let done := (s.mov c).done
  let s := (s.modMov c fun m => { m with r1 := none, r2 := none }).fset Fd.moverStatus_OUTSTANDING 0 c
  (s.engHalt c 3 0x18 0 (State.movCapture c done addr)).engineMiss c 3 addr

/-- Raise a word's DONE_IDX counter by one (R374). -/
def State.raiseDone (s : State) (c idx : Nat) : State := if idx < 64 then s.ctrAdd (ctrKey c idx) 1 else s

/-- The mover finishes its word (R374). -/
def State.movFinish (s : State) (c done : Nat) : State :=
  ((s.modMov c fun _ => {}).raiseDone c done).engDone c 3 Fd.moverCounts_WORDS_DONE

/-- Pass the piece under way: performed or not. -/
def State.movPass (s : State) (c len : Nat) (performed : Bool) : State :=
  let s := s.modMov c fun m => { m with at' := if m.again.isEmpty then m.at' + len else m.at', again := m.again.drop 1
                                        done := m.done + b2n performed, r1 := none, r2 := none }
  let s := s.fset Fd.moverStatus_OUTSTANDING 0 c
  if performed then s.inc Fd.moverCounts_PIECES c else s

/-- Pass a piece that its target did not perform (R395, R169): the core's part is marked, and RESUME would issue it again (R402). -/
def State.movSkip (s : State) (c len mark : Nat) : State :=
  ((s.modMov c fun m => { m with skipped := m.skipped ++ [m.pos] }).movPass c len false).markPart c mark

/-- Whether an address of a core comes to a Pantry, of this device or of another member, where a store is performed whether its granule is
poisoned or not (R660). -/
def State.toPantry (s : State) (c addr : Nat) : Bool :=
  match s.resolveCore c 1 addr false with
  | .here _ (.pantry _ _) => true
  | .away _ t => (pantryOfRange (t % 2 ^ 48) 1).isSome
  | _ => false

/-- Whether an address of a core comes to a host slice, of this device or of another member. -/
def State.toHost (s : State) (c addr : Nat) : Bool :=
  match s.resolveCore c 1 addr false with
  | .here _ (.host _ _) => true
  | .away _ t => (match s.placeOf (t % 2 ^ 48) with
    | .host _ _ => true
    | _ => false)
  | _ => false

/-- Write a piece (R371, R395, R400). -/
def State.movWrite (s : State) (c : Nat) (w : MovWord) (dst : Nat) (b : Bytes) : State :=
  let (s, r) := s.request (.engine c 4 2) c (.store b) dst b.length w.arr false
  match r with
  | none => s.fset Fd.moverStatus_OUTSTANDING 1 c
  | some (.done, _) => s.movPass c b.length true
  | some (.dropped, _) => s.movPass c b.length false
  | some (.miss, _) => s.movMiss c dst
  | some (.poisoned, _) => if s.toPantry c dst then s.movPass c b.length true else s.movSkip c b.length 1
  | some (.fenced, _) => s.movSkip c b.length 2
  | some (.error, _) => s.movSkip c b.length 2

/-- Issue a read of the piece under way, if it has no answer yet. -/
def State.movRead (s : State) (c key addr len : Nat) (held : Option (Answer × Bytes)) : State × Option (Answer × Bytes) :=
  match held with
  | some r => (s, some r)
  | none => if len = 0 then (s, some (.done, [])) else s.request (.engine c 4 key) c .load addr len 0x7F false

/-- Whether the write of a piece that is not to be written would miss in a host map (R401): a write of no byte asks it of the map. None while
that is not known. -/
def State.movMisses (s : State) (c dst : Nat) : State × Option Bool :=
  if !s.toHost c dst then (s, some false) else
  let (s, r) := s.request (.engine c 4 3) c (.masked 0 (List.replicate 64 0)) (dst / 64 * 64) 64 0x7F false
  (s, r.map fun r => r.1 == .miss)

/-- A piece whose source read is poisoned, or was answered FENCED or with an error (R395, R401): a miss of its write comes first. -/
def State.movBad (s : State) (c dst len : Nat) (poison : Bool) : State :=
  match s.movMisses c dst with
  | (s, none) => s.fset Fd.moverStatus_OUTSTANDING 1 c
  | (s, some true) => s.movMiss c dst
  | (s, some false) => if poison then s.movStop c 0x22 1 dst else s.movSkip c len 2

/-- The bytes a FILL writes at an address. -/
def MovWord.pattern (w : MovWord) (dst len : Nat) : Bytes := (List.range len).map fun i => BitVec.ofNat 8 (w.src / 2 ^ (8 * ((dst + i) % 8)))

/-- One piece of the running word, as far as its answers allow (R371, R400, R401). -/
def State.movPiece (s : State) (c : Nat) (w : MovWord) : State :=
  let m := s.mov c
  if w.len ≤ m.pos then s else
  let dst := w.dst + m.pos
  let len := min (64 - dst % 64) (w.len - m.pos)
  if w.opc = 2 then s.movWrite c w dst (w.pattern dst len)
  else
    let src := w.src + m.pos
    let n1 := min len (64 - src % 64)
    let (s, r1) := s.movRead c 0 src n1 m.r1
    let (s, r2) := s.movRead c 1 (src + n1) (len - n1) m.r2
    let s := s.modMov c fun m => { m with r1 := r1, r2 := r2 }
    match r1, r2 with
    | some (a1, d1), some (a2, d2) =>
      if a1 = .miss then s.movMiss c src
      else if a2 = .miss then s.movMiss c (src + n1)
      else if a1 = .poisoned ∨ a2 = .poisoned then s.movBad c dst len true
      else if (a1 = .done ∨ a1 = .dropped) ∧ (a2 = .done ∨ a2 = .dropped) then s.movWrite c w dst (d1 ++ d2)
      else s.movBad c dst len false
    | _, _ => s.fset Fd.moverStatus_OUTSTANDING 1 c

/-! A word that an ABORT stop has cut (R396): it waits for the response of the piece outstanding, and stops. -/

/-- The front end writes STATE ABORTED into a part's record, and the part ends (R496). -/
def State.cutPartEnd (s : State) (n i : Nat) : State :=
  let l := (s.core n).parts
  match l[i]? with
  | none => s
  | some p =>
    let k := nget 0 s.dispatch n - l.length + i
    let s := s.pantryStore8 n (0xFB00 + 64 * (k % 4) + 56) 2
    let s := s.modCore n fun x => { x with parts := x.parts.set i { p with cut := true, wait := false } }
    s.partEnd p.ring p.seq (p.result 1 0).1 (p.result 1 0).2

/-- The cut word has stopped: the mover is IDLE, and the part that waited for it ends. -/
def State.movCutEnd (s : State) (c : Nat) : State :=
  let s := ((s.modMov c fun _ => {}).fset Fd.moverStatus_OUTSTANDING 0 c).setEngState c 3 0
  match (s.core c).parts.findIdx? fun p => p.wait with
  | some i => s.cutPartEnd c i
  | none => s

/-- The write of the piece outstanding: its response, once there, ends the cut word. -/
def State.movCutWrite (s : State) (c : Nat) (w : MovWord) (dst : Nat) (b : Bytes) : State :=
  let (s, r) := s.request (.engine c 4 2) c (.store b) dst b.length w.arr false
  match r with
  | none => s
  | some (a, _) => (if a = .done ∨ (a = .poisoned ∧ s.toPantry c dst) then s.movPass c b.length true else s).movCutEnd c

/-- What is left of the piece outstanding of a cut word, as far as its answers allow. -/
def State.movCutRun (s : State) (c : Nat) (w : MovWord) : State :=
  let m := s.mov c
  let dst := w.dst + m.pos
  let len := min (64 - dst % 64) (w.len - m.pos)
  if w.len ≤ m.pos then s.movCutEnd c
  else if w.opc = 2 ∨ s.inFlight (.engine c 4 2) ∨ s.replies.any (fun r => r.by' == .engine c 4 2) then s.movCutWrite c w dst (w.pattern dst len)
  else
    let src := w.src + m.pos
    let n1 := min len (64 - src % 64)
    let (s, r1) := s.movRead c 0 src n1 m.r1
    let (s, r2) := s.movRead c 1 (src + n1) (len - n1) m.r2
    let s := s.modMov c fun m => { m with r1 := r1, r2 := r2 }
    match r1, r2 with
    | some (a1, d1), some (a2, d2) =>
      if (a1 = .done ∨ a1 = .dropped) ∧ (a2 = .done ∨ a2 = .dropped) then s.movCutWrite c w dst (d1 ++ d2) else s.movCutEnd c
    | _, _ => s

/-- Up to n pieces. -/
def State.movPieces (s : State) (c : Nat) (w : MovWord) : Nat → State
  | 0 => s
  | n + 1 => if s.engState c 3 = 1 then (s.movPiece c w).movPieces c w n else s

/-- The mover takes its next word, if it has none and the word's opcode is that of the command, or is reserved. -/
def State.movTake (s : State) (c : Nat) (fill : Bool) : State :=
  if (s.mov c).word.isSome || !s.engReady c 3 then s else
  match s.headWord c 3 with
  | none => s
  | some e =>
    let w := e.mov
    if (w.opc == 2) != fill then s else
    let s := s.dropWord c 3
    match s.movFail c w with
    | some r => s.movStop c r 0 w.dst
    | none => if w.len = 0 then s.movFinish c w.done else s.modMov c fun _ => { word := some e }

/-- COPY and FILL: take the word if none runs, then pieces of it (R371, R396). -/
def State.movRun (s : State) (c n : Nat) (fill : Bool) : State :=
  let s := s.movTake c fill
  match (s.mov c).word with
  | none => s
  | some e =>
    if (e.mov.opc == 2) == fill && s.coreLive c then (if (s.mov c).cut then s.movCutRun c e.mov else s.movPieces c e.mov n) else s

/-- COPY (R371). -/
def execCopy (core : CoreId) (pieces : Nat) (s : State) : Host.Outcome State Fault Refusal := .next (s.movRun core pieces false)
/-- FILL (R371). -/
def execFill (core : CoreId) (pieces : Nat) (s : State) : Host.Outcome State Fault Refusal := .next (s.movRun core pieces true)

/-- A word whose every piece is passed finishes (R374). -/
def State.movEnd (s : State) (c : Nat) : State :=
  match (s.mov c).word with
  | some e =>
    if !s.coreLive c || s.engState c 3 != 1 then s
    else if (s.mov c).cut then s.movCutRun c e.mov
    else if e.mov.len ≤ (s.mov c).pos then s.movFinish c e.mov.done else s
  | none => s

/-- MOVER_WORD_FINISH (R374). -/
def execMoverWordFinish (core : CoreId) (s : State) : Host.Outcome State Fault Refusal := .next (s.movEnd core)

/-- Put a place in an ascending list. -/
def placeIn (n : Nat) : List Nat → List Nat
  | [] => [n]
  | m :: l => if n ≤ m then n :: m :: l else m :: placeIn n l

/-- MOVER_CTL RESUME (R402): after ADDRESS_MISS the word goes on with the pieces not yet performed. -/
def State.movResume (s : State) (src : Source) (c : Nat) : State :=
  let keep := (s.mov c).word.isSome
  let t := s.engCtl src c 3 1 id
  if s.engState c 3 = 2 ∧ keep then
    (t.modMov c fun m => { m with skipped := [], again := m.skipped.foldl (fun l n => placeIn n l) m.again }).setEngState c 3 1
  else t

/-- MOVER_CTL RESUME (R402). -/
def execMoverResume (src : Source) (core : CoreId) (s : State) : Host.Outcome State Fault Refusal :=
  if s.shut src then .next (s.turned .host) else
  .next (s.movResume src core)
/-- MOVER_CTL DISCARD (R402). -/
def execMoverDiscard (src : Source) (core : CoreId) (s : State) : Host.Outcome State Fault Refusal :=
  if s.shut src then .next (s.turned .host) else
  .next (s.engCtl src core 3 2 fun k => { k with mov := {} })

end Sys2Proof.Machine
end

