-- ==== Sys2Proof/Machine/WhiskCore.lean ====
section
/-!
DEFINITION. The Whisk engine's parts (chapter 9): launch words, crews, groups and their registers, barriers, parking, the L1, and the
memory accesses of a group's lanes.
-/
namespace Sys2Proof.Machine

/-- A core's Whisk engine. -/
def State.whisk (s : State) (c : Nat) : WhiskSt := (s.core c).whisk
/-- Change a core's Whisk engine. -/
def State.modWhisk (s : State) (c : Nat) (f : WhiskSt → WhiskSt) : State := s.modCore c fun k => { k with whisk := f k.whisk }
/-- Change a group. -/
def State.modGroup (s : State) (c sl : Nat) (f : WGroup → WGroup) : State :=
  s.modWhisk c fun w => match nfind w.groups sl with
    | some g => { w with groups := nset w.groups sl (f g) }
    | none => w
/-- Change a crew. -/
def State.modCrew (s : State) (c n : Nat) (f : Crew → Crew) : State :=
  s.modWhisk c fun w => match nfind w.crews n with
    | some r => { w with crews := nset w.crews n (f r) }
    | none => w

/-- Register r of a lane. -/
def WGroup.reg (g : WGroup) (r lane : Nat) : Nat := (nget 0 g.t (32 * r + lane)).toNat
/-- Set register r of a lane. -/
def WGroup.setReg (g : WGroup) (r lane v : Nat) : WGroup :=
  let x := BitVec.ofNat 32 v
  { g with t := if x = 0 then ndel g.t (32 * r + lane) else nset g.t (32 * r + lane) x }
/-- A predicate register: p0 reads as all ones (R321). -/
def WGroup.pred (g : WGroup) (n : Nat) : Nat := if n = 0 then 2 ^ 32 - 1 else (nget 0 g.p n).toNat
/-- Set a predicate register: writes to p0 are discarded. -/
def WGroup.setPred (g : WGroup) (n v : Nat) : WGroup :=
  let x := BitVec.ofNat 32 v
  if n = 0 then g else { g with p := if x = 0 then ndel g.p n else nset g.p n x }
/-- The 64-bit value of a register pair (R329). -/
def WGroup.pair (g : WGroup) (r lane : Nat) : Nat := g.reg r lane + 2 ^ 32 * g.reg (r + 1) lane

/-! Retirement, parking and barriers. -/

/-- The waiter number of a slot. -/
def slotWaiter (c sl : Nat) : Nat := 1000 + 48 * c + sl

/-- Park a group (R354). -/
def State.parkGroup (s : State) (c sl reason : Nat) : State :=
  (s.modGroup c sl fun g => { g with park := reason, step := false, done := 0, missed := 0, poisoned := 0 }).latchCore c 1

/-- A group retires its instruction and goes on at an address; the crew's timer restarts (R337). A stepped group parks again (R349). -/
def State.retireAt (s : State) (c sl : Nat) (pc : Word) : State :=
  match nfind (s.whisk c).groups sl with
  | none => s
  | some g =>
    let s := s.modGroup c sl fun g => { g with pc := pc, wait := .none, done := 0, missed := 0, poisoned := 0 }
    let s := s.modCrew c g.crew fun r => { r with since := s.elapsed }
    if g.step then s.parkGroup c sl 3 else s

/-- A group retires its instruction and goes on in order. -/
def State.retire (s : State) (c sl : Nat) : State :=
  match nfind (s.whisk c).groups sl with
  | none => s
  | some g => s.retireAt c sl (g.pc + 8)

/-- The slots of a crew whose groups have not exited. -/
def WhiskSt.alive (w : WhiskSt) (r : Crew) : List Nat := r.slots.filter fun sl => nhas w.groups sl

/-- A group arrives at a barrier's current generation. -/
def State.arrive (s : State) (c sl crew b : Nat) : State :=
  let s := s.modGroup c sl fun g => { g with last := nset g.last b (((nget { slots := [] } (s.whisk c).crews crew).gens).getD b 0) }
  s.modCrew c crew fun r => { r with arrived := r.arrived.set b (sl :: r.arrived.getD b []) }

/-- What the completion of a generation of barrier b does to one group of the crew (R333, R334, R336). -/
def State.releaseOne (s : State) (c crew b sl : Nat) : State :=
  match nfind (s.whisk c).groups sl with
  | none => s
  | some g =>
    match g.wait with
    | .meet x => if x = b then s.retire c sl else s
    | .await x => if x = b then s.retire c sl else s
    | .second x m =>
      if x = b then
        let s := s.arrive c sl crew b
        if m then s.modGroup c sl fun g => { g with wait := .meet b } else s.retire c sl
      else s
    | .none => s

/-- Complete a generation of a barrier (R334). -/
def State.completeGen (s : State) (c crew b : Nat) : State :=
  let s := s.modCrew c crew fun r => { r with gens := r.gens.set b (r.gens.getD b 0 + 1), arrived := r.arrived.set b [] }
  match nfind (s.whisk c).crews crew with
  | none => s
  | some r => r.slots.foldl (fun s sl => s.releaseOne c crew b sl) s

/-- Whether every group of a crew that has not exited has arrived at a barrier (R334, R335). -/
def WhiskSt.genComplete (w : WhiskSt) (crew b : Nat) : Bool :=
  match nfind w.crews crew with
  | none => false
  | some r =>
    let l := w.alive r
    !l.isEmpty && l.all fun sl => (r.arrived.getD b []).contains sl

/-- Complete generations of a barrier while they are complete: a completed generation may be followed by one that second arrivals
complete (R336). -/
def State.checkGen (s : State) (c crew b : Nat) : Nat → State
  | 0 => s
  | n + 1 => if (s.whisk c).genComplete crew b then (s.completeGen c crew b).checkGen c crew b n else s

/-- Look at every barrier of a crew. -/
def State.checkCrew (s : State) (c crew : Nat) : State := (List.range 8).foldl (fun s b => s.checkGen c crew b 3) s

/-! The L1 (R342 to R344). -/

/-- The place of a local granule. -/
def State.granule (s : State) (g : Nat) : Place := s.placeOf (64 * g)


/-- The store of the bytes a mask marks in a granule: one run of bytes as it is, else a masked store. -/
def storeAct (m : Nat) (d : Bytes) : Nat × Act :=
  match maskRuns m with
  | [(o, n)] => (o, .store ((d.drop o).take n))
  | _ => (0, .masked m d)

/-- The place o bytes into a granule's place. -/
def Place.plus (p : Place) (o : Nat) : Place :=
  match p with
  | .hbm a => .hbm (a + o)
  | .pantry c off => .pantry c (off + o)
  | .host c off => .host c (off + o)
  | .regs off => .regs (off + o)
  | .none => .none

/-- What an answer to an engine's write marks on the core's part: poison, or the error of a write not performed (R84, R488). -/
def State.markAnswer (s : State) (c : Nat) (a : Answer) : State :=
  match a with
  | .poisoned => s.markPart c 1
  | .fenced => s.markPart c 2
  | .error => s.markPart c 2
  | _ => s

/-- Write the dirty bytes of an L1 line back to their target (R343). -/
def State.l1Back (s : State) (c : Nat) (l : L1Line) : State :=
  if l.dirty = 0 then s else
  let (o, a) := storeAct l.dirty l.data
  let (s, r) := s.deliver (.engine c 3 4095) (.here l.f ((s.granule l.g).plus o)) a 0 0 0x7F (.core c)
  match r with
  | some (x, _) => s.markAnswer c x
  | none => s

/-- A double error in the L1 line of a granule (R358): the line is dropped, which masks an error in clean bytes; dirty bytes are written back
and their granule is poisoned. -/
def State.l1Double (s : State) (c g : Nat) : State :=
  match (s.whisk c).l1.find? fun l => l.g == g with
  | none => s
  | some l =>
    (maskRuns l.dirty).foldl (fun s r =>
        (s.deliver (.engine c 3 4095) (.here l.f ((s.granule l.g).plus r.1)) (.poisonStore ((l.data.drop r.1).take r.2)) 0 0 0x7F (.core c)).1)
      (s.modWhisk c fun w => { w with l1 := w.l1.filter fun l => l.g != g })

/-- Place a line as the L1's newest; the oldest of more than 1,024 lines is evicted. -/
def State.l1Put (s : State) (c : Nat) (l : L1Line) : State :=
  let rest := (s.whisk c).l1.filter fun x => x.g != l.g
  let s := (rest.drop 1023).foldl (fun s x => s.l1Back c x) s
  s.modWhisk c fun w => { w with l1 := l :: rest.take 1023 }

/-- Write back every dirty line, keeping the lines clean (FLUSH). -/
def State.l1Flush (s : State) (c : Nat) : State :=
  let s := (s.whisk c).l1.foldl (fun s l => s.l1Back c l) s
  s.modWhisk c fun w => { w with l1 := w.l1.map fun l => { l with dirty := 0 } }

/-- Drop every clean line and, of a line with dirty bytes, its clean bytes (R344, R382). -/
def State.l1Acquire (s : State) (c : Nat) : State :=
  s.modWhisk c fun w => { w with l1 := (w.l1.filter fun l => l.dirty != 0).map fun l => { l with valid := l.dirty } }

/-- Write back a line and drop it (R339). -/
def State.l1Drop (s : State) (c g : Nat) : State :=
  let s := ((s.whisk c).l1.filter fun l => l.g == g).foldl (fun s l => s.l1Back c l) s
  s.modWhisk c fun w => { w with l1 := w.l1.filter fun l => l.g != g }

/-- Load bytes of a granule through the L1 (R342): a line that does not hold them is fetched. -/
def State.l1Load (s : State) (c f g off len : Nat) : State × Answer × Bytes :=
  let m := maskOf off len
  let old := ((s.whisk c).l1.find? fun l => l.g == g)
  let hit := match old with | some l => if l.valid.land m = m then some l else none | none => none
  match hit with
  | some l => (s, .done, (l.data.drop off).take len)
  | none =>
    let (s, r) := s.deliver (.engine c 3 4095) (.here f (s.granule g)) .load 64 0 0x7F (.core c)
    match r with
    | some (.done, d) =>
      let l : L1Line := match old with
        | some l => { l with valid := fullMask, data := mergeMask l.dirty l.data d }
        | none => ⟨g, f, fullMask, 0, d⟩
      (s.l1Put c l, .done, (l.data.drop off).take len)
    | some (a, d) => (s, a, (d.drop off).take len)
    | none => (s, .error, [])

/-- Store the bytes a mask marks of a granule into the L1 (R342). -/
def State.l1Store (s : State) (c f g m : Nat) (d : Bytes) : State :=
  match (s.whisk c).l1.find? fun l => l.g == g with
  | some l => s.l1Put c { l with valid := l.valid.lor m, dirty := l.dirty.lor m, data := mergeMask m d l.data }
  | none => s.l1Put c ⟨g, f, m, m, mergeMask m d []⟩

/-- Whether the L1 caches a place for a core (R342). -/
def l1Caches (c : Nat) (p : Place) : Bool :=
  match p with
  | .hbm _ => true
  | .pantry n _ => n != c
  | _ => false

/-! Launch, end of groups, end of the word. -/

/-- The fields of a launch word (Table 9.1). -/
structure LaunchWord where
  opc : Nat
  groups : Nat
  crew : Nat
  entry : Word
  arg : Nat
  argw : Nat
  rsv : Bool
  deriving DecidableEq, Repr

/-- Read a launch word. -/
def EWord.launch (w : EWord) : LaunchWord :=
  let a := w.w0.toNat
  { opc := bits a 7 0, groups := bits a 63 32, crew := bits a 21 16, entry := w.w1, arg := w.w2.toNat, argw := bits w.w3.toNat 31 0,
    rsv := bits a 31 22 != 0 || bits a 15 8 != 0 || bits w.w3.toNat 63 32 != 0 }

/-- The checks of Table 9.8 on a launch word. -/
def LaunchWord.fail (w : LaunchWord) : Option Nat :=
  if w.opc ≠ 1 ∨ w.rsv ∨ w.entry.toNat % 8 ≠ 0 then some 0x10
  else if w.crew = 0 ∨ 48 < w.crew then some 0x30
  else none

/-- The launch word finishes once no group is left (R320, R343, R355): dirty bytes are written back first. -/
def State.launchEnd (s : State) (c : Nat) : State :=
  match (s.whisk c).word with
  | none => s
  | some e =>
    if (s.whisk c).crews.isEmpty ∧ e.launch.groups ≤ (s.whisk c).next then
      let s := s.l1Flush c
      (s.modWhisk c fun w => { w with word := none }).engDone c 2 Fd.whiskCounts_LAUNCHES_DONE
    else s

/-- LAUNCH (R320, R345, R356): the previous word has finished. A parity error of the WHISK queue stops the engine (R357). -/
def State.launchTake (s : State) (c : Nat) (parity : Bool) : State :=
  if !s.engReady c 2 || (s.whisk c).word.isSome then s else
  match s.headWord c 2 with
  | none => s
  | some e =>
    let s := s.dropWord c 2
    if parity then
      (((s.inc Fd.whiskCounts_PARITY_COUNT c).engHalt c 2 0x21 2 fun s => s.fset Fd.whiskFault_SLOT 0 c)).detectCore 9 c 0
    else
    match e.launch.fail with
    | some r => s.engStop c 2 r 0 fun s => s.fset Fd.whiskFault_SLOT 0 c
    | none => (s.modWhisk c fun w => { w with word := some e, next := 0, icache := [] }).launchEnd c

/-- LAUNCH (R320). -/
def execLaunch (core : CoreId) (parity : Bool) (s : State) : Host.Outcome State Fault Refusal := .next (s.launchTake core parity)

/-- A group at its start (R325). -/
def LaunchWord.group (w : LaunchWord) (crew index rank : Nat) : WGroup :=
  let all (r v : Nat) (g : WGroup) : WGroup := (List.range 32).foldl (fun g l => g.setReg r l v) g
  all 2 w.argw (all 1 (w.arg / 2 ^ 32) (all 0 w.arg { crew := crew, index := index, rank := rank, pc := w.entry }))

/-- The next crew becomes resident, if enough slots are free (R322). -/
def State.crewStart (s : State) (c : Nat) : State :=
  if !s.coreLive c then s else
  match (s.whisk c).word with
  | none => s
  | some e =>
    let w := e.launch
    let k := s.whisk c
    let n := min w.crew (w.groups - k.next)
    let used := k.crews.flatMap fun (r : Nat × Crew) => r.2.slots
    let free := (List.range 48).filter fun sl => !used.contains sl
    if n = 0 ∨ free.length < n then s else
    let slots := free.take n
    let id := k.next / w.crew
    let gs := slots.zipIdx.foldl (fun (m : NMap WGroup) (sl, i) => nset m sl (w.group id (k.next + i) i)) k.groups
    (s.modWhisk c fun k => { k with next := k.next + n, groups := gs, crews := nset k.crews id { slots := slots, since := s.elapsed } }).noteResident c

/-- CREW_RESIDENT (R322). -/
def execCrewResident (core : CoreId) (s : State) : Host.Outcome State Fault Refusal := .next (s.crewStart core)

/-- Leave the requests of a group to late replies, and forget the replies that wait for it. -/
def State.dropGroupRequests (s : State) (c sl : Nat) : State :=
  let mine (r : Requester) : Bool := match r with
    | .engine n a k => n == c && a == 3 && k / 64 == sl
    | _ => false
  let s := s.retireRequests mine
  { s with replies := s.replies.filter fun r => !mine r.by', waiters := ndel s.waiters (slotWaiter c sl) }

/-- A group ends (R335, R347): its crew ends with its last group; barriers may complete; the launch word may finish. -/
def State.endGroup (s : State) (c sl : Nat) : State :=
  match nfind (s.whisk c).groups sl with
  | none => s
  | some g =>
    let s := (s.dropGroupRequests c sl).modWhisk c fun w => { w with groups := ndel w.groups sl }
    let s := s.modCrew c g.crew fun r => { r with since := s.elapsed }
    let s := match nfind (s.whisk c).crews g.crew with
      | none => s
      | some r => if ((s.whisk c).alive r).isEmpty then s.modWhisk c fun w => { w with crews := ndel w.crews g.crew } else s.checkCrew c g.crew
    (s.noteResident c).launchEnd c

/-- Discard every resident group and the launch word (R351, R357). -/
def State.whiskDiscard (s : State) (c : Nat) : State :=
  ((List.range 48).foldl (fun s sl => if nhas (s.whisk c).groups sl then s.dropGroupRequests c sl else s) s).whiskCut c

/-! Accesses of the lanes of one instruction (R338, R341, R350). -/

/-- One access of an instruction: the lowest lane it serves, the address, what it does, the bytes it reads, and the lanes it serves. mates are
the lanes of its granule: the operations of an atomic on one granule are carried in one access (R338), so that what is not performed for one
of them is not performed for any of them that is left. -/
structure LaneUnit where
  lane : Nat
  addr : Nat
  act : Act
  len : Nat
  lanes : List Nat
  mates : List Nat := lanes
  deriving DecidableEq, Repr

/-- What a unit makes of its answer: the lanes it is for, whether the access was performed, and its bytes. -/
abbrev UnitApply := List Nat → Bool → Bytes → WGroup → WGroup

/-- The mask of some lanes. -/
def laneMask (l : List Nat) : Nat := l.foldl (fun x l => x.lor (2 ^ l)) 0

/-- Carry out a unit: through the L1 where the place is cached and the access is not an atomic, else at its target (R339, R342). -/
def State.unitAccess (s : State) (c sl : Nat) (u : LaneUnit) : State × Option (Answer × Bytes) :=
  let b : Requester := .engine c 3 (64 * sl + u.lane)
  match s.takeReply b with
  | some (s, r, d) => (s, some (r, d))
  | none =>
    if s.inFlight b then (s, none) else
    let direct (s : State) (r : Route) : State × Option (Answer × Bytes) := s.deliver b r u.act u.len 0 0x7F (.core c)
    let r := s.resolveCore c u.act.perm u.addr false
    match r with
    | .here f p =>
      if !l1Caches c p then direct s r else
      let g := (match p with | .hbm a => a | .pantry n o => pantryKey n o | _ => 0) / 64
      let off := u.addr % 64
      match u.act with
      | .load =>
        let (s, a, d) := s.l1Load c f g off u.len
        (s, some (a, d))
      | .store d => (s.l1Store c f g (maskOf off d.length) (overlay (List.replicate 64 0) off d), some (.done, []))
      | .masked m d => (s.l1Store c f g m d, some (.done, []))
      | _ => direct (s.l1Drop c g) r
    | r => direct s r

/-- The context a host slice access of a core reaches, for the resumption of R350. -/
def State.missCtxOf (s : State) (c perm a : Nat) : Option Nat :=
  match s.resolveCore c perm a false with
  | .here _ (.host n _) => some n
  | _ => none

/-- Take a unit's answer (R350, R354): the lanes performed, and what apply makes of the bytes; or the lanes missed, with the context, or
poisoned. An answer other than done is that of every lane of the granule that is left. -/
def State.unitTake (s : State) (c sl : Nat) (u : LaneUnit) (r : Answer × Bytes) (apply : UnitApply) : State :=
  let left (g : WGroup) : List Nat := u.mates.filter fun l => !g.done.testBit l
  let ls := if r.1 = .done then u.lanes else ((nfind (s.whisk c).groups sl).map left).getD u.lanes
  let m := laneMask ls
  match r.1 with
  | .miss =>
    s.modGroup c sl fun g => { g with missed := g.missed.lor m, missCtx := g.missCtx ++ (s.missCtxOf c u.act.perm u.addr).toList }
  | .poisoned =>
    match u.act with
    | .store _ => (s.markPart c 1).modGroup c sl fun g => { g with done := g.done.lor m }
    | .masked _ _ => (s.markPart c 1).modGroup c sl fun g => { g with done := g.done.lor m }
    | _ => s.modGroup c sl fun g => { g with poisoned := g.poisoned.lor m }
  | a => (s.markAnswer c a).modGroup c sl fun g => apply ls (a == .done) r.2 { g with done := g.done.lor m }

/-- Whether a lane of a group has its answer in the instruction under way. -/
def State.laneOver (s : State) (c sl lane : Nat) : Bool :=
  match nfind (s.whisk c).groups sl with
  | some g => ((g.done.lor g.missed).lor g.poisoned).testBit lane
  | none => true

/-- Run the units of an instruction that are not performed yet; true when every one has its answer. A unit waits for an earlier one of its
granule. -/
def State.runUnits (s : State) (c sl : Nat) (us : List (LaneUnit × UnitApply)) : State × Bool :=
  let r := us.foldl (fun (x : State × List Nat) u =>
    if x.1.laneOver c sl u.1.lane then x
    else if x.2.contains (u.1.addr / 64) then x
    else
      let (s, r) := x.1.unitAccess c sl u.1
      match r with
      | some r => (s.unitTake c sl u.1 r u.2, x.2)
      | none => (s, u.1.addr / 64 :: x.2)) (s, [])
  (r.1, r.2.isEmpty)

/-- The end of a memory instruction (R350, R354): a miss or a poisoned load parks the group, else it retires; a lane whose reply is still
out keeps it waiting. -/
def State.memEnd (s : State) (c sl : Nat) (all : Bool) : State :=
  if !all then s else
  match nfind (s.whisk c).groups sl with
  | none => s
  | some g =>
    if g.missed ≠ 0 then
      (s.modGroup c sl fun g => { g with park := 1, step := false, missed := 0, poisoned := 0 }).latchCore c 1
    else if g.poisoned ≠ 0 then
      (s.modGroup c sl fun g => { g with park := 7, step := false, missed := 0, poisoned := 0 }).latchCore c 1
    else s.retire c sl

end Sys2Proof.Machine
end

