-- ==== Sys2Proof/Machine/Whisk.lean ====
section
/-!
DEFINITION. The Whisk instructions (chapter 9): decoding (Tables 9.2 and 9.3), the operations of the lanes and of the group, the group
commands and the engine's registers.
-/
namespace Sys2Proof.Machine

/-! Decoding. -/

/-- The classes of instructions, one per row of the command table; illegal is what no class takes. -/
inductive WClass where
  | int
  | float
  | cvt
  | tst
  | pred
  | sel
  | lane
  | load
  | store
  | atomic
  | jump
  | jr
  | meet
  | mark
  | await
  | sum
  | acq
  | signal
  | fence
  | flush
  | exit
  | brk
  | illegal
  deriving DecidableEq, Repr

/-- A field of an instruction word. -/
def wf (w : Word) (hi lo : Nat) : Nat := bits w.toNat hi lo
/-- OP. -/
def wOp (w : Word) : Nat := wf w 63 56
/-- SUB. -/
def wSub (w : Word) : Nat := wf w 55 52
/-- rd of formats R, I and M; ra of format G. -/
def wRd (w : Word) : Nat := wf w 47 42
/-- ra of formats R, I, M and P; rb of format G. -/
def wRa (w : Word) : Nat := wf w 41 36
/-- rb of formats R, M and P. -/
def wRb (w : Word) : Nat := wf w 35 30
/-- rc of formats R and M. -/
def wRc (w : Word) : Nat := wf w 29 24
/-- pq of format G. -/
def wPqG (w : Word) : Nat := wf w 35 33
/-- BX of format G. -/
def wBx (w : Word) : Nat := wf w 32 30
/-- pq of format B. -/
def wPqB (w : Word) : Nat := wf w 47 45
/-- COND of format B. -/
def wCond (w : Word) : Nat := wf w 44 43

/-- Whether a code is a format of CVT. -/
def cvtCode (f : Nat) : Bool := (decide (1 ≤ f) && decide (f ≤ 5)) || f == 9 || f == 10

/-- An R-format instruction whose unused fields are zero; rb, rc and the rounding fields may be used. -/
def rOk (w : Word) (rb rc rnd : Bool) : Bool :=
  wf w 20 0 == 0 && (rb || wRb w == 0) && (rc || wRc w == 0) && (rnd || wf w 23 21 == 0)

/-- A group instruction of format G whose unused fields are zero. -/
def gOk (w : Word) (ra rb pq bx : Bool) : Bool :=
  wf w 51 48 == 0 && wf w 29 0 == 0 && (ra || wRd w == 0) && (rb || wRa w == 0) && (pq || wPqG w == 0) && (bx || wBx w == 0)

/-- The class of an instruction word (Table 9.3, R328, R329, Table 9.7): illegal where OP, SUB or a field is reserved, an address pair is
odd, or a group instruction has a guard. -/
def wClass (w : Word) : WClass :=
  let o := wOp w
  let b := wSub w
  let ok (c : WClass) (p : Bool) : WClass := if p then c else .illegal
  if o = 0x01 then ok .int (decide (b ≤ 14) && rOk w true false false)
  else if o = 0x02 then ok .int (decide (b ≤ 14) && wf w 35 32 == 0)
  else if o = 0x03 then ok .int (decide (b ≤ 3) && rOk w true false false)
  else if o = 0x08 then ok .int (b == 0 && wf w 35 32 == 0 && wRa w == 0)
  else if o = 0x04 then ok .float (decide (b ≤ 8) && rOk w (decide (b ≤ 5)) false true)
  else if o = 0x05 then ok .float (b == 0 && rOk w true true true)
  else if o = 0x06 then ok .float (decide (b ≤ 4) && rOk w false false true)
  else if o = 0x07 then ok .cvt (cvtCode b && cvtCode (wRb w) && rOk w true false true)
  else if o = 0x10 then ok .tst (decide (b ≤ 9) && wf w 44 42 == 0 && wf w 29 0 == 0)
  else if o = 0x11 then ok .pred (decide (b ≤ 3) && wf w 41 30 == 0 && wf w 26 0 == 0)
  else if o = 0x12 then ok .sel (b == 0 && rOk w true true false && decide (wRc w < 8))
  else if o = 0x14 then
    ok .lane (if b ≤ 2 then rOk w false false false && wRa w == 0 else if b = 3 then rOk w true false false
      else b == 4 && rOk w false true false && wRa w == 0 && decide (wRc w < 8))
  else if o = 0x18 then ok .load (decide (b ≤ 5) && wRa w % 2 == 0 && wf w 35 24 == 0 && (b != 3 || wRd w % 2 == 0))
  else if o = 0x19 then ok .store (decide (b ≤ 3) && wRa w % 2 == 0 && wRd w == 0 && wRc w == 0 && (b != 3 || wRb w % 2 == 0))
  else if o = 0x1A then ok .atomic (decide (b ≤ 9) && wRa w % 2 == 0 && (b == 9 || wRc w == 0))
  else if o = 0x20 then ok .jump (b == 0 && wf w 51 48 == 0 && wf w 42 32 == 0)
  else if o = 0x21 then ok .jump (b == 0 && wf w 51 48 == 0 && wf w 47 32 == 0)
  else if o = 0x22 then ok .jr (b == 0 && gOk w true false true false && wRd w % 2 == 0)
  else if o = 0x28 then ok (if b = 0 then .meet else if b = 1 then .mark else .await) (decide (b ≤ 2) && gOk w false false false true)
  else if o = 0x29 then ok .sum (decide (b ≤ 3) && gOk w true false true false && (b != 0 || wRd w % 2 == 0))
  else if o = 0x2A then
    if b ≤ 1 then ok (if b = 0 then .acq else .signal) (gOk w true true true false && wRd w % 2 == 0)
    else ok (if b = 2 then .fence else .flush) (decide (b ≤ 3) && gOk w false false false false)
  else if o = 0x2F then ok (if b = 0 then .exit else .brk) (decide (b ≤ 1) && gOk w false false false false)
  else .illegal

/-! Lane operations (R327). -/

/-- The lanes an instruction acts in. -/
def WGroup.guard (g : WGroup) (w : Word) : List Nat :=
  let p := g.pred (wf w 50 48)
  (List.range 32).filter fun l => p.testBit l != bit w.toNat 51

/-- An integer operation of OP 0x01 and 0x02 on 32 bits. -/
def wInt (b x y : Nat) : Nat :=
  let sx := sext 32 x
  let sy := sext 32 y
  match b with
  | 0 => (x + y) % 2 ^ 32
  | 1 => unsext 32 (sx - sy)
  | 2 => (x * y) % 2 ^ 32
  | 3 => unsext 32 (sx * sy / 2 ^ 32)
  | 4 => x * y / 2 ^ 32
  | 5 => x.land y
  | 6 => x.lor y
  | 7 => x.xor y
  | 8 => x * 2 ^ (y % 32) % 2 ^ 32
  | 9 => x / 2 ^ (y % 32)
  | 10 => unsext 32 (sx / 2 ^ (y % 32))
  | 11 => if sx < sy then x else y
  | 12 => if sx < sy then y else x
  | 13 => min x y
  | _ => max x y

/-- Division and remainder by R183, on n bits: 0 signed quotient, 1 unsigned, 2 signed remainder, 3 unsigned. -/
def divRem (n b x y : Nat) : Nat :=
  let sx := sext n x
  let sy := sext n y
  match b with
  | 0 => if y = 0 then 2 ^ n - 1 else unsext n (sx.tdiv sy)
  | 1 => if y = 0 then 2 ^ n - 1 else x / y
  | 2 => if y = 0 then x else unsext n (sx.tmod sy)
  | _ => if y = 0 then x else x % y

/-- The integer result of a lane. -/
def WGroup.intRes (g : WGroup) (w : Word) (l : Nat) : Nat :=
  let a := g.reg (wRa w) l
  match wOp w with
  | 0x01 => wInt (wSub w) a (g.reg (wRb w) l)
  | 0x02 => wInt (wSub w) a (wf w 31 0)
  | 0x03 => divRem 32 (wSub w) a (g.reg (wRb w) l)
  | _ => wf w 31 0

/-- The floating-point result of a lane (R330). -/
def WGroup.floatRes (g : WGroup) (w : Word) (l : Nat) : Res :=
  let rnd := wf w 23 22
  let a := fp32 (g.reg (wRa w) l)
  let b := fp32 (g.reg (wRb w) l)
  let c := fp32 (g.reg (wRc w) l)
  let go (ops : List Num) (x : Num) : Res := finish 1 rnd 0 ops x
  match wOp w, wSub w with
  | 0x04, 0 => go [a, b] (a.add rnd b)
  | 0x04, 1 => go [a, b] (a.add rnd b.negate)
  | 0x04, 2 => go [a, b] (a.mul b)
  | 0x04, 3 => go [a, b] (a.div b)
  | 0x04, 4 => go [a, b] (a.min2 b)
  | 0x04, 5 => go [a, b] (a.max2 b)
  | 0x04, 6 => go [a] a.abs
  | 0x04, 7 => go [a] a.negate
  | 0x04, _ => go [a] (numSqrt a)
  | 0x05, _ => go [a, b, c] ((a.mul b).add rnd c)
  | _, 0 => go [a] ((Num.ofInt 1).div a)
  | _, 1 => go [a] (numRsqrt a)
  | _, 2 => go [a] (numExp2 a)
  | _, 3 => go [a] (numLog2 a)
  | _, _ => go [a] (numTanh a)

/-- The result of CVT in a lane (R330): the destination format is the code in the rb field. -/
def WGroup.cvtRes (g : WGroup) (w : Word) (l : Nat) : Res :=
  cvt (wSub w) (wRb w) (wf w 23 22) (wf w 21 21) (g.reg (wRa w) l % 2 ^ fmtBits (wSub w))

/-- A compare of OP 0x10. -/
def wTest (b x y : Nat) : Bool :=
  let fx := fp32 x
  let fy := fp32 y
  let n := fx.isNan || fy.isNan
  match b with
  | 0 => x == y
  | 1 => x != y
  | 2 => decide (sext 32 x < sext 32 y)
  | 3 => decide (sext 32 x ≤ sext 32 y)
  | 4 => decide (x < y)
  | 5 => decide (x ≤ y)
  | 6 => !n && !fx.lt fy && !fy.lt fx
  | 7 => !n && fx.lt fy
  | 8 => !n && !fy.lt fx
  | _ => n

/-- Write a predicate in the guarded lanes. -/
def WGroup.putPred (g : WGroup) (pd : Nat) (lanes : List Nat) (f : Nat → Bool) : WGroup :=
  g.setPred pd (lanes.foldl (fun v l => if f l then v.lor (2 ^ l) else if v.testBit l then v - 2 ^ l else v) (g.pred pd))

/-- Write a register in the guarded lanes, every value from the group as it was. -/
def WGroup.putLanes (g : WGroup) (rd : Nat) (lanes : List Nat) (f : Nat → Nat) : WGroup :=
  lanes.foldl (fun h l => h.setReg rd l (f l)) g

/-- Lane information (Table 9.3, OP 0x14). -/
def WGroup.laneRes (g : WGroup) (w : Word) (l : Nat) : Nat :=
  match wSub w with
  | 0 => l
  | 1 => g.index
  | 2 => g.rank
  | 3 => g.reg (wRa w) (g.reg (wRb w) l % 32)
  | _ => g.pred (wRc w % 8)

/-! Memory operations (R329, R338, R341). -/

/-- The signed byte offset of format M. -/
def wOff (w : Word) : Int := sext 24 (wf w 23 0)

/-- A lane's effective address. -/
def WGroup.ea (g : WGroup) (w : Word) (l : Nat) : Nat := unsext 64 ((g.pair (wRa w) l : Int) + wOff w)

/-- Bytes of a load or store. -/
def wSize (w : Word) : Nat :=
  match wSub w with
  | 0 => 1
  | 1 => 2
  | 2 => 4
  | 3 => 8
  | 4 => 1
  | _ => 2

/-- Keep the first of each value. -/
def dedup (l : List Nat) : List Nat := l.foldl (fun r x => if r.contains x then r else r ++ [x]) []

/-- What a load does with its bytes. -/
def loadApply (w : Word) (lo : Nat) (l : List (Nat × Nat)) (b : Bytes) (g : WGroup) : WGroup :=
  let n := wSize w
  l.foldl (fun g (lane, ea) =>
    let v := leNat ((b.drop (ea - lo)).take n)
    if n = 8 then (g.setReg (wRd w) lane v).setReg (wRd w + 1) lane (v / 2 ^ 32)
    else g.setReg (wRd w) lane (if wSub w < 2 then unsext 32 (sext (8 * n) v) else v)) g

/-- The lanes with their effective addresses, both forms of an own address taken as one (R135). -/
def WGroup.eas (g : WGroup) (norm : Nat → Nat) (w : Word) (lanes : List Nat) : List (Nat × Nat) := lanes.map fun l => (l, norm (g.ea w l))

/-- The accesses of a load: one per granule. -/
def WGroup.loadUnits (g : WGroup) (norm : Nat → Nat) (w : Word) (lanes : List Nat) : List (LaneUnit × UnitApply) :=
  let n := wSize w
  let eas := g.eas norm w lanes
  (dedup (eas.map fun e => e.2 / 64)).map fun k =>
    let mine := eas.filter fun e => e.2 / 64 == k
    let lo := mine.foldl (fun m e => min m e.2) (64 * k + 63)
    let hi := mine.foldl (fun m e => max m (e.2 + n)) 0
    ({ lane := (mine.headD (0, 0)).1, addr := lo, act := .load, len := hi - lo, lanes := mine.map (·.1) },
      fun _ _ b g => loadApply w lo mine b g)

/-- The accesses of a store: one per granule, the highest lane's byte being written. -/
def WGroup.storeUnits (g : WGroup) (norm : Nat → Nat) (w : Word) (lanes : List Nat) : List (LaneUnit × UnitApply) :=
  let n := wSize w
  let eas := g.eas norm w lanes
  let val (l : Nat) : Bytes := leBytes n (if n = 8 then g.pair (wRb w) l else g.reg (wRb w) l)
  (dedup (eas.map fun e => e.2 / 64)).map fun k =>
    let mine := eas.filter fun e => e.2 / 64 == k
    let m := mine.foldl (fun m e => m.lor (maskOf (e.2 % 64) n)) 0
    let d := mine.foldl (fun d e => overlay d (e.2 % 64) (val e.1)) (List.replicate 64 0)
    let (o, a) := storeAct m d
    ({ lane := (mine.headD (0, 0)).1, addr := 64 * k + o, act := a, len := 0, lanes := mine.map (·.1) }, fun _ _ _ g => g)

/-- The accesses of an atomic: one operation per address, those on one granule together (R338). -/
def WGroup.atomicUnits (g : WGroup) (norm : Nat → Nat) (w : Word) (lanes : List Nat) : List (LaneUnit × UnitApply) :=
  let op := wSub w
  let eas := g.eas norm w lanes
  (dedup (eas.map fun e => e.2)).map fun a =>
    let mine := (eas.filter fun e => e.2 == a).map (·.1)
    let y (l : Nat) : Nat := g.reg (wRb w) l
    let act : Act :=
      if op = 9 then .cas (mine.map fun l => (g.reg (wRc w) l, y l))
      else .atomic op 4 (match mine with | [] => 0 | l :: ls => ls.foldl (fun v l => atomicOp op 4 v (y l) 0) (y l)) 0
    ({ lane := mine.headD 0, addr := a, act := act, len := 4, lanes := mine, mates := (eas.filter fun e => e.2 / 64 == a / 64).map (·.1) },
      fun ls ok b g =>
        if !ok then ls.foldl (fun g l => g.setReg (wRd w) l 0) g
        else if op = 9 then mine.zipIdx.foldl (fun g (l, i) => g.setReg (wRd w) l (leNat ((b.drop (4 * i)).take 4))) g
        else (mine.foldl (fun (p : WGroup × Nat) l => (p.1.setReg (wRd w) l p.2, atomicOp op 4 p.2 (y l) 0)) (g, leNat (b.take 4))).1)

/-- A memory instruction: a misaligned lane parks the group and no lane is performed (Table 9.7). -/
def State.memOp (s : State) (c sl : Nat) (w : Word) (n : Nat) (units : WGroup → List Nat → List (LaneUnit × UnitApply)) : State :=
  match nfind (s.whisk c).groups sl with
  | none => s
  | some g =>
    let lanes := (g.guard w).filter fun l => !g.done.testBit l
    if g.done = 0 ∧ lanes.any fun l => g.ea w l % n != 0 then s.parkGroup c sl 6
    else
      let todo := lanes.filter fun l => !(g.missed.lor g.poisoned).testBit l
      let (s, all) := s.runUnits c sl (units g todo)
      s.memEnd c sl all

/-! Group operations. -/

/-- The chosen lane of a group instruction (R328). -/
def WGroup.chosen (g : WGroup) (pq : Nat) : Option Nat := (List.range 32).find? fun l => (g.pred pq).testBit l

/-- JUMP and CALL (R332). -/
def State.jumpOp (s : State) (c sl : Nat) (g : WGroup) (w : Word) : State :=
  let p := g.pred (wPqB w)
  let take : Bool := match wCond w with
    | 0 => true
    | 1 => p != 0
    | 2 => p == 2 ^ 32 - 1
    | _ => p == 0
  let target := g.pc + BitVec.ofInt 64 (sext 32 (wf w 31 0) * 8)
  let s := if wOp w = 0x21 then s.modGroup c sl fun g => g.putLanes 63 (List.range 32) fun _ => (g.pc + 8).toNat % 2 ^ 32 else s
  if take then s.retireAt c sl target else s.retire c sl

/-- JR (R328). -/
def State.jrOp (s : State) (c sl : Nat) (g : WGroup) (w : Word) : State :=
  match g.chosen (wPqG w) with
  | some l => s.retireAt c sl (BitVec.ofNat 64 (g.pair (wRd w) l))
  | none => s.retire c sl

/-- A group starts to wait at a barrier: the crew's timer starts with its first waiting group (R337). -/
def State.startWait (s : State) (c sl : Nat) (g : WGroup) (x : GroupWait) : State :=
  let waits (x : Nat) : Bool := match nfind (s.whisk c).groups x with | some h => h.wait != .none | none => false
  let first : Bool := match nfind (s.whisk c).crews g.crew with | some r => !((s.whisk c).alive r).any waits | none => false
  let s := if first then s.modCrew c g.crew fun r => { r with since := s.elapsed } else s
  s.modGroup c sl fun g => { g with wait := x }

/-- MEET (0) and MARK (1) (R333, R336). -/
def State.arriveOp (s : State) (c sl : Nat) (g : WGroup) (w : Word) (meet : Bool) : State :=
  let b := wBx w
  match nfind (s.whisk c).crews g.crew with
  | none => s
  | some r =>
    if (r.arrived.getD b []).contains sl then s.startWait c sl g (.second b meet)
    else
      let s := s.arrive c sl g.crew b
      let s := if meet then s.startWait c sl g (.meet b) else s.retire c sl
      s.checkGen c g.crew b 3

/-- AWAIT (R333). -/
def State.awaitOp (s : State) (c sl : Nat) (g : WGroup) (w : Word) : State :=
  let b := wBx w
  match nfind g.last b, nfind (s.whisk c).crews g.crew with
  | some n, some r => if n < r.gens.getD b 0 then s.retire c sl else s.startWait c sl g (.await b)
  | _, _ => s.retire c sl

/-- The value a summary instruction places (R340). -/
def WGroup.summary (g : WGroup) (w : Word) : Word :=
  let vals := ((List.range 32).filter fun l => (g.pred (wPqG w)).testBit l).map fun l => sext 32 (g.reg (wRd w) l)
  match wSub w with
  | 0 => BitVec.ofNat 64 (match g.chosen (wPqG w) with | some l => g.pair (wRd w) l | none => 0)
  | 1 => BitVec.ofInt 64 (match vals with | [] => -2 ^ 63 | x :: xs => xs.foldl max x)
  | 2 => BitVec.ofInt 64 (match vals with | [] => 2 ^ 63 - 1 | x :: xs => xs.foldl min x)
  | _ => BitVec.ofInt 64 (vals.foldl (· + ·) 0)

/-- The own counter an address names (R376). -/
def State.ownCounter (s : State) (c a : Nat) : Option Nat :=
  if !s.isSelf a then none else
  match s.placeOf (a % 2 ^ 48) with
  | .pantry n off => if n = c then (ctrOfOff off).map fun i => ctrKey c i else none
  | _ => none

/-- WAIT.ACQ of a group (R344, R376, R393, R403). -/
def State.acqOp (s : State) (c sl : Nat) (g : WGroup) (w : Word) : State :=
  let id := slotWaiter c sl
  let finish (s : State) : State := (({ s with waiters := ndel s.waiters id }).l1Acquire c).retire c sl
  match g.chosen (wPqG w) with
  | none => s.retire c sl
  | some l =>
    match s.ownCounter c (g.pair (wRd w) l) with
    | none => finish (s.violate (.core c))
    | some k =>
      let thr := g.reg (wRa w) l
      if ((nfind s.waiters id).bind (·.hit)).isSome then finish s
      else if nhas s.ctrPoison k then ({ s with waiters := ndel s.waiters id }).parkGroup c sl 7
      else if !nhas s.waiters id && decide (thr ≤ s.ctr k) then finish s
      else
        let s := if nhas s.waiters id then s else { s with waiters := nset s.waiters id ⟨k, thr, none⟩ }
        if g.step then s.parkGroup c sl 3 else s

/-- SIGNAL of a group (R375): a release. The first time the L1 is flushed. -/
def State.signalOp (s : State) (c sl : Nat) (g : WGroup) (w : Word) : State :=
  match g.chosen (wPqG w) with
  | none => s.retire c sl
  | some l =>
    let s := s.l1Flush c
    let u : LaneUnit := { lane := l, addr := g.pair (wRd w) l, act := .signal (g.reg (wRa w) l), len := 8, lanes := [l] }
    if u.addr % 8 ≠ 0 then (s.violate (.core c)).retire c sl
    else
      let (s, r) := s.unitAccess c sl u
      match r with
      | none => s
      | some (a, _) => (s.markAnswer c a).retire c sl

/-- SUMPUT and its companions: a full queue holds the group (R187, R340). -/
def State.sumOp (s : State) (c sl : Nat) (g : WGroup) (w : Word) : State :=
  if 16 ≤ ((s.core c).sums.getD 1 []).length then s else (s.putSum c 1 (g.summary w)).retire c sl

/-- BRK (R354): the group parks past the instruction. -/
def State.brkOp (s : State) (c sl : Nat) : State :=
  ((s.modGroup c sl fun g => { g with step := false }).retire c sl).parkGroup c sl 4

/-! One instruction. -/

/-- Fetch the instruction at a group's program counter: the word a fetch has brought, or one through the instruction cache (R345). None
while it is on its way, or when it parked the group. -/
def State.whiskFetch (s : State) (c sl : Nat) (g : WGroup) (f : Option Word) : State × Option Word :=
  match f with
  | some w => (s, some w)
  | none =>
    let pc := g.pc.toNat
    if pc % 8 ≠ 0 then (s.parkGroup c sl 6, none) else
    let line := pc / 64
    let at' (b : Bytes) : Word := BitVec.ofNat 64 (leNat ((b.drop (pc % 64)).take 8))
    match (s.whisk c).icache.find? fun e => e.1 == line with
    | some e => (s, some (at' e.2))
    | none =>
      let (s, r) := s.request (.engine c 3 (64 * sl + 40)) c .load (64 * line) 64 0x7F false
      match r with
      | none => (s, none)
      | some (.done, b) => (s.modWhisk c fun w => { w with icache := ((line, b) :: w.icache).take 256 }, some (at' b))
      | some (.miss, _) =>
        (((s.parkGroup c sl 1).modGroup c sl fun g => { g with missCtx := (s.missCtxOf c 0 (64 * line)).toList }), none)
      | some (.poisoned, _) => (s.parkGroup c sl 7, none)
      | some (a, _) => (s.markAnswer c a, some 0)

/-- Whether a group may take an instruction. -/
def State.groupReady (s : State) (c : Nat) (g : WGroup) : Bool :=
  s.coreLive c && s.engState c 2 == 1 && g.park == 0 && g.wait == .none

/-- A self-check of the Whisk fails (R357): the engine discards its groups and stops, and the class is reported. -/
def State.whiskFault (s : State) (c sl reason cls : Nat) (f : FieldRef) : State :=
  let s := (s.inc f c).whiskDiscard c
  let s := s.engHalt c 2 reason 2 fun s => s.fset Fd.whiskFault_SLOT sl c
  s.detectCore cls c sl

/-- The effect of an instruction of a class on its group. -/
def State.whiskOp (s : State) (c sl : Nat) (g : WGroup) (w : Word) : WClass → State
  | .int => (s.modGroup c sl fun g => g.putLanes (wRd w) (g.guard w) (g.intRes w)).retire c sl
  | .float =>
    let rs := (g.guard w).map fun l => (l, g.floatRes w l)
    ((s.modGroup c sl fun g => rs.foldl (fun g r => g.setReg (wRd w) r.1 r.2.bits) g).record c 2 (rs.map (·.2))).retire c sl
  | .cvt =>
    let rs := (g.guard w).map fun l => (l, g.cvtRes w l)
    ((s.modGroup c sl fun g => rs.foldl (fun g r => g.setReg (wRd w) r.1 r.2.bits) g).record c 2 (rs.map (·.2))).retire c sl
  | .tst => (s.modGroup c sl fun g => g.putPred (wf w 47 45) (g.guard w) fun l => wTest (wSub w) (g.reg (wRa w) l) (g.reg (wRb w) l)).retire c sl
  | .pred =>
    (s.modGroup c sl fun g => g.putPred (wf w 47 45) (g.guard w) fun l =>
      let a := (g.pred (wf w 29 27)).testBit l
      let b := (g.pred (wf w 44 42)).testBit l
      match wSub w with
      | 0 => a && b
      | 1 => a || b
      | 2 => a != b
      | _ => a && !b).retire c sl
  | .sel => (s.modGroup c sl fun g => g.putLanes (wRd w) (g.guard w) fun l =>
      if (g.pred (wRc w % 8)).testBit l then g.reg (wRa w) l else g.reg (wRb w) l).retire c sl
  | .lane => (s.modGroup c sl fun g => g.putLanes (wRd w) (g.guard w) (g.laneRes w)).retire c sl
  | .load => s.memOp c sl w (wSize w) fun g l => g.loadUnits s.norm w l
  | .store => s.memOp c sl w (wSize w) fun g l => g.storeUnits s.norm w l
  | .atomic => s.memOp c sl w 4 fun g l => g.atomicUnits s.norm w l
  | .jump => s.jumpOp c sl g w
  | .jr => s.jrOp c sl g w
  | .meet => s.arriveOp c sl g w true
  | .mark => s.arriveOp c sl g w false
  | .await => s.awaitOp c sl g w
  | .sum => s.sumOp c sl g w
  | .acq => s.acqOp c sl g w
  | .signal => s.signalOp c sl g w
  | .fence => s.retire c sl
  | .flush => (s.l1Flush c).retire c sl
  | .exit => s.endGroup c sl
  | .brk => s.brkOp c sl
  | .illegal => s.parkGroup c sl 5

/-- A stepped group that waits at a barrier parks at the wait (R349). -/
def State.stepWait (s : State) (c sl : Nat) : State :=
  match nfind (s.whisk c).groups sl with
  | some g => if g.step ∧ g.wait ≠ .none then s.parkGroup c sl 3 else s
  | none => s

/-- The line of the L1 that an instruction meets first: the one of a memory instruction's lowest lane, else the newest that holds dirty bytes. -/
def State.l1Meets (s : State) (c : Nat) (g : WGroup) (w : Word) (k : WClass) : Option Nat :=
  if k = .load ∨ k = .store ∨ k = .atomic then
    (((g.guard w).filter fun l => !g.done.testBit l).head?).bind fun l =>
      match s.resolveCore c (if k = .load then 0 else if k = .store then 1 else 3) (g.ea w l) false with
      | .here _ (.hbm a) => some (a / 64)
      | .here _ (.pantry n o) => some (pantryKey n o / 64)
      | _ => none
  else ((s.whisk c).l1.find? fun l => l.dirty != 0).map (·.g)

/-- A group takes the instruction at its program counter, where it is of the command's class (R331). -/
def State.whiskInstr (s : State) (c sl : Nat) (f : Option Word) (fault : EngineFault) (k : WClass) : State :=
  match nfind (s.whisk c).groups sl with
  | none => s
  | some g =>
    if !s.groupReady c g then s else
    match fault with
    | .residue => s.whiskFault c sl 0x20 8 Fd.whiskCounts_RESIDUE_COUNT
    | .parity => s.whiskFault c sl 0x21 9 Fd.whiskCounts_PARITY_COUNT
    | x =>
      let (s, w) := s.whiskFetch c sl g f
      match w with
      | none => s
      | some w =>
        if wClass w = k then
          let s := match x with
            | .l1 => ((s.l1Meets c g w k).map (s.l1Double c)).getD s
            | _ => s
          (s.whiskOp c sl g w k).stepWait c sl
        else s

/-- WHISK_INTEGER_OP (R327). -/
def execWhiskIntegerOp (core : CoreId) (slot : SlotId) (f : Option Word) (fault : EngineFault) (s : State) : Host.Outcome State Fault Refusal :=
  .next (s.whiskInstr core slot f fault .int)
/-- WHISK_FLOAT_OP (R330). -/
def execWhiskFloatOp (core : CoreId) (slot : SlotId) (f : Option Word) (fault : EngineFault) (s : State) : Host.Outcome State Fault Refusal :=
  .next (s.whiskInstr core slot f fault .float)
/-- WHISK_CVT (R330). -/
def execWhiskCvt (core : CoreId) (slot : SlotId) (f : Option Word) (fault : EngineFault) (s : State) : Host.Outcome State Fault Refusal :=
  .next (s.whiskInstr core slot f fault .cvt)
/-- TST (R327). -/
def execTst (core : CoreId) (slot : SlotId) (f : Option Word) (fault : EngineFault) (s : State) : Host.Outcome State Fault Refusal :=
  .next (s.whiskInstr core slot f fault .tst)
/-- PREDICATE_OP (R327). -/
def execPredicateOp (core : CoreId) (slot : SlotId) (f : Option Word) (fault : EngineFault) (s : State) : Host.Outcome State Fault Refusal :=
  .next (s.whiskInstr core slot f fault .pred)
/-- WHISK_SEL (R327). -/
def execWhiskSel (core : CoreId) (slot : SlotId) (f : Option Word) (fault : EngineFault) (s : State) : Host.Outcome State Fault Refusal :=
  .next (s.whiskInstr core slot f fault .sel)
/-- LANE_INFORMATION (R325). -/
def execLaneInformation (core : CoreId) (slot : SlotId) (f : Option Word) (fault : EngineFault) (s : State) : Host.Outcome State Fault Refusal :=
  .next (s.whiskInstr core slot f fault .lane)
/-- WHISK_LOAD (R341). -/
def execWhiskLoad (core : CoreId) (slot : SlotId) (f : Option Word) (fault : EngineFault) (s : State) : Host.Outcome State Fault Refusal :=
  .next (s.whiskInstr core slot f fault .load)
/-- WHISK_STORE (R342). -/
def execWhiskStore (core : CoreId) (slot : SlotId) (f : Option Word) (fault : EngineFault) (s : State) : Host.Outcome State Fault Refusal :=
  .next (s.whiskInstr core slot f fault .store)
/-- WHISK_ATOMIC (R338). -/
def execWhiskAtomic (core : CoreId) (slot : SlotId) (f : Option Word) (fault : EngineFault) (s : State) : Host.Outcome State Fault Refusal :=
  .next (s.whiskInstr core slot f fault .atomic)
/-- WHISK_JUMP (R332). -/
def execWhiskJump (core : CoreId) (slot : SlotId) (f : Option Word) (fault : EngineFault) (s : State) : Host.Outcome State Fault Refusal :=
  .next (s.whiskInstr core slot f fault .jump)
/-- JR (R328). -/
def execJr (core : CoreId) (slot : SlotId) (f : Option Word) (fault : EngineFault) (s : State) : Host.Outcome State Fault Refusal :=
  .next (s.whiskInstr core slot f fault .jr)
/-- MEET (R333). -/
def execMeetBarrier (core : CoreId) (slot : SlotId) (f : Option Word) (fault : EngineFault) (s : State) : Host.Outcome State Fault Refusal :=
  .next (s.whiskInstr core slot f fault .meet)
/-- MARK (R333). -/
def execMarkBarrier (core : CoreId) (slot : SlotId) (f : Option Word) (fault : EngineFault) (s : State) : Host.Outcome State Fault Refusal :=
  .next (s.whiskInstr core slot f fault .mark)
/-- AWAIT (R333). -/
def execAwaitBarrier (core : CoreId) (slot : SlotId) (f : Option Word) (fault : EngineFault) (s : State) : Host.Outcome State Fault Refusal :=
  .next (s.whiskInstr core slot f fault .await)
/-- WHISK_SUMMARY (R340). -/
def execWhiskSummary (core : CoreId) (slot : SlotId) (f : Option Word) (fault : EngineFault) (s : State) : Host.Outcome State Fault Refusal :=
  .next (s.whiskInstr core slot f fault .sum)
/-- WHISK_WAIT_ACQ (R344). -/
def execWhiskWaitAcq (core : CoreId) (slot : SlotId) (f : Option Word) (fault : EngineFault) (s : State) : Host.Outcome State Fault Refusal :=
  .next (s.whiskInstr core slot f fault .acq)
/-- WHISK_SIGNAL (R375). -/
def execWhiskSignal (core : CoreId) (slot : SlotId) (f : Option Word) (fault : EngineFault) (s : State) : Host.Outcome State Fault Refusal :=
  .next (s.whiskInstr core slot f fault .signal)
/-- WHISK_FENCE (R375). -/
def execWhiskFence (core : CoreId) (slot : SlotId) (f : Option Word) (fault : EngineFault) (s : State) : Host.Outcome State Fault Refusal :=
  .next (s.whiskInstr core slot f fault .fence)
/-- WHISK_FLUSH (R343). -/
def execWhiskFlush (core : CoreId) (slot : SlotId) (f : Option Word) (fault : EngineFault) (s : State) : Host.Outcome State Fault Refusal :=
  .next (s.whiskInstr core slot f fault .flush)
/-- EXIT (R335). -/
def execGroupExit (core : CoreId) (slot : SlotId) (f : Option Word) (fault : EngineFault) (s : State) : Host.Outcome State Fault Refusal :=
  .next (s.whiskInstr core slot f fault .exit)
/-- BRK (R354). -/
def execBrk (core : CoreId) (slot : SlotId) (f : Option Word) (fault : EngineFault) (s : State) : Host.Outcome State Fault Refusal :=
  .next (s.whiskInstr core slot f fault .brk)

/-! Barrier stalls and group commands (R337, R348 to R350). -/

/-- The slots a group command acts on: one, or with CREW those of its crew. -/
def State.cmdSlots (s : State) (c sl : Nat) (crew : Bool) : List Nat :=
  if !crew then [sl] else
  match (nfind (s.whisk c).groups sl).bind fun g => nfind (s.whisk c).crews g.crew with
  | some r => (s.whisk c).alive r
  | none => [sl]

/-- A crew's barrier timer reaches BARRIER_TIMEOUT (R337). -/
def State.stallCrew (s : State) (c sl : Nat) : State :=
  match nfind (s.whisk c).groups sl with
  | none => s
  | some g =>
    match nfind (s.whisk c).crews g.crew with
    | none => s
    | some r =>
      let l := (s.whisk c).alive r
      let waits (x : Nat) : Bool := match nfind (s.whisk c).groups x with | some g => g.wait != .none | none => false
      let parked (x : Nat) : Bool := match nfind (s.whisk c).groups x with | some g => g.park != 0 | none => false
      if l.any waits && !l.any parked && decide (r.since + 1000 * s.devSec.barrierUs ≤ s.elapsed) then
        l.foldl (fun s x => (s.modGroup c x fun g => { g with park := 2, step := false }).latchCore c 1) s
      else s

/-- BARRIER_STALL (R337). -/
def execBarrierStall (core : CoreId) (slot : SlotId) (now : Nat) (s : State) : Host.Outcome State Fault Refusal :=
  let s := s.advance now
  .next (if s.coreLive core then s.stallCrew core slot else s)

/-- Unpark a group; a crew parked with BARRIER_STALL goes back to waiting as a whole, with its timer restarted (R348). -/
def State.unparkGroup (s : State) (c sl : Nat) : State :=
  match nfind (s.whisk c).groups sl with
  | none => s
  | some g =>
    let l := if g.park = 2 then s.cmdSlots c sl true else [sl]
    let s := l.foldl (fun s x => s.modGroup c x fun h => if g.park = 2 → h.park = 2 then { h with park := 0, missCtx := [] } else h) s
    s.modCrew c g.crew fun r => { r with since := s.elapsed }

/-- Act a group command on the groups a predicate allows; none allowed is a violation (R348). -/
def State.groupCmd (s : State) (src : Source) (c sl : Nat) (crew : Bool) (ok : WGroup → Bool) (act : State → Nat → State) : State :=
  let l := (s.cmdSlots c sl crew).filter fun x => match nfind (s.whisk c).groups x with | some g => ok g | none => false
  if l.isEmpty then s.charge src else l.foldl act s

/-- GROUP_CMD RESUME (R348). -/
def execGroupResume (src : Source) (core : CoreId) (slot : SlotId) (crew : Bool) (s : State) : Host.Outcome State Fault Refusal :=
  if s.shut src then .next (s.turned .host) else
  .next (s.groupCmd src core slot crew (fun g => g.park != 0) fun s x => s.unparkGroup core x)

/-- RELEASE (R348): every generation with a waiting group completes; the crew resumes. -/
def State.releaseCrew (s : State) (c sl : Nat) : State :=
  match nfind (s.whisk c).groups sl with
  | none => s
  | some g =>
    if g.park ≠ 2 then s else
    let s := s.unparkGroup c sl
    (List.range 8).foldl (fun s b =>
      let waiting := (s.cmdSlots c sl true).any fun x => match nfind (s.whisk c).groups x with
        | some g => (match g.wait with | .meet n => n == b | .await n => n == b | .second n _ => n == b | .none => false)
        | none => false
      if waiting then (s.completeGen c g.crew b).checkGen c g.crew b 3 else s) s

/-- GROUP_CMD RELEASE (R348). -/
def execGroupRelease (src : Source) (core : CoreId) (slot : SlotId) (crew : Bool) (s : State) : Host.Outcome State Fault Refusal :=
  if s.shut src then .next (s.turned .host) else
  .next (s.groupCmd src core slot crew (fun g => g.park == 2) fun s x => s.releaseCrew core x)

/-- Kill a group (R355). -/
def State.killGroup (s : State) (c sl : Nat) : State :=
  match nfind (s.whisk c).groups sl with
  | none => s
  | some g => (s.markPart c (if g.park = 7 then 1 else 2)).endGroup c sl

/-- GROUP_CMD KILL (R348, R355). -/
def execGroupKill (src : Source) (core : CoreId) (slot : SlotId) (crew : Bool) (s : State) : Host.Outcome State Fault Refusal :=
  if s.shut src then .next (s.turned .host) else
  .next (s.groupCmd src core slot crew (fun _ => true) fun s x => s.killGroup core x)

/-- Whether a source may debug a core (R779): its own twin, or the host or the test port where DEBUG_CTL allows its fold. -/
def State.mayDebug (s : State) (src : Source) (c : Nat) : Bool :=
  let fold := match s.foldOfCore c with | some f => (s.fget Fd.debugCtl_CONTROL_FOLDS).testBit f | none => false
  match src with
  | .twin n => n.val == c
  | .host => fold
  | .tap => fold || s.scanOn
  | _ => false

/-- A debug write from a source that may not make it (R779): a violation of the host or a twin, ignored from any other. -/
def State.debugDeny (s : State) (src : Source) : State :=
  match src with
  | .host => s.charge src
  | .twin _ => s.charge src
  | _ => s

/-- GROUP_CMD HALT (R348, R779). -/
def State.groupHalt (s : State) (src : Source) (c sl : Nat) (crew : Bool) : State :=
  if !s.mayDebug src c then s.debugDeny src
  else s.groupCmd src c sl crew (fun g => g.park == 0) fun s x => (s.modGroup c x fun g => { g with park := 3, step := false }).latchCore c 1

/-- GROUP_CMD HALT (R348). -/
def execGroupHalt (src : Source) (core : CoreId) (slot : SlotId) (crew : Bool) (s : State) : Host.Outcome State Fault Refusal :=
  if s.shut src then .next (s.turned .host) else
  .next (s.groupHalt src core slot crew)

/-- Let a halted group step (R349): one that waits at a barrier stays at its wait. While it was parked its crew's timer did not run (R337). -/
def State.stepGroup (s : State) (c sl : Nat) : State :=
  match nfind (s.whisk c).groups sl with
  | none => s
  | some g =>
    (s.modCrew c g.crew fun r => { r with since := s.elapsed }).modGroup c sl fun g =>
      if g.wait = .none then { g with park := 0, step := true } else { g with park := 3 }

/-- GROUP_CMD STEP (R349, R779). -/
def State.groupStep (s : State) (src : Source) (c sl : Nat) (crew : Bool) : State :=
  if !s.mayDebug src c then s.debugDeny src
  else s.groupCmd src c sl crew (fun g => g.park == 3 || g.park == 4) fun s x => s.stepGroup c x

/-- GROUP_CMD STEP (R349). -/
def execGroupStep (src : Source) (core : CoreId) (slot : SlotId) (crew : Bool) (s : State) : Host.Outcome State Fault Refusal :=
  if s.shut src then .next (s.turned .host) else
  .next (s.groupStep src core slot crew)

/-- A write to DBG_DATA (Table 9.11). -/
def State.dbgWrite (s : State) (src : Source) (c v : Nat) : State :=
  if !s.mayDebug src c then s.debugDeny src else
  let sl := s.fget Fd.dbgSel_SLOT c
  let r := s.fget Fd.dbgSel_REG c
  match nfind (s.whisk c).groups sl with
  | none => s.charge src
  | some g =>
    if g.park ≠ 3 ∧ g.park ≠ 4 then s.charge src
    else if s.fon Fd.dbgSel_PRED c then s.modGroup c sl fun g => g.setPred (r % 8) (v % 2 ^ 32)
    else s.modGroup c sl fun g => g.setReg r (s.fget Fd.dbgSel_LANE c) (v % 2 ^ 32)

/-- DBG_DATA_WRITE (R361). -/
def execDbgDataWrite (src : Source) (core : CoreId) (v : Word) (s : State) : Host.Outcome State Fault Refusal :=
  if s.shut src then .next (s.turned .host) else .next (s.dbgWrite src core v.toNat)

/-- WHISK_CTL RESUME (R359). -/
def execWhiskResume (src : Source) (core : CoreId) (s : State) : Host.Outcome State Fault Refusal :=
  if s.shut src then .next (s.turned .host) else
  .next (s.engCtl src core 2 1 fun k => { k with whisk := { k.whisk with word := none } })
/-- WHISK_CTL DISCARD (R359). -/
def execWhiskDiscard (src : Source) (core : CoreId) (s : State) : Host.Outcome State Fault Refusal :=
  if s.shut src then .next (s.turned .host) else
  .next (s.engCtl src core 2 2 fun k => { k with whisk := { k.whisk with word := none } })

/-- Every group of every core parked with ADDRESS_MISS on a context resumes (R350). -/
def State.missResume (s : State) (ctx : Nat) : State :=
  let hit (g : WGroup) : Bool := g.park == 1 && g.missCtx.contains ctx
  { s with cores := s.cores.map fun (e : Nat × CoreSt) => (e.1, { e.2 with whisk := { e.2.whisk with
      groups := e.2.whisk.groups.map fun (x : Nat × WGroup) =>
        if hit x.2 then (x.1, { x.2 with park := 0, missCtx := [] }) else x
      crews := e.2.whisk.crews.map fun (r : Nat × Crew) =>
        if e.2.whisk.groups.any fun (x : Nat × WGroup) => x.2.crew == r.1 && hit x.2 then (r.1, { r.2 with since := s.elapsed })
        else r } }) }

/-- A write of 1 to CTX_MISS.VALID (R165, R350). -/
def State.ctxMissClear (s : State) (c : Nat) : State := (s.fset Fd.ctxMiss_VALID 0 c).missResume c

/-- CTX_MISS_CLEAR (R350). -/
def execCtxMissClear (src : Source) (c : CtxId) (s : State) : Host.Outcome State Fault Refusal :=
  if s.shut src then .next (s.turned .host) else .next (s.ctxMissClear c)

end Sys2Proof.Machine
end

