-- ==== Sys2Proof/Machine/Pour.lean ====
section
/-!
DEFINITION. The weight Pour (chapter 12): streams of tiles from HBM over the fold's trees, the nodes' slots, the expander, and the end and
abort of a stream.
-/
namespace Sys2Proof.Machine

/-- The fields of a POUR word (Table 12.4). -/
structure PourWord where
  opc : Nat
  tree : Nat
  done : Nat
  count : Nat
  src : Nat
  limit : Nat
  rsv : Bool
  deriving DecidableEq, Repr

/-- Read a POUR word. -/
def EWord.pour (w : EWord) : PourWord :=
  let a := w.w0.toNat
  { opc := bits a 7 0, tree := bits a 17 8, done := bits a 29 23, count := bits a 63 32, src := w.w1.toNat, limit := w.w2.toNat,
    rsv := bits a 22 18 != 0 || bits a 31 30 != 0 || w.w3 != 0 || (bits a 7 0 == 2 && (w.w1 != 0 || w.w2 != 0)) }

/-- The tree of a fold with an identifier. -/
def State.treeOf (s : State) (f id : Nat) : Option Tree := (s.foldSec f).trees.find? fun t => t.id == id

/-- The word checks of Table 12.7 (R462, R456). -/
def State.pourFail (s : State) (c : Nat) (w : PourWord) : Option Nat :=
  if (w.opc ≠ 1 ∧ w.opc ≠ 2) ∨ !idxOk w.done ∨ w.rsv then some 0x10
  else if w.opc = 1 ∧ w.count = 0 then none
  else match s.foldOfCore c with
    | none => some 0x17
    | some f =>
      let l := w.src % 2 ^ 48
      let out := w.src % 64 ≠ 0 ∨ !s.isSelf w.src ∨ l < s.regionBase f ∨ s.regionBase f + s.regionSize f ≤ l
      if w.opc = 1 ∧ (w.limit = 0 ∨ (¬out ∧ s.regionBase f + s.regionSize f < l + w.limit)) then some 0x12
      else if w.opc = 1 ∧ out then some 0x13
      else match s.treeOf f w.tree with
        | none => some 0x17
        | some t =>
          if w.opc = 1 ∧ (s.chanOut (t.root - 0x1000) ∨ s.chanState (t.root - 0x1000) ≠ 1 ∨
              t.cores.any fun n => !s.corePresent n || s.coreOut n || s.fget Fd.corePwr_STATE n != 0) then some 0x19 else none

/-- The streams that run on a tree of a fold. -/
def State.streamsOn (s : State) (f id : Nat) : List StreamSt := s.streams.filter fun x => x.fold == f && x.word.pour.tree == id

/-- The entry of a core's Pour port that holds a tree: its number and content. -/
def State.pourEntry (s : State) (c id : Nat) : Option (Nat × PourEntry) := (s.core c).pour.find? fun e => e.2.tree == id

/-- The lowest free entry of a core's Pour port. -/
def State.freeEntry (s : State) (c : Nat) : Option Nat := (List.range 4).find? fun n => !nhas (s.core c).pour n

/-- Set an entry of a core's Pour port, and what POUR_PORT_n shows of it. -/
def State.setEntry (s : State) (c n : Nat) (e : PourEntry) : State :=
  let s := s.modCore c fun k => { k with pour := nset k.pour n e }
  ((s.fset Fd.pourPort_IN_USE 1 c n).fset Fd.pourPort_TREE_ID e.tree c n).fset Fd.pourPort_SLOTS_FULL (min e.tiles.length 4) c n

/-- Free an entry of a core's Pour port. -/
def State.freeEntryAt (s : State) (c n : Nat) : State :=
  let s := s.modCore c fun k => { k with pour := ndel k.pour n }
  (s.fset Fd.pourPort_IN_USE 0 c n).fset Fd.pourPort_SLOTS_FULL 0 c n

/-- Free the entries of a tree's nodes that hold no tile and serve no stream. -/
def State.tidyTree (s : State) (f id : Nat) (nodes : List Nat) : State :=
  if !(s.streamsOn f id).isEmpty then s else
  nodes.foldl (fun s c => match s.pourEntry c id with
    | some (n, e) => if e.tiles.isEmpty then s.freeEntryAt c n else s
    | none => s) s

/-- A stream starts: every node has an entry for its tree (R448, R450). -/
def State.streamStart (s : State) (c f : Nat) (e : EWord) (t : Tree) : State :=
  let w := e.pour
  let s := t.cores.foldl (fun s n =>
    let (i, p, fresh) := match s.pourEntry n w.tree with
      | some (i, p) => (i, { p with tiles := p.tiles.map fun (y : PourTile) => ({ y with old := true } : PourTile) }, false)
      | none => ((s.freeEntry n).getD 0, ({ tree := w.tree } : PourEntry), true)
    let s := s.setEntry n i p
    let s := if fresh then s.fset Fd.pourPort_ENDED 0 n i else s
    s.fset Fd.pourPort_TILES_TAKEN 0 n i) s
  { s with streams := s.streams ++ [{ core := c, fold := f, word := e }] }

/-- A POUR word finishes: its DONE_IDX counter is raised. -/
def State.pourFinish (s : State) (c done : Nat) (stream : Bool) : State :=
  let s := s.raiseDone c done
  let s := if stream then s.inc Fd.pourCounts_STREAMS_DONE c else s
  s.setEngState c 4 (if ((s.core c).queue 4).isEmpty then 0 else 1)

/-- The POUR engine stops (R462). -/
def State.pourStop (s : State) (c reason tile : Nat) : State :=
  s.engStop c 4 reason (if reason = 0x22 then 1 else 2) fun s => s.fset Fd.pourFault_TILE (tile % 2 ^ 32) c

/-- The stream a core's POUR engine runs. -/
def State.streamOf (s : State) (c : Nat) : Option StreamSt := s.streams.find? fun x => x.core == c && !x.orphan && !x.ended

/-- Forget a stream. -/
def State.dropStream (s : State) (x : StreamSt) : State :=
  { s with streams := s.streams.filter fun y => !(y.core == x.core && y.fold == x.fold && y.word.pour.tree == x.word.pour.tree) }

/-- The head word of a core's POUR queue, where the engine may take it. -/
def State.pourHead (s : State) (c opc : Nat) : Option EWord :=
  if !s.engReady c 4 || (s.streamOf c).isSome then none
  else (s.headWord c 4).filter fun e => (e.pour.opc == 2) == (opc == 2)

/-- Whether four streams of a root already run: a node holds tiles of at most four trees (R455). -/
def State.rootFull (s : State) (r : Nat) : Bool :=
  decide (4 ≤ (s.streams.filter fun x => (s.streamTree x).any fun t => t.root == r).length)

/-- STREAM (R448): a word that fails its checks stops the engine; one whose tree streams, or that would make a fifth tree at a node,
waits. -/
def State.streamWord (s : State) (c : Nat) : State :=
  match s.pourHead c 1 with
  | none => s
  | some e =>
    let w := e.pour
    match s.pourFail c w with
    | some r => (s.dropWord c 4).pourStop c r 0
    | none =>
      if w.count = 0 then (s.dropWord c 4).pourFinish c w.done true
      else match s.foldOfCore c with
        | none => s
        | some f =>
          match s.treeOf f w.tree with
          | none => s
          | some t =>
            if !(s.streamsOn f w.tree).isEmpty || s.rootFull t.root ||
                t.cores.any (fun n => (s.pourEntry n w.tree).isNone && (s.freeEntry n).isNone) then s
            else (s.dropWord c 4).streamStart c f e t

/-- STREAM (R448). -/
def execStream (core : CoreId) (s : State) : Host.Outcome State Fault Refusal := .next (s.streamWord core)

/-- A tile whose panel is taken and that no child waits for frees its slot. -/
def slotsLeft (l : List PourTile) : List PourTile := l.filter fun t => !(t.taken && t.pending.isEmpty)

/-- DISCARD (R453). -/
def State.discardWord (s : State) (c : Nat) : State :=
  match s.pourHead c 2 with
  | none => s
  | some e =>
    let w := e.pour
    let s := s.dropWord c 4
    match s.pourFail c w with
    | some r => s.pourStop c r 0
    | none =>
      let s := match s.pourEntry c w.tree with
        | some (n, p) =>
          let next := if p.tiles.any fun y => !y.taken then 0 else p.next
          s.setEntry c n { p with tiles := slotsLeft (p.tiles.map fun (y : PourTile) => ({ y with taken := true } : PourTile)), next := next }
        | none => s
      let s := match s.foldOfCore c with
        | some f => s.tidyTree f w.tree [c]
        | none => s
      s.pourFinish c w.done false

/-- POUR_DISCARD_WORD (R453). -/
def execPourDiscardWord (core : CoreId) (s : State) : Host.Outcome State Fault Refusal := .next (s.discardWord core)

/-! Abort (R457, R461, R463). -/

/-- No node forwards the tiles it holds of a tree any further. -/
def State.stopForwarding (s : State) (id : Nat) (nodes : List Nat) : State :=
  nodes.foldl (fun s n => match s.pourEntry n id with
    | some (i, e) =>
      s.setEntry n i ({ e with tiles := slotsLeft (e.tiles.map fun (y : PourTile) => ({ y with pending := [] } : PourTile)) } : PourEntry)
    | none => s) s

/-- The ports of a tree's destinations set ENDED (R457). -/
def State.setEnded (s : State) (id : Nat) (nodes : List Nat) : State :=
  nodes.foldl (fun s n => match s.pourEntry n id with
    | some (i, _) => s.fset Fd.pourPort_ENDED 1 n i
    | none => s) s

/-- Abort a stream (R457): nothing more is injected or forwarded; destinations keep what they hold whole and set ENDED; the issuer's
engine stops with a reason unless it is fenced or was reset. -/
def State.abortStream (s : State) (x : StreamSt) (reason tile : Nat) : State :=
  let id := x.word.pour.tree
  let s := s.dropStream x
  let t := s.streamTree x
  let nodes := (t.map Tree.cores).getD []
  let dests := (t.map (·.dests)).getD 0
  let s := (s.stopForwarding id nodes).setEnded id (nodes.filter fun n => dests.testBit n)
  let s := s.tidyTree x.fold id nodes
  if x.orphan ∨ x.ended ∨ s.coreFence x.core ≠ FencePhase.none then s else s.pourStop x.core reason tile

/-- Whether a stream must be aborted (R457). -/
def State.streamBroken (s : State) (x : StreamSt) : Bool :=
  let bad (n : Nat) : Bool := s.coreFence n != FencePhase.none || s.fget Fd.corePwr_STATE n != 0 || s.coreOut n
  x.cut || bad x.core || match s.streamTree x with
    | some t => t.cores.any bad || s.chanOut (t.root - 0x1000) || s.chanState (t.root - 0x1000) != 1
    | none => true

/-- STREAM_ABORT (R457). -/
def execStreamAbort (core : CoreId) (s : State) : Host.Outcome State Fault Refusal :=
  match s.streams.find? fun x => x.core == core.val && s.streamBroken x with
  | some x => .next (s.abortStream x 0x30 x.tile)
  | none => .next s

/-! Tiles (R444 to R450). -/

/-- Whether a stored and a delivered format form a pair of Table 12.3. -/
def tilePair (src out : Nat) (scaled keep : Bool) : Bool :=
  let narrow := decide (4 ≤ src) && decide (src ≤ 8)
  (narrow && (out == 2 || out == 3) && !keep) || (scaled && keep && out == src && (narrow || src == 10 || src == 11)) ||
    (!scaled && !keep && out == src && okAB src)

/-- Whether a tile's header fails (R445, R449). -/
def tileHeaderBad (h : Bytes) (idx : Nat) : Bool :=
  let src := imgN h 1 1
  let out := imgN h 2 1
  let fl := imgN h 3 1
  let k := imgN h 4 2
  imgN h 0 1 != 0x54 || decide (16 ≤ src) || decide (16 ≤ out) || decide (4 ≤ fl) || imgN h 6 2 != 0 || imgN h 0x18 40 != 0 ||
    imgN h 0x10 8 != idx || !tilePair src out (bit fl 0) (bit fl 1) || k == 0 ||
    decide (kmaxOf (fmtClass src) < k) || decide (kmaxOf (fmtClass out) < k) || (bit fl 0 && k % 32 != 0) ||
    imgN h 0x0C 4 != panelBytes (fmtClass src) k (bit fl 0)

/-- Read HBM through its slices, line by line: the bytes, and whether a line was answered poisoned or not at all. -/
def State.readHbm (s : State) (a : Nat) : Nat → State × Bytes × Bool
  | 0 => (s, [], false)
  | n + 1 =>
    let g := s.hbmAccess (a + 64 * n) 64 .load
    let (s, b, bad) := g.st.readHbm a n
    (s, b ++ g.data, bad || g.ans != .done || g.viol)

/-- Set a stream in the list. -/
def State.putStream (s : State) (x : StreamSt) : State :=
  { s with streams := s.streams.map fun y => if y.core = x.core ∧ y.fold = x.fold ∧ y.word = x.word then x else y }

/-- The children of a node in a tree. -/
def Tree.children (t : Tree) (n : Nat) : List Nat := (t.hops.filter fun h => h.1 == n).map fun h => h.2

/-- The first tile a parent holds for a child. -/
def tileFor (l : List PourTile) (n : Nat) : Option PourTile := l.find? fun t => t.pending.contains n

/-- Whether a destination has accepted every tile of a stream: none is on its way to it. -/
def State.onItsWay (s : State) (x : StreamSt) (t : Tree) : Bool :=
  let below (n : Nat) : Bool := (treeReach t.hops t.hops.length [n]).any fun m => t.dests.testBit m
  let out (l : List PourTile) : Bool := l.any fun y => y.pending.any below
  out x.inj.toList || t.cores.any fun n => match s.pourEntry n t.id with
    | some (_, e) => out e.tiles
    | none => false

/-- A stream that a tile check has stopped ends at its destinations once the tiles before the failing one have been delivered (R462). -/
def State.endStopped (s : State) (x : StreamSt) : State :=
  match s.streamTree x with
  | some t =>
    if !x.ended || s.onItsWay x t then s
    else (((s.dropStream x).stopForwarding t.id t.cores).setEnded t.id (t.cores.filter fun n => t.dests.testBit n)).tidyTree x.fold t.id t.cores
  | none => s

/-- A tile check stops a stream before the failing tile: nothing more is injected, the tiles before it go on, and the engine stops (R462). -/
def State.stopStream (s : State) (x : StreamSt) (reason : Nat) : State :=
  ((s.putStream { x with ended := true }).endStopped { x with ended := true }).pourStop x.core reason x.tile

/-- The root reads and injects the next tile (R449, R462). -/
def State.inject (s : State) (c : Nat) : State :=
  match s.streamOf c with
  | none => s
  | some x =>
    let w := x.word.pour
    if s.streamBroken x || x.inj.isSome || decide (w.count ≤ x.tile) then s else
    match s.streamTree x with
    | none => s
    | some t =>
      if w.limit < x.at' + 64 then s.stopStream x 0x15 else
      let a := w.src % 2 ^ 48 + x.at'
      let (s, h, bad) := s.readHbm a 1
      if bad then s.stopStream x 0x22
      else if tileHeaderBad h x.tile then s.stopStream x 0x14
      else
        let n := imgN h 0x0C 4
        if w.limit < x.at' + 64 + n then s.stopStream x 0x15 else
        let (s, b, bad) := s.readHbm (a + 64) (n / 64)
        if bad then s.stopStream x 0x22
        else
          let y : PourTile := ⟨x.tile, h ++ b, t.children t.root, true, x.tile + 1 == w.count, false⟩
          s.putStream { x with tile := x.tile + 1, at' := x.at' + 64 + n, inj := some y }

/-- TILE_INJECT (R449). -/
def execTileInject (core : CoreId) (s : State) : Host.Outcome State Fault Refusal := .next (s.inject core)

/-- A child has accepted the first tile its parent holds for it. -/
def tileGone : List PourTile → Nat → List PourTile
  | [], _ => []
  | t :: ts, n => if t.pending.contains n then { t with pending := t.pending.filter (· != n) } :: ts else t :: tileGone ts n

/-- What is then left of the parent's slots. -/
def tileSent (l : List PourTile) (n : Nat) : List PourTile := slotsLeft (tileGone l n)

/-- The first tile that a node's parent in a stream's tree, the root or a core, holds for the node. -/
def State.tileHeld (s : State) (x : StreamSt) (t : Tree) (parent node : Nat) : Option PourTile :=
  if parent == t.root then tileFor x.inj.toList node else (s.pourEntry parent t.id).bind fun p => tileFor p.2.tiles node

/-- Whether a stream has a tile waiting on a hop: the parent holds one for the child, and the child has a free slot for the tree (R450, R459).
DEDUCED (log entry 70): a tile whose child has no free slot waits for the slot and not for the hop. -/
def State.hopWaits (s : State) (parent node : Nat) (x : StreamSt) : Bool :=
  !x.orphan && !s.streamBroken x && match s.streamTree x with
    | some t => (s.tileHeld x t parent node).isSome && t.hops.contains (parent, node) && match s.pourEntry node t.id with
      | some (_, e) => decide (e.tiles.length < if t.dests.testBit node then 4 else 1)
      | none => false
    | none => false

/-- The stream whose turn it is on a hop: of those with a tile waiting, the first in round-robin order of TREE_ID after the tree last served
(R459). -/
def State.hopNext (s : State) (parent node : Nat) : Option StreamSt :=
  let turn (x : StreamSt) : Nat := (x.word.pour.tree + 1023 - nget 1023 (s.core node).hops parent) % 1024
  (s.streams.filter (s.hopWaits parent node)).foldl (fun b x => match b with
    | some y => if turn x < turn y then some x else b
    | none => some x) none

/-- The stream of an issuing core whose tile a node accepts next: one whose turn it is on its hop to the node. -/
def State.accepting (s : State) (c node : Nat) : Option StreamSt :=
  s.streams.find? fun x => x.core == c && match s.streamTree x with
    | some t => t.hops.any fun h => h.2 == node && decide (s.hopNext h.1 node = some x)
    | none => false

/-- A node accepts a tile from its parent (R450, R459, R463). -/
def State.accept' (s : State) (c node : Nat) (crcBad : Bool) : State :=
  match s.accepting c node with
  | none => s
  | some x =>
    match s.streamTree x with
    | none => s
    | some t =>
      match t.hops.find? fun h => h.2 == node, s.pourEntry node t.id with
      | some hop, some (i, e) =>
        let parent := hop.1
        match s.tileHeld x t parent node with
        | none => s
        | some tile =>
          let s := s.modCore node fun k => { k with hops := nset k.hops parent t.id }
          if crcBad then
            let s := s.inc Fd.pourCounts_CRC_COUNT node
            (s.detectCore 0x0D node t.id).abortStream x 0x30 tile.idx
          else
            let s := s.setEntry node i
              { e with tiles := slotsLeft (e.tiles ++ [{ tile with pending := t.children node, taken := !t.dests.testBit node }]) }
            if parent == t.root then
              let y := { x with inj := (tileSent x.inj.toList node).head? }
              (s.putStream y).endStopped y
            else match s.pourEntry parent t.id with
              | some (j, p) => (s.setEntry parent j { p with tiles := tileSent p.tiles node }).endStopped x
              | none => s
      | _, _ => s

/-- TILE_ACCEPT (R450). -/
def execTileAccept (core : CoreId) (node : CoreId) (crcBad : Bool) (s : State) : Host.Outcome State Fault Refusal :=
  .next (s.accept' core node crcBad)

/-- STREAM_FINISH (R452). -/
def State.streamEnd (s : State) (c : Nat) : State :=
  match s.streamOf c with
  | none => s
  | some x =>
    match s.streamTree x with
    | none => s
    | some t =>
      if s.streamBroken x || decide (x.tile < x.word.pour.count) || s.onItsWay x t then s
      else (((s.dropStream x).stopForwarding t.id t.cores).tidyTree x.fold t.id t.cores).pourFinish c x.word.pour.done true

/-- STREAM_FINISH (R452). -/
def execStreamFinish (core : CoreId) (s : State) : Host.Outcome State Fault Refusal := .next (s.streamEnd core)

/-! Panels (R446, R451). -/

/-- The panel a tile becomes, and the results of its expansion (R446, R276). -/
def expandTile (d : Bytes) : Bytes × List Res :=
  let src := imgN d 1 1
  let out := imgN d 2 1
  let scaled := bit (imgN d 3 1) 0
  let k := imgN d 4 2
  let t := fp32 (imgN d 8 4)
  let p := d.drop 64
  if src = out then (p, []) else
  let kb := kbOf (fmtClass out)
  let one (kk j : Nat) : Option Res :=
    if k ≤ kk then none else
    let x := decodeNum src (panelElem src p kk j)
    let sc := if scaled then scaleNum (panelScale src p k (kk / 32) j) else .ofInt 1
    some (finish out 0 0 [x, sc, t] ((x.mul sc).mul t))
  let rs := (List.range ((k + kb - 1) / kb)).flatMap fun st => (List.range 8).flatMap fun j => (List.range kb).map fun i => one (st * kb + i) j
  (padTo (panelBytes (fmtClass out) k false) (rs.flatMap fun r => leBytes 2 (match r with | some r => r.bits | none => 0)), rs.filterMap id)

/-- The first panel of a port's tiles is taken. -/
def takeFirst : List PourTile → List PourTile
  | [] => []
  | t :: ts => if t.taken then t :: takeFirst ts else { t with taken := true } :: ts

/-- A port releases a panel (R451): the counts of a stream whose panels are all released, the first to the last, become NUM_LAST_POUR. -/
def State.released (s : State) (c n : Nat) (p : PourEntry) (t : PourTile) (rs : List Res) : State :=
  let first := t.idx = 0
  let sat := (if first then 0 else p.sat) + (rs.filter fun r => r.sat).length
  let fls := (if first then 0 else p.fls) + (rs.filter fun r => r.flush).length
  let whole := first ∨ t.idx = p.next
  let s := s.setEntry c n { p with tiles := slotsLeft (takeFirst p.tiles), next := if whole then t.idx + 1 else 0, sat := sat, fls := fls }
  let s := if t.old then s else s.inc Fd.pourPort_TILES_TAKEN c n
  let s := s.record c 4 rs
  if whole ∧ t.last then
    (s.fset Fd.numLast_LAST_SAT (min sat (2 ^ 32 - 1)) c 3).fset Fd.numLast_LAST_FLUSH (min fls (2 ^ 32 - 1)) c 3
  else s

/-- A destination gives the next panel of a tree to the array word that wants it, for the current round or, as a feeder holds two panels, the
next (R222, R235, R451, R232, Table 6.7, R463). A panel whose format the word does not want is consumed as well; where it is the first of a
round, the word stops at once. -/
def State.release (s : State) (c id : Nat) (fault : Bool) : State :=
  let m := s.mat c
  match m.word, s.pourEntry c id, s.foldOfCore c with
  | some e, some (n, p), some f =>
    let w := e.mma
    let lo := m.round * m.arrays.length
    if !s.matRuns c || !w.pour || w.tree != id || w.k == 0 || m.limit.isSome ||
        decide (min (lo + 2 * m.arrays.length) w.colBlocks ≤ lo + m.panels.length) then s
    else match p.tiles.find? fun t => !t.taken with
      | none => s
      | some t =>
        if fault then
          let s := s.setEntry c n { p with tiles := slotsLeft (takeFirst p.tiles), next := 0 }
          let s := s.inc Fd.pourCounts_RESIDUE_COUNT c
          let s := s.detectCore 0x0E c id
          match (s.streamsOn f id).head? with
          | some x => s.abortStream x 0x30 x.tile
          | none => s.tidyTree f id [c]
        else
          let (b, rs) := expandTile t.data
          let s := s.released c n p t rs
          let bad := imgN t.data 2 1 ≠ w.bfmt ∨ bit (imgN t.data 3 1) 1 ≠ w.sb
          let s := s.modMat c fun m => if bad then { m with limit := some (lo + m.panels.length) } else { m with panels := m.panels ++ [b] }
          let s := if bad ∧ m.panels.isEmpty ∧ m.row = 0 then s.matStop c 0x18 0 0 lo 0 else s.noteWaitPour c w
          s.tidyTree f id [c]
  | _, _, _ => s

/-- PANEL_RELEASE (R451). -/
def execPanelRelease (core : CoreId) (tree : Nat) (fault : Bool) (s : State) : Host.Outcome State Fault Refusal := .next (s.release core tree fault)

/-- POUR_CTL RESUME (R462): the failed word is dropped. -/
def execPourResume (src : Source) (core : CoreId) (s : State) : Host.Outcome State Fault Refusal :=
  if s.shut src then .next (s.turned .host) else .next (s.engCtl src core 4 1 id)
/-- POUR_CTL DISCARD (R462). -/
def execPourDiscard (src : Source) (core : CoreId) (s : State) : Host.Outcome State Fault Refusal :=
  if s.shut src then .next (s.turned .host) else .next (s.engCtl src core 4 2 id)

end Sys2Proof.Machine
end

