-- ==== Sys2Proof/Machine/Rings.lean ====
section
/-!
DEFINITION. The command front end (chapter 13): doorbells, descriptors and handles, the start, work and retirement of a ring's commands,
and the ring commands.
-/
namespace Sys2Proof.Machine

/-! Descriptors (R470, Table 13.2). -/

/-- WAIT_PREV. -/
def RingCmd.waitPrev (c : RingCmd) : Bool := bit (c.word 0) 8
/-- IRQ. -/
def RingCmd.irq (c : RingCmd) : Bool := bit (c.word 0) 9
/-- SIG_ALWAYS. -/
def RingCmd.sigAlways (c : RingCmd) : Bool := bit (c.word 0) 10
/-- SIG_HANDLE. -/
def RingCmd.sigHandle (c : RingCmd) : Nat := bits (c.word 6) 31 0
/-- A relocated address. -/
def RingCmd.addr (c : RingCmd) (k : Nat) : Nat := nget 0 c.addrs k

/-! Rings. -/

/-- RING_STATUS.STATE: 0 STOPPED, 1 RUNNING, 2 DRAINING, 3 ABORTING. -/
def State.ringState (s : State) (r : Nat) : Nat := s.fget Fd.ringStatus_STATE r
/-- SIZE of a ring. -/
def State.ringSize (s : State) (r : Nat) : Nat := s.fget Fd.ringCtl_SIZE r
/-- The context of a ring (R467). -/
def State.ringCtx (s : State) (r : Nat) : Nat := s.fget Fd.ringCtl_CONTEXT r

/-- Entries posted and not yet retired. -/
def RingSt.total (x : RingSt) : Nat := (x.segs.map fun g => g.count).foldl (· + ·) 0

/-- The segment an unretired entry belongs to, by its place in ring order. -/
def segAt : List Seg → Nat → Option Seg
  | [], _ => none
  | g :: l, n => if n < g.count then some g else segAt l (n - g.count)

/-- Show HELD and START (Table 13.14). -/
def State.noteHeld (s : State) (r : Nat) : State :=
  let l := (s.ring r).segs.filter fun g => g.held
  (s.fset Fd.ringStatus_HELD l.length r).fset Fd.ringNextStart_START ((l.head?.map fun g => g.start).getD 0) r

/-- Release held doorbells, oldest first, up to the first whose time has not come (R481, R482): the segments, and how many were late. A
release falls at the DB_START, or for a late one now, and never before the release of the doorbell before it, prev. -/
def releaseSegs (now : Nat) (unlocked : Bool) : Nat → List Seg → List Seg × Nat
  | _, [] => ([], 0)
  | prev, g :: l =>
    if !g.held then let r := releaseSegs now unlocked prev l; (g :: r.1, r.2)
    else if g.start ≤ now then
      let t := max prev (if g.late then now else g.start)
      let r := releaseSegs now unlocked t l
      ({ g with held := false, unlocked := unlocked, rel := some t } :: r.1, r.2 + b2n g.late)
    else (g :: l, 0)

/-- Complete TIME_UNLOCKED a command of a segment released so, unless its descriptor could not be read (R482). -/
def RingCmd.unlock (c : RingCmd) (g : Option Seg) (now : Nat) : RingCmd :=
  match g with
  | some g => if g.unlocked ∧ (c.phase = .checking ∨ c.phase = .ready ∨ (c.phase = .done ∧ (c.status = 2 ∨ c.status = 3 ∨ (c.status = 9 ∧ c.detail = 2)) ∧ c.start = 0)) then
      { c with phase := .done, status := 6, detail := 0, need := 0, fin := now } else c
  | none => c

/-- Release the doorbells of a ring whose time has come (R481). -/
def State.releaseDoorbells (s : State) (r : Nat) : State :=
  let x := releaseSegs s.now (!s.fon Fd.quartzStatus_TIME_LOCKED) 0 (s.ring r).segs
  let s := s.modRing r fun y => { y with
    segs := x.1, cmds := y.cmds.zipIdx.map fun (c, i) => c.unlock (segAt x.1 i) s.now }
  (s.incBy Fd.ringCounts_LATE_STARTS x.2 r).noteHeld r

/-! Doorbells (R468, R469, R481, R483). -/

/-- A write of a tail (R468, R469, R481): plain, or timed at the DB_START value. -/
def State.doorbell (s : State) (r tail : Nat) (timed : Bool) : State :=
  if (s.foldOfRing r).isNone || decide (s.ringSize r ≤ tail) then s.violate (.ring r) else
  let n := (((tail : Int) - (s.fget Fd.ringPtrs_TAIL r : Nat)) % (s.ringSize r : Nat)).toNat
  let x := s.ring r
  if n = 0 then s
  else if timed && decide (8 ≤ (x.segs.filter fun g => g.held).length) then s.violate (.ring r)
  else
    let g : Seg := if timed then { count := n, start := x.dbStart, held := true, late := x.dbStart == 0 || decide (x.dbStart < s.now) }
      else { count := n }
    let s := (s.modRing r fun y => { y with segs := y.segs ++ [g] }).fset Fd.ringPtrs_TAIL tail r
    if timed then (if g.late then s.releaseDoorbells r else s.noteHeld r) else s

/-- DB_TAIL (R469). -/
def execDbTail (ring : RingId) (v : Word32) (s : State) : Host.Outcome State Fault Refusal :=
  .next (if s.shut .host then s.turned (.ring ring) else s.doorbell ring (v.toNat % 65536) false)

/-- DB_START (R483). -/
def State.dbStart (s : State) (r v : Nat) : State :=
  if (s.foldOfRing r).isNone then s.violate (.ring r) else s.modRing r fun x => { x with dbStart := v }

/-- DB_START (R483). -/
def execDbStart (ring : RingId) (v : Word) (s : State) : Host.Outcome State Fault Refusal :=
  .next (if s.shut .host then s.turned (.ring ring) else s.dbStart ring v.toNat)

/-- DB_TIMED_TAIL (R481). -/
def execDbTimedTail (ring : RingId) (v : Word32) (s : State) : Host.Outcome State Fault Refusal :=
  .next (if s.shut .host then s.turned (.ring ring) else s.doorbell ring (v.toNat % 65536) true)

/-- A BAR 2 write that is none of the fields of Table 13.1 at its width, or to a ring no fold owns (R468, R796). -/
def State.pageViolation (s : State) (off width : Nat) : State :=
  let o := off % 4096
  if off < 64 * 4096 ∧ ((s.foldOfRing (off / 4096)).isNone ∨ !((o = 0 ∧ width = 4) ∨ (o = 8 ∧ width = 8) ∨ (o = 16 ∧ width = 4))) then
    s.violate (.ring (off / 4096))
  else s

/-- What a read of BAR 2 of any size answers: zeros, and no violation (R468, R796). No row of the table is such a read; it changes nothing. -/
def bar2Read (size : Nat) : Bytes := List.replicate size 0

/-- DOORBELL_PAGE_VIOLATION (R468). -/
def execDoorbellPageViolation (off width : Nat) (s : State) : Host.Outcome State Fault Refusal :=
  .next (if s.barUp then s.pageViolation off width else unsupported s)

/-- TIMED_DOORBELL_RELEASE (R481, R482). -/
def execTimedDoorbellRelease (ring : RingId) (now : Nat) (s : State) : Host.Outcome State Fault Refusal :=
  .next ((s.advance now).releaseDoorbells ring)

/-! Handles (R471 to R474). -/

/-- A handle a descriptor names: its kind (1 CODE, 2 ARG or SRC, 3 CTR or DST, 4 SIG), handle, offset, bytes needed and the permission,
which for SIG follows from its target. -/
structure HandleUse where
  kind : Nat
  handle : Nat
  off : Nat
  n : Nat
  perm : Option Nat
  deriving DecidableEq, Repr

/-- How a lookup ends: at an address with a SIZE and PERM, with a BAD_HANDLE code, or with a read of the table entry. -/
inductive Look where
  | found (addr size perm : Nat)
  | fail (code : Nat)
  | read
  deriving DecidableEq, Repr

/-- R473 steps 2 to 6 on a table entry of 16 bytes. -/
def decideEntry (e : Nat) (h : HandleUse) : Look :=
  let lo := e % 2 ^ 64
  let hi := e / 2 ^ 64
  let size := bits hi 39 0
  if !bit hi 47 ∨ bits lo 5 0 ≠ 0 ∨ bits hi 46 44 ≠ 0 ∨ bits hi 63 48 = 0 then .fail 2
  else if bits hi 63 48 ≠ bits h.handle 31 16 then .fail 3
  else if size = 0 then .fail 5
  else if size < h.off + h.n then .fail 4
  else if (match h.perm with | some p => !bit hi (40 + p) | none => false) then .fail 6
  else .found ((lo + h.off) % 2 ^ 64) size (bits hi 43 40)

/-- The key of a handle table entry's copy. -/
def htKey (c i : Nat) : Nat := 65536 * c + i

/-- Look a handle up (R471, R473, R474): a copy of another GENERATION is read again. fresh is an entry just read for it. -/
def State.look (s : State) (ctx : Nat) (h : HandleUse) (fresh : Option Nat) : Look :=
  let i := bits h.handle 15 0
  if bits h.handle 31 16 = 0 then .found 0 0 0
  else if !s.fon Fd.ctxHtCtl_ENABLE ctx then .fail 7
  else if s.fget Fd.ctxHtCtl_ENTRIES ctx ≤ i then .fail 1
  else match fresh with
    | some e => decideEntry e h
    | none => match nfind s.htCopies (htKey ctx i) with
      | some e => if bits e 127 112 = bits h.handle 31 16 then decideEntry e h else .read
      | none => .read

/-- An arrival counter or host slice that an address reaches (Table 13.5): counter of a Pantry, with whether it is this member's; or the
context of a host slice. -/
inductive SigPlace where
  | counter (self : Bool) (core n : Nat)
  | host (ctx : Nat)
  | other
  deriving DecidableEq, Repr

/-- What an address of a fold's core reaches after translation (R473). -/
def State.sigPlace (s : State) (f a : Nat) : SigPlace :=
  match s.foldTarget f a with
  | none => .other
  | some t =>
    match s.placeOf (t % 2 ^ 48) with
    | .pantry c off => match ctrOfOff off with
      | some n => .counter (s.isSelf t) c n
      | none => if isCtrOff off then .counter (s.isSelf t) c 64 else .other
    | .host c _ => if s.isSelf t then .host c else .other
    | _ => .other

/-- A command completes without starting: it failed a check (R478). -/
def RingCmd.fails (c : RingCmd) (now st det : Nat) : RingCmd :=
  { c with phase := .done, status := st, detail := det, need := 0, start := 0, fin := now }

/-- Relocate handles in order (R478): the first that fails completes the command with BAD_HANDLE; one that needs its entry read waits. -/
def State.relocate (s : State) (f ctx : Nat) (fresh : Option Nat) : List HandleUse → RingCmd → RingCmd × Bool
  | [], c => (c, true)
  | h :: l, c =>
    if nhas c.addrs h.kind then s.relocate f ctx fresh l c else
    match s.look ctx h (if c.need = h.kind then fresh else none) with
    | .read => ({ c with need := h.kind, stale := false }, false)
    | .fail k => (c.fails s.now 2 (4096 * h.kind + k), false)
    | .found a size perm =>
      let bad : Bool := h.kind == 4 && bits h.handle 31 16 != 0 && (match s.sigPlace f a with
        | .counter _ _ _ => !bit perm 2
        | .host _ => !bit perm 1
        | .other => false)
      if bad then (c.fails s.now 2 0x4006, false)
      else
        let c := { c with need := 0, addrs := nset c.addrs h.kind a }
        let c := if h.kind = 2 then { c with addrs := nset c.addrs 5 (if bits h.handle 31 16 = 0 then 0 else size - h.off) } else c
        s.relocate f ctx fresh l c

/-- The SIG handle of a descriptor. -/
def RingCmd.sigUse (c : RingCmd) : HandleUse := ⟨4, c.sigHandle, c.word 7, 8, none⟩

/-- The handles of a descriptor in word order (Tables 13.3 and 13.5), COLLECTIVE's apart, whose own are checked at its start. -/
def RingCmd.uses (c : RingCmd) : List HandleUse :=
  (match c.opc with
  | 2 => [⟨1, bits (c.word 1) 63 32, c.word 2, 8, some 0⟩, ⟨2, bits (c.word 3) 31 0, c.word 4, 1, some 0⟩]
  | 3 => [⟨3, bits (c.word 1) 31 0, c.word 2, 8, some 0⟩]
  | 4 => [⟨3, bits (c.word 1) 31 0, c.word 2, 8, some 1⟩]
  | _ => []) ++ (if c.opc = 5 then [] else [c.sigUse])

/-- What the signal's target fails (Table 13.5): 6 ALIGN, 4 SIG_TARGET, or nothing. -/
def State.sigTarget (s : State) (f ctx : Nat) (c : RingCmd) : Option Nat :=
  if bits c.sigHandle 31 16 = 0 then none
  else if c.addr 4 % 8 ≠ 0 then some 6
  else match s.sigPlace f (c.addr 4) with
    | .counter _ _ n => if n < 64 then none else some 4
    | .host x => if x = ctx then none else some 4
    | .other => some 4

/-- The arrival counter a WAIT names, of a core of its fold (Table 13.5). -/
def State.waitCtr (s : State) (f : Nat) (c : RingCmd) : Option Nat :=
  match s.sigPlace f (c.addr 3) with
  | .counter true n k => if s.foldOfCore n = some f ∧ k < 64 then some (ctrKey n k) else none
  | _ => none

/-- The targets of Table 13.5, in word order: the DETAIL of the first that fails. -/
def State.targets (s : State) (f ctx : Nat) (c : RingCmd) : Option Nat :=
  if c.opc = 2 ∧ c.addr 1 % 8 ≠ 0 then some 6
  else if c.opc = 3 ∧ (s.waitCtr f c).isNone then some 5
  else if c.opc = 4 ∧ c.addr 3 % 8 ≠ 0 then some 6
  else if c.opc = 5 then none
  else s.sigTarget f ctx c

/-- The handles and targets of a fetched command (R478). -/
def State.checkHandles (s : State) (f ctx : Nat) (c : RingCmd) (fresh : Option Nat) : RingCmd :=
  let (c, ok) := s.relocate f ctx fresh c.uses c
  if !ok then c else
  match s.targets f ctx c with
  | some d => c.fails s.now 3 d
  | none => { c with phase := .ready }

/-- The bits of words 1 to 5 a body uses (Tables 13.3 and 17.8); a COLLECTIVE's are checked at its start. -/
def bodyMask (opc : Nat) : List Nat :=
  let w := 2 ^ 64 - 1
  let h := 2 ^ 32 - 1
  match opc with
  | 2 => [w, w, h, w, w]
  | 3 => [h, w, w, 0, 0]
  | 4 => [h, w, 0, 0, 0]
  | 5 => [w, w, w, w, w]
  | 6 => [0xFFFF00FFFFFF, 0, 0, 0, 0]
  | _ => [0, 0, 0, 0, 0]

/-- Whether a reserved bit of a descriptor is set (R470). -/
def RingCmd.reserved (c : RingCmd) : Bool :=
  bits (c.word 0) 31 11 != 0 || bits (c.word 6) 63 32 != 0 ||
    (List.range 5).any fun i => c.word (i + 1) != (c.word (i + 1)).land ((bodyMask c.opc).getD i 0)

/-- The checks of a descriptor (R478). -/
def State.check (s : State) (r f : Nat) (c : RingCmd) : RingCmd :=
  let lo := bits (c.word 1) 15 0
  let n := bits (c.word 1) 31 16
  if c.opc = 0 ∨ 6 < c.opc then c.fails s.now 3 1
  else if c.reserved then c.fails s.now 3 2
  else if c.opc = 2 ∧ (288 < lo + n ∨ (List.range n).any fun i => s.foldOfCore (lo + i) != some f) then c.fails s.now 3 3
  else s.checkHandles f (s.ringCtx r) c none

/-- The fold of a ring. -/
def State.ringFold (s : State) (r : Nat) : Nat := (s.foldOfRing r).getD 16

/-- The read of a ring's entry: 64 bytes at RING_BASE + 64 × i (R466). The front end's own reads carry tag 0. -/
def State.entryRead (s : State) (r idx : Nat) : Out := .hostRead 0 (4096 * s.fget Fd.ringBase_ADDR r + 64 * idx) 64

/-- The front end takes an entry of a timed doorbell that a fold update has cancelled: it completes ABORTED (R504), or DATA_POISONED where it
could not be read (R506). -/
def State.takeCancelled (s : State) (r : Nat) (p : Nat × Nat) (read : HostRead) : State :=
  let data := readBytes read
  let c : RingCmd := { idx := p.1, seq := p.2, desc := (data.map (padTo 64)).getD [] }
  let c := if data.isNone then c.fails s.now 9 1 else c.fails s.now 1 0
  ((s.emit (s.entryRead r p.1)).modRing r fun x => { x with due := x.due.tail, cancelled := x.cancelled ++ [c] }).noteRead read

/-- The entries fetched ahead: those from the next command to start on (R478). -/
def aheadCmds : List RingCmd → List RingCmd := List.dropWhile fun c => c.phase != .checking && c.phase != .ready

/-- The front end takes the next posted entry (R475, R478, R492, R495, R506). One that a fold update has cancelled is passed, its record
written already (R504). -/
def State.takeNext (s : State) (r : Nat) (read : HostRead) : State :=
  let data := readBytes read
  let x := s.ring r
  let pos := x.cmds.length
  let st := s.ringState r
  if x.total ≤ pos || !(st == 1 || (st == 3 && decide (pos < x.abortLeft))) || 16 ≤ (aheadCmds x.cmds).length then s else
  let idx := s.fget Fd.ringPtrs_HEAD r
  let s := s.fset Fd.ringPtrs_HEAD ((idx + 1) % s.ringSize r) r
  let c : RingCmd := { idx := idx, seq := s.reg .ringSeq r + pos + 1, desc := (data.map (padTo 64)).getD [] }
  let g := segAt x.segs pos
  if g.any fun g => g.gone then
    s.modRing r fun x => { x with cmds := x.cmds ++ [{ c.fails s.now 1 0 with desc := [], sig := some 0, told := true }] }
  else
    let c := if data.isNone then c.fails s.now 9 1
      else if st = 3 then c.fails s.now 1 0
      else if g.any fun g => g.unlocked then c.fails s.now 6 0
      else s.check r (s.ringFold r) c
    ((s.emit (s.entryRead r idx)).modRing r fun x => { x with cmds := x.cmds ++ [c] }).noteRead read

/-- The front end fetches an entry of a ring: first those of cancelled doorbells, whose records come before anything else runs (R504). -/
def State.takeEntry (s : State) (r : Nat) (read : HostRead) : State :=
  if !s.mayMaster then s else
  match (s.ring r).due with
  | p :: _ => s.takeCancelled r p read
  | [] => if (s.ring r).cancelled.isEmpty then s.takeNext r read else s

/-- DESCRIPTOR_FETCH (R478). -/
def execDescriptorFetch (ring : RingId) (data : HostRead) (s : State) : Host.Outcome State Fault Refusal :=
  .next (s.takeEntry ring data)

/-- The context and index of the table entry a command waits for. -/
def State.needEntry (s : State) (r : Nat) (c : RingCmd) : Nat × Nat :=
  let h := if c.need = 4 then c.sigHandle
    else if c.opc = 5 then (if c.need = 2 then bits (c.word 1) 31 0 else bits (c.word 1) 63 32)
    else if c.need = 1 then bits (c.word 1) 63 32
    else if c.need = 2 then bits (c.word 3) 31 0
    else bits (c.word 1) 31 0
  (s.ringCtx r, bits h 15 0)

/-! Starting (R479, R480). -/

/-- The next command of a ring to start, if no earlier one holds it back: its place and itself. -/
def nextToStart : Nat → List RingCmd → Option (Nat × RingCmd)
  | _, [] => none
  | i, c :: l =>
    match c.phase with
    | .ready => some (i, c)
    | .running => nextToStart (i + 1) l
    | .done => nextToStart (i + 1) l
    | _ => none

/-- The target cores of a KERNEL. -/
def RingCmd.cores (c : RingCmd) : List Nat := (List.range (bits (c.word 1) 31 16)).map fun i => bits (c.word 1) 15 0 + i

/-- Whether a core takes a part: present and not mapped out (R485). -/
def State.takesPart (s : State) (c : Nat) : Bool := s.corePresent c && !s.coreOut c

/-- Whether every target core has a free mailbox slot (R479, R487). -/
def State.mailboxFree (s : State) (c : RingCmd) : Bool :=
  c.cores.all fun n => !s.takesPart n || decide ((s.core n).parts.length < 4)

/-- Whether a held doorbell holds back the entry at a place in ring order: its own, or one posted before it (R481). -/
def segHeld : List Seg → Nat → Bool
  | [], _ => false
  | g :: l, n => g.held || (decide (g.count ≤ n) && segHeld l (n - g.count))

/-- The command of a ring that can start now, with its place: it is the next in ring order and every condition of R479 and R481 holds. -/
def State.startable (s : State) (r : Nat) : Option (Nat × RingCmd) :=
  let x := s.ring r
  if s.ringState r ≠ 1 then none else
  (nextToStart 0 x.cmds).filter fun (i, c) => !segHeld x.segs i && !(c.waitPrev && (x.cmds.take i).any fun y => y.phase != .done) &&
    !(c.opc == 2 && !s.mailboxFree c) && !(c.opc == 5 && decide (8 ≤ s.colls.length))

/-- The Quartz time of the release of the segment that a ring's next command begins, if a timed doorbell posted it. -/
def State.releasedAt (s : State) (r : Nat) : Option Nat :=
  (s.startable r).bind fun (i, _) => (segAt (s.ring r).segs i).bind fun g => g.rel

/-- The ring whose command starts next: the rings that have one to start are served round-robin by ring number (R479), and of two segments
released on the same nanosecond the lower ring's starts first (R498). -/
def State.nextRing (s : State) : Option Nat :=
  let l := (s.rings.map fun e => e.1).filter fun r => (s.startable r).isSome
  let first := match l.find? fun r => decide (s.lastRing < r) with
    | some r => some r
    | none => l.head?
  first.bind fun r => match s.releasedAt r with
    | some t => l.find? fun q => s.releasedAt q == some t
    | none => some r

/-- The first command of a segment has started. -/
def segBegun : List Seg → Nat → List Seg
  | [], _ => []
  | g :: l, n => if n < g.count then { g with rel := none } :: l else g :: segBegun l (n - g.count)

/-- COMMAND_START (R479 to R482, R498): a ring whose turn it is not waits for it. -/
def State.startCommand (s : State) (r : Nat) : State :=
  if s.nextRing ≠ some r then s else
  match s.startable r with
  | none => s
  | some (i, c) =>
    let fenced := c.opc ≠ 6 ∧ s.foldFence (s.ringFold r) ≠ FencePhase.none
    let s := { s.modRing r fun x => { x with segs := segBegun x.segs i } with lastRing := r }
    if fenced then s.cmdDone r c.seq 4 0 else s.modCmd r c.seq fun c => { c with phase := .started, start := s.now }

/-- COMMAND_START (R479). -/
def execCommandStart (ring : RingId) (now : Nat) (s : State) : Host.Outcome State Fault Refusal :=
  .next ((s.advance now).startCommand ring)

/-! The work of each command. -/

/-- NOP (R491). -/
def State.nopRow (s : State) (r : Nat) : State :=
  match s.startedCmd r 1 with
  | some c => s.cmdDone r c.seq 0 0
  | none => s

/-- NOP (R491). -/
def execNop (ring : RingId) (s : State) : Host.Outcome State Fault Refusal := .next (s.nopRow ring)

/-- A dispatch record (Table 13.9). -/
def RingCmd.record (c : RingCmd) (r rank : Nat) : Bytes :=
  recBytes 64 [(0, 8, c.seq), (8, 1, r), (12, 4, bits (c.word 0) 63 32), (16, 8, c.addr 1), (24, 8, c.addr 2), (32, 8, c.addr 5),
    (40, 8, c.word 5), (48, 2, bits (c.word 1) 15 0), (50, 2, bits (c.word 1) 31 16), (52, 2, rank), (56, 8, 1)]

/-- One part of a KERNEL (R485, R486): a core mapped out takes none, a core that takes no traffic answers FENCED, another gets its record
and its raised ARR_63. -/
def State.dispatchPart (s : State) (r : Nat) (c : RingCmd) (n : Nat) : State :=
  if !s.takesPart n then s.partEnd r c.seq 8 2
  else if s.coreFence n ≠ FencePhase.none ∨ s.fget Fd.corePwr_STATE n ≠ 0 then s.partEnd r c.seq 4 0
  else
    let k := nget 0 s.dispatch n
    let s := s.pantryPut n (0xFB00 + 64 * (k % 4)) (c.record r (n - bits (c.word 1) 15 0))
    let s := { s with dispatch := nset s.dispatch n (k + 1) }
    let s := s.modCore n fun x => { x with parts := x.parts ++ [({ ring := r, seq := c.seq } : Part)] }
    s.ctrAdd (ctrKey n 63) 1

/-- KERNEL (R485 to R488): with no target core it completes at once. -/
def State.kernelRow (s : State) (r : Nat) : State :=
  match s.startedCmd r 2 with
  | none => s
  | some c =>
    if c.cores.isEmpty then s.cmdDone r c.seq 0 0
    else if !s.mailboxFree c then s
    else c.cores.foldl (fun s n => s.dispatchPart r c n) (s.cmdRun r c.seq c.cores.length)

/-- KERNEL (R486). -/
def execKernel (ring : RingId) (s : State) : Host.Outcome State Fault Refusal := .next (s.kernelRow ring)

/-- WAIT (R490, R393, R403, R500): OK once the counter reaches the threshold, FENCED when its core is fenced. -/
def State.waitRow (s : State) (r : Nat) : State :=
  match s.startedCmd r 3 with
  | none => s
  | some c =>
    let id := 20000 + r
    let finish (st det : Nat) : State := ({ s with waiters := ndel s.waiters id }).cmdDone r c.seq st det
    match s.waitCtr (s.ringFold r) c with
    | none => finish 4 0
    | some k =>
      if s.coreFence (k / 64) ≠ FencePhase.none then finish 4 0
      else if (nfind s.waiters id).any fun w => w.hit.isSome then finish 0 0
      else if nhas s.ctrPoison k then finish 9 3
      else if c.word 3 ≤ s.ctr k then finish 0 0
      else { s with waiters := nset s.waiters id ⟨k, c.word 3, none⟩ }

/-- WAIT (R490). -/
def execWait (ring : RingId) (s : State) : Host.Outcome State Fault Refusal := .next (s.waitRow ring)

/-- Whether a request of a ring is under way, or its answer waits. -/
def State.ringBusy (s : State) (r : Nat) : Bool := s.inFlight (.ring r) || s.replies.any fun x => x.by' == .ring r

/-- TIMESTAMP ends with the answer of its write (R491): an error under R79 completes it ENGINE_FAULT (R84). -/
def State.timestampEnd (s : State) (r : Nat) (c : RingCmd) : Answer → State
  | .done => s.cmdDone r c.seq (b2n c.cut) 0
  | .dropped => s.cmdDone r c.seq (b2n c.cut) 0
  | .fenced => s.cmdDone r c.seq 8 1
  | .miss => s.cmdDone r c.seq 8 1
  | .poisoned => s.cmdDone r c.seq 9 3
  | .error => s.cmdDone r c.seq 8 1

/-- TIMESTAMP (R491). -/
def State.timestampRow (s : State) (r : Nat) : State :=
  match s.startedCmd r 4 with
  | none => s
  | some c =>
    if c.sent then
      match s.takeReply (.ring r) with
      | some (s, a, _) => s.timestampEnd r c a
      | none => s
    else if s.ringBusy r then s
    else
      let v : Viol := .ring r
      let (s, a) := s.deliver (.ring r) (s.resolveFold (s.ringFold r) 1 (c.addr 3) false v) (.store (leBytes 8 c.start)) 8 0 0x7F v
      match a with
      | some (a, _) => s.timestampEnd r c a
      | none => if s.inFlight (.ring r) then s.modCmd r c.seq fun c => { c with sent := true } else s

/-- TIMESTAMP (R491). -/
def execTimestamp (ring : RingId) (now : Nat) (s : State) : Host.Outcome State Fault Refusal :=
  .next ((s.advance now).timestampRow ring)

/-! Retirement (R477, R484). -/

/-- The DETAIL bits of a signal by its answer (R484): a FENCED answer raises RING_VIOL as a violation does, and SIG_REFUSED_COUNT. -/
def State.sigAnswer (s : State) (r : Nat) : Answer → State × Nat
  | .done => (s, 0)
  | .dropped => (s, 4)
  | .fenced => ((s.violate (.ring r)).inc Fd.ringCounts_SIG_REFUSED_COUNT r, 4)
  | .miss => (s, 4)
  | .poisoned => (s, 4)
  | .error => (s, 4)

/-- Send the completion signal (R484): a SIGNAL of 1, or an 8-byte write of SEQ to a host slice. -/
def State.sendSignal (s : State) (r : Nat) (c : RingCmd) : State :=
  if s.ringBusy r then s else
  let f := s.ringFold r
  let v : Viol := .ring r
  let host := match s.sigPlace f (c.addr 4) with | .host _ => true | _ => false
  let (s, a) := s.deliver (.ring r) (s.resolveFold f (if host then 1 else 2) (c.addr 4) false v)
    (if host then .store (leBytes 8 c.seq) else .signal 1) 8 0 0x7F v
  match a with
  | some (a, _) => let (s, b) := s.sigAnswer r a; s.modCmd r c.seq fun c => { c with sig := some b }
  | none => if s.inFlight (.ring r) then s.modCmd r c.seq fun c => { c with sent := true } else s

/-- Step 1 of the retirement of a command (R477, R484): its signal is settled when sig holds its DETAIL bits. A handle that was not
relocated by the checks is relocated here; one that fails sends none. -/
def State.signalStep (s : State) (r : Nat) (c : RingCmd) (fresh : Option Nat) : State :=
  let settle (b : Nat) : State := s.modCmd r c.seq fun c => { c with sig := some b, need := 0 }
  if bits c.sigHandle 31 16 = 0 then settle 0
  else if c.status ≠ 0 ∧ !c.sigAlways then settle 2
  else if c.sent then
    match s.takeReply (.ring r) with
    | some (s, a, _) => let (s, b) := s.sigAnswer r a; s.modCmd r c.seq fun c => { c with sig := some b, sent := false }
    | none => s
  else if nhas c.addrs 4 then s.sendSignal r c
  else
    let f := s.ringFold r
    let (d, ok) := s.relocate f (s.ringCtx r) fresh [c.sigUse] c
    if !ok then (if d.need = 4 ∧ d.phase = c.phase ∧ d.status = c.status ∧ d.detail = c.detail then s.modCmd r c.seq fun c => { c with need := 4, stale := false } else settle 0)
    else if (s.sigTarget f (s.ringCtx r) d).isSome then settle 0
    else (s.modCmd r c.seq fun c => { c with need := 0, addrs := d.addrs }).sendSignal r d

/-- The completion record (Table 13.6). SIG and LATE_START bits go where Table 13.8 has them. -/
def RingCmd.completion (c : RingCmd) (late : Bool) : Bytes :=
  let st := c.status
  let det := if st = 0 then (c.sig.getD 0).lor (b2n late) else if st = 1 ∨ (4 ≤ st ∧ st ≤ 7) then c.sig.getD 0 else c.detail
  recBytes 32 [(0, 8, c.seq), (8, 4, bits (c.word 0) 63 32), (12, 1, st), (13, 1, c.opc), (14, 2, det), (16, 8, c.start), (24, 8, c.fin)]

/-- A record or a sequence word whose write the link does not take is lost and reported (R506, R800). -/
def State.cplWrite (s : State) (addr : Nat) (b : Bytes) (ok : Bool) : State :=
  if ok then (s.hostWriteF addr b 5).1 else (s.inc Fd.pcieCounts_WRITES_LOST).detectHub 0x1C 5

/-- One entry leaves the ring's first segment. -/
def dropEntry : List Seg → List Seg
  | [] => []
  | g :: l => if g.count ≤ 1 then l else { g with count := g.count - 1 } :: l

/-- A stopping ring becomes STOPPED after the last command retires (R494, R495). -/
def State.ringSettle (s : State) (r : Nat) : State :=
  let x := s.ring r
  if (s.ringState r = 2 ∧ x.cmds.isEmpty) ∨ (s.ringState r = 3 ∧ x.abortLeft = 0) then s.fset Fd.ringStatus_STATE 0 r else s

/-- Steps 2 to 4 of the retirement of a command (R477): its record, its sequence word where every earlier command has retired, its message,
and the COMMANDS count. The link takes or rejects each of the two writes (R506). -/
def State.retireWrites (s : State) (r : Nat) (c : RingCmd) (late inOrder ok seqOk : Bool) : State :=
  let s := if c.told then s else s.cplWrite (4096 * s.fget Fd.ringCplBase_ADDR r + 32 * c.idx) (c.completion late) ok
  let s := if inOrder then (s.cplWrite (s.fget Fd.ringSeqAddr_ADDR r * 8) (leBytes 8 c.seq) seqOk).setReg .ringSeq c.seq r else s
  if c.told then s else (if c.irq then s.raiseVec (s.fget Fd.ringCtl_VECTOR r) else s).inc Fd.ringCounts_COMMANDS r

/-- The rest of the retirement of a ring's first command (R477). -/
def State.retireFirst (s : State) (r : Nat) (c : RingCmd) (ok seqOk : Bool) : State :=
  let s := s.retireWrites r c ((segAt (s.ring r).segs 0).any fun g => g.late) true ok seqOk
  let s := s.modRing r fun x => { x with cmds := x.cmds.tail, segs := dropEntry x.segs, abortLeft := x.abortLeft - 1 }
  s.ringSettle r

/-- The rest of the retirement of a cancelled command (R504): where nothing posted before it is open, it leaves the ring; else its entry is
passed when its turn comes. -/
def State.retireCancelled (s : State) (r : Nat) (c : RingCmd) (ok seqOk : Bool) : State :=
  let x := s.ring r
  let first := x.cmds.isEmpty && (segAt x.segs 0).any fun g => g.gone
  let s := s.retireWrites r c false first ok seqOk
  let s := if first then s.fset Fd.ringPtrs_HEAD ((c.idx + 1) % max 1 (s.ringSize r)) r else s
  s.modRing r fun x => { x with cancelled := x.cancelled.tail, segs := if first then dropEntry x.segs else x.segs }

/-- COMMAND_RETIRE (R477): a cancelled command, or a ring's first command once it has completed and no doorbell holds it; its signal is
settled first. -/
def State.retireRow (s : State) (r : Nat) (ok seqOk : Bool) : State :=
  match (s.ring r).cancelled with
  | c :: _ =>
    let s := if c.sig.isNone then s.signalStep r c none else s
    match (s.ring r).cancelled with
    | c :: _ => if c.sig.isSome then s.retireCancelled r c ok seqOk else s
    | [] => s
  | [] =>
    match (s.ring r).cmds.head? with
    | none => s
    | some c =>
      if c.phase != .done || (match segAt (s.ring r).segs 0 with | some g => g.held | none => false) then s else
      let s := if c.sig.isNone then s.signalStep r c none else s
      match (s.ring r).cmds.head? with
      | none => s
      | some c => if c.sig.isSome then s.retireFirst r c ok seqOk else s

/-- COMMAND_RETIRE (R477). -/
def execCommandRetire (ring : RingId) (writeOk seqOk : Bool) (s : State) : Host.Outcome State Fault Refusal :=
  .next (s.retireRow ring writeOk seqOk)

/-! Ring commands (R494 to R498, Table 13.12). -/

/-- A ring command Table 13.12 refuses (R497). -/
def State.ringRefuse (s : State) (src : Source) (r : Nat) : State := (s.fset Fd.ringStatus_REASON 5 r).charge src

/-- START (R497, R467, R468, R493). -/
def State.ringStart (s : State) (src : Source) (r : Nat) : State :=
  if s.ringState r ≠ 0 then s.ringRefuse src r else
  match s.foldOfRing r with
  | none => s.fset Fd.ringStatus_REASON 3 r
  | some f =>
    if s.foldOfCtx (s.ringCtx r) ≠ some f then s.fset Fd.ringStatus_REASON 4 r
    else if s.ringSize r = 0 then s.fset Fd.ringStatus_REASON 1 r
    else if s.ringSize r < 16 ∨ 65536 < s.ringSize r then s.fset Fd.ringStatus_REASON 2 r
    else
      let s := s.fset Fd.ringStatus_STATE 1 r
      if 4 ≤ s.fget Fd.bootStatus_STAGE then s.fset Fd.bootStatus_STAGE 6 else s

/-- RING_START (R497). -/
def execRingStart (src : Source) (ring : RingId) (s : State) : Host.Outcome State Fault Refusal :=
  if s.shut src then .next (s.turned .host) else .next (s.ringStart src ring)

/-- The commands of a ring, from a place in ring order on, that a STOP_DRAIN keeps: those that have started, and those that have failed
their checks with no command before them that could still start and no doorbell that holds them (R494). -/
def keptCmds (segs : List Seg) : Nat → List RingCmd → List RingCmd
  | _, [] => []
  | i, c :: l => if c.phase = .checking ∨ c.phase = .ready ∨ segHeld segs i = true then [] else c :: keptCmds segs (i + 1) l

/-- STOP_DRAIN (R494): entries fetched and not started are returned. -/
def State.stopDrain (s : State) (src : Source) (r : Nat) : State :=
  if s.ringState r ≠ 1 then s.ringRefuse src r else
  let l := (s.ring r).cmds
  let k := keptCmds (s.ring r).segs 0 l
  let s := match l[k.length]? with
    | some c => s.fset Fd.ringPtrs_HEAD c.idx r
    | none => s
  ((s.modRing r fun x => { x with cmds := k }).fset Fd.ringStatus_STATE 2 r).ringSettle r

/-- STOP_DRAIN (R494). -/
def execStopDrain (src : Source) (ring : RingId) (s : State) : Host.Outcome State Fault Refusal :=
  if s.shut src then .next (s.turned .host) else .next (s.stopDrain src ring)

/-- The place of a part in a core's mailbox. -/
def State.partIndex (s : State) (n r seq : Nat) : Option Nat :=
  (s.core n).parts.findIdx? fun p => p.ring == r && p.seq == seq && !p.cut

/-- An ABORT stop reaches the part a core runs (R496, R202, R245, R314, R351, R396, R457): its engines stop and lose their words, its
streams are aborted, and its twin continues at TWIN_BOOT_PC. The mover still waits for the response of a piece outstanding. -/
def State.abortCore (s : State) (n : Nat) : State :=
  let s := { s with streams := s.streams.map fun (x : StreamSt) => if x.core = n then { x with cut := true, orphan := true } else x }
  let out := (s.mov n).word.isSome && s.fget Fd.moverStatus_OUTSTANDING n != 0
  let mine (q : Requester) : Bool := q.ofCore n && (!out || match q with
    | .engine _ a k => a != 4 || k == 3
    | _ => true)
  let s := s.retireRequests mine
  let s := { s with replies := s.replies.filter fun x => !mine x.by', waiters := s.waiters.filter fun e => waiterCore e.1 != some n }
  let boot := BitVec.ofNat 64 (s.fget Fd.twinBootPc_PC n * 4)
  let go (t : TwinSt) : TwinSt :=
    if t.mode = TwinState.running ∨ t.mode = TwinState.halted then
      { t with epc := t.pc, pc := boot, began := false, waiting := false, status := BitVec.ofNat 64 (putBits t.status.toNat 1 0 1) } else t
  let s := (s.enginesCut n).modCore n fun k =>
    { k with queues := [[], [], [], [], []], mov := if out then { k.mov with cut := true } else {}, twin := go k.twin }
  if out then s.setEngState n 3 1 else s

/-- Cut one part of a KERNEL (R496, R499): a fence that reached it first ends it FENCED instead, and the part of a core whose twin is PARKED
ends only by a fence or a reset (R503). A part whose mover waits for a response ends when it has come (R396). -/
def State.cutPart (s : State) (r seq n : Nat) : State :=
  if s.coreFence n ≠ FencePhase.none ∨ (s.twin n).mode = TwinState.parked then s else
  match s.partIndex n r seq with
  | none => s
  | some i =>
    let s := if i = 0 then s.abortCore n else s
    if i = 0 ∧ (s.mov n).cut then
      s.modCore n fun x => { x with parts := x.parts.modifyHead fun p => { p with cut := true, wait := true } }
    else s.cutPartEnd n i

/-- A STOP_ABORT reaches a command (R495, R496). NOP and DOMAIN run to their end, and TIMESTAMP until its write is done. -/
def State.cutCmd (s : State) (r : Nat) (c : RingCmd) : State :=
  match c.phase with
  | .done => s
  | .checking => s.modCmd r c.seq fun c => c.fails s.now 1 0
  | .ready => s.modCmd r c.seq fun c => c.fails s.now 1 0
  | .started =>
    if c.opc = 1 ∨ c.opc = 6 then s
    else if c.opc = 4 then s.modCmd r c.seq fun c => { c with cut := true }
    else ({ s with waiters := ndel s.waiters (20000 + r) }).cmdDone r c.seq 1 0
  | .running =>
    if c.opc = 2 then c.cores.foldl (fun s n => s.cutPart r c.seq n) s
    else if c.opc = 5 then (s.collsOf fun x => x.ring == r && x.seq == c.seq).foldl (fun s i => s.abortColl i 6 false) s
    else s

/-- STOP_ABORT (R495): every entry posted so far completes; held segments are released. -/
def State.stopAbort (s : State) (src : Source) (r : Nat) : State :=
  if s.ringState r ≠ 1 ∧ s.ringState r ≠ 2 then s.ringRefuse src r else
  let s := s.fset Fd.ringStatus_STATE 3 r
  let s := s.modRing r fun x => { x with abortLeft := x.total, segs := x.segs.map fun g => { g with held := false } }
  let s := s.noteHeld r
  ((s.ring r).cmds.foldl (fun s c => s.cutCmd r c) s).ringSettle r

/-- STOP_ABORT (R495). -/
def execStopAbort (src : Source) (ring : RingId) (s : State) : Host.Outcome State Fault Refusal :=
  if s.shut src then .next (s.turned .host) else .next (s.stopAbort src ring)

/-- RESET of a STOPPED ring (R497, R483). -/
def State.ringReset (s : State) (src : Source) (r : Nat) : State :=
  if s.ringState r ≠ 0 then s.ringRefuse src r else
  let s := s.clearRing r
  (((s.fset Fd.ringPtrs_HEAD 0 r).fset Fd.ringPtrs_TAIL 0 r).setReg .ringSeq 0 r).noteHeld r

/-- RING_RESET (R497). -/
def execRingReset (src : Source) (ring : RingId) (s : State) : Host.Outcome State Fault Refusal :=
  if s.shut src then .next (s.turned .host) else .next (s.ringReset src ring)

/-! Handle tables (R474, R493, R502). -/

/-- A write of CTX_HT_CTL that sets ENABLE is checked (R493); a refusal is no violation. -/
def State.htCtl (s : State) (src : Source) (c v : Nat) : State :=
  let was := s.fon Fd.ctxHtCtl_ENABLE c
  let s := s.plainWrite src .ctxHtCtl c 0 31 0 v
  if was ∨ !bit v 31 then s else
  let n := s.fget Fd.ctxHtCtl_ENTRIES c
  let e := if (s.foldOfCtx c).isNone then 3 else if n = 0 then 1 else if 65536 < n then 2 else 0
  (s.fset Fd.ctxHtCtl_REASON e c).fset Fd.ctxHtCtl_ENABLE (b2n (e == 0)) c

/-- CTX_HT_ENABLE (R493). -/
def execCtxHtEnable (src : Source) (c : CtxId) (v : Word32) (s : State) : Host.Outcome State Fault Refusal :=
  if s.shut src then .next (s.turned .host) else
  .next (s.htCtl src c v.toNat)

/-- A write of CTX_HT_INVAL (R474, R502): the held copies are dropped, and entry reads under way are not kept. -/
def State.htInval (s : State) (src : Source) (c : Nat) (all : Bool) (idx : Nat) : State :=
  if s.fon Fd.ctxHtCtl_INVAL_BUSY c then s.charge src else
  let s := s.htDrop c fun i => all || i == idx
  { s.fset Fd.ctxHtCtl_INVAL_BUSY 1 c with rings := s.rings.map fun (e : Nat × RingSt) =>
      (e.1, { e.2 with cmds := e.2.cmds.map fun (x : RingCmd) => if x.need ≠ 0 ∧ s.ringCtx e.1 = c then { x with stale := true } else x }) }

/-- CTX_HT_INVAL (R474). -/
def execCtxHtInval (src : Source) (c : CtxId) (v : Word32) (s : State) : Host.Outcome State Fault Refusal :=
  if s.shut src then .next (s.turned .host) else
  .next (s.htInval src c (bit v.toNat 31) (bits v.toNat 15 0))

/-- CTX_HT_INVAL_DONE (R474). -/
def execCtxHtInvalDone (c : CtxId) (s : State) : Host.Outcome State Fault Refusal :=
  .next (s.fset Fd.ctxHtCtl_INVAL_BUSY 0 c)

end Sys2Proof.Machine
end

