-- ==== Sys2Proof/Machine/Links.lean ====
section
/-!
DEFINITION. The Oznum ports (chapter 14) and the agreement between members (chapter 15): codewords, flits and their retry, the request and
response packets, lanes, port states and agreement records.
-/
namespace Sys2Proof.Machine

/-! Codewords and lanes (R512, R534, R535). -/

/-- A lane's receiver takes a codeword (R512, R534): the third decodable one in a row with consecutive CW_SEQ locks the lane; a locked lane is
lost where 3 in a row, or 16 within any 100 µs, cannot be corrected. -/
def LaneRx.codeword (l : LaneRx) (ok : Bool) (seq now : Nat) : LaneRx :=
  if ok then
    let n := if l.good ≠ 0 ∧ seq = (l.seq + 1) % 256 then l.good + 1 else 1
    { l with good := n, seq := seq, fails := 0, lock := l.lock || decide (3 ≤ n) }
  else
    let b := (l.badAt.filter fun t => decide (now < t + 100000)) ++ [now]
    let n := l.fails + 1
    { l with good := 0, seq := (l.seq + 1) % 256, fails := n, badAt := b, lock := l.lock && decide (n < 3)
             lost := l.lost || (l.lock && (decide (3 ≤ n) || decide (16 ≤ b.length))) }

/-- The lanes of a port that its receiver has locked. -/
def State.lockedLanes (s : State) (p : Nat) : Nat :=
  ((List.range 4).filter fun i => ((s.port p).lanes.getD i {}).lock).foldl (fun m i => m + 2 ^ i) 0

/-- The RX_GOOD that every codeword a port sends carries (Table 14.2, R534): the lanes locked, not found bad, and not taken out. -/
def State.rxGood (s : State) (p : Nat) : Nat :=
  ((List.range 4).filter fun i => let l := (s.port p).lanes.getD i {}
    l.lock && !l.lost && !(s.lanesOutOf p).testBit i && !(s.fget Fd.portStatus_LANES_FAILED p).testBit i).foldl (fun m i => m + 2 ^ i) 0

/-- The header of a codeword that a port sends on a lane in a round (Table 14.2). -/
def State.codewordHeader (s : State) (p lane seq : Nat) : Nat :=
  2 ^ 12 * (seq % 256) + 2 ^ 10 * lane + 2 ^ 6 * s.fget Fd.portStatus_TX_LANE_MAP p + 2 ^ 2 * s.rxGood p

/-- The flits that each lane of LANE_MAP carries in a round, by ascending position (R513): flit j travels on the (j mod W)-th lane at position
⌊j / W⌋. -/
def stripe (map : Nat) (flits : List Bytes) : List (Nat × List Bytes) :=
  let l := bitList 4 map
  l.zipIdx.map fun (n, i) => (n, (List.range 5).filterMap fun k => flits[k * l.length + i]?)

/-- The flits of a round in order, from the codewords of its lanes (R513). -/
def unstripe (map : Nat) (cws : List RxCodeword) : List Bytes :=
  (List.range 5).flatMap fun k => (bitList 4 map).filterMap fun n => (cws.find? fun c => c.lane == n).bind fun c => c.flits[k]?

/-- The next round of a port, when it can be given on (R513): every lane of its LANE_MAP has brought its codeword, or a lane lies more than 8
rounds behind another, and what it has not brought is given up. -/
def PortSt.roundReady (q : PortSt) (map : Nat) : Option (List Bytes) :=
  q.round.bind fun n =>
    let here := q.rounds.filter fun c => c.seq == n
    let m := (here.find? fun c => !c.flits.isEmpty).elim map fun c => c.map
    let whole := !here.isEmpty && (bitList 4 m).all fun i => here.any fun c => c.lane == i
    let late := q.rounds.any fun c => let d := (c.seq + 256 - n) % 256; decide (8 < d) && decide (d < 128)
    if whole || late then some (unstripe m here) else none

/-- A codeword joins its round (R513): one of a round already given on is dropped. -/
def PortSt.joinRound (q : PortSt) (c : RxCodeword) : PortSt :=
  let n := q.round.getD c.seq
  if decide (128 ≤ (c.seq + 256 - n) % 256) then q else { q with round := some n, rounds := q.rounds ++ [c] }

/-- The codewords of the next round have been given on. -/
def PortSt.nextRound (q : PortSt) : PortSt :=
  let n := q.round.getD 0
  { q with round := some ((n + 1) % 256), rounds := q.rounds.filter fun c => c.seq != n }

/-- What a codeword's decoding and its header do (R512, Table 14.2): the header names the lanes the peer sends on and those it receives well,
which choose LANE_MAP. A header that names another lane, or sets a reserved bit, is a protocol error (R545). -/
def State.codewordHead (s : State) (p lane : Nat) (rs : CodewordResult) (hdr : Nat) : State :=
  if s.portState p ≤ 1 ∨ s.portState p = 3 then s else
  let ok : Bool := match rs with | .uncorrectable => false | _ => true
  let s := match rs with
    | .good => s
    | .corrected _ => s.inc Fd.portFec_CORRECTED p
    | .uncorrectable => s.inc Fd.portFec_UNCORRECTABLE p
  let s := s.modPort p fun q => { q with lanes := q.lanes.set lane ((q.lanes.getD lane {}).codeword ok (bits hdr 19 12) s.elapsed) }
  if ok && s.portUp p then
    if bits hdr 1 0 ≠ 0 ∨ bits hdr 11 10 ≠ lane then s.protocolError p
    else ((s.fset Fd.portStatus_RX_LANE_MAP (bits hdr 9 6) p).fset Fd.portStatus_PEER_RX_GOOD (bits hdr 5 2) p).relane p
  else s

/-- LANE_BAD (R534): a lane that has lost lock, or that could not correct 16 codewords within 100 µs, is mapped out. -/
def State.laneBad (s : State) (p lane : Nat) : State :=
  let l := (s.port p).lanes.getD lane {}
  if l.lost = false ∨ (s.lanesOutOf p).testBit lane then s else
  let s := (s.modPort p fun q => { q with lanes := q.lanes.set lane {} }).inc Fd.portEvents_DEGRADES p
  ((s.mapOutLane p lane).detect ⟨0x13, 2, p, lane⟩).relane p

/-- LANE_BAD (R534). -/
def execLaneBad (port : PortId) (lane : Fin 4) (s : State) : Host.Outcome State Fault Refusal := .next (s.laneBad port lane)

/-! Training (R532, Table 14.8). -/

/-- TRAINING_LOCK (R532, R512): lock on at least one lane each way, of those that may be used, takes the port to HELD. rx names the lanes that
have locked, beside those whose codewords have (log entry 44); fallback: AUTO agreed on SPEED_100. -/
def State.trainingLock (s : State) (p rx tx : Nat) (fallback : Bool) : State :=
  if s.portState p ≠ 2 then s else
  let out := s.lanesOutOf p
  let rx := (rx.lor (s.lockedLanes p)).land (15 - out)
  let s := s.modPort p fun q => { q with lanes := q.lanes.zipIdx.map fun (l, i) => { l with lock := l.lock || rx.testBit i } }
  let s := s.fset Fd.portStatus_PEER_RX_GOOD tx p
  let m := chooseLanes (s.goodLanes p) (s.port p).width
  if rx = 0 ∨ m = 0 then s else
  let sel := s.fget Fd.portCtl_SPEED_SEL p
  let s := (s.fset Fd.portStatus_RX_LANE_MAP rx p).fset Fd.portStatus_TX_LANE_MAP m p
  let s := s.fset Fd.portStatus_SPEED (if sel = 0 then 1 + b2n fallback else sel) p
  s.setPortState p 4

/-- TRAINING_LOCK (R532). -/
def execTrainingLock (port : PortId) (lanesRx lanesTx : Fin 16) (fallback : Bool) (now : Nat) (s : State) :
    Host.Outcome State Fault Refusal := .next ((s.advance now).trainingLock port lanesRx lanesTx fallback)

/-- TRAINING_TIMEOUT (R532). -/
def execTrainingTimeout (port : PortId) (now : Nat) (s : State) : Host.Outcome State Fault Refusal :=
  let s := s.advance now
  .next (if s.portState port = 2 ∧ (s.port port).since + 500000000 ≤ s.elapsed then s.setPortState port 3 else s)

/-- DOWN_RETRY (R532). -/
def execDownRetry (port : PortId) (now : Nat) (s : State) : Host.Outcome State Fault Refusal :=
  let s := s.advance now
  .next (if s.portState port = 3 ∧ (s.port port).since + 1000000000 ≤ s.elapsed then s.enterTraining port else s)

/-- RETRAIN (R532): a port in OFF or STANDBY leaves them only by the host's power command. -/
def State.retrainPort (s : State) (p : Nat) : State := if s.portState p ≤ 1 then s else s.enterTraining p

/-- RETRAIN (R532). -/
def execRetrain (src : Source) (port : PortId) (now : Nat) (s : State) : Host.Outcome State Fault Refusal :=
  if s.shut src then .next (s.turned .host) else
  .next ((s.advance now).retrainPort port)

/-- RESTORE_LANES (R534): the lanes a response mapped out return, the image's stay out, and the port retrains. -/
def State.restoreLanes (s : State) (p : Nat) : State :=
  let keep := s.devSec.lanesOut.getD p 0
  let k := 4 * (p % 16)
  let r := s.reg .lanesOut (p / 16)
  let s := s.setReg .lanesOut (putBits r (k + 3) k (keep % 16)) (p / 16)
  (s.fset Fd.portStatus_LANES_FAILED 0 p).retrainPort p

/-- RESTORE_LANES (R534). -/
def execRestoreLanes (src : Source) (port : PortId) (now : Nat) (s : State) : Host.Outcome State Fault Refusal :=
  if s.shut src then .next (s.turned .host) else
  .next ((s.advance now).restoreLanes port)

/-! Flits (R516, R531, R546). -/

/-- Whether FSEQ a precedes b within the window of 512. -/
def fseqBefore (a b : Nat) : Bool := let d := (b + 4096 - a % 4096) % 4096; decide (0 < d) && decide (d ≤ 512)

/-- An ACK acknowledges every flit before it (R516). -/
def State.ackFlits (s : State) (p ack : Nat) : State :=
  let q := s.port p
  let rest := q.unacked.filter fun u => !fseqBefore u.1 (ack % 4096)
  if rest.length = q.unacked.length then s
  else (s.modPort p fun q => { q with unacked := rest, replays := 0, oldest := s.elapsed }).pump p

/-- A NAK for the FSEQ expected, at most once per µs for one FSEQ (R531). -/
def State.sendNak (s : State) (p : Nat) : State :=
  let q := s.port p
  let again := match q.nakAt with | some (f, t) => f == q.rxSeq && decide (s.elapsed < t + 1000) | none => false
  if again then s else (s.modPort p fun q => { q with nakAt := some (q.rxSeq, s.elapsed) }).sendFlit p 2 0 []

/-- Replay from an FSEQ, in order (R531). A replay that would follow 16 without ACK advancing exhausts the retry (R546). -/
def State.replay (s : State) (p fseq : Nat) : State :=
  let q := s.port p
  let l := q.unacked.dropWhile fun u => u.1 != fseq
  if l.isEmpty then s
  else if 16 ≤ q.replays then s.dropToTraining p
  else
    let s := (s.inc Fd.portRetry_REPLAYS p).modPort p fun q => { q with replays := q.replays + 1, oldest := s.elapsed }
    l.foldl (fun s u => s.sendData p u) s

/-- NAK_RECEIVE (R531): its FSEQ also acknowledges what precedes it. -/
def State.nak (s : State) (p fseq : Nat) : State :=
  if s.portState p < 4 then s else (s.ackFlits p fseq).replay p (fseq % 4096)

/-- NAK_RECEIVE (R531). -/
def execNakReceive (port : PortId) (fseq : Nat) (s : State) : Host.Outcome State Fault Refusal := .next (s.nak port fseq)

/-- REPLAY_TIMER (R531). -/
def execReplayTimer (port : PortId) (now : Nat) (s : State) : Host.Outcome State Fault Refusal :=
  let s := s.advance now
  match (s.port port).unacked with
  | [] => .next s
  | u :: _ => .next (if 4 ≤ s.portState port ∧ (s.port port).oldest + 4000 ≤ s.elapsed then s.replay port u.1 else s)

/-- A flit but for what its slots carry (R515, R516, R531): a DATA flit is accepted with its CRC and the FSEQ expected, else discarded with a NAK;
an IDLE flit is acted on for its ACK, a NAK flit replays. The flag says whether a DATA flit is accepted. -/
def State.flitHead (s : State) (p : Nat) (crcOk : Bool) (kind fseq ack : Nat) : State × Bool :=
  if s.portState p < 4 then (s, false)
  else if !crcOk then ((s.inc Fd.portRetry_CRC_ERRORS p).sendNak p, false)
  else if kind = 3 then (s.protocolError p, false)
  else if kind = 2 then (s.nak p ack, false)
  else
    let s := s.ackFlits p ack
    if kind = 0 then (s, false)
    else if fseq % 4096 ≠ (s.port p).rxSeq then (s.sendNak p, false)
    else
      let s := s.modPort p fun q => { q with rxSeq := (q.rxSeq + 1) % 4096, nakAt := none }
      (s.sendFlit p 0 0 [], true)

/-! Requests (R520 to R526, R541, R544, R545). -/

/-- Whether a TYPE is one of Table 14.5. -/
def knownType (t : Nat) : Bool := t ≤ 1 || (packetVc t).isSome

/-- Whether a request packet is well formed (Tables 14.5 and 14.6, R521, R522, R537). -/
def requestOk (l : List Word) : Bool :=
  let typ := slotBits l 0 7 0
  let len := slotBits l 0 14 8
  let op := slotBits l 0 59 56
  let cnt := slotBits l 0 23 19
  let arr := slotBits l 0 46 40
  let addr := slotBits l 1 63 0
  let rsv := slotBits l 0 63 60 == 0 && slotBits l 0 47 47 == 0 && slotBits l 0 15 15 == 0
  let arrOk := if typ = 0x11 ∨ typ = 0x12 then decide (arr < 64) || arr == 0x7F else arr == 0x7F
  let opOk := if typ = 0x14 then decide (op ≤ 9) && (cnt == 0 || (op == 9 && len == 4)) else op == 0 && cnt == 0
  let inGranule := decide (addr % 64 + len ≤ 64)
  rsv && arrOk && opOk &&
    (if typ = 0x10 then decide (1 ≤ len ∧ len ≤ 64) && inGranule && l.length == 2
    else if typ = 0x11 then decide (1 ≤ len ∧ len ≤ 64) && inGranule && l.length == 2 + (len + 7) / 8
    else if typ = 0x12 then len == 64 && addr % 64 == 0 && l.length == 11
    else if typ = 0x13 then len == 8 && inGranule && l.length == 3
    else (len == 4 || len == 8) && addr % len == 0 &&
      l.length == 2 + (if op = 9 then (if len = 8 then 2 else cnt + 1) else 1))

/-- The bytes of a packet's slots from one on. -/
def slotBytes (l : List Word) : Bytes := l.flatMap fun w => leBytes 8 w.toNat

/-- The access a request packet asks for, and the bytes its answer holds. -/
def requestAct (l : List Word) : Act × Nat :=
  let typ := slotBits l 0 7 0
  let len := slotBits l 0 14 8
  let op := slotBits l 0 59 56
  let d := l.drop 2
  if typ = 0x10 then (.load, len)
  else if typ = 0x11 then (.store ((slotBytes d).take len), len)
  else if typ = 0x12 then (.masked (slotBits l 2 63 0) (slotBytes (l.drop 3)), 64)
  else if typ = 0x13 then (.signal (slotBits l 2 63 0), 8)
  else if op = 9 ∧ len = 4 then (.cas (d.map fun w => (bits w.toNat 31 0, bits w.toNat 63 32)), len)
  else if op = 9 then (.atomic 9 8 (slotBits l 3 63 0) (slotBits l 2 63 0), 8)
  else (.atomic op len (slotBits l 2 63 0 % 2 ^ (8 * len)) 0, len)

/-- Perform or forward a request that has arrived (R524), or answer it FENCED where its port is HELD or it may not be performed (R541, R544,
R636). The flag says whether that is done: a request that is to be forwarded waits where it cannot leave yet. -/
def State.performRequest (s : State) (p : Nat) (l : List Word) : State × Bool :=
  let b : Requester := .forward p (slotBits l 0 39 24) (slotBits l 0 55 48)
  let (a, len) := requestAct l
  if s.portState p != 5 || s.portFence p != FencePhase.none || (match s.foldOfPort p with | some f => s.foldFence f != FencePhase.none || s.foldUpdating f | none => false) then
    (s.sendPacket p (rspSlots (slotBits l 0 39 24) (slotBits l 0 55 48) 1 []), true)
  else
    let addr := slotBits l 1 63 0
    let v : Viol := .port p
    let route := if s.member = some (addr / 2 ^ 48) then s.resolveRemote p a.perm addr else .viol v
    let (s, r) := s.deliver b route a len (slotBits l 0 18 16 + 1) (slotBits l 0 46 40) v
    match r with
    | some (r, d) => (s.answer b r d, true)
    | none => (s, s.inFlight b)

/-- Whether two requests that arrived on a port are to one granule: they keep their order (R528). -/
def sameGranule (a b : List Word) : Bool := slotBits a 1 63 6 == slotBits b 1 63 6

/-- Try a request of a port that waits to be forwarded, unless an earlier one to its granule still waits. -/
def State.retryOne (s : State) (p : Nat) (l : List Word) : State :=
  if ((s.port p).fwd.takeWhile fun x => x != l).any (sameGranule l) then s else
  let (t, ok) := s.performRequest p l
  if ok then t.modPort p fun q => { q with fwd := q.fwd.erase l } else s

/-- Try every request that waits to be forwarded (R524): what kept it, an outstanding request, may have been answered. -/
def State.retryForwards (s : State) : State :=
  (s.ports.flatMap fun (e : Nat × PortSt) => e.2.fwd.map fun l => (e.1, l)).foldl (fun s x => s.retryOne x.1 x.2) s

/-- A request packet of a type arrives (R524, R525, R541, R544, R636). -/
def State.requestArrives (s : State) (typ p : Nat) (l : List Word) : State :=
  if !s.portUp p then s
  else if !knownType (slotBits l 0 7 0) then s.protocolError p
  else if slotBits l 0 7 0 ≠ typ then s
  else if !requestOk l then s.protocolError p
  else
    let (s, ok) := s.acceptPacket p l
    if !ok then s else
    let s := s.retryForwards
    if (s.port p).fwd.any (sameGranule l) then s.modPort p fun q => { q with fwd := q.fwd ++ [l] } else
    let (t, ok) := s.performRequest p l
    if ok then t else t.modPort p fun q => { q with fwd := q.fwd ++ [l] }

/-- LOAD_REQUEST (R524). -/
def execLoadRequest (port : PortId) (slots : List Word) (s : State) : Host.Outcome State Fault Refusal :=
  .next (s.requestArrives 0x10 port slots)
/-- STORE_REQUEST (R524). -/
def execStoreRequest (port : PortId) (slots : List Word) (s : State) : Host.Outcome State Fault Refusal :=
  .next (s.requestArrives 0x11 port slots)
/-- STORE_MASKED_REQUEST (R521). -/
def execStoreMaskedRequest (port : PortId) (slots : List Word) (s : State) : Host.Outcome State Fault Refusal :=
  .next (s.requestArrives 0x12 port slots)
/-- SIGNAL_REQUEST (R524). -/
def execSignalRequest (port : PortId) (slots : List Word) (s : State) : Host.Outcome State Fault Refusal :=
  .next (s.requestArrives 0x13 port slots)
/-- ATOMIC_REQUEST (R522). -/
def execAtomicRequest (port : PortId) (slots : List Word) (s : State) : Host.Outcome State Fault Refusal :=
  .next (s.requestArrives 0x14 port slots)

/-! Responses and credits (R518, R519, R523, R539, R540). -/

/-- The answer a STATUS code stands for (Table 14.7). -/
def answerOf (st : Nat) : Answer := if st = 0 then .done else if st = 1 then .fenced else if st = 2 then .miss else .poisoned

/-- Bytes a requester expects in answer to a request. -/
def OutReq.bytes (o : OutReq) : Nat := if o.typ = 0x10 ∨ o.typ = 0x14 then o.len else 0

/-- RSP_RECEIVE (R523): an RSP of an old generation or of a retired tag is dropped and counted (R539, R540). -/
def State.rspArrives (s : State) (p : Nat) (l : List Word) : State :=
  if !s.portUp p ∨ slotBits l 0 7 0 ≠ 0x20 then s
  else if l.length ≠ 1 + slotBits l 0 15 8 ∨ 16 < slotBits l 0 15 8 ∨ 3 < slotBits l 0 43 40 ∨ slotBits l 0 23 16 ≠ 0 ∨
      slotBits l 0 47 44 ≠ 0 ∨ slotBits l 0 63 56 ≠ 0 then s.protocolError p
  else
    let (s, ok) := s.acceptPacket p l
    if !ok then s else
    let tag := slotBits l 0 39 24
    let late := s.inc Fd.portReq_LATE_DROPS p
    match nfind (s.port p).outst tag with
    | none =>
      -- the late reply of a tag a drain or a reset retired frees it (R701)
      if slotBits l 0 55 48 = s.fget Fd.portStatus_GEN p ∧ (nfind (s.port p).retired tag).getD (2 ^ 64) < 2 ^ 64 then
        late.modPort p fun q => { q with retired := ndel q.retired tag }
      else late
    | some o =>
      if slotBits l 0 55 48 ≠ s.fget Fd.portStatus_GEN p ∨ o.gen ≠ s.fget Fd.portStatus_GEN p then late else
      let s := (s.modPort p fun q => { q with outst := ndel q.outst tag }).noteOutst p
      let d := slotBytes l.tail
      (s.answer o.by' (answerOf (slotBits l 0 43 40)) (if o.typ = 0x14 then d else padTo o.bytes d)).retryForwards

/-- RSP_RECEIVE (R523). -/
def execRspReceive (port : PortId) (slots : List Word) (s : State) : Host.Outcome State Fault Refusal :=
  .next (s.rspArrives port slots)

/-- Send, in order, the packets that waited for credits (R518). -/
def State.sendWaiting (s : State) (p : Nat) : State :=
  let l := (s.port p).wait
  let s := s.modPort p fun q => { q with wait := [] }
  l.foldl (fun s w => s.sendPacket p w.2) s

/-- CREDIT_RECEIVE (R519). -/
def State.creditArrives (s : State) (p : Nat) (w : Word) : State :=
  let v := w.toNat
  if !s.portUp p ∨ bits v 7 0 ≠ 1 then s
  else if bits v 15 8 ≠ 0 then s.protocolError p
  else
    let s := s.modPort p fun q => { q with
      txCred := (List.range 4).map fun i => q.txCred.getD i 0 + bits v (27 + 12 * i) (16 + 12 * i) }
    s.sendWaiting p

/-- CREDIT_RECEIVE (R519). -/
def execCreditReceive (port : PortId) (slot : Word) (s : State) : Host.Outcome State Fault Refusal :=
  .next (s.creditArrives port slot)

/-- PORT_TIMEOUT (R540): the tag stays retired until the port's generation next advances. -/
def State.timeoutReq (s : State) (p tag : Nat) : State :=
  match nfind (s.port p).outst tag with
  | none => s
  | some o =>
    if s.elapsed < o.since + 10000000 then s else
    let s := (s.modPort p fun q => { q with outst := ndel q.outst tag, retired := nset q.retired tag (2 ^ 64) }).noteOutst p
    let s := s.answer o.by' .fenced (List.replicate o.bytes 0)
    ((s.inc Fd.portEvents_TIMEOUTS p).detect ⟨0x16, 2, p, tag % 1024⟩).retryForwards

/-- PORT_TIMEOUT (R540). -/
def execPortTimeout (port : PortId) (tag : Nat) (now : Nat) (s : State) : Host.Outcome State Fault Refusal :=
  .next ((s.advance now).timeoutReq port tag)

/-! Agreement (R551, R563 to R567, R588). -/

/-- EPOCH_SKEW (R566). -/
def State.noteSkew (s : State) : State :=
  let e := s.fget Fd.groupEpoch_EPOCH
  s.fset Fd.groupStatus_EPOCH_SKEW (b2n ((List.range 36).any fun p =>
    s.portState p == 5 && !(s.port p).agreeRx.isEmpty && slotBits (s.port p).agreeRx 7 31 0 != e))

/-- The member's own agreement record (Table 15.1). -/
def State.agreement (s : State) : List Word :=
  let img := s.hasImage
  let gv := match s.image with | some l => groupValueOf l | none => List.replicate 32 0
  let flags := b2n img + 2 * b2n (img && s.devSec.role == 1) + 4 * s.fget Fd.quartzStatus_TIME_LOCKED
  [BitVec.ofNat 64 (0x40 + 8 * 2 ^ 8 + 2 ^ 16 * s.fget Fd.fwVersion_PROTO_MAJOR 0 + 2 ^ 24 * s.fget Fd.fwVersion_PROTO_MINOR 0 +
     2 ^ 32 * s.member.getD 0 + 2 ^ 48 * flags),
   BitVec.ofNat 64 s.fuse.deviceId] ++
  ((List.range 4).map fun i => BitVec.ofNat 64 (leNat ((gv.drop (8 * i)).take 8))) ++
  [BitVec.ofNat 64 (s.fget Fd.quartzStatus_TIME_EPOCH + 2 ^ 32 * s.fget Fd.quartzStatus_LEADER_MEMBER),
   BitVec.ofNat 64 (if img then s.fget Fd.groupEpoch_EPOCH else 0)]

/-- AGREE_SEND (R563): on entering HELD, every 100 ms, and when a field has changed. -/
def State.agreeSend (s : State) (p : Nat) : State :=
  let q := s.port p
  let rec' := s.agreement
  if s.portUp p ∧ (q.lastTx ≠ rec' ∨ q.agreeTx + 100000000 ≤ s.elapsed) then
    (s.modPort p fun q => { q with lastTx := rec', agreeTx := s.elapsed }).sendPacket p rec'
  else s

/-- AGREE_SEND (R563). -/
def execAgreeSend (port : PortId) (now : Nat) (s : State) : Host.Outcome State Fault Refusal :=
  .next ((s.advance now).agreeSend port)

/-- Whether an agreement record is well formed (Table 15.1, R588). -/
def agreeOk (l : List Word) : Bool :=
  l.length == 8 && slotBits l 0 15 8 == 8 && slotBits l 0 55 51 == 0 && slotBits l 0 63 56 == 0 && slotBits l 6 63 48 == 0 &&
    slotBits l 7 63 32 == 0

/-- The RESULT of a record (Table 15.4). -/
def State.judge (s : State) (p : Nat) (l : List Word) : Nat :=
  let mine := s.agreement
  if !s.hasImage ∨ slotBits l 0 48 48 = 0 then 2
  else if (l.drop 2).take 4 ≠ (mine.drop 2).take 4 then 3
  else if slotBits l 0 23 16 ≠ slotBits mine 0 23 16 then 4
  else
    let peer := slotBits l 0 47 32
    let g : Option PortGroup := match s.foldOfPort p with
      | some f => (s.foldSec f).groups.find? fun g => g.set.testBit p
      | none => none
    match g with
    | some g => if g.peer = peer then 1 else 5
    | none => if s.member = some peer then 6 else 1

/-- An ACTIVE port returns to HELD, which is a departure other than by command or reset (R567). -/
def State.agreeDown (s : State) (p : Nat) : State :=
  if s.portState p = 5 then (s.leaveActive p 4).detect ⟨0x14, 2, p, 0⟩ else s

/-- BOOT_STATUS.STAGE 5 once every port a fold owns has agreed (R52, Table 19.6). -/
def State.stageAgreed (s : State) : State :=
  if s.fget Fd.bootStatus_STAGE = 4 ∧ ((List.range 36).all fun p => (s.foldOfPort p).isNone || s.portState p == 5) then
    s.fset Fd.bootStatus_STAGE 5 else s

/-- AGREE_RECEIVE (R564). -/
def State.agreeArrives (s : State) (p : Nat) (l : List Word) : State :=
  if !s.portUp p ∨ slotBits l 0 7 0 ≠ 0x40 then s
  else if !agreeOk l then s.protocolError p
  else
    let (s, ok) := s.acceptPacket p l
    if !ok then s else
    let r := s.judge p l
    let s := (s.modPort p fun q => { q with agreeRx := l, agreeAt := some s.elapsed }).inc Fd.agreePort_RECORDS p
    let s := (s.fset Fd.agreePort_PEER_MEMBER (slotBits l 0 47 32) p).fset Fd.agreePort_RESULT r p
    let s := if 3 ≤ r then s.inc Fd.agreePort_MISMATCHES p else s
    let s := if r ≠ 1 then s.agreeDown p
      else
        let s := s.fset Fd.agreePort_NEG_MINOR (min (slotBits l 0 31 24) (s.fget Fd.fwVersion_PROTO_MINOR 0)) p
        if s.portState p = 4 ∧ (s.port p).lastTx ≠ [] then ((s.setPortState p 5).setInUse p).stageAgreed else s
    s.noteSkew

/-- AGREE_RECEIVE (R564). -/
def execAgreeReceive (port : PortId) (slots : List Word) (now : Nat) (s : State) : Host.Outcome State Fault Refusal :=
  .next ((s.advance now).agreeArrives port slots)

/-- AGREEMENT_LOST (R567). -/
def State.agreementLost (s : State) (p : Nat) : State :=
  if s.portState p = 5 ∧ (s.port p).agreeAt.getD 0 + 350000000 ≤ s.elapsed then
    ((s.fset Fd.agreePort_RESULT 7 p).agreeDown p).noteSkew
  else s

/-- AGREEMENT_LOST (R567). -/
def execAgreementLost (port : PortId) (now : Nat) (s : State) : Host.Outcome State Fault Refusal :=
  .next ((s.advance now).agreementLost port)

end Sys2Proof.Machine
end

