-- ==== Sys2Proof/Machine/Colls.lean ====
section
/-!
DEFINITION. The collectives (chapter 15): the start of a COLLECTIVE, its segments' reduction and distribution, OPEN and ABORT, and its end.
The handle table entries that descriptors and collectives wait for arrive here too.
-/
namespace Sys2Proof.Machine

/-! Segments (R555, R561). -/

/-- An open collective. -/
def State.coll (s : State) (i : Nat) : Option Coll := nfind s.colls i
/-- Change an open collective. -/
def State.modColl (s : State) (i : Nat) (f : Coll → Coll) : State :=
  match nfind s.colls i with
  | some x => { s with colls := nset s.colls i (f x) }
  | none => s

/-- Bytes of an element of a collective format: 2 BF16, otherwise FP32. -/
def collBytes (f : Nat) : Nat := if f = 2 then 2 else 4

/-- Elements, or bytes for ALL_GATHER, of a full segment. -/
def Coll.per (x : Coll) : Nat := if x.kind = 3 then 1024 else 256
/-- The number of segments. -/
def Coll.segs (x : Coll) : Nat := (x.elems + x.per - 1) / x.per
/-- The length of a segment. -/
def Coll.len (x : Coll) (seg : Nat) : Nat := min x.per (x.elems - x.per * seg)
/-- Bytes of an input element. -/
def Coll.inB (x : Coll) : Nat := if x.kind = 3 then 1 else collBytes x.inFmt
/-- Bytes of an output element. -/
def Coll.outB (x : Coll) : Nat := if x.kind = 3 then 1 else collBytes x.outFmt
/-- Where a segment's input lies (R561): an ALL_GATHER's owned segments lie by their local positions. -/
def Coll.srcAt (x : Coll) (n seg : Nat) : Nat := x.src + (if x.kind = 3 then 1024 * (seg / n) else seg * 256 * x.inB)
/-- Where a segment's final values go (R561): a REDUCE_SCATTER's by their local positions. -/
def Coll.dstAt (x : Coll) (n seg : Nat) : Nat :=
  x.dst + (if x.kind = 3 then 1024 * seg else (if x.kind = 2 then seg / n else seg) * 256 * x.outB)

/-- The last segment a member owns, if it owns one. -/
def Coll.lastOwned (x : Coll) (n m : Nat) : Option Nat := if m < x.segs then some (m + (x.segs - 1 - m) / n * n) else none

/-- Bytes the layout touches at SRC and at DST (R561). -/
def Coll.spans (x : Coll) (n m : Nat) : Nat × Nat :=
  let local' (b per : Nat) : Nat := match x.lastOwned n m with | some g => g / n * per + x.len g * b | none => 0
  (if x.kind = 3 then local' 1 1024 else x.elems * x.inB, if x.kind = 2 then local' x.outB (256 * x.outB) else x.elems * x.outB)

/-- The key of a segment's state at a level. -/
def lvlKey (seg k : Nat) : Nat := seg * 16 + k

/-- Pieces of a range of bytes, each within one granule. -/
def granules (a len : Nat) : List (Nat × Nat) :=
  if len = 0 then [] else
  (List.range ((a + len - 1) / 64 - a / 64 + 1)).map fun i =>
    let lo := max ((a / 64 + i) * 64) a
    (lo, min ((a / 64 + i) * 64 + 64) (a + len) - lo)

/-! Reads and writes (R573, R574, R587). -/

/-- The first error an answer brings a collective: POISONED, or FENCED. A store into a poisoned granule is performed (R660); one into a host
slice whose map entry could not be read is not (R169). -/
def collReason (a : Answer) (store host : Bool) : Option Nat :=
  match a with
  | .poisoned => if store && !host then none else some 8
  | .fenced => some 1
  | .error => some 1
  | _ => none

/-- One access of a collective: its answer, once it has one. -/
def State.collAccess (s : State) (i : Nat) (x : Coll) (a : Act) (addr len key arr : Nat) : State × Option (Answer × Bytes) :=
  let b : Requester := .coll x.ring i key
  match s.takeReply b with
  | some (s, r, d) => (s, some (r, d))
  | none => if s.inFlight b then (s, none) else s.deliver b (s.resolveFold x.fold a.perm addr false (.ring x.ring)) a len 0 arr (.ring x.ring)

/-- Read one piece of the input, unless it is held. -/
def State.collPiece (s : State) (i : Nat) (p : Nat × Nat) : State :=
  match s.coll i with
  | none => s
  | some x =>
    if nhas x.reads p.1 then s else
    let (s, r) := s.collAccess i x .load p.1 p.2 p.1 0x7F
    match r with
    | none => s
    | some (a, d) =>
      match collReason a false false with
      | some e => s.abortColl i e false
      | none => if a = .miss then s else s.modColl i fun x => { x with reads := nset x.reads p.1 d }

/-- Read a range of the input: its bytes, once every piece is here. -/
def State.collRead (s : State) (i addr len : Nat) : State × Option Bytes :=
  let l := granules addr len
  let s := l.foldl (fun s p => s.collPiece i p) s
  match s.coll i with
  | none => (s, none)
  | some x =>
    if l.all fun p => nhas x.reads p.1 then
      (s.modColl i fun x => { x with reads := l.foldl (fun m p => ndel m p.1) x.reads }, some (l.flatMap fun p => nget [] x.reads p.1))
    else (s, none)

/-- Write the DST pieces that can be written, in order, each a counted write where ARR_IDX says so (R368, R573). -/
def State.collWrites (s : State) (i : Nat) : List (Nat × Bytes) → State
  | [] => s
  | w :: l =>
    match s.coll i with
    | none => s
    | some x =>
      let (s, r) := s.collAccess i x (.store w.2) w.1 w.2.length (2 ^ 60 + w.1) x.arr
      match r with
      | none => s
      | some (a, _) =>
        match collReason a true (match s.resolveFold x.fold 1 w.1 false (.ring x.ring) with | .here _ (.host _ _) => true | _ => false) with
        | some e => s.abortColl i e false
        | none => if a = .miss then s else (s.modColl i fun x => { x with writes := x.writes.tail }).collWrites i l

/-- Send the packets whose neighbour is open, on a port with credits for them beyond the last 3 (R559, R569, R571). -/
def State.collSends (s : State) (i : Nat) : List (Nat × Nat × List Word) → State
  | [] => s
  | (m, seg, p) :: l =>
    match s.coll i with
    | none => s
    | some x =>
      match (if x.opened.contains m then s.collPort x.fold m seg else none) with
      | none => s.collSends i l
      | some port =>
        let q := s.port port
        if (q.wait.any fun w => w.1 == 2) || decide (q.txCred.getD 2 0 < p.length + 3) then s.collSends i l
        else ((s.modColl i fun x => { x with sends := x.sends.erase (m, seg, p) }).sendPacket port p).collSends i l

/-- Do what can be done of a collective's writes and packets. -/
def State.collFlush (s : State) (i : Nat) : State :=
  let s := match s.coll i with | some x => s.collWrites i x.writes | none => s
  match s.coll i with | some x => s.collSends i x.sends | none => s

/-! Reduction and distribution (R556 to R558, R572). -/

/-- One ⊕ on FP32 values, the received partial on the left (R557). -/
def tureenOp (rop a b : Nat) : Res :=
  let x := fp32 a
  let y := fp32 b
  if rop = 0 then finish 1 0 0 [x, y] (x.add 0 y)
  else
    let r := if rop = 1 then x.max2 y else x.min2 y
    { bits := if r.isNan then nanOf 1 else if r = x then a else b, flags := nanFlags [x, y] r }

/-- Record the roundings of a segment at its quarter's Tureen (R576). -/
def State.collRecord (s : State) (i seg : Nat) (l : List Res) : State :=
  let q := seg % 4
  let s := s.fset Fd.tureenStatus_FLAGS ((s.fget Fd.tureenStatus_FLAGS q).lor (l.foldl (fun a r => a.lor r.flags) 0)) q
  s.modColl i fun x =>
    let n := x.nums.getD q (0, 0)
    { x with nums := x.nums.set q (n.1 + (l.filter fun r => r.sat).length, n.2 + (l.filter fun r => r.flush).length) }

/-- A Tureen's residue mismatch (R586). -/
def State.collResidue (s : State) (i seg : Nat) (x : Coll) : State :=
  let s := (s.inc Fd.tureenCounts_RESIDUE_COUNT (seg % 4)).abortColl i 7 false
  s.detect ⟨0x0F, 4, seg % 4, x.id⟩

/-- A segment is finished by its Tureen. -/
def State.segDone (s : State) (seg : Nat) : State := s.inc Fd.tureenStatus_SEGS_DONE (seg % 4)

/-- Queue a PARTIAL (0) or FINAL (1) of a segment for the next member of a level's line. -/
def State.queueSeg (s : State) (i : Nat) (x : Coll) (kind seg k : Nat) (data : List Word) : State :=
  let m := s.member.getD 0
  let next := s.devSec.step k m (segUp seg)
  let p := collSlots kind k m x.id x.epoch x.shape (x.len seg) 0 seg data
  s.modColl i fun x => { x with sends := x.sends ++ [(next, seg, p)] }

/-- A member has a segment's final bytes, formed (entry L) or received at a level: it writes them, and sends them on at that level until
the line's hops are made, and at every level below as the line's first (R558, R572). -/
def State.collFinal (s : State) (i : Nat) (x : Coll) (seg entry : Nat) (b : Bytes) : State :=
  let d := s.devSec
  let m := s.member.getD 0
  let w := (granules (x.dstAt d.memberCount seg) b.length).map fun p => (p.1, (b.drop (p.1 - x.dstAt d.memberCount seg)).take p.2)
  let s := (s.modColl i fun x => { x with fins := nset x.fins seg (), writes := x.writes ++ w }).segDone seg
  if x.kind = 2 then s else
  (List.range d.levelCount).reverse.foldl (fun s k =>
    if k ≤ entry ∧ 2 ≤ d.ringSize k ∧ d.place seg k m + 1 < d.ringSize k then s.queueSeg i x 1 seg k (slotsOf b) else s) s

/-- The member's own input to a segment as FP32 (R556), once it is read. -/
def State.collInput (s : State) (i : Nat) (x : Coll) (seg : Nat) : State × Option (List Nat) :=
  match nfind x.vals (lvlKey seg 0) with
  | some v => (s, some v)
  | none =>
    let (s, r) := s.collRead i (x.srcAt s.devSec.memberCount seg) (x.len seg * x.inB)
    match r with
    | none => (s, none)
    | some b =>
      let v := (List.range (x.len seg)).map fun j =>
        leNat ((b.drop (j * x.inB)).take x.inB) * (if x.inFmt = 2 then 65536 else 1)
      (s.modColl i fun x => { x with vals := nset x.vals (lvlKey seg 0) v }, some v)

/-- One level of a segment's reduction on this member (R556): start a chain, fold and pass on, or end the chain with the level's result.
fault: the adder's residue does not hold (R586). -/
def State.collLevel (s : State) (i seg k : Nat) (fault : Bool) : State :=
  let d := s.devSec
  let m := s.member.getD 0
  match s.coll i with
  | none => s
  | some x =>
    if !d.takesPart seg k m || nhas x.folded (lvlKey seg k) || nhas x.vals (lvlKey seg (k + 1)) then s else
    let p := d.place seg k m
    let ready := d.ringSize k < 2 || p == 1 || nhas x.inbox (lvlKey seg k)
    if !ready then s else
    let (s, own) := if k = 0 then s.collInput i x seg else (s, nfind x.vals (lvlKey seg k))
    match own with
    | none => s
    | some v =>
      if d.ringSize k < 2 then s.modColl i fun x => { x with vals := nset x.vals (lvlKey seg (k + 1)) v }
      else
        let send (s : State) (v : List Nat) : State :=
          let s := s.queueSeg i x 0 seg k (slotsOf (v.flatMap (leBytes 4)))
          let s := s.modColl i fun x => { x with folded := nset x.folded (lvlKey seg k) () }
          if x.kind = 2 then s.segDone seg else s
        if p = 1 then send s v
        else if fault then s.collResidue i seg x
        else
          let l := ((nget [] x.inbox (lvlKey seg k)).zip v).map fun (a, b) => tureenOp x.rop a b
          let s := s.collRecord i seg l
          if p = 0 then s.modColl i fun x => { x with vals := nset x.vals (lvlKey seg (k + 1)) (l.map (·.bits)) }
          else send s (l.map (·.bits))

/-- Advance a segment's reduction as far as this member can; its owner rounds the last level's result once to OUT_FMT (R557). -/
def State.collAdvance (s : State) (i seg : Nat) (fault : Bool) : State :=
  let n := s.devSec.levelCount
  let s := if n = 0 then
      match s.coll i with
      | some x => (s.collInput i x seg).1
      | none => s
    else (List.range n).foldl (fun s k => s.collLevel i seg k fault) s
  match s.coll i with
  | none => s
  | some x =>
    match nfind x.vals (lvlKey seg n) with
    | none => s
    | some v =>
      if nhas x.fins seg then s else
      let l := v.map fun a => let y := fp32 a; finish x.outFmt 0 0 [y] y
      (s.collRecord i seg l).collFinal i x seg n (l.flatMap fun r => leBytes x.outB r.bits)

/-- SEGMENT_ORIGINATE (R571, R572): a chain's start, an owner's gather, or a segment that waited for its input. -/
def State.segOriginate (s : State) (i seg : Nat) (fault : Bool) : State :=
  match s.coll i with
  | none => s
  | some x =>
    if x.segs ≤ seg then s
    else if x.kind ≠ 3 then (s.collAdvance i seg fault).collFlush i
    else if s.member ≠ some (s.devSec.owner seg) ∨ nhas x.fins seg = true then s.collFlush i
    else
      let (s, r) := s.collRead i (x.srcAt s.devSec.memberCount seg) (x.len seg)
      match r with
      | none => s
      | some b => (s.collFinal i x seg s.devSec.levelCount b).collFlush i

/-- SEGMENT_ORIGINATE (R571). -/
def execSegmentOriginate (coll seg : Nat) (fault : Bool) (s : State) : Host.Outcome State Fault Refusal :=
  .next (s.segOriginate coll seg fault)

/-- Whether a segment's work on this member is done: its final values are known, or its partial of a REDUCE_SCATTER is sent on. -/
def State.segFinished (s : State) (x : Coll) (seg : Nat) : Bool :=
  nhas x.fins seg || (x.kind == 2 && (List.range s.devSec.levelCount).any fun k => nhas x.folded (lvlKey seg k))

/-- COLLECTIVE_COMPLETE (R573): every DST write performed, and every packet owed sent. -/
def State.collComplete (s : State) (i : Nat) : State :=
  let s := s.collFlush i
  match s.coll i with
  | none => s
  | some x =>
    if x.writes.isEmpty && x.sends.isEmpty && (List.range x.segs).all (fun g => s.segFinished x g) then s.endColl i 0 0 else s

/-- COLLECTIVE_COMPLETE (R573). -/
def execCollectiveComplete (coll : Nat) (s : State) : Host.Outcome State Fault Refusal := .next (s.collComplete coll)

/-! COLL packets (R562, R569, R570, R579, R588). -/

/-- Whether a COLL packet is well formed (Table 15.3, R588, R578). -/
def collOk (l : List Word) : Bool :=
  let kind := slotBits l 0 19 16
  let len := slotBits l 1 58 48
  let ck := slotBits l 1 39 32
  let of := slotBits l 1 47 44
  let data := if kind = 0 then (4 * len + 7) / 8
    else if kind = 1 then ((if ck = 3 then len else len * collBytes of) + 7) / 8 else 0
  decide (kind ≤ 3) && slotBits l 0 23 23 == 0 && slotBits l 0 63 56 == 0 && slotBits l 1 63 63 == 0 &&
    decide (1 ≤ ck ∧ ck ≤ 3) && decide (slotBits l 1 43 40 ≤ 2) && decide (of ≤ 2) &&
    l.length == slotBits l 0 15 8 && l.length == 3 + data &&
    (if kind ≤ 1 then decide (1 ≤ len ∧ len ≤ 1024) && slotBits l 1 62 59 == 0
    else len == 0 && slotBits l 2 63 0 == 0 && slotBits l 0 22 20 == 0 &&
      (if kind = 3 then decide (1 ≤ slotBits l 1 62 59 ∧ slotBits l 1 62 59 ≤ 8) else slotBits l 1 62 59 == 0))

/-- The open collective with an identity. -/
def State.collOfId (s : State) (id : Nat) : Option (Nat × Coll) := s.colls.find? fun e => e.2.id == id

/-- Hold an OPEN or ABORT for a later start (R569, R579): the table has 16 places, and the oldest is dropped. -/
def State.holdColl (s : State) (l : List Word) : State :=
  let h : HeldColl := ⟨slotBits l 0 55 40, slotBits l 1 31 0, slotBits l 0 39 24, slotBits l 0 19 16, l⟩
  let t := (s.heldColls.filter fun x => !(x.id == h.id && x.src == h.src && x.kind == h.kind)) ++ [h]
  { s with heldColls := t.drop (t.length - 16) }

/-- What a packet of an open collective fails (R570): 3 EPOCH_MISMATCH, 4 SHAPE_MISMATCH. -/
def Coll.mismatch (x : Coll) (l : List Word) : Option Nat :=
  if slotBits l 1 31 0 ≠ x.epoch then some 3
  else if slotBits l 1 47 32 ≠ x.shape then some 4
  else if 2 ≤ slotBits l 0 19 16 then none
  else if x.segs ≤ slotBits l 2 63 0 ∨ slotBits l 1 58 48 ≠ x.len (slotBits l 2 63 0) then some 4
  else none

/-- An OPEN of a neighbour reaches an open collective. -/
def State.collOpened (s : State) (i : Nat) (x : Coll) (l : List Word) : State :=
  match x.mismatch l with
  | some e => s.abortColl i e false
  | none =>
    let m := slotBits l 0 39 24
    (s.modColl i fun x => { x with opened := if x.opened.contains m then x.opened else x.opened ++ [m] }).collFlush i

/-- A PARTIAL or FINAL of a collective that is not open, or of an open one that no step of this member takes, is dropped and counted at the
Tureen that handles its segment (R559, R570). -/
def State.collDrop (s : State) (l : List Word) : State := s.inc Fd.tureenCounts_DROPS (slotBits l 2 63 0 % 4)

/-- A COLL packet of a kind arrives (R588): the slot of its open collective, where it matches. Its slots are freed in any case (R519); on a port
that no fold owns it is dropped and counted at the Tureen of the port's quarter (R146), and on a port in HELD it is dropped (R541). -/
def State.collArrives (s : State) (p kind : Nat) (l : List Word) (act : State → Nat → Coll → State) (idle : State → State) : State :=
  if !s.portUp p ∨ slotBits l 0 7 0 ≠ 0x30 ∨ (collOk l = true ∧ slotBits l 0 19 16 ≠ kind) then s
  else if !collOk l then s.protocolError p
  else
    let (s, ok) := s.acceptPacket p l
    if !ok then s
    else if (s.foldOfPort p).isNone then s.inc Fd.tureenCounts_DROPS (portDie p)
    else if s.portState p ≠ 5 then s
    else match s.collOfId (slotBits l 0 55 40) with
    | none => idle s
    | some (i, x) => act (s.modColl i fun x => { x with lastRx := s.elapsed }) i x

/-- An OPEN arrives (R569). -/
def State.openArrives (s : State) (p : Nat) (l : List Word) : State :=
  s.collArrives p 2 l (fun s i x => s.collOpened i x l) fun s => s.holdColl l

/-- OPEN (R569). -/
def execCollOpen (port : PortId) (slots : List Word) (s : State) : Host.Outcome State Fault Refusal := .next (s.openArrives port slots)

/-- A PARTIAL of an open collective (R556, R570). -/
def State.partialArrives (s : State) (i : Nat) (x : Coll) (l : List Word) (fault : Bool) : State :=
  match x.mismatch l with
  | some e => s.abortColl i e false
  | none =>
    let d := s.devSec
    let m := s.member.getD 0
    let seg := slotBits l 2 63 0
    let k := slotBits l 0 22 20
    if x.kind = 3 ∨ d.levelCount ≤ k ∨ d.ringSize k < 2 ∨ d.takesPart seg k m = false ∨ d.place seg k m = 1 ∨
        slotBits l 0 39 24 ≠ d.step k m (!segUp seg) ∨ nhas x.inbox (lvlKey seg k) = true then s.collDrop l
    else
      let v := (List.range (x.len seg)).map fun j => leNat (((slotBytes (l.drop 3)).drop (4 * j)).take 4)
      ((s.modColl i fun x => { x with inbox := nset x.inbox (lvlKey seg k) v }).collAdvance i seg fault).collFlush i

/-- A PARTIAL arrives (R556, R570). -/
def State.partialPacket (s : State) (p : Nat) (l : List Word) (fault : Bool) : State :=
  s.collArrives p 0 l (fun s i x => s.partialArrives i x l fault) fun s => s.collDrop l

/-- PARTIAL (R556). -/
def execCollPartial (port : PortId) (slots : List Word) (fault : Bool) (s : State) : Host.Outcome State Fault Refusal :=
  .next (s.partialPacket port slots fault)

/-- A FINAL of an open collective (R558, R570). -/
def State.finalArrives (s : State) (i : Nat) (x : Coll) (l : List Word) : State :=
  match x.mismatch l with
  | some e => s.abortColl i e false
  | none =>
    let d := s.devSec
    let m := s.member.getD 0
    let seg := slotBits l 2 63 0
    let k := slotBits l 0 22 20
    if x.kind = 2 ∨ d.levelCount ≤ k ∨ d.ringSize k < 2 ∨ d.takesPart seg k m = false ∨ d.place seg k m = 0 ∨
        slotBits l 0 39 24 ≠ d.step k m (!segUp seg) ∨ nhas x.fins seg = true then s.collDrop l
    else (s.collFinal i x seg k ((slotBytes (l.drop 3)).take (x.len seg * x.outB))).collFlush i

/-- A FINAL arrives (R558, R570). -/
def State.finalPacket (s : State) (p : Nat) (l : List Word) : State :=
  s.collArrives p 1 l (fun s i x => s.finalArrives i x l) fun s => s.collDrop l

/-- FINAL (R558). -/
def execCollFinal (port : PortId) (slots : List Word) (s : State) : Host.Outcome State Fault Refusal := .next (s.finalPacket port slots)

/-- An ABORT arrives (R579): forwarded once, with the reason it carries, by the abort itself. -/
def State.abortArrives (s : State) (p : Nat) (l : List Word) : State :=
  s.collArrives p 3 l (fun s i _ => s.abortColl i (slotBits l 1 62 59) true) fun s => s.holdColl l

/-- ABORT (R579). -/
def execCollAbort (port : PortId) (slots : List Word) (s : State) : Host.Outcome State Fault Refusal := .next (s.abortArrives port slots)

/-- OPEN_REPEAT (R569): the Tureen of quarter 0 repeats OPEN every 1 ms to the neighbours whose OPEN has not arrived. -/
def State.openRepeat (s : State) (q i : Nat) : State :=
  match s.coll i with
  | none => s
  | some x =>
    if q ≠ 0 ∨ s.elapsed < x.lastOpen + 1000000 then s else
    let s := ((s.devSec.neighbours (s.member.getD 0)).filter fun m => !x.opened.contains m).foldl (fun s m => s.sendCollCtl x 2 0 m) s
    s.modColl i fun x => { x with lastOpen := s.elapsed }

/-- OPEN_REPEAT (R569). -/
def execOpenRepeat (quarter : Fin 4) (coll : Nat) (now : Nat) (s : State) : Host.Outcome State Fault Refusal :=
  .next ((s.advance now).openRepeat quarter coll)

/-- NO_PROGRESS (R580). -/
def State.noProgress (s : State) (i : Nat) : State :=
  match s.coll i with
  | none => s
  | some x => if x.lastRx + 1000000000 ≤ s.elapsed then s.abortColl i 5 false else s

/-- NO_PROGRESS (R580). -/
def execNoProgress (coll : Nat) (now : Nat) (s : State) : Host.Outcome State Fault Refusal := .next ((s.advance now).noProgress coll)

/-- GROUP_EPOCH_WRITE (R583). -/
def State.writeEpoch (s : State) (v : Nat) : State := (s.fset Fd.groupEpoch_EPOCH v).noteSkew

/-- GROUP_EPOCH_WRITE (R583). -/
def execGroupEpochWrite (src : Source) (v : Word32) (s : State) : Host.Outcome State Fault Refusal :=
  if s.shut src then .next (s.turned .host) else .next (s.writeEpoch v.toNat)

/-! The start of a COLLECTIVE (R560, R561, R568, R569). -/

/-- A COLLECTIVE's fields (Table 15.2), with its relocated SRC and DST. -/
def RingCmd.coll (c : RingCmd) (r f epoch now : Nat) : Coll :=
  let w := c.word 5
  { ring := r, seq := c.seq, fold := f, id := bits w 47 32, epoch := epoch, kind := bits w 7 0, rop := bits w 11 8,
    inFmt := bits w 15 12, outFmt := bits w 19 16, elems := c.word 4, src := c.addr 2, dst := c.addr 3, arr := bits w 54 48,
    lastRx := now, lastOpen := now }

/-- A reserved field or value of Table 15.2 (Table 15.5). -/
def Coll.reserved (x : Coll) (w : Nat) : Bool :=
  bits w 31 20 != 0 || bits w 63 55 != 0 || x.kind == 0 || decide (3 < x.kind) || decide (2 < x.rop) || decide (64 ≤ x.arr ∧ x.arr ≤ 126)

/-- Whether a range of bytes lies in a fold's home on this member. -/
def State.inHome (s : State) (f a len : Nat) : Bool :=
  len == 0 || (s.isSelf a && s.isSelf (a + len - 1) && (granules a len).all fun p => s.homeOf (s.placeOf (p.1 % 2 ^ 48)) == some f)

/-- Whether a range of bytes lies in one Pantry window. -/
def State.inOnePantry (s : State) (a len : Nat) : Bool :=
  len == 0 || match s.placeOf (a % 2 ^ 48), s.placeOf ((a + len - 1) % 2 ^ 48) with
    | .pantry c _, .pantry d _ => c == d
    | _, _ => false

/-- The conditions of Table 15.5 after the handles, in order: the DETAIL of the first that fails. -/
def State.collCheck (s : State) (x : Coll) : Option Nat :=
  let d := s.devSec
  let n := x.spans d.memberCount (s.member.getD 0)
  let fmtOk (f : Nat) : Bool := f == 1 || f == 2
  if !(if x.kind = 3 then x.rop == 0 && x.inFmt == 0 && x.outFmt == 0 else fmtOk x.inFmt && fmtOk x.outFmt) then some 0x10
  else if !d.complete then some 0x11
  else if (d.neighbours (s.member.getD 0)).any fun m => (s.groupPorts x.fold m).isNone then some 0x12
  else if (s.collOfId x.id).isSome then some 0x13
  else if !s.inHome x.fold x.src n.1 || !s.inHome x.fold x.dst n.2 || (x.arr != 0x7F && !s.inOnePantry x.dst n.2) then some 0x14
  else none

/-- A COLLECTIVE takes a slot (R568, R569): an ABORT held for its identity and epoch aborts it at once; else it sends its OPENs and takes
those held. -/
def State.collBegin (s : State) (r : Nat) (c : RingCmd) (x : Coll) : State :=
  let s := s.cmdRun r c.seq 0
  let i := ((List.range 8).find? fun i => !nhas s.colls i).getD 0
  let s := { s with colls := nset s.colls i x }
  let s := (((s.fset Fd.collSlot_BUSY 1 i).fset Fd.collSlot_COLL_ID x.id i).fset Fd.collSlot_EPOCH x.epoch i).fset
    Fd.groupStatus_OPEN s.colls.length
  let aborts := s.heldColls.filter fun h => h.id == x.id && h.kind == 3 && h.epoch == x.epoch
  let opens := s.heldColls.filter fun h => h.id == x.id && h.kind == 2
  let s := { s with heldColls := s.heldColls.filter fun h => !(h.id == x.id && (h.kind == 2 || h.epoch == x.epoch)) }
  match aborts with
  | h :: _ => s.abortColl i (slotBits h.slots 1 62 59) true
  | [] =>
    let s := (s.devSec.neighbours (s.member.getD 0)).foldl (fun s m => s.sendCollCtl x 2 0 m) s
    (opens.foldl (fun s h => match s.coll i with | some x => s.collOpened i x h.slots | none => s) s).checkColls

/-- COLLECTIVE (R568): fields, handles, the signal's target, and the conditions of Table 15.5; a vector of no elements completes at once
(R578). -/
def State.collRow (s : State) (r : Nat) (fresh : Option Nat) : State :=
  match s.startedCmd r 5 with
  | none => s
  | some c =>
    let f := s.ringFold r
    let ctx := s.ringCtx r
    let set (d : RingCmd) : State := s.modCmd r c.seq fun _ => d
    let x := c.coll r f (s.fget Fd.groupEpoch_EPOCH) s.elapsed
    if x.reserved (c.word 5) then set (c.fails s.now 3 2)
    else
      let n := x.spans s.devSec.memberCount (s.member.getD 0)
      let (d, ok) := s.relocate f ctx fresh
        [⟨2, bits (c.word 1) 31 0, c.word 2, n.1, some 0⟩, ⟨3, bits (c.word 1) 63 32, c.word 3, n.2, some 1⟩, c.sigUse] c
      if !ok then set d
      else match s.sigTarget f ctx d with
        | some e => set (d.fails s.now 3 e)
        | none =>
          let x := d.coll r f (s.fget Fd.groupEpoch_EPOCH) s.elapsed
          match s.collCheck x with
          | some e => set (d.fails s.now 3 e)
          | none => if x.elems = 0 then (set d).cmdDone r c.seq 0 0 else if 8 ≤ s.colls.length then s else (set d).collBegin r d x

/-- COLLECTIVE (R568). -/
def execCollective (ring : RingId) (s : State) : Host.Outcome State Fault Refusal := .next (s.collRow ring none)

/-! Handle table entries (R473, R474, R501, R506). -/

/-- A handle table entry that a ring's command waits for is read, as 16 bytes at CTX_HT_ADDR + 16 × n, and arrives (R472, R473, R501, R506):
kept as a copy unless an invalidation has passed it. -/
def State.entryFetched (s : State) (r : Nat) (read : HostRead) : State :=
  match ((s.ring r).cmds ++ (s.ring r).cancelled).find? fun c => c.need != 0 with
  | none => s
  | some c =>
    if !s.mayMaster then s else
    let p := s.needEntry r c
    let s := s.emit (.hostRead 0 (4096 * s.fget Fd.ctxHtAddr_ADDR p.1 + 16 * p.2) 16)
    match readBytes read with
    | none =>
      let s := s.noteRead read
      if c.phase = .done then s.modCmd r c.seq fun c => { c with sig := some 0, need := 0 }
      else s.modCmd r c.seq fun c => c.fails s.now 9 2
    | some b =>
      let e := leNat (padTo 16 b)
      let s := if c.stale then s else { s with htCopies := nset s.htCopies (htKey p.1 p.2) e }
      match c.phase with
      | .checking => s.modCmd r c.seq fun _ => s.checkHandles (s.ringFold r) (s.ringCtx r) c (some e)
      | .started => s.collRow r (some e)
      | .done => s.signalStep r c (some e)
      | _ => s

/-- HANDLE_ENTRY_FETCH (R473). -/
def execHandleEntryFetch (ring : RingId) (data : HostRead) (s : State) : Host.Outcome State Fault Refusal :=
  .next (s.entryFetched ring data)

end Sys2Proof.Machine
end

