-- ==== Sys2Proof/Machine/Scrub.lean ====
section
/-!
DEFINITION. What scrub finds (R658 to R660, R664, R688) and packets that fail their CRC (R661).
-/
namespace Sys2Proof.Machine


/-- A double error in an entry of an issue queue that carries SECDED: MATRIX, MOVER or POUR (R658, R660). -/
def State.queueDouble (s : State) (c e i : Nat) : State :=
  if (e = 0 ∨ e = 3 ∨ e = 4) ∧ i < ((s.core c).queue e).length then
    (s.setQueue c e (poisonEntry ((s.core c).queue e) i)).detectCore 0x0B c e
  else s

/-- A double error in a Pour tile slot of a core (R660): the tile is treated as one that failed its CRC. -/
def State.tileDouble (s : State) (c tree : Nat) : State :=
  match s.pourEntry c tree with
  | none => s
  | some (_, e) =>
    match e.tiles with
    | [] => s
    | t :: _ =>
      let l := s.streamsOn ((s.foldOfCore c).getD 16) tree
      l.foldl (fun s x => s.abortStream x 0x30 t.idx) (s.detectCore 0x0B c 0x84)

/-- A double error in the image store (R664): the folds whose sections it holds are fenced and INVALID. -/
def State.imageDouble (s : State) (f : Option Nat) : State :=
  let l := match f with
    | some f => if f < s.foldSecs.length then [f] else []
    | none => List.range s.foldSecs.length
  let s := l.foldl (fun s f => (s.fenceFold f).fset Fd.foldStatus_IMAGE_STATE 2 f) s
  s.detectHub 0x1B 1

/-- A collector slot whose storage fails (R688): where it holds a detection it reads VALID with CLASS HUB_SRAM and domain DIE 4. -/
def slotFailed (v : Nat) : Nat :=
  if bit v 63 then putBits (putBits (putBits v 55 48 0x1B) 47 44 4) 43 32 4 else v

/-- A double error in a slot of a die's collector (R664, R688). -/
def State.collectorDouble (s : State) (die : Nat) (pending : Bool) : State :=
  let r : RegName := if pending then .fcPending else .fcActive
  (s.setReg r (slotFailed (s.reg r die)) die).detectHub 0x1B 2

/-- A double error in a fetched entry or held doorbell of a ring (R660): the command of the entry completes DATA_POISONED, detail FETCH. -/
def State.fetchedDouble (s : State) (r idx : Nat) (held : Bool) : State :=
  let s := s.modRing r fun x => { x with cmds := x.cmds.map fun c =>
    if c.idx = idx ∧ (c.phase = .checking ∨ c.phase = .ready) then c.fails s.now 9 1 else c }
  s.detect ⟨0x0B, 4, 4, r + 2 ^ 16 * (idx % 65536) + 2 ^ 32 * b2n held⟩

/-- A double error in a buffer of a port (R660): the port goes to TRAINING. -/
def State.portBufferDouble (s : State) (p : Nat) (rx : Bool) : State :=
  ((if s.portUp p then s.dropToTraining p else s)).detect ⟨0x0B, 2, p, b2n rx⟩

/-- A double error that scrub finds. -/
def State.scrubDouble (s : State) (c : Nat) : ScrubTarget → State
  | .pantry off => s.pantryDouble c off
  | .queue e i => s.queueDouble c e i
  | .tile t => s.tileDouble c t
  | .port p rx => s.portBufferDouble p rx
  | .image f => s.imageDouble (f.map (·.val))
  | .collector d p => s.collectorDouble d p
  | .fetched r i held => s.fetchedDouble r i held
  | .frontEnd _ => s.detectHub 0x1B 3

/-- PANTRY_SCRUB_READ (R659, R660, R664). A single error is corrected in place. Scrub runs once the image sets SCRUB_ON (R689). -/
def execPantryScrubRead (core : CoreId) (target : ScrubTarget) (ecc : Ecc) (s : State) : Host.Outcome State Fault Refusal :=
  if !s.hasImage || !bit s.devSec.policyFlags 0 then .next s else
  match ecc with
  | .clean => .next s
  | .single => .next s
  | .double => .next (s.scrubDouble core target)

/-- A packet fails its CRC on delivery (R661, R869): it is not performed, its source is answered with an error, and the receiving die
reports it. req is the tag of the host request it carried, if one is under way; work is the core whose access it carried otherwise: the
part of the command that core runs completes ENGINE_FAULT (R84). -/
def State.crcFails (s : State) (die : Nat) (target : PacketTarget) (channel req : Nat) (work : Option CoreId) : State :=
  let s := match work with
    | some c => s.markPart c 2
    | none => s
  let s := match nfind s.hostOps req with
    | some o => s.hostFinish req .error (List.replicate o.len 0)
    | none => s
  match target with
  | .core n => s.detect ⟨0x0C, 1, n.val, channel % 65536⟩
  | .die => s.detect ⟨0x0C, 4, die, channel % 65536⟩

/-- PACKET_CRC (R661). -/
def execPacketCrc (die : Fin 5) (target : PacketTarget) (channel req : Nat) (work : Option CoreId) (s : State) :
    Host.Outcome State Fault Refusal :=
  .next (s.crcFails die target channel req work)

end Sys2Proof.Machine
end

