-- ==== Sys2Proof/Machine/Recover.lean ====
section
/-!
DEFINITION. COLD and DEVICE reset, and the first two steps of start-up (chapters 19 and 23): the fuses sensed, the boot self-test, the boot
ROM's choice of a firmware bundle, the log restored from flash; and the events of the PCIe function that change power or reset.
-/
namespace Sys2Proof.Machine

/-! Fuses that lose power while they are programmed (R787). -/

/-- A fuse program that fails (R787): a key slot becomes REVOKED; a floor or TEST_LOCK reads its old or its new value, and the row is
consumed. Which of the two is a free value. -/
def FuseSt.failed (x : FuseSt) (q : FuseRun) (new : Bool) : FuseSt :=
  match q.op with
  | 1 => { x with slots := x.slots.set q.slot ⟨some q.hash, true⟩ }
  | 2 => { x with slots := x.slots.set q.slot { x.slots.getD q.slot {} with revoked := true } }
  | 3 => { x with imageFloor := if new then q.value else x.imageFloor, imageRows := x.imageRows + 1 }
  | 4 => { x with fwFloor := if new then q.value else x.fwFloor, fwRows := x.fwRows + 1 }
  | 5 => { x with testLock := if new then q.value else x.testLock, lockRows := x.lockRows + 1 }
  | _ => x

/-- A fuse program that is under way is cut short (R787). -/
def State.cutFuse (s : State) : State :=
  match s.life.fuseReq with
  | none => s
  | some q =>
    let (w, s) := s.free
    let new := w.toNat.testBit 0
    { s with fused := s.fused.failed q new, fuse := s.fuse.failed q new, life := { s.life with fuseReq := none } }

/-- A fresh value from the hub's entropy source (R771). -/
def State.newNonce (s : State) : State :=
  let (w, s) := s.free
  s.setReg .fuseNonce w.toNat

/-! COLD reset (R692). -/

/-- Everything takes its COLD state but the fuses, the SPI NOR and the level of PERST_N. -/
def State.coldReset (s : State) : State :=
  let s := s.cutFuse
  { fused := s.fused, log := { flash := s.log.flash }, life := { perst := s.life.perst }
    freeCtr := s.freeCtr, out := s.out, pending := s.pending }

/-- COLD_RESET (R692). -/
def execColdReset (s : State) : Host.Outcome State Fault Refusal := .next s.coldReset

/-- PWR_OK_LOW (R837): power removal. -/
def execPwrOkLow (s : State) : Host.Outcome State Fault Refusal := .next s.coldReset

/-! DEVICE reset (R727). -/

/-- Every generation tag advances (R699, R727): cores, folds and processors, and the ports' own. -/
def State.advanceAll (s : State) : State :=
  let s := (List.range 309).foldl State.advanceGen s
  (List.range 36).foldl State.genPort s

/-- The fields whose reset value is measured or strapped keep their value when registers are reset. -/
def measuredFields : List (FieldRef × Nat) :=
  [(Fd.railStatus_IOUT_DA, 5), (Fd.railStatus_VOUT_MV, 5), (Fd.thermal_TJ_MAX_C, 5), (Fd.hbmStatus_STACK_TEMP, 256),
   (Fd.paceStatus_BEATS_PER_US, 5), (Fd.pinStraps_BOOT_SEL, 1)]

/-- Fields of the link that an FLR keeps (Table 22.6). -/
def linkFields : List (FieldRef × Nat) :=
  [(Fd.pcieStatus_WIDTH, 1), (Fd.pcieStatus_SPEED, 1), (Fd.pcieStatus_FLIT, 1), (Fd.pcieStatus_LINK_UP, 1)]

/-- Set the fields of a list to the values another state holds. -/
def State.keepFields (s old : State) (l : List (FieldRef × Nat)) : State :=
  l.foldl (fun s (f, n) => (List.range n).foldl (fun s u => s.fset f (old.fget f u) u) s) s

/-- The registers of a DEVICE reset (Tables 0.6 and 19.2): every field but those known after COLD. -/
def State.resetRegsDevice (s : State) (flr : Bool) : State :=
  let n := s.resetRegs [.device, .fold, .core, .port, .processor] fun _ _ => true
  n.keepFields s (measuredFields ++ if flr then linkFields else [])

/-- What an offline test or the OFF state leaves to be written with zero (R654, R784): cores, and a stack's lines. -/
def State.zeroLost (s : State) : State :=
  let off := (List.range 288).filter fun c => s.fget Fd.corePwr_STATE c = 3
  let s := off.foldl State.clearPantry s
  match s.life.bist with
  | none => s
  | some b =>
    if b.stack then
      let lo := hbmKey (32 * b.id) 0
      let hi := hbmKey (32 * b.id + 32) 0
      { s with mem := mclear s.mem lo hi, poison := s.poison.filter fun e => !(decide (lo ≤ e.1 * 64) && decide (e.1 * 64 < hi)) }
    else s.clearPantry b.id

/-- The stacks in SELF_REFRESH by command, which stay there (R438). -/
def State.inSelfRefresh (s : State) : Nat :=
  if s.life.inReset || !s.life.booted then s.life.selfRefresh
  else (List.range 8).foldl (fun m i => if s.stackState i = 2 then m + 2 ^ i else m) 0

/-- Every stack that was ACTIVE enters self-refresh (R438); a channel that failed training stays as it is. -/
def State.refreshAll (s old : State) : State :=
  let s := (List.range 8).foldl (fun s i => s.fset Fd.hbmPwrStatus_STATE 2 i) s
  (List.range 256).foldl (fun s c => s.fset Fd.hbmStatus_STATE (if old.chanState c = 4 then 4 else 2) c) s

/-- The findings of the test made after the last COLD stay in force (R853). -/
def State.bootFindings (s : State) : State :=
  let s := (List.range 5).foldl (fun s i => s.setReg .coresOut (s.life.bootCores / 2 ^ (64 * i)) i) s
  let s := (List.range 4).foldl (fun s i => s.setReg .channelsOut (s.life.bootSlices / 2 ^ (64 * i)) i) s
  let s := s.life.bootArrays.foldl (fun s (e : Nat × Nat) => s.setReg .arrayOut e.2 e.1) s
  s.fset Fd.testStatus_BOOT_FAILS s.life.bootFails

/-- Every rail is commanded to OP5 (R654). -/
def State.railsToOp5 (s old : State) : State :=
  (List.range 5).foldl (fun s k =>
    let s := s.emit (.avs k (opMv 5))
    if old.fget Fd.railStatus_OP_NOW k = 5 ∧ !nhas old.opTarget k then s
    else { s with opTarget := nset s.opTarget k 5 }.fset Fd.paceStatus_SLEWING 1 k) s

/-- Quartz through a DEVICE reset (R624): a LOCKED member enters HOLDOVER; packets and dialogs in progress are gone. -/
def State.quartzReset (s : State) : State :=
  let s := s.modTime fun t => { t with reqs := [], adverts := [], epochs := [], ptmBusy := false, todDue := none, good := 0 }
  if s.qState = 4 then (s.modTime fun t => { t with holdStart := s.elapsed }).setQ 5 else s

/-- The PCIe function, the log ring and the SMBus endpoint through a DEVICE reset (R809, R816). -/
def HostSt.afterReset (h : HostSt) : HostSt := { winAddr := h.winAddr }

/-- The log through a DEVICE reset (R758): the banks and what waits to be flushed stay. -/
def LogSt.afterReset (l : LogSt) : LogSt := { bank0 := l.bank0, bank1 := l.bank1, flash := l.flash, oldest := l.oldest }

/-- Start-up through a DEVICE reset (R132, R758, R790). -/
def LifeSt.afterReset (l : LifeSt) (selfRefresh : Nat) (perst : Bool) : LifeSt :=
  { aonUp := true, perst := perst, inReset := true, cold := l.cold, flashWidth := l.flashWidth, bootCores := l.bootCores
    bootSlices := l.bootSlices, bootArrays := l.bootArrays, bootFails := l.bootFails, selfRefresh := selfRefresh }

/-- A port through a DEVICE reset (R547, R701): it goes to TRAINING, and the tags of its open requests are retired. -/
def PortSt.afterReset (q : PortSt) (now : Nat) : PortSt :=
  { retired := q.outst.foldl (fun m (e : Nat × OutReq) => nset m e.1 now) q.retired, since := now }

/-- A DEVICE reset (R727) once step 1 of start-up has ended. -/
def State.deviceNow (s : State) (cause : DeviceCause) : State :=
  let s := s.cutFuse.advanceAll
  let s := s.zeroLost
  let scan := s.scanOn
  let now := s.elapsed
  let t : State := { s with
    cores := [], fences := [], fenceSince := [], hotFolds := [], procs := [], power := none, reset' := none, opTarget := []
    log := s.log.afterReset, host := s.host.afterReset, hubPaths := [], hubHeld := []
    ports := s.ports.map fun (e : Nat × PortSt) => (e.1, e.2.afterReset now)
    replies := [], hostOps := s.lateHostOps, stallTick := []
    l2 := [], patrol := [], pins := [], powerWait := [], arr := [], ctrPoison := [], waiters := [], mapCopies := [], tests := []
    streams := [], rings := [], lastRing := 63, htCopies := [], dispatch := [], colls := [], heldColls := []
    life := s.life.afterReset s.inSelfRefresh (s.life.perst || cause == .perst) }
  let t := t.resetRegsDevice (cause == .flr)
  let t := (List.range 36).foldl (fun t p => t.fset Fd.portStatus_STATE (if scan then 0 else 2) p) t
  let t := (t.refreshAll s).bootFindings
  let t := ((t.railsToOp5 s).quartzReset).thermN
  let t := { t with procs := [] }
  let t := (t.fset Fd.bootStatus_LAST_CAUSE (if cause == .flr then 2 else 1)).fset Fd.bootStatus_STAGE 1
  (t.inc Fd.resetCounts_DEVICE_RESETS).newNonce

/-- DEVICE_RESET (R727): before step 1 has ended it waits for that (R723). -/
def execDeviceReset (cause : DeviceCause) (s : State) : Host.Outcome State Fault Refusal :=
  if s.life.aonUp then .next (s.deviceNow cause)
  else .next (s.modLife fun l => { l with devPend := some cause, perst := l.perst || cause == .perst })

/-! Step 1 of start-up (R726, R760, R790, R838). -/

/-- A fused value that lost both copies reads zero (R760). -/
def FuseSt.lose (x : FuseSt) : FuseValue → FuseSt
  | .deviceId => { x with deviceId := 0 }
  | .part => { x with orderCode := 0, stepping := 0 }
  | .present => { x with present := 0 }
  | .keyHash k => { x with slots := x.slots.set k { x.slots.getD k {} with hash := ((x.slots.getD k {}).hash).map fun b => b.map fun _ => 0 } }
  | .slotState k => { x with slots := x.slots.set k {} }
  | .imageFloor => { x with imageFloor := 0 }
  | .fwFloor => { x with fwFloor := 0 }
  | .testLock => { x with testLock := 0 }
  | .sessions => { x with sessions := 0 }

/-- The fuses are sensed (R760). -/
def State.sense (s : State) (l : List FuseSense) : State :=
  l.foldl (fun s x => match x with
    | .second _ => s.inc Fd.fuseStatus_COPY_FIXES
    | .lost v => { s with fuse := { s.fuse.lose v with bad := true } }) { s with fuse := { s.fused with bad := false } }

/-- Step 1 of start-up ends (R726): fuses, straps, Quartz. A DEVICE reset that arrived before is taken now (R723). -/
def State.stepOne (s : State) (straps : Nat) (refOk : Bool) (sense : List FuseSense) : State :=
  if s.life.aonUp then s else
  let s := (s.sense sense).newNonce
  let s := (s.fset Fd.sbStatus_ADDRESS (0x60 + straps % 4)).fset Fd.pinStraps_ADDR_STRAP straps
  let s := (s.fset Fd.quartzStatus_REF_OK (b2n refOk)).fset Fd.bootStatus_STAGE 1
  let p := s.life.devPend
  let s := s.modLife fun l => { l with aonUp := true, devPend := none }
  match p with
  | some c => s.deviceNow c
  | none => s

/-- ALWAYS_ON_START (R726). -/
def execAlwaysOnStart (straps : Nat) (refOk : Bool) (sense : List FuseSense) (s : State) : Host.Outcome State Fault Refusal :=
  .next (s.stepOne straps refOk sense)

/-- REF_T_NOT_ACCEPTED (R838): step 1 ends on the on-die oscillator, REF_OK clear. -/
def execRefTNotAccepted (straps : Nat) (sense : List FuseSense) (s : State) : Host.Outcome State Fault Refusal :=
  .next (s.stepOne straps false sense)

/-- The test port instructions that take effect only while PERST_N is low (R776, Table 21.5). -/
def perstOnly (ir : Nat) : Bool := ir == 0 || ir == 3 || ir == 4 || ir == 5 || ir == 6

/-- PERST_N_RISE (R727, R810): the reset goes on at step 2, and the link trains. A test port instruction that needs PERST_N low has no
further effect (R776). -/
def execPerstNRise (now : Nat) (s : State) : Host.Outcome State Fault Refusal :=
  let s := (s.advance now).modLife fun l => { l with perst := false, inReset := false }
  let s := if perstOnly s.tap.ir then { s with tap := { s.tap with bypass := true } } else s
  .next (if s.life.aonUp then s.fset Fd.pcieStatus_LINK_UP 1 else s)

/-! Step 2 of start-up (R734, R751, R766, R789). -/

/-- One finding of the boot self-test or of training, on the unit's registers (R436, R789). Self-test runs only after COLD. -/
def State.bootFinding (s : State) (b : BootFinding) : State :=
  match b with
  | .core n k arrays =>
    if !s.life.cold || !s.corePresent n then s else
    let s := (bitList 64 arrays.toNat).foldl (fun s a =>
      ((s.inc Fd.bistStatus_FAILURES (coreDie n)).detectCore 5 n a).modLife fun l => { l with bootFails := l.bootFails + 1, bootArrays := nset l.bootArrays n.val (s.reg .arrayOut n |>.lor (2 ^ a)) }) s
    if k.land 0x1EF = 0 then s
    else (s.setMapBit .coresOut n).modLife fun l => { l with bootFails := l.bootFails + 1, bootCores := l.bootCores.lor (2 ^ n.val) }
  | .slice c =>
    if !s.life.cold then s else
    ((s.setMapBit .channelsOut c).fset Fd.hbmStatus_STATE 4 c).modLife fun l =>
      { l with bootFails := l.bootFails + 1, bootSlices := l.bootSlices.lor (2 ^ c.val) }
  | .stack i =>
    (List.range 32).foldl (fun s k => (s.setMapBit .channelsOut (32 * i.val + k)).fset Fd.hbmStatus_STATE 4 (32 * i.val + k)) s
  | .bank b => if !s.life.cold then s else (s.retireBank b).modLife fun l => { l with bootFails := l.bootFails + 1 }
  | .hubSram =>
    if !s.life.cold then s
    else (s.fset Fd.testStatus_BOOT_HUB_FAIL 1).modLife fun l => { l with bootFails := l.bootFails + 1 }

/-- The stacks are trained, but for those in self-refresh by command (R437, R438). -/
def State.trainStacks (s : State) : State :=
  (List.range 8).foldl (fun s i =>
    let keep := s.life.selfRefresh.testBit i
    let s := s.fset Fd.hbmPwrStatus_STATE (if keep then 2 else 0) i
    (List.range 32).foldl (fun s k =>
      let c := 32 * i + k
      s.fset Fd.hbmStatus_STATE (if s.life.bootSlices.testBit c then 4 else if keep then 2 else 1) c) s) s

/-- A valid flash entry with its SEQ (R751). -/
def flashEntry (e : Nat × Bytes) : Option (Nat × Bytes) :=
  if crcOk e.2 ∧ imgN e.2 0 8 % 65536 = e.1 then some (imgN e.2 0 8, e.2) else none

/-- A restored entry: RESTORED set, and its CRC made anew (R751, R733). -/
def restoredEntry (e : Bytes) : Bytes :=
  let b := (e.take 60).set 19 (BitVec.ofNat 8 ((imgN e 19 1).lor 4))
  b ++ leBytes 4 (crc32c b)

/-- The Steward restores the log from flash after COLD (R751): SEQ continues from the greatest valid one plus one, or 1. -/
def State.restoreLog (s : State) : State :=
  let l := s.log.flash.filterMap flashEntry
  let top := l.foldl (fun m e => max m e.1) 0
  let keep := l.filter fun e => decide (top < e.1 + 4096)
  let bank : NMap Bytes := keep.foldl (fun m e => nset m (e.1 % 4096) (restoredEntry e.2)) []
  let s := s.modLog fun x => { x with bank0 := bank, bank1 := bank }
  (s.setReg .garnetSeq (top + 1)).setReg .garnetFlushed (top + 1)

/-- The entries that boot findings leave (R436, R755). -/
def State.bootEntries (s : State) (found : List BootFinding) : State :=
  found.foldl (fun s b => match b with
    | .stack i => (List.range 32).foldl (fun s k => s.stewardLog 9 (recBytes 2 [(0, 2, 32 * i.val + k)])) s
    | .slice c => s.stewardLog 9 (recBytes 2 [(0, 2, c.val)])
    | .bank b =>
      let s := if s.fget Fd.garnetStatus_RETIRED = 3 then s
        else s.submit 0x000A 7 0 (recBytes 16 [(0, 1, b.val), (1, 1, 1), (8, 8, s.reg .garnetSeq)])
      s.bankReport b
    | _ => s) s

/-- A slot's bundle: the bytes TOTAL_LENGTH names, and the first check it fails (R734, Table 20.8). -/
def State.slotBundle (s : State) (o : Option Bytes) : Bytes × Option Nat :=
  match o with
  | none => ([], some 3)
  | some b =>
    let n := imgN b 0xC 4
    if imgN b 0 4 ≠ 0x31574658 then ([], some 4)
    else if fwLenBad n then ([], some 2)
    else if b.length < n then ([], some 3)
    else (b.take n, bundleFail s.keySlots s.fuse.fwFloor (b.take n))

/-- The valid directory copies: the active slot, its generation, and which copy is the older (R730). -/
def bootDirectory (dirs : List (Option Bytes)) : Nat × Nat × Nat :=
  match dirOf (dirs.getD 0 none), dirOf (dirs.getD 1 none) with
  | some a, some b => if a.2 < b.2 then (b.1, b.2, 0) else (a.1, a.2, 1)
  | some a, none => (a.1, a.2, 1)
  | none, some b => (b.1, b.2, 0)
  | none, none => (0, 0, 0)

/-- Firmware starts (R734 step 5, R742). -/
def State.startFirmware (s : State) (slot : Nat) (b : Bytes) (found : List BootFinding) : State :=
  let cold := s.life.cold
  let s := if cold then s.restoreLog else s
  let s := (s.fset Fd.fwStatus_STATE 1).fset Fd.fwStatus_FLASH_SLOT slot
  let s := (s.fset Fd.bootStatus_STAGE 2).fset Fd.fwStatus_REASON 0
  let s := (List.range 5).foldl (fun s n => s.modProc n fun p => { p with copy := b, cause := if cold then 0 else 1 }) s
  let s := (s.procStart 0).bootEntries (if cold then found else found.filter fun x => match x with | .stack _ => true | _ => false)
  let s := ([1, 2, 3, 4]).foldl State.procStart s
  s.modLife fun l => { l with cold := false, bundle := b }

/-- Step 2 of start-up (R734, R823). -/
def State.hubBoot (s : State) (bootSel width : Nat) (found : List BootFinding) (dirs : List (Option Bytes)) (slotA slotB : Option Bytes) : State :=
  if !s.life.aonUp || s.life.perst || s.life.inReset || s.life.booted then s else
  let s := s.fset Fd.pinStraps_BOOT_SEL bootSel
  let s := s.modLife fun l => { l with booted := true, flashWidth := if bit bootSel 1 then 1 else if width = 4 then 4 else if width = 2 then 2 else 1 }
  let s := found.foldl State.bootFinding s.trainStacks
  let s := s.fset Fd.testStatus_BOOT_FAILS (min 255 s.life.bootFails)
  if s.fon Fd.testStatus_BOOT_HUB_FAIL then s else
  let s := (List.range 36).foldl (fun s p =>
    if s.scanOn then s else (s.fset Fd.portStatus_STATE 0 p).enterTraining p) s
  let (slot, gen, old) := bootDirectory dirs
  let s := s.modLife fun l => { l with dirGen := gen, dirOld := old }
  let a := s.slotBundle (if slot = 0 then slotA else slotB)
  match a.2 with
  | none => s.startFirmware slot a.1 found
  | some _ =>
    let b := s.slotBundle (if slot = 0 then slotB else slotA)
    match b.2 with
    | none => s.startFirmware (1 - slot) b.1 found
    | some e => (s.fset Fd.fwStatus_STATE 0).fset Fd.fwStatus_REASON e

/-- HUB_BOOT (R734). -/
def execHubBoot (bootSel : Fin 4) (sfdpWidth : Nat) (found : List BootFinding) (dirs : List (Option Bytes)) (slotA slotB : Option Bytes)
    (s : State) : Host.Outcome State Fault Refusal :=
  .next (s.hubBoot bootSel sfdpWidth found dirs slotA slotB)

/-! Retired tags (R701). -/

/-- TAG_RETIREMENT_EXPIRY (R701): after 20 ms a retired tag may be used again. -/
def execTagRetirementExpiry (dom : Domain) (tag : Nat) (now : Nat) (s : State) : Host.Outcome State Fault Refusal :=
  let s := s.advance now
  match dom with
  | .port p =>
    match nfind (s.port p).retired tag with
    | some t => if t + 20000000 ≤ s.elapsed then .next (s.modPort p fun q => { q with retired := ndel q.retired tag }) else .next s
    | none => .next s
  | .core c =>
    match nfind s.hostOps tag with
    | some o => if o.by' = .late c.val ∧ o.since + 20000000 ≤ s.elapsed then .next { s with hostOps := ndel s.hostOps tag } else .next s
    | none => .next s
  | .fold f =>
    match nfind s.hostOps tag with
    | some o => if o.by' = .late (288 + f.val) ∧ o.since + 20000000 ≤ s.elapsed then .next { s with hostOps := ndel s.hostOps tag } else .next s
    | none => .next s

/-! The PCIe function (R799, R803, R806, R809). -/

/-- Requests and messages held while the device might not master are issued (R799). -/
def State.releaseHeld (s : State) : State :=
  if !s.mayMaster then s else
  let l := s.host.held
  let s := { s with host := { s.host with held := [] } }
  let s := l.foldl (fun s o => match o with
    | .hostWrite a d => s.hostWrite a d
    | o => s.emit o) s
  (List.range 128).foldl State.flushVec s

/-- Change the PCIe function's state. -/
def State.modHost (s : State) (f : HostSt → HostSt) : State := { s with host := f s.host }

/-- A configuration write (R792, R794, R799, R803). -/
def State.config (s : State) : ConfigWrite → State
  | .busMaster on => (s.fset Fd.pcieStatus_BME (b2n on)).releaseHeld
  | .memorySpace on => s.modHost fun h => { h with memSpace := on }
  | .powerState d => (s.fset Fd.pcieStatus_D3HOT (b2n d)).releaseHeld
  | .msixFunctionMask on => (s.modHost fun h => { h with fnMask := on }).releaseHeld
  | .atomicRequester on => s.modHost fun h => { h with atomicReq := on }
  | .ptmEnable on => s.modHost fun h => { h with ptmOn := on }
  | .resizeBar4 n => if 30 ≤ n ∧ n ≤ 45 then s.modHost fun h => { h with bar4 := n } else s

/-- CONFIGURATION_SPACE_WRITE (R799). -/
def execConfigurationSpaceWrite (w : ConfigWrite) (s : State) : Host.Outcome State Fault Refusal :=
  .next (if s.configUp then s.config w else s)

/-- D3HOT_TO_D0 (R809). -/
def execD3hotToD0 (s : State) : Host.Outcome State Fault Refusal :=
  .next (if s.configUp then (s.fset Fd.pcieStatus_D3HOT 0).releaseHeld else s)

/-- PCIE_RETRAIN (R806, R809): a PTM dialog in progress is discarded. -/
def execPcieRetrain (width speed : Nat) (flit : Bool) (s : State) : Host.Outcome State Fault Refusal :=
  if !s.configUp then .next s else
  let s := ((s.fset Fd.pcieStatus_WIDTH width).fset Fd.pcieStatus_SPEED speed).fset Fd.pcieStatus_FLIT (b2n flit)
  .next ((s.fset Fd.pcieStatus_LINK_UP 1).modTime fun t => { t with ptmBusy := false })

end Sys2Proof.Machine
end

