-- ==== Sys2Proof/Machine/Images.lean ====
section
/-!
DEFINITION. Image commands (chapter 3): the fetch of an image, its checks, and its application: a FULL image (R108) and a fold update
(R115 to R118).
-/
namespace Sys2Proof.Machine

/-! Fenced and idle (R111). -/

/-- Whether a requester works for a fold: its cores, rings and collectives. -/
def Requester.ofFold (b : Requester) (cores : List Nat) (rings : Nat) : Bool :=
  match b with
  | .twin c => cores.contains c
  | .engine c _ _ => cores.contains c
  | .ring r => rings.testBit r
  | .coll r _ _ => rings.testBit r
  | .forward _ _ _ => false
  | .late _ => false

/-- BUSY of FOLD_STATUS (R111): an outstanding request, a Pour tree in flight, or an open collective of the fold. -/
def State.foldBusy (s : State) (f : Nat) : Bool :=
  let sec := s.foldSec f
  let cores := bitList 288 sec.cores
  s.ports.any (fun (e : Nat × PortSt) => e.2.outst.any fun (r : Nat × OutReq) => r.2.by'.ofFold cores sec.ringSet) ||
    s.hostOps.any (fun (e : Nat × HostOp) => e.2.by'.ofFold cores sec.ringSet) || s.streams.any (fun x => x.fold == f) ||
    s.colls.any fun (e : Nat × Coll) => e.2.fold == f

/-- Fenced and idle (R111). -/
def State.foldIdle (s : State) (f : Nat) : Bool :=
  s.foldFence f == FencePhase.fenced && ((bitList 64 (s.foldSec f).ringSet).all fun r => s.fget Fd.ringStatus_STATE r == 0) && !s.foldBusy f

/-! The command (R103 to R106, R122, R752). -/

/-- Whether an image command is refused before it starts: while one runs (R122), and for the host before RUNNING (R810). One written while
an earlier one still waits for a firmware update to end is refused and charged too, though STATE shows neither LOADING nor UPDATING then:
DESIGN CHOICE (assumption log 68). -/
def State.imageRefused (s : State) (src : Source) : Bool :=
  let st := s.fget Fd.imageStatus_STATE
  st == 1 || st == 3 || s.life.imgWait.isSome || (src == .host && s.fget Fd.fwStatus_STATE == 0)

/-- What the fetch of an image ends in: an error, with the bytes that had arrived, or the image (R106). -/
def fetchResult (full flash : Bool) (srcLen : Nat) (hdr data : Option Bytes) : Option ImageErr × Bytes :=
  if flash then
    match hdr with
    | none => (some ⟨0x45, 0xFF, 0⟩, [])
    | some h =>
      let h := padTo 256 h
      let n := imgN h 0x10 4
      if lengthBad full n then (some ⟨0x01, 0xFF, 0x10⟩, h)
      else match data with
        | some b => if b.length = n then (none, b) else (some ⟨0x45, 0xFF, 0⟩, h)
        | none => (some ⟨0x45, 0xFF, 0⟩, h)
  else if lengthBad full srcLen then (some ⟨0x01, 0xFF, 0⟩, [])
  else match data with
    | some b => if b.length = srcLen then (none, b) else (some ⟨0x45, 0xFF, 0⟩, [])
    | none => (some ⟨0x45, 0xFF, 0⟩, [])

/-- Whether a command fetches its image from the host: the length it names is in range (R106). -/
def State.imageReads (s : State) (q : ImageReq) : Bool := !q.flash && !lengthBad q.full (s.reg .imageSrcLen)

/-- What the fetch of an image brought, IMAGE_SRC_LEN bytes at IMAGE_SRC_ADDR (R103), is in the image store; the fold a FOLD_UPDATE names is under update from here on (R123; DEDUCED,
assumption log 65). -/
def State.imageStored (s : State) (q : ImageReq) : State :=
  let (e, b) := fetchResult q.full q.flash (s.reg .imageSrcLen) q.hdr (readBytes q.data)
  let s := if s.imageReads q then s.emit (.hostRead 0 (s.reg .imageSrcAddr) (s.reg .imageSrcLen)) else s
  let s := match e with
    | some x => if !q.flash && x.reason == 0x45 then s.noteRead q.data else s
    | none => s
  s.modLife fun l => { l with fetchErr := e, store := b, imgDue := none, updating := if q.full || e.isSome then none else some (imgN b 9 1) }

/-- The Steward starts an image command: LOADING or UPDATING, and the fetch with its result, or the error that comes before it. While the
device may not master the fetch is held, and IMAGE_VALIDATE brings its bytes (R799). -/
def State.imageFetch (s : State) (q : ImageReq) : State :=
  let s := s.fset Fd.imageStatus_STATE (if q.full then 1 else 3)
  let s := s.modLife fun l => { l with cmd := some (q.full, !q.flash), fetchErr := none, store := [] }
  let early : Option ImageErr := if q.full && s.hasImage then some ⟨0x44, 0xFF, 0⟩ else if !q.full && !s.hasImage then some ⟨0x40, 0xFF, 0⟩ else none
  match early with
  | some e => s.modLife fun l => { l with fetchErr := some e }
  | none => if q.got && (!s.imageReads q || s.mayMaster) then s.imageStored q else s.modLife fun l => { l with imgDue := some q }

/-- A write of IMAGE_CMD (R105, R122, R752): it waits while an UPDATE of firmware runs. -/
def State.imageCmd (s : State) (src : Source) (q : ImageReq) : State :=
  if s.imageRefused src then s.charge src
  else if s.scanOn then s.violate .host
  else if !(s.proc 0).running then s
  else if s.fget Fd.fwStatus_STATE = 2 then s.modLife fun l => { l with imgWait := some q }
  else s.imageFetch q

/-- An IMAGE_CMD written by a plain register write (R105, Table 3.10): the command starts, and IMAGE_VALIDATE brings the bytes it fetches
(DESIGN CHOICE, assumption log 33). A reserved OP is charged (R20). -/
def State.imageCmdWrite (s : State) (src : Source) (op : Nat) (flash : Bool) : State :=
  if op ≠ 1 ∧ op ≠ 2 then s.charge src else s.imageCmd src { full := op == 1, flash := flash, got := false }

/-- LOAD_FULL (R105). -/
def execLoadFull (src : Source) (fromFlash : Bool) (hdr : Option Bytes) (data : HostRead) (s : State) : Host.Outcome State Fault Refusal :=
  if s.shut src then .next (s.turned .host) else
  .next (s.imageCmd src { full := true, flash := fromFlash, hdr := hdr, data := data })

/-- UPDATE_FOLD (R112). -/
def execUpdateFold (src : Source) (fromFlash : Bool) (hdr : Option Bytes) (data : HostRead) (s : State) : Host.Outcome State Fault Refusal :=
  if s.shut src then .next (s.turned .host) else
  .next (s.imageCmd src { full := false, flash := fromFlash, hdr := hdr, data := data })

/-- BOOT_IMAGE_LOAD (R104, Table 23.3a): with BOOT_SEL[0] clear the Steward loads from flash; with it set it waits in NO_IMAGE. -/
def execBootImageLoad (hdr data : Option Bytes) (s : State) : Host.Outcome State Fault Refusal :=
  if !(s.proc 0).running || s.fget Fd.bootStatus_STAGE != 2 || s.imageRefused .host || s.scanOn then .next s else
  let s := s.fset Fd.bootStatus_STAGE 3
  if s.fget Fd.pinStraps_BOOT_SEL % 2 = 0 then
    .next (s.imageFetch { full := true, flash := true, hdr := hdr, data := match data with | some b => .ok b | none => .timeout })
  else .next s

/-! Checks (R106). -/

/-- What the checks compare an image with. -/
def State.imageEnv (s : State) (full host : Bool) : ImageEnv :=
  let wide (r : RegName) (n : Nat) : Nat := (List.range n).foldl (fun m i => m + s.reg r i * 2 ^ (64 * i)) 0
  { full := full, host := host, orderCode := s.fuse.orderCode, stepping := s.fuse.stepping, deviceId := s.fuse.deviceId
    floor := s.fuse.imageFloor, slots := s.keySlots, present := s.fuse.present, coresOut := wide .coresOut 5
    channelsOut := wide .channelsOut 4, lanesOut := (List.range 36).map s.lanesOutOf, loaded := s.image
    foldSerials := (List.range 16).map fun f => s.fget Fd.foldStatus_FOLD_SERIAL f
    foldsIdle := (List.range 16).map s.foldIdle }

/-! Application of a FULL image (R108, R109, R853). -/

/-- The image's MAP_OUT section is added to the maps (R853). -/
def State.addMapOut (s : State) (d : DevSec) : State :=
  let s := ((bitList 288 d.coresOut).filter s.corePresent).foldl (fun s c => s.setMapBit .coresOut c) s
  let s := (bitList 256 d.channelsOut).foldl (fun s c => (s.setMapBit .channelsOut c).fset Fd.hbmStatus_STATE 3 c) s
  let s := d.lanesOut.zipIdx.foldl (fun s (m, p) =>
    if m = 0 then s else s.setReg .lanesOut ((s.reg .lanesOut (p / 16)).lor (m % 16 * 2 ^ (4 * (p % 16)))) (p / 16)) s
  d.arraysOut.foldl (fun s (e : Nat × Nat) => s.setReg .arrayOut ((s.reg .arrayOut e.1).lor e.2) e.1) s

/-- Who owns each context (Table 4.7). -/
def State.ownContexts (s : State) : State :=
  (List.range 16).foldl (fun s c => match s.foldOfCtx c with
    | some f => (s.fset Fd.ctxMapCtl_OWNER_FOLD f c).fset Fd.ctxMapCtl_OWNED 1 c
    | none => (s.fset Fd.ctxMapCtl_OWNER_FOLD 0 c).fset Fd.ctxMapCtl_OWNED 0 c) s

/-- The IMAGE_LOAD entry (Table 20.7). -/
def State.logLoad (s : State) (kind fold serial : Nat) (digest : Bytes) : State :=
  s.stewardLog 2 (recBytes 8 [(0, 1, kind), (1, 1, fold), (4, 4, serial)] ++ padTo 16 digest)

/-- Step 1 of R108: STATE becomes LOADED, and IMAGE_DIGEST and GROUP_VALUE are written. -/
def State.fullStep1 (s : State) (l : Loaded) : State :=
  let s := s.modLife fun x => { x with image := some l, appliedAt := s.elapsed }
  let s := (s.fset Fd.imageStatus_STATE 2).addMapOut l.dev
  let s := (List.range 6).foldl (fun s i => s.setReg .imageDigest (imgN l.digest (8 * i) 8) i) s
  let g := groupValueOf l
  (List.range 4).foldl (fun s i => s.setReg .groupValue (imgN g (8 * i) 8) i) s

/-- Step 2 of R108: the serials. -/
def State.fullStep2 (s : State) (l : Loaded) : State :=
  let s := s.fset Fd.imageSerialNow_SERIAL l.serial
  l.folds.zipIdx.foldl (fun s (x, f) =>
    ((s.fset Fd.foldStatus_FOLD_SERIAL l.serial f).fset Fd.foldStatus_IMAGE_STATE 1 f).fset Fd.foldStatus_UPDATABLE (x.flags % 2) f) s

/-- Step 3 of R108: the timeouts. -/
def State.fullStep3 (s : State) (l : Loaded) : State :=
  (List.range 5).foldl (fun s d => s.fset Fd.stallLimitNow_LIMIT_US l.dev.stallUs d) s

/-- Step 4 of R108: the device goes on at step 4 of R52, and the command ends. -/
def State.fullStep4 (s : State) (b : Bytes) (l : Loaded) : State :=
  let s := (s.fset Fd.imageStatus_GUARANTEE_OFF (b2n (decide (l.dev.policyFlags.land 7 ≠ 7)))).inc Fd.loadCount_COUNT
  let s := (s.ownContexts.applyRole.checkLimits)
  let s := (List.range 36).foldl (fun s p => (s.setInUse p).relane p) s
  let s := ({ s with tests := [] } : State).fset Fd.bootStatus_STAGE 4
  (s.stageAgreed.logLoad (imgN b 8 1) 0xFF l.serial l.digest).imageDone 0 0xFF 0

/-! Application of a fold update (R115 to R118, R432). -/

/-- The timers of a fold that an update cancels (R116): Kettles, barrier timers, TCMP compares, and held timed doorbells, which are counted
apart. -/
def State.foldTimers (s : State) (f : Nat) : Nat × Nat :=
  let sum (l : List Nat) : Nat := l.foldl (· + ·) 0
  let cores := s.foldCores f
  let k := sum (cores.map fun c => b2n (s.fon Fd.kettleCtl_ENABLE c && (s.twin c).mode == .running) + b2n (s.twin c).tcmpArmed +
    (s.core c).whisk.crews.length)
  let d := sum ((bitList 64 (s.foldSec f).ringSet).map fun r => ((s.ring r).segs.filter fun g => g.held).length)
  (k + d, d)


/-- One step of the application of a FULL image (R108). -/
def State.fullStep (s : State) (b : Bytes) (n : Nat) : State :=
  let l := readFull b
  if n ≤ 1 then s.fullStep1 l else if n = 2 then s.fullStep2 l else if n = 3 then s.fullStep3 l else s.fullStep4 b l

/-- The held timed doorbells of a STOPPED ring are cancelled (R116, R504): DESCRIPTOR_FETCH then reads each of their entries, and COMMAND_RETIRE
retires its command, ABORTED. An entry keeps its SEQ (R475). -/
def State.cancelHeld (s : State) (r : Nat) : State :=
  if s.ringState r ≠ 0 then s else
  let x := s.ring r
  let due := (List.range x.total).filterMap fun i => if (segAt x.segs i).any fun g => g.held then
    some ((s.fget Fd.ringPtrs_HEAD r + i) % max 1 (s.ringSize r), s.reg .ringSeq r + 1 + i) else none
  (s.modRing r fun x => { x with due := x.due ++ due
                                 segs := x.segs.map fun g => if g.held then { g with held := false, gone := true } else g }).noteHeld r

/-- Whether a record of a cancelled doorbell of a fold's rings is still to write; the update goes on once they are written (R504). -/
def State.cancelOpen (s : State) (old : FoldSec) : Bool :=
  (bitList 64 old.ringSet).any fun r => !(s.ring r).due.isEmpty || !(s.ring r).cancelled.isEmpty

/-- The fold's timers are cancelled (R116). -/
def State.cancelTimers (s : State) (f : Nat) : State :=
  let n := s.foldTimers f
  let s := (s.foldCores f).foldl (fun s c => s.modTwin c fun t => { t with tcmpArmed := false }) s
  let s := (bitList 64 (s.foldSec f).ringSet).foldl State.cancelHeld s
  s.stewardLog 5 (recBytes 12 [(0, 1, f), (4, 4, n.1), (8, 4, n.2)])

/-- One LATCH_CLEAR entry (R117): kind 1 CORE_EVENT, 2 LINK_STATE, 3 PPS. -/
def State.latchEntry (s : State) (f kind unit bits' : Nat) : State :=
  s.stewardLog 4 (recBytes 16 [(0, 1, 1), (1, 1, f), (2, 1, kind), (4, 2, unit), (8, 8, bits')])

/-- The fold's event latches are cleared, each set one with an entry (R117). -/
def State.clearLatches (s : State) (f ports : Nat) : State :=
  let s := (s.foldCores f).foldl (fun s c =>
    let s := (bitList 5 (s.twin c).events.toNat).foldl (fun s b => s.latchEntry f (if b = 3 then 3 else 1) c (2 ^ b)) s
    s.modTwin c fun t => { t with events := 0 }) s
  (bitList 36 ports).foldl (fun s p =>
    if (s.port p).linkLatched then (s.latchEntry f 2 p 1).modPort p fun q => { q with linkLatched := false } else s) s

/-- Units that a fold has released are reset as a FOLD reset resets them (R115 step 5). -/
def State.resetReleased (s : State) (old new : FoldSec) : State :=
  let gone (n a b : Nat) : List Nat := (bitList n a).filter fun i => !b.testBit i
  let rings := gone 64 old.ringSet new.ringSet
  let ctxs := gone 16 old.ctxSet new.ctxSet
  let s := ((gone 288 old.cores new.cores).filter s.corePresent).foldl State.resetCoreCmd s
  let s := (gone 36 old.ports new.ports).foldl State.resetPort s
  let s := rings.foldl State.clearRing s
  let s := ctxs.foldl (fun s c => s.htDrop c fun _ => true) s
  let s := { s with mapCopies := s.mapCopies.filter fun e => !ctxs.contains (e.1 / 2 ^ 21) }
  s.resetRegs [.fold] fun r u => (r.isRing && rings.contains u) || (r.isCtx && ctxs.contains u)


/-- The fold's sections are replaced in the image store (R115 step 4). -/
def State.replaceFold (s : State) (f : Nat) (new : FoldSec) : State :=
  s.modLife fun l => { l with image := l.image.map fun (x : Loaded) => { x with folds := x.folds.set f new } }

/-- Steps 7 and 8 of R115: the fold's serial, and the end of the command. -/
def State.updateEnd (s : State) (b : Bytes) (f : Nat) : State :=
  let serial := imgN b 0x14 4
  let s := (s.fset Fd.foldStatus_FOLD_SERIAL serial f).fset Fd.foldStatus_IMAGE_STATE 1 f
  let s := s.inc Fd.loadCount_COUNT
  (s.logLoad (imgN b 8 1) f serial (sha384 (b.take (b.length - 256)))).imageDone 0 0xFF 0

/-- One step of the application of a fold update (R115): step 1 is the last check, and the pins are released before step 5 (R432). The
lines of channels it releases stay where they are (R431). -/
def State.updateStep (s : State) (b : Bytes) (old : FoldSec) (n : Nat) : State :=
  let f := imgN b 9 1
  let new := readFold b (imgDir b) f old.flags
  if n ≤ 1 then s
  else if n = 2 then s.cancelTimers f
  else if n = 3 then s.clearLatches f (old.ports.lor new.ports)
  else if n = 4 then (s.unpinAll f).replaceFold f new
  else if n = 5 then s.resetReleased old new
  else if n = 6 then (List.range 36).foldl (fun s p => (s.setInUse p).relane p) ((s.holdFence f).resetFold f).ownContexts
  else s.updateEnd b f

/-- Apply steps in order, up to one that must wait: the state, and the steps left (R108, R115, R504). -/
def State.applySteps (a : Applying) (b : Bytes) : State → List Nat → State × List Nat
  | s, [] => (s, [])
  | s, i :: l =>
    if !a.full && decide (2 < i) && s.cancelOpen a.old then (s, i :: l)
    else State.applySteps a b (if a.full then s.fullStep b i else s.updateStep b a.old i) l

/-- The steps of an application that come next, up to a given one (R108, R115). A restart of the Steward falls between two steps (R126). -/
def State.applyOn (s : State) (a : Applying) (last : Nat) : State :=
  let n := if a.full then 4 else 7
  let (s, left) := State.applySteps a s.life.store s ((List.range (min n last + 1)).drop a.step)
  let next := left.headD (max a.step (last + 1))
  if n < next then s else s.modLife fun l => { l with applying := some { a with step := next } }

/-- The checks of an image in the store, and its application up to a step (R106 to R108, R115). -/
def State.imageJudge (s : State) (full host : Bool) (last : Nat) : State :=
  let b := s.life.store
  match s.life.fetchErr with
  | some e => s.imageReject e
  | none =>
    if s.fuse.bad then s.imageReject ⟨0x07, 0xFF, 0x18⟩
    else match checkImage (s.imageEnv full host) b with
      | some e => s.imageReject e
      | none =>
        let first := if full then 1 else 2
        if last < first then s else s.applyOn ⟨full, first, s.foldSec (imgN b 9 1)⟩ last

/-- IMAGE_VALIDATE (R106): the Steward ends the image command under way, or takes it as far as a step of R108 or R115; one that waited for a
firmware update is fetched first (R752). hdr and data are what the fetch of a command brings that was written without its bytes. -/
def execImageValidate (hdr : Option Bytes) (data : HostRead) (last : Nat) (s : State) : Host.Outcome State Fault Refusal :=
  if !(s.proc 0).running then .next s else
  match s.life.cmd with
  | some (full, host) =>
    match s.life.applying with
    | some a => .next (s.applyOn a last)
    | none =>
      match s.life.imgDue with
      | some q =>
        if s.imageReads q && !s.mayMaster then .next s
        else .next ((s.imageStored { q with hdr := hdr, data := data }).imageJudge full host last)
      | none => .next (s.imageJudge full host last)
  | none =>
    match s.life.imgWait with
    | some q => if s.fget Fd.fwStatus_STATE = 2 then .next s
      else .next ((s.modLife fun l => { l with imgWait := none }).imageFetch q)
    | none => .next s

end Sys2Proof.Machine
end

