-- ==== Sys2Proof/Machine/RegHooks.lean ====
section
/-!
DEFINITION. Reads and writes of the register region (chapters 0, 22 and 24): what a read shows where a register is a view of other state,
and what a written field starts. A register's plain fields are written by Write.
-/
namespace Sys2Proof.Machine

/-! Offline self-test (R766, R777, R783). -/

/-- RESULT with which a BIST_CMD is refused: 1 NO_IMAGE, 2 DOMAIN_RANGE, 3 NOT_FENCED. -/
def State.bistCheck (s : State) (stack : Bool) (id : Nat) : Option Nat :=
  if !s.hasImage then some 1
  else if stack then
    if 8 ≤ id ∨ ((List.range 32).all fun k => s.chanOut (32 * id + k)) then some 2
    else if !s.hbmFenceOk id || s.stackState id != 0 then some 3 else none
  else if !s.corePresent id || s.coreOut id then some 2
  else if s.coreFence id ≠ FencePhase.fenced ∨ s.fget Fd.corePwr_STATE id ≠ 0 then some 3 else none

/-- A write of BIST_CMD. -/
def State.bistCmd (s : State) (src : Source) (mode id : Nat) : State :=
  if s.life.bist.isSome || (mode != 1 && mode != 2) then s.charge src else
  match s.bistCheck (mode == 2) id with
  | some r => s.fset Fd.testBistStatus_RESULT r
  | none => (s.modLife fun l => { l with bist := some ⟨mode == 2, id⟩ }).fset Fd.testBistStatus_BUSY 1

/-! FUSE_CMD (R771). -/

/-- A fuse request ends: REASON and DONE, and vector 120. -/
def State.fuseEnd (s : State) (reason : Nat) : State := ((s.fset Fd.fuseStatus_REASON reason).fset Fd.fuseStatus_DONE 1).raiseVec 120

/-- FUSE_CMD.GO written by a plain register write (R771, Table 21.9): the request runs, and the row of its OP brings the bytes the Steward
fetches (DESIGN CHOICE, assumption log 33); while one runs it ends with BUSY. -/
def State.fuseCmdWrite (s : State) (src : Source) : State :=
  if src == .host && s.fget Fd.fwStatus_STATE == 0 then s.charge src
  else if !(s.proc 0).running then s
  else if s.life.fuseReq.isSome || s.life.fuseDue then s.newNonce.fuseEnd 1
  else (s.modLife fun l => { l with fuseDue := true }).fset Fd.fuseStatus_BUSY 1

/-! The debug registers of a twin (R779, R780). -/

/-- Set a special register. TIME, CORE_ID, ISSUE_LEVEL, SUMMARY_LEVEL and s15 take nothing; EVENTS is W1C; reserved bits stay zero
(Table 5.1). A write of TCMP arms the compare. -/
def TwinSt.setSpecial (t : TwinSt) (n : Nat) (v : Word) : TwinSt :=
  match n with
  | 0 => { t with status := v &&& 15 }
  | 1 => { t with epc := v }
  | 2 => { t with cause := v }
  | 3 => { t with evalue := v }
  | 4 => { t with vbase := v &&& ~~~3 }
  | 5 => { t with stackLimit := v }
  | 6 => { t with tcmp := v, tcmpArmed := true }
  | 8 => { t with events := t.events &&& ~~~v }
  | 9 => { t with eventMask := v &&& 31 }
  | 11 => { t with kscratch := v }
  | 12 => { t with uscratch := v }
  | _ => t

/-- The register TDBG_SEL names. -/
def State.tdbgValue (s : State) (c : Nat) : Word :=
  let n := s.fget Fd.tdbgSel_REG c
  if s.fon Fd.tdbgSel_SPECIAL c then s.special c n else (s.twin c).gr n

/-- A write of TDBG_DATA (R780): only while HALTED. -/
def State.tdbgWrite (s : State) (src : Source) (c : Nat) (v : Word) : State :=
  if !s.mayDebug src c then s.debugDeny src
  else if (s.twin c).mode ≠ .halted then s.charge src
  else
    let n := s.fget Fd.tdbgSel_REG c
    s.modTwin c fun t => if s.fon Fd.tdbgSel_SPECIAL c then t.setSpecial n v else t.setGr n v

/-- HALT of TDBG_CMD: a violation unless the twin is RUNNING. An access under way is completed first (R202). -/
def State.tdbgHalt (s : State) (src : Source) (c : Nat) : State :=
  if !s.mayDebug src c then s.debugDeny src
  else if (s.twin c).mode ≠ .running then s.charge src
  else if (s.twin c).began then s.modTwin c fun t => { t with haltAt := some 1 }
  else s.haltTwin c 1

/-- RESUME of TDBG_CMD: a violation unless the twin is HALTED. The Kettle's window restarts (R203). -/
def State.tdbgResume (s : State) (src : Source) (c : Nat) : State :=
  if !s.mayDebug src c then s.debugDeny src
  else if (s.twin c).mode ≠ .halted then s.charge src
  else (s.modTwin c fun t => { t with mode := .running, kettle := { t.kettle with start := s.elapsed } }).fset Fd.tdbgStatus_HALT_CAUSE 0 c

/-! What a read shows. -/

/-- A wide map of bits cut into registers of 64. -/
def wideReg (m k : Nat) : Nat := m / 2 ^ (64 * k) % 2 ^ 64

/-- Bits set in the units of a map register. -/
def State.mapCount (s : State) (r : RegName) (n : Nat) : Nat :=
  ((List.range n).map fun i => popcount 64 (s.reg r i)).foldl (· + ·) 0

/-- UNITS_SUMMARY (Table 24.4). -/
def State.unitsSummary (s : State) : Nat :=
  s.mapCount .coresOut 5 + 2 ^ 16 * s.mapCount .channelsOut 4 + 2 ^ 32 * s.mapCount .lanesOut 3 +
    2 ^ 48 * (((List.range 288).map fun c => popcount 64 (s.reg .arrayOut c)).foldl (· + ·) 0 % 2 ^ 16)

/-- AON_STATUS (Table 24.4). -/
def State.aonStatus (s : State) : Nat :=
  1 + 2 * s.fget Fd.quartzStatus_REF_OK + 4 * s.fget Fd.garnetStatus_LOG_LOST + 8 * s.fget Fd.testStatus_SCAN_OPEN +
    16 * b2n s.fuse.bad + 256 * s.fget Fd.bootStatus_STAGE + 4096 * s.fget Fd.bootStatus_LAST_CAUSE + 65536 * b2n s.life.inReset

/-- FUSE_STATE (Table 21.9). -/
def State.fuseState (s : State) : Nat :=
  let slot (k : KeySlot) : Nat := if k.revoked then 2 else if k.hash.isSome then 1 else 0
  (s.fuse.slots.zipIdx.map fun (k, i) => slot k * 4 ^ i).foldl (· + ·) 0 % 256 + 256 * (s.fuse.testLock % 4) +
    4096 * (s.fuse.sessions % 16) + 65536 * b2n s.fuse.bad

/-- CORE_STATUS (Table 5.9). In RESET_HOLD, where STATUS is clear (R217), PRIV reads its reset value 1, the level at which START begins
(assumption log 69). -/
def State.coreStatus (s : State) (c : Nat) : Nat :=
  let k := s.core c
  let st := match k.twin.mode with | .resetHold => 0 | .running => 1 | .parked => 2 | .halted => 3 | .stopped => 4
  let idle := k.queues.all (fun q => q.isEmpty) && (List.range 5).all fun e => s.engState c e == 0
  st + 16 * b2n idle + 32 * b2n (k.twin.super || k.twin.mode == .resetHold) + 256 * (k.issueLevel % 2 ^ 40)

/-- GROUP_INFO of a slot (Table 9.11). -/
def State.groupInfo (s : State) (c sl : Nat) : Nat :=
  match nfind (s.whisk c).groups sl with
  | none => 0
  | some g =>
    let low := (((nfind (s.whisk c).crews g.crew).map fun r => r.slots).getD [sl]).foldl min sl
    let st := if g.park ≠ 0 then 3 else if g.wait ≠ .none ∨ nhas s.waiters (slotWaiter c sl) then 2 else 1
    g.index % 2 ^ 32 + 2 ^ 42 * low + 2 ^ 48 * st + 2 ^ 56 * g.park

/-- PIN_LEVELS (R824, R672): what the device drives, and the levels it finds. The level of an input is a free value. -/
def State.pinLevels (s : State) : Nat × State :=
  let (w, s) := s.free
  let dir := s.fget Fd.gpioCtl_DIR
  let gpio := (s.fget Fd.gpioCtl_OUT).land dir + (w.toNat % 256).land (255 - dir)
  let v := s.reg .faultSummary
  (1 + 2 * b2n (!s.life.perst) + 4 * b2n (v.land 0xC0 != 0) + 8 * b2n (v != 0 || s.fon Fd.garnetStatus_LOG_LOST) +
    16 * b2n s.thermLow + 65536 * gpio, s)

/-- The register DBG_SEL names (Table 9.11). With PRED 1 the table wants REG[5:3] zero and does not call another value reserved: REG is
taken modulo 8 (DESIGN CHOICE, assumption log 28). -/
def State.dbgValue (s : State) (c : Nat) : Nat :=
  match nfind (s.whisk c).groups (s.fget Fd.dbgSel_SLOT c) with
  | none => 0
  | some g => if s.fon Fd.dbgSel_PRED c then g.pred (s.fget Fd.dbgSel_REG c % 8) else g.reg (s.fget Fd.dbgSel_REG c) (s.fget Fd.dbgSel_LANE c)


/-- The beats a die's pace replica can count in a tick (R58, R70): those of its operating point, or, while its rail slews, of the points
between which it moves. -/
def State.paceRange (s : State) (k : Nat) : Nat × Nat :=
  let a := paceBounds (s.fget Fd.paceStatus_OP_NOW k)
  let b := if s.fon Fd.paceStatus_SLEWING k then paceBounds (s.fget Fd.paceStatus_OP_TARGET k) else a
  (min a.1 b.1, max a.2 b.2)

/-- PACE_STATUS (Table 2.5): BEATS_PER_US is a free value within the bounds of R58, measured anew at each read (assumption log 11). -/
def State.paceStatus (s : State) (k : Nat) : Nat × State :=
  let (w, s) := s.free
  let r := s.paceRange k
  (putBits (s.reg .paceStatus k) 15 0 (r.1 + w.toNat % (r.2 - r.1 + 1)), s)

/-- The value a read of a register returns, whole. -/
def State.view (s : State) (r : RegName) (u k : Nat) : Nat × State :=
  match r with
  | .paceStatus => s.paceStatus u
  | .idPart => (2 ^ 56 + 2 ^ 32 * popcount 288 s.fuse.present + 2 ^ 16 * (s.fuse.stepping % 2 ^ 16) + s.fuse.orderCode % 2 ^ 16, s)
  | .aonStatus => (s.aonStatus, s)
  | .unitsSummary => (s.unitsSummary, s)
  | .presentCores => (wideReg s.fuse.present u, s)
  | .fuseId => (s.fuse.deviceId, s)
  | .fusePart => (s.fuse.orderCode % 2 ^ 16 + 2 ^ 16 * (s.fuse.stepping % 2 ^ 16), s)
  | .fuseState => (s.fuseState, s)
  | .fuseFloors => (s.fuse.imageFloor % 2 ^ 32 + 2 ^ 32 * (s.fuse.fwFloor % 2 ^ 32), s)
  | .fuseKey => (imgN (((s.fuse.slots.getD (u / 6) {}).hash).getD []) (8 * (u % 6)) 8, s)
  | .foldStatus => (putBits (s.reg r u k) 7 7 (b2n (s.foldBusy u)), s)
  | .pinBytes => (64 * s.pinnedLines u, s)
  | .l2PinState => (putBits (s.reg r u k) 11 0 (s.pinnedInSlice u), s)
  | .groupStatus => (putBits (s.reg r u k) 31 16 (s.member.getD 0), s)
  | .protoVersion => (s.fget Fd.fwVersion_PROTO_MINOR 0 + 256 * s.fget Fd.fwVersion_PROTO_MAJOR 0, s)
  | .quartzNow => (s.now, s.latchSnap)
  | .fwEvents => ((s.proc u).events, s)
  | .pinLevels => s.pinLevels
  | .coreStatus => (s.coreStatus u, s)
  | .twinPc => ((s.twin u).lastPc.toNat, s)
  | .eventLatch => ((s.twin u).events.toNat, s)
  | .arrayAvail => (s.arrayAvail u, s)
  | .parkMask => ((((s.whisk u).groups.filter fun e => e.2.park != 0).map fun e => 2 ^ e.1).foldl (· + ·) 0, s)
  | .groupInfo => (s.groupInfo u k, s)
  | .groupPc => (((nfind (s.whisk u).groups k).map fun g => g.pc.toNat).getD 0, s)
  | .dbgData => (s.dbgValue u, s)
  | .tdbgData => ((s.tdbgValue u).toNat, s)
  | .tdbgPc => ((s.twin u).pc.toNat, s)
  | _ => (s.reg r u k, s)

/-- Whether a register belongs to an absent core, and so behaves as a reserved field (R848). -/
def State.absentReg (s : State) (r : RegName) (u off : Nat) : Bool :=
  (decide (0x1000000 ≤ off) || r == .coreViol) && r.units == 288 && !s.corePresent u

/-- A write that starts nothing because its register belongs to an absent core (R848); a START of its twin is a violation (R218). -/
def State.absentWrite (s : State) (src : Source) (r : RegName) (v : Nat) : State :=
  if r = .twinCmd ∧ bits v 1 0 = 1 then s.charge src else s

/-- The host's view of GARNET_WINDOW (R745): len bytes at an offset within it. -/
def State.windowBytes (s : State) (o len : Nat) : Bytes × State :=
  let (e, s) := s.windowRead (o / 64 % 4096)
  ((e.drop (o % 64)).take len, s)

/-- A read of 4 bytes. -/
def State.readWord (s : State) (off : Nat) : Nat × State :=
  if 0x90000 ≤ off ∧ off < 0xD0000 then let (b, s) := s.windowBytes (off - 0x90000) 4; (leNat b, s)
  else match regAt off with
    | none => (0, s)
    | some a =>
      if s.absentReg a.reg a.u off then (0, s) else
      let (v, s) := s.view a.reg a.u a.k
      (bits v (8 * a.o + 31) (8 * a.o), s)

/-- A read of the register region of 4 or 8 bytes (R795, R850): 8 bytes of a 64-bit register are read as one. -/
def State.readReg (s : State) (off len : Nat) : Nat × State :=
  if len ≤ 4 then s.readWord off else
  if 0x90000 ≤ off ∧ off < 0xD0000 then let (b, s) := s.windowBytes (off - 0x90000) 8; (leNat b, s)
  else match regAt off with
    | some a =>
      if a.reg.width = 8 ∧ a.o = 0 then (if s.absentReg a.reg a.u off then (0, s) else s.view a.reg a.u a.k)
      else
        let (x, s) := s.readWord off
        let (y, s) := s.readWord (off + 4)
        (x + 2 ^ 32 * y, s)
    | none =>
      let (x, s) := s.readWord off
      let (y, s) := s.readWord (off + 4)
      (x + 2 ^ 32 * y, s)

/-! What a write starts. -/

/-- RESUME or DISCARD of an engine (R252, R359, R402). -/
def State.engineCmd (s : State) (src : Source) (c e cmd : Nat) : State :=
  if cmd ≠ 1 ∧ cmd ≠ 2 then s.charge src else
  match e with
  | 0 => s.engCtl src c 0 cmd fun k => { k with mat := {} }
  | 2 => s.engCtl src c 2 cmd fun k => { k with whisk := { k.whisk with word := none } }
  | 3 => if cmd = 1 then s.movResume src c else s.engCtl src c 3 2 fun k => { k with mov := {} }
  | e => s.engCtl src c e cmd id

/-- GROUP_CMD (R348, Table 9.11). -/
def State.groupWrite (s : State) (src : Source) (c v : Nat) : State :=
  let sl := bits v 5 0
  let crew := bit v 7
  if 48 ≤ sl then s.charge src else
  match bits v 11 8 with
  | 1 => s.groupCmd src c sl crew (fun g => g.park != 0) fun s x => s.unparkGroup c x
  | 2 => s.groupCmd src c sl crew (fun g => g.park == 2) fun s x => s.releaseCrew c x
  | 3 => s.groupCmd src c sl crew (fun _ => true) fun s x => s.killGroup c x
  | 4 => s.groupHalt src c sl crew
  | 5 => s.groupStep src c sl crew
  | _ => s.charge src

/-- CTX_MAP_CTL (R157, R172): a write that sets ENABLE is checked; one that clears it drops what is held. -/
def State.mapCtl (s : State) (src : Source) (c v : Nat) : State :=
  let was := s.fon Fd.ctxMapCtl_ENABLE c
  let s := s.plainWrite src .ctxMapCtl c 0 31 0 v
  if !bit v 31 then (if was then s.mapDrop c else s)
  else if was then s
  else
    let n := s.fget Fd.ctxMapCtl_PAGES c
    let e := if (s.foldOfCtx c).isNone then 3 else if n = 0 then 1 else if 0x200000 < n then 2 else 0
    (s.fset Fd.ctxMapCtl_REASON e c).fset Fd.ctxMapCtl_ENABLE (b2n (e == 0)) c

/-- CTX_MAP_ENABLE (R157). -/
def execCtxMapEnable (src : Source) (c : CtxId) (v : Word32) (s : State) : Host.Outcome State Fault Refusal :=
  if s.shut src then .next (s.turned .host) else
  .next (s.mapCtl src c v.toNat)

/-- QUARTZ_CMD (R607, R612). -/
def State.quartzCmd (s : State) (src : Source) (cmd : Nat) : State :=
  match cmd with
  | 1 => s.stepForward
  | 2 => s.ptmSample
  | _ => s.charge src

/-- RING_CMD (Table 13.12). -/
def State.ringCmd (s : State) (src : Source) (r cmd : Nat) : State :=
  match cmd with
  | 1 => s.ringStart src r
  | 2 => s.stopDrain src r
  | 3 => s.stopAbort src r
  | 4 => s.ringReset src r
  | _ => s.charge src

/-- PORT_CMD (R532, R534). -/
def State.portCmd (s : State) (src : Source) (p cmd : Nat) : State :=
  match cmd with
  | 1 => s.retrainPort p
  | 2 => s.restoreLanes p
  | _ => s.charge src

/-- HBM_PWR_CMD (R422, R423). -/
def State.hbmCmd (s : State) (src : Source) (st cmd : Nat) : State :=
  match cmd with
  | 1 => s.hbmPwrCmd src st false
  | 2 => s.hbmPwrCmd src st true
  | _ => s.charge src


/-- TDBG_CMD (R779, R780). step performs a STEP. -/
def State.tdbgCmd (s : State) (src : Source) (c cmd : Nat) (step : Nat → State → State) : State :=
  match cmd with
  | 1 => s.tdbgHalt src c
  | 2 => s.tdbgResume src c
  | 3 => if !s.mayDebug src c then s.debugDeny src else if (s.twin c).mode ≠ .halted then s.charge src else step c s
  | _ => s.charge src

/-- A write of bits [hi:lo] of a register, v holding them in their places and zero elsewhere, that starts what the register's table says
(R870); a register without an effect of its own is written field by field (R23). -/
def State.writeBits (s : State) (src : Source) (step : Nat → State → State) (r : RegName) (u k hi lo v : Nat) : State :=
  let merged := putBits (s.reg r u k) hi lo (bits v hi lo)
  let cmd (n : Nat) : Nat := bits v (n - 1) 0
  match r with
  | .imageCmd => s.imageCmdWrite src (cmd 4) (bit v 8)
  | .fwCmd => s.fwCmdWrite src (cmd 4) (bits v 12 8)
  | .fuseCmd => if bit v 0 then s.fuseCmdWrite src else s
  | .ctxMapCtl => s.mapCtl src u v
  | .ctxMapInval => s.mapInval src u (bit v 31) (bits v 20 0)
  | .ctxMiss => if bit v 63 then s.ctxMissClear u else s
  | .stallFirst => if bit v 63 then s.setReg .stallFirst 0 u else s
  | .pinCmd => s.pinCmd src u (cmd 2)
  | .ringCmd => s.ringCmd src u (cmd 3)
  | .ctxHtCtl => s.htCtl src u v
  | .ctxHtInval => s.htInval src u (bit v 31) (bits v 15 0)
  | .groupEpoch => s.writeEpoch v
  | .quartzCmd => s.quartzCmd src (cmd 2)
  | .powerCmd => if lo = 0 then s.powerCmd src (bits v 7 0) (bits v 47 32) (bits v 15 8) (bits v 23 16) else s
  | .thermCtl => s.writeWarn src v
  | .fcAck => if bit v 0 then s.fcAck src u else s
  | .resetCmd => if lo = 0 then s.resetCmd src (bits v 7 0) (bits v 47 32) else s
  | .pkettleCtl => s.kettleCtlWrite src (.proc (Fin.ofNat 5 u)) v
  | .pkettleKey => s.keyWrite src (.proc (Fin.ofNat 5 u)) v
  | .pkettleWindow => s.kettleWindowWrite src (.proc (Fin.ofNat 5 u)) merged
  | .pkettleKick => if bit v 0 then let (w, s) := s.free; s.pkKick src u w.toNat else s
  | .fwlogCtl => s.fwlogCtlWrite src hi lo v
  | .bistCmd => s.bistCmd src (cmd 2) (bits v 31 16)
  | .sbCtl => if src = .host then s.plainWrite src r u k hi lo v else s.charge src
  | .msixVectorCtl => (s.plainWrite src r u k hi lo v).flushVec u
  | .twinCmd => if cmd 2 = 1 then s.twinStart src u else s.charge src
  | .kettleCtl => s.kettleCtlWrite src (.twin (Fin.ofNat 288 u)) v
  | .kettleKey => s.keyWrite src (.twin (Fin.ofNat 288 u)) v
  | .kettleWindow => s.kettleWindowWrite src (.twin (Fin.ofNat 288 u)) merged
  | .matrixCtl => s.engineCmd src u 0 (cmd 2)
  | .vectorCtl => s.engineCmd src u 1 (cmd 2)
  | .whiskCtl => s.engineCmd src u 2 (cmd 2)
  | .moverCtl => s.engineCmd src u 3 (cmd 2)
  | .pourCtl => s.engineCmd src u 4 (cmd 2)
  | .groupCmd => s.groupWrite src u v
  | .dbgData => if lo = 0 then s.dbgWrite src u (bits v 31 0) else s
  | .portCmd => s.portCmd src u (cmd 2)
  | .hbmPwrCmd => s.hbmCmd src u (cmd 2)
  | .tdbgCmd => s.tdbgCmd src u (cmd 2) step
  | .tdbgData => s.tdbgWrite src u (BitVec.ofNat 64 (putBits (s.tdbgValue u).toNat hi lo (bits v hi lo)))
  | _ => s.plainWrite src r u k hi lo v

/-- Bytes written to a submission window of a processor (R743): the write that covers offset 0x38 submits the entry. -/
def State.submitWrite (s : State) (src : Source) (n o len v : Nat) : State :=
  match src with
  | .proc p =>
    if p.val ≠ n then s.charge src else
    let s := s.modProc n fun p => { p with submit := overlay (padTo 64 p.submit) o (leBytes len v) }
    if o ≤ 0x38 ∧ 0x38 < o + len then (s.garnetSubmit src n (((s.proc n).submit.drop 16).take 44) none).modProc n fun p => { p with submit := [] }
    else s
  | _ => s.garnetSubmit src n [] none

/-- A write of 4 bytes. -/
def State.writeWord (s : State) (src : Source) (step : Nat → State → State) (off v : Nat) : State :=
  match regAt off with
  | none => s
  | some a =>
    if s.absentReg a.reg a.u off then s.absentWrite src a.reg v
    else s.writeBits src step a.reg a.u a.k (8 * a.o + 31) (8 * a.o) (v % 2 ^ 32 * 2 ^ (8 * a.o))

/-- A write of the register region of 4 bytes, or of 8 (R795, R850), that the source may make. -/
def State.writePart (s : State) (src : Source) (step : Nat → State → State) (off : Nat) (wide : Bool) (v : Nat) : State :=
  if 0x80100 ≤ off ∧ off < 0x80240 then s.submitWrite src ((off - 0x80100) / 64) ((off - 0x80100) % 64) (if wide then 8 else 4) v
  else if !wide then s.writeWord src step off v
  else match regAt off with
    | some a =>
      if a.reg.width = 8 ∧ a.o = 0 then
        (if s.absentReg a.reg a.u off then s else s.writeBits src step a.reg a.u a.k 63 0 (v % 2 ^ 64))
      else (s.writeWord src step off (v % 2 ^ 32)).writeWord src step (off + 4) (v / 2 ^ 32 % 2 ^ 32)
    | none => (s.writeWord src step off (v % 2 ^ 32)).writeWord src step (off + 4) (v / 2 ^ 32 % 2 ^ 32)

/-- FW_TIMER_k, which only its own processor reaches (R732): k where a processor's write names one. It is given here an offset above the
register region. -/
def timerOf (off : Nat) : Option Nat := if 0x4000000 ≤ off ∧ off < 0x4000080 then some ((off - 0x4000000) / 8) else none

/-- A write of the register region (R12, R795, R775): a misaligned one writes nothing and is a violation. -/
def State.writeRegWith (s : State) (src : Source) (step : Nat → State → State) (off : Nat) (wide : Bool) (v : Nat) : State :=
  if s.shut src then s.turned .host
  else if off % (if wide then 8 else 4) ≠ 0 then s.charge src
  else match src, timerOf off with
    | .proc n, some k => s.fwTimerWrite n k v
    | _, _ => s.writePart src step off wide v

end Sys2Proof.Machine
end

