-- ==== Sys2Proof/Machine/Twin.lean ====
section
/-!
DEFINITION. The instructions of a core's twin (chapter 5, Tables 5.2 to 5.4) and its synchronising operations (chapter 10): fetch,
decoding, accesses through the data cache, and what each instruction does. Each command of this family runs the instruction at the twin's
program counter where it is of the command's class.
-/
namespace Sys2Proof.Machine

/-! Encoding (R181, R182, Tables 5.2 and 5.3). -/

/-- The classes of Chedal instructions, one per command. -/
inductive TClass where
  | alu | aluImm | load | store | atomic | branch | jump | issue | sumget | qwait | waitAcq | signal | fence | flush | dinv | dinvAll
  | iinvAll | ecall | ebreak | eret | mfs | mts | wfe | kick | done | illegal
  deriving DecidableEq, Repr

/-- OP of an instruction word. -/
def tOp (w : Nat) : Nat := bits w 31 26
/-- rd, or ra of B format: bits [25:21]. -/
def tRd (w : Nat) : Nat := bits w 25 21
/-- ra, or rb of B format: bits [20:16]. -/
def tRa (w : Nat) : Nat := bits w 20 16
/-- rb of R format: bits [15:11]. -/
def tRb (w : Nat) : Nat := bits w 15 11
/-- FN of R and X format. -/
def tFn (w : Nat) : Nat := bits w 10 0
/-- IMM of I format, unsigned. -/
def tImm (w : Nat) : Nat := bits w 15 0
/-- SN of X format. -/
def tSn (w : Nat) : Nat := bits w 15 12

/-- Whether the R fields a word does not use are zero (R182). -/
def tUnused (w : Nat) (rd ra rb : Bool) : Bool := (rd || tRd w == 0) && (ra || tRa w == 0) && (rb || tRb w == 0)

/-- A class where a condition holds, else ILLEGAL. -/
def TClass.onlyIf (c : Bool) (k : TClass) : TClass := if c then k else .illegal

/-- The class of an instruction word (Table 5.3): ILLEGAL where OP or FN is not there, or a reserved bit is set (R182), or ra of ISSUE is
not a multiple of 4 (R185). -/
def tClass (w : Nat) : TClass :=
  let op := tOp w
  let fn := tFn w
  if op = 0 then .onlyIf (decide (fn ≤ 0x14)) .alu
  else if op ≤ 6 then .aluImm
  else if op ≤ 9 then .onlyIf (bits w 15 6 == 0) .aluImm
  else if op = 0xA then .onlyIf (tRa w == 0) .aluImm
  else if 0x10 ≤ op ∧ op ≤ 0x16 then .load
  else if 0x18 ≤ op ∧ op ≤ 0x1B then .store
  else if op = 0x1C then .onlyIf (decide (fn ≤ 7)) .atomic
  else if 0x20 ≤ op ∧ op ≤ 0x25 then .branch
  else if 0x26 ≤ op ∧ op ≤ 0x28 then .jump
  else if op = 0x30 then .onlyIf (decide (fn ≤ 4) && tUnused w false true false && tRa w % 4 == 0) .issue
  else if op = 0x31 then .onlyIf ((fn == 1 || fn == 2) && tUnused w true false false) .sumget
  else if op = 0x33 then .onlyIf (decide (fn ≤ 4) && tUnused w false false false) .qwait
  else if op = 0x34 then
    match fn with
    | 0 => .waitAcq
    | 1 => .onlyIf (tUnused w true true false) .signal
    | 2 => .onlyIf (tUnused w false false false) .fence
    | 3 => .onlyIf (tUnused w false false false) .flush
    | _ => .illegal
  else if op = 0x36 then
    match fn with
    | 0 => .onlyIf (tUnused w false true false) .dinv
    | 1 => .onlyIf (tUnused w false false false) .dinvAll
    | 2 => .onlyIf (tUnused w false false false) .iinvAll
    | _ => .illegal
  else if op = 0x3F ∧ !bit w 11 then
    match fn with
    | 0 => .ecall
    | 1 => .ebreak
    | 2 => .eret
    | 3 => .mfs
    | 4 => .mts
    | 5 => .wfe
    | 6 => .kick
    | 7 => .done
    | _ => .illegal
  else .illegal

/-! Arithmetic (Table 5.3, R183). -/

/-- The result of an R-format instruction of OP 0 by its FN. -/
def tAlu (fn : Nat) (x y : Word) : Word :=
  let sh := y.toNat % 64
  match fn with
  | 0x00 => x + y
  | 0x01 => x - y
  | 0x02 => x &&& y
  | 0x03 => x ||| y
  | 0x04 => x ^^^ y
  | 0x05 => x <<< sh
  | 0x06 => x >>> sh
  | 0x07 => x.sshiftRight sh
  | 0x08 => if x.slt y then 1 else 0
  | 0x09 => if x.ult y then 1 else 0
  | 0x0A => if y.slt x then y else x
  | 0x0B => if x.slt y then y else x
  | 0x0C => if y.ult x then y else x
  | 0x0D => if x.ult y then y else x
  | 0x0E => x * y
  | 0x0F => BitVec.ofInt 64 (x.toInt * y.toInt / 2 ^ 64)
  | 0x10 => BitVec.ofNat 64 (x.toNat * y.toNat / 2 ^ 64)
  | 0x11 => if y = 0 then BitVec.allOnes 64 else x.sdiv y
  | 0x12 => if y = 0 then BitVec.allOnes 64 else x / y
  | 0x13 => if y = 0 then x else x.srem y
  | _ => if y = 0 then x else x % y

/-- IMM sign-extended. -/
def tSimm (w : Nat) : Word := BitVec.ofInt 64 (sext 16 (tImm w))

/-- The result of an I-format arithmetic instruction by its OP. -/
def tAluImm (w : Nat) (x : Word) : Word :=
  let z : Word := BitVec.ofNat 64 (tImm w)
  match tOp w with
  | 0x01 => tAlu 0x00 x (tSimm w)
  | 0x02 => tAlu 0x02 x z
  | 0x03 => tAlu 0x03 x z
  | 0x04 => tAlu 0x04 x z
  | 0x05 => tAlu 0x08 x (tSimm w)
  | 0x06 => tAlu 0x09 x (tSimm w)
  | 0x07 => tAlu 0x05 x z
  | 0x08 => tAlu 0x06 x z
  | 0x09 => tAlu 0x07 x z
  | _ => tSimm w <<< 16

/-- Whether a branch is taken, by its OP. -/
def tTaken (op : Nat) (x y : Word) : Bool :=
  match op with
  | 0x20 => x == y
  | 0x21 => x != y
  | 0x22 => x.slt y
  | 0x23 => !x.slt y
  | 0x24 => x.ult y
  | _ => !x.ult y

/-! What an instruction comes to. -/

/-- What an attempt at an instruction comes to: it is complete and the program counter goes on at pc; it raises an exception; it waits
under R189; or an access of its own is under way. -/
inductive TRes where
  | ok (s : State) (pc : Word)
  | exc (s : State) (cause ev : Nat)
  | wait (s : State)
  | busy (s : State)

/-- The instruction is complete and the next follows it. -/
def State.tNext (s : State) (c : Nat) : TRes := .ok s ((s.twin c).pc + 4)

/-- An instruction retires, unless what it did has taken its twin out of RUNNING. -/
def State.tRetire (s : State) (c : Nat) (pc : Word) : State :=
  if (s.twin c).mode ≠ .running then s
  else (s.modTwin c fun t => { t with lastPc := t.pc, pc := pc, began := false, waiting := false }).haltDue c

/-! Accesses (R144, R180, R190, R191). -/

/-- The line of the data cache that holds a place, where the twin caches it (Table 5.4): by its local granule. -/
def twinLine (c : Nat) : Place → Option Nat
  | .hbm a => some (a / 64)
  | .pantry n off => if n = c then none else some (pantryKey n off / 64)
  | _ => none

/-- Keep a line in a cache of 16 KiB: 256 lines, the newest first. -/
def cacheKeep (l : List (Nat × Bytes)) (g : Nat) (d : Bytes) : List (Nat × Bytes) :=
  ((g, d) :: l.filter fun e => e.1 != g).take 256

/-- Drop a line of a twin's data cache. -/
def State.dcacheDrop (s : State) (c g : Nat) : State :=
  s.modTwin c fun t => { t with dcache := t.dcache.filter fun e => e.1 != g }

/-- A twin's access to the register region (R180, R795): at SUPERVISOR, a load or a store of 4 or 8 bytes at their own alignment; any
other is a violation. -/
def State.tRegs (s : State) (c off : Nat) (a : Act) (len : Nat) : State × Option (Answer × Bytes) :=
  let bad : State × Option (Answer × Bytes) := (s.violate (.core c), some (.dropped, a.zeros len))
  if !(s.twin c).super then bad else
  match a with
  | .load =>
    if (len = 4 ∨ len = 8) ∧ off % len = 0 then
      let (v, s) := s.readReg off len
      (s, some (.done, leBytes len v))
    else bad
  | .store d =>
    if (d.length = 4 ∨ d.length = 8) ∧ off % d.length = 0 then
      (s.writeRegWith (.twin (Fin.ofNat 288 c)) (fun _ s => s) off (d.length == 8) (leNat d), some (.done, []))
    else bad
  | _ => bad

/-- A load of a twin (R191): through the data cache where the place is cached. -/
def State.tLoad (s : State) (c : Nat) (b : Requester) (addr len : Nat) : State × Option (Answer × Bytes) :=
  match s.resolveCore c 0 addr true with
  | .reg off => s.tRegs c off .load len
  | .here f p =>
    match twinLine c p with
    | none => s.deliver b (.here f p) .load len 0 0x7F (.core c)
    | some g =>
      match (s.twin c).dcache.find? fun e => e.1 == g with
      | some e => (s, some (.done, (e.2.drop (addr % 64)).take len))
      | none =>
        let (s, r) := s.deliver b (.here f (s.granule g)) .load 64 0 0x7F (.core c)
        match r with
        | none => (s, none)
        | some (.done, d) =>
          (s.modTwin c fun t => { t with dcache := cacheKeep t.dcache g d }, some (.done, (d.drop (addr % 64)).take len))
        | some (x, d) => (s, some (x, (d.drop (addr % 64)).take len))
  | r => s.deliver b r .load len 0 0x7F (.core c)

/-- A store of a twin updates the cached copy of its line (R191). -/
def State.dcachePut (s : State) (c g addr : Nat) (d : Bytes) : State :=
  s.modTwin c fun t => { t with dcache := t.dcache.map fun e => if e.1 = g then (g, overlay e.2 (addr % 64) d) else e }

/-- A store of a twin (R191): a cached copy of its line is updated, and it is sent on to its target, whatever that answers. A violation does
nothing at all (R166). -/
def State.tStore (s : State) (c : Nat) (b : Requester) (addr : Nat) (d : Bytes) : State × Option (Answer × Bytes) :=
  match s.resolveCore c 1 addr true with
  | .reg off => (s.modTwin c fun t => { t with began := true }).tRegs c off (.store d) 0
  | .here f p =>
    let (s, r) := s.deliver b (.here f p) (.store d) 0 0 0x7F (.core c)
    let s := match twinLine c p, r with
      | some _, some (.dropped, _) => s
      | some g, _ => s.dcachePut c g addr d
      | none, _ => s
    (s, r)
  | r => s.deliver b r (.store d) 0 0 0x7F (.core c)

/-- An atomic or a signal of a twin: performed at its target, and a cached copy of the line is dropped. -/
def State.tDirect (s : State) (c : Nat) (b : Requester) (a : Act) (addr len : Nat) : State × Option (Answer × Bytes) :=
  match s.resolveCore c a.perm addr true with
  | .reg off => s.tRegs c off a len
  | .here f p =>
    let s := match twinLine c p with | some g => s.dcacheDrop c g | none => s
    s.deliver b (.here f p) a len 0 0x7F (.core c)
  | r => s.deliver b r a len 0 0x7F (.core c)

/-- An access of a twin for a requester: its answer, once it has one. An access under way is not issued again. -/
def State.tAccess (s : State) (c : Nat) (b : Requester) (a : Act) (addr len : Nat) : State × Option (Answer × Bytes) :=
  match s.takeReply b with
  | some (s, r, d) => (s, some (r, d))
  | none =>
    if s.inFlight b then (s, none) else
    match a with
    | .load => s.tLoad c b addr len
    | .store d => s.tStore c b addr d
    | a => s.tDirect c b a addr len

/-- EVALUE of HOST_MAP_MISS for the twin (Table 5.5). -/
def missValue (addr : Nat) : Nat := 0xF * 2 ^ 60 + addr % 2 ^ 60

/-- Whether an access of a core reaches a host slice, of this member or of another. -/
def State.toHostSlice (s : State) (c perm addr : Nat) : Bool :=
  match s.resolveCore c perm addr true with
  | .here _ (.host _ _) => true
  | .away _ t => match s.placeOf (t % 2 ^ 48) with
    | .host _ _ => true
    | _ => false
  | _ => false

/-- A poisoned answer from host memory marks the part DATA_POISONED (R169). -/
def State.hostPoison (s : State) (c perm addr : Nat) : State := if s.toHostSlice c perm addr then s.markPart c 1 else s

/-- What the twin makes of an answer (Table 5.5, R84, R166): a miss and a poisoned load are exceptions, a FENCED answer marks the part;
then the instruction goes on with the value. -/
def State.tAnswer (s : State) (c perm addr : Nat) (r : Answer × Bytes) (go : State → Nat → TRes) : TRes :=
  match r.1 with
  | .miss => .exc s 5 (missValue addr)
  | .poisoned => if perm = 0 ∨ perm = 3 then .exc (s.hostPoison c perm addr) 6 addr else go (s.hostPoison c perm addr) 0
  | .done => go s (leNat r.2)
  | .dropped => go s (leNat r.2)
  | .fenced => go (s.markPart c 2) 0
  | .error => go (s.markPart c 2) 0

/-- One access of an instruction. -/
def State.tMem (s : State) (c : Nat) (a : Act) (addr len : Nat) (go : State → Nat → TRes) : TRes :=
  let (s, r) := s.tAccess c (.twin c) a addr len
  match r with
  | none => .busy s
  | some r => s.tAnswer c a.perm addr r go

/-! Fetch. -/

/-- What a fetch comes to. -/
inductive TFetch where
  | ok (s : State) (w : Nat)
  | exc (s : State) (cause ev : Nat)
  | busy (s : State)

/-- Fetch the instruction at the program counter: the word a fetch has brought, or one through the instruction cache (R190, Table 5.4).
At an address that is no multiple of 4 no rule gives a word: it is a free value (assumption log 4). -/
def State.twinFetch (s : State) (c : Nat) (f : Option Word32) : TFetch :=
  match f with
  | some w => .ok s w.toNat
  | none =>
    let pc := (s.twin c).pc.toNat
    if pc % 4 ≠ 0 then let (w, s) := s.free; .ok s (w.toNat % 2 ^ 32) else
    let line := pc / 64
    let at' (b : Bytes) : Nat := leNat ((b.drop (pc % 64)).take 4)
    match (s.twin c).icache.find? fun e => e.1 == line with
    | some e => .ok s (at' e.2)
    | none =>
      let (s, r) := s.request (.engine c 6 0) c .load (64 * line) 64 0x7F true
      match r with
      | none => .busy s
      | some (.done, b) => .ok (s.modTwin c fun t => { t with icache := cacheKeep t.icache line b }) (at' b)
      | some (.dropped, _) => .ok s 0
      | some (.miss, _) => .exc s 5 (missValue pc)
      | some (.poisoned, _) => .exc (s.hostPoison c 0 pc) 6 pc
      | some _ => .ok (s.markPart c 2) 0

/-! Each class. -/

/-- The address of a load or store: ra + IMM. -/
def TwinSt.ea (t : TwinSt) (w : Nat) : Nat := (t.gr (tRa w) + tSimm w).toNat

/-- Whether a load of a twin leaves its release buffer as it is (R211): one that hits the data cache, or reads bytes of its own Pantry that no
held output changes. -/
def State.loadKeeps (s : State) (c addr len : Nat) : Bool :=
  match s.resolveCore c 0 addr true with
  | .here _ p =>
    match p, twinLine c p with
    | .pantry n off, none => n == c && !s.heldTouches c off len
    | _, some g => (s.twin c).dcache.any fun e => e.1 == g
    | _, none => false
  | _ => false

/-- Load (R184): OP 0x10 to 0x13 of 1, 2, 4, 8 bytes sign-extended, 0x14 to 0x16 zero-extended. A load of bytes that a held store changes
returns the held value (R211): that store is released first. -/
def State.tLoadOp (s : State) (c w : Nat) : TRes :=
  let n := 2 ^ (tOp w % 4)
  let a := (s.twin c).ea w
  if a % n ≠ 0 then .exc s 2 a else
  let s := if s.loadKeeps c a n then s else s.twinRelease c
  s.tMem c .load a n fun s v =>
    (s.setG c (tRd w) (if tOp w < 0x14 then BitVec.ofInt 64 (sext (8 * n) v) else BitVec.ofNat 64 v)).tNext c

/-- The line of the data cache that an address names. -/
def State.dcacheLine (s : State) (c perm addr : Nat) : Option Nat :=
  match s.resolveCore c perm addr true with
  | .here _ p => twinLine c p
  | _ => none

/-- Store (R184). With hold, its output stays in the release buffer (R211). -/
def State.tStoreOp (s : State) (c w : Nat) (hold : Bool) : TRes :=
  let n := 2 ^ (tOp w % 4)
  let a := (s.twin c).ea w
  if a % n ≠ 0 then .exc s 2 a else
  let d := leBytes n ((s.twin c).gr (tRd w)).toNat
  if hold && s.canHold c 1 a then
    let s := match s.dcacheLine c 1 a with
      | some g => s.dcachePut c g a d
      | none => s
    (s.hold c (.store a d)).tNext c
  else (s.twinRelease c).tMem c (.store d) a 0 fun s _ => s.tNext c

/-- The code of Table 14.6 of an atomic's FN: AADD to AMAX, ASWAP, ACAS. -/
def tAtomicCode (fn : Nat) : Nat := if fn ≤ 5 then fn else fn + 2

/-- Atomic (R184). -/
def State.tAtomicOp (s : State) (c w : Nat) : TRes :=
  let t := s.twin c
  let a := (t.gr (tRa w)).toNat
  if a % 8 ≠ 0 then .exc s 2 a else
  s.tMem c (.atomic (tAtomicCode (tFn w)) 8 (t.gr (tRb w)).toNat (t.gr (tRd w)).toNat) a 8 fun s v =>
    (s.setG c (tRd w) (BitVec.ofNat 64 v)).tNext c

/-- Branch (R181): OFF counts instructions from the branch itself. -/
def State.tBranchOp (s : State) (c w : Nat) : TRes :=
  let t := s.twin c
  if tTaken (tOp w) (t.gr (tRd w)) (t.gr (tRa w)) then .ok s (t.pc + BitVec.ofInt 64 (4 * sext 16 (tImm w))) else s.tNext c

/-- J, CALL and JALR (Table 5.3). JALR writes its return address to rd alone, as Table 5.3 says, where R178 names g31 for CALL and JALR:
DESIGN CHOICE (assumption log 69). -/
def State.tJumpOp (s : State) (c w : Nat) : TRes :=
  let t := s.twin c
  let far := t.pc + BitVec.ofInt 64 (4 * sext 26 (bits w 25 0))
  match tOp w with
  | 0x26 => .ok s far
  | 0x27 => .ok (s.setG c 31 (t.pc + 4)) far
  | _ => .ok (s.setG c (tRd w) (t.pc + 4)) ((t.gr (tRa w) + tSimm w) &&& ~~~3)

/-- The words for an engine that a twin's release buffer holds. -/
def TwinSt.heldWords (t : TwinSt) (e : Nat) : Nat :=
  (t.rel.filter fun h => match h with
    | .issue x _ => x == e
    | _ => false).length

/-- ISSUE (R185): it waits while the queue is full, the words still held counted. With hold, its word stays in the release buffer (R211). -/
def State.tIssueOp (s : State) (c w : Nat) (hold : Bool) : TRes :=
  let t := s.twin c
  if 64 ≤ ((s.core c).queue (tFn w)).length + t.heldWords (tFn w) then .wait s else
  let r (i : Nat) : Word := t.gr (tRa w + i)
  let x : EWord := { w0 := r 0, w1 := r 1, w2 := r 2, w3 := r 3 }
  if hold then (s.hold c (.issue (tFn w) x)).tNext c
  else
    let s := s.twinRelease c
    (s.setQueue c (tFn w) ((s.core c).queue (tFn w) ++ [x])).tNext c

/-- EVALUE of ENGINE_ERROR STOPPED (R208). -/
def stoppedValue (e : Nat) : Nat := 2 ^ 60 * e + 1

/-- SUMGET (R188, R208). -/
def State.tSumgetOp (s : State) (c w : Nat) : TRes :=
  let i := tFn w - 1
  match (s.core c).sums.getD i [] with
  | v :: vs => (((s.modCore c fun k => { k with sums := k.sums.set i vs }).setG c (tRd w) v).sumRoom c).tNext c
  | [] => if s.engState c (tFn w) = 2 then .exc s 7 (stoppedValue (tFn w)) else .wait s

/-- QWAIT (R176, R208). -/
def State.tQwaitOp (s : State) (c w : Nat) : TRes :=
  let e := tFn w
  if s.engState c e = 2 then .exc s 7 (stoppedValue e)
  else if s.engState c e = 0 ∧ ((s.core c).queue e).isEmpty then s.tNext c else .wait s

/-- Drop every line of the data cache. -/
def State.dcacheClear (s : State) (c : Nat) : State := s.modTwin c fun t => { t with dcache := [] }

/-- WAIT.ACQ (R192, R376, R393, R403). -/
def State.tAcqOp (s : State) (c w : Nat) : TRes :=
  let t := s.twin c
  let a := (t.gr (tRa w)).toNat
  let thr := (t.gr (tRb w)).toNat
  let finish (s : State) (v : Nat) : TRes :=
    ((({ s with waiters := ndel s.waiters c }).dcacheClear c).setG c (tRd w) (BitVec.ofNat 64 v)).tNext c
  match s.ownCounter c a with
  | none => finish (s.violate (.core c)) 0
  | some k =>
    match (nfind s.waiters c).bind (·.hit) with
    | some v => finish s v
    | none =>
      if nhas s.ctrPoison k then .exc s 6 a
      else if nhas s.waiters c then .wait s
      else if thr ≤ s.ctr k then finish s (s.ctr k) else .wait { s with waiters := nset s.waiters c ⟨k, thr, none⟩ }

/-- SIGNAL (R375): a release. One at an address that is no multiple of 8 is a violation (Table 4.3). With hold, its output stays in the
release buffer (R211). -/
def State.tSignalOp (s : State) (c w : Nat) (hold : Bool) : TRes :=
  let t := s.twin c
  let a := (t.gr (tRa w)).toNat
  let v := (t.gr (tRd w)).toNat
  if a % 8 ≠ 0 then (s.violate (.core c)).tNext c
  else if hold && s.canHold c 2 a then
    (s.hold c (.signal a v)).tNext c
  else (s.twinRelease c).tMem c (.signal v) a 8 fun s _ => s.tNext c

/-- The reads of ERET's frame (R199): their requesters. -/
def eretBy (c i : Nat) : Requester := .engine c 7 i

/-- One read of ERET's frame is issued; an answer at once waits with the others. -/
def State.eretRead (s : State) (c addr i : Nat) : State :=
  let b := eretBy c i
  if s.replies.any (fun r => r.by' == b) || s.inFlight b then s else
  let (s, r) := s.tLoad c b addr 8
  match r with
  | some (a, d) => s.reply ⟨b, a, d⟩
  | none => s

/-- The answer of a read of ERET's frame that waits. -/
def State.eretGot (s : State) (c i : Nat) : Option (Answer × Bytes) :=
  (s.replies.find? fun r => r.by' == eretBy c i).map fun r => (r.answer, r.data)

/-- ERET (R199): offset 0 the program counter, 8 STATUS, 32 g30. At USER it is a violation and no operation (R179). -/
def State.tEretOp (s : State) (c : Nat) : TRes :=
  let t := s.twin c
  let a := (t.gr 30).toNat
  if !t.super then (s.violate (.core c)).tNext c
  else if a % 8 ≠ 0 then .exc s 2 a else
  let s := ((s.eretRead c a 0).eretRead c ((a + 8) % 2 ^ 64) 1).eretRead c ((a + 32) % 2 ^ 64) 2
  match s.eretGot c 0, s.eretGot c 1, s.eretGot c 2 with
  | some r0, some r1, some r2 =>
    let s := { s with replies := s.replies.filter fun r => r.by' != eretBy c 0 && r.by' != eretBy c 1 && r.by' != eretBy c 2 }
    s.tAnswer c 0 a r0 fun s pc => s.tAnswer c 0 ((a + 8) % 2 ^ 64) r1 fun s st => s.tAnswer c 0 ((a + 32) % 2 ^ 64) r2 fun s sp =>
      .ok ((s.setG c 30 (BitVec.ofNat 64 sp)).modTwin c fun t => { t with status := BitVec.ofNat 64 (st % 16) }) (BitVec.ofNat 64 pc)
  | _, _, _ => .busy s

/-- Whether USER may read a special register (Table 5.1). -/
def userReads (n : Nat) : Bool := n == 7 || n == 10 || n == 12 || n == 13 || n == 14

/-- MFS (R178, R179). -/
def State.tMfsOp (s : State) (c w : Nat) : TRes :=
  if (s.twin c).super || userReads (tSn w) then (s.setG c (tRd w) (s.special c (tSn w))).tNext c
  else ((s.violate (.core c)).setG c (tRd w) 0).tNext c

/-- MTS (R178, R179). -/
def State.tMtsOp (s : State) (c w : Nat) : TRes :=
  let t := s.twin c
  if t.super || tSn w == 12 then (s.modTwin c fun t => t.setSpecial (tSn w) (t.gr (tRa w))).tNext c
  else (s.violate (.core c)).tNext c

/-- WFE (R189). -/
def State.tWfeOp (s : State) (c : Nat) : TRes := if (s.twin c).due ≠ 0 then s.tNext c else .wait s

/-- DONE (R194): it waits until every queue is empty and every engine idle, then ends the part at the head of the mailbox; with none it is a
violation. At USER it is a violation and no operation. -/
def State.tDoneOp (s : State) (c : Nat) : TRes :=
  if !(s.twin c).super then (s.violate (.core c)).tNext c
  else if !bit (s.coreStatus c) 4 then .wait s
  else match (s.core c).parts with
    | [] => (s.violate (.core c)).tNext c
    | p :: ps =>
      let s := s.modCore c fun k => { k with parts := ps }
      (s.partOver p 0 0).tNext c

/-- Whether an instruction of a class runs while outputs of earlier ones are still held (R211): it leaves the core not at all, or looks after
them itself. Any other has them released first. -/
def TClass.keeps : TClass → Bool
  | .alu => true
  | .aluImm => true
  | .load => true
  | .store => true
  | .branch => true
  | .jump => true
  | .issue => true
  | .signal => true
  | .dinv => true
  | .dinvAll => true
  | .iinvAll => true
  | .mfs => true
  | .mts => true
  | .kick => true
  | _ => false

/-- What the instruction word w of a class does. With hold, an output of it that can be held stays in the release buffer. -/
def State.twinOp (s : State) (c w : Nat) (hold : Bool) : TClass → TRes
  | .alu => let t := s.twin c; (s.setG c (tRd w) (tAlu (tFn w) (t.gr (tRa w)) (t.gr (tRb w)))).tNext c
  | .aluImm => let t := s.twin c; (s.setG c (tRd w) (tAluImm w (t.gr (tRa w)))).tNext c
  | .load => s.tLoadOp c w
  | .store => s.tStoreOp c w hold
  | .atomic => s.tAtomicOp c w
  | .branch => s.tBranchOp c w
  | .jump => s.tJumpOp c w
  | .issue => s.tIssueOp c w hold
  | .sumget => s.tSumgetOp c w
  | .qwait => s.tQwaitOp c w
  | .waitAcq => s.tAcqOp c w
  | .signal => s.tSignalOp c w hold
  | .fence => s.tNext c
  | .flush => s.tNext c
  | .dinv =>
    let a := ((s.twin c).gr (tRa w)).toNat
    (match s.resolveCore c 0 a true with
      | .here _ p => match twinLine c p with
        | some g => s.dcacheDrop c g
        | none => s
      | _ => s).tNext c
  | .dinvAll => (s.dcacheClear c).tNext c
  | .iinvAll => (s.modTwin c fun t => { t with icache := [] }).tNext c
  | .ecall => .exc s 3 0
  | .ebreak => .exc s 4 0
  | .eret => s.tEretOp c
  | .mfs => s.tMfsOp c w
  | .mts => s.tMtsOp c w
  | .wfe => s.tWfeOp c
  | .kick => (s.twinKick c).tNext c
  | .done => s.tDoneOp c
  | .illegal => .exc s 1 w

/-! One instruction. -/

/-- Whether an event is to be taken in place of an instruction that has not begun (R209), a wait that is over apart (R189, R393). -/
def State.eventDue (s : State) (c : Nat) : Bool :=
  let t := s.twin c
  let ended := match nfind s.waiters c with | some x => x.hit.isSome | none => false
  t.eventsOn && t.due != 0 && !t.began && !ended

/-- What an attempt comes to is taken: an exception comes before an event that is due (R200), an event before the instruction (R209);
s0 is the state before the attempt. -/
def State.tTake (s0 : State) (c : Nat) (r : TRes) : State :=
  match r with
  | .exc s cause ev => s.takeException c cause ev
  | .ok s pc => if s0.eventDue c then s0.takeEvent c else s.tRetire c pc
  | .wait s =>
    if s0.eventDue c then s0.takeEvent c
    else (s.modTwin c fun t => { t with began := false, waiting := true }).haltDue c
  | .busy s => if s0.eventDue c then s0.takeEvent c else s.modTwin c fun t => { t with began := true, waiting := false }

/-- Whether TDBG_BREAK names the twin's next instruction (R780). -/
def State.breakHere (s : State) (c : Nat) : Bool :=
  s.fon Fd.tdbgBreak_ENABLE c && s.fget Fd.tdbgBreak_ADDR c == (s.twin c).pc.toNat / 4

/-- Fetch and attempt the instruction at the program counter, if it is of a class that k takes. -/
def State.twinGo (s : State) (c : Nat) (f : Option Word32) (k : TClass → Bool) (hold : Bool) : State :=
  match s.twinFetch c f with
  | .exc s' cause ev => s.tTake c (.exc s' cause ev)
  | .busy s' => s.tTake c (.busy s')
  | .ok s' w =>
    let x := tClass w
    if k x then s.tTake c ((if x.keeps then s' else s'.twinRelease c).twinOp c w hold x) else s'

/-- A twin takes its next instruction: an exception handed to it first, then a break, then the instruction. -/
def State.twinTake (s : State) (c : Nat) (f : Option Word32) (k : TClass → Bool) (brk hold : Bool) : State :=
  let t := s.twin c
  if t.began then s.twinGo c f k hold else
  match t.excs with
  | (cause, ev) :: rest => (s.modTwin c fun t => { t with excs := rest }).takeException c cause ev
  | [] => if brk && s.breakHere c then s.haltTwin c 2 else s.twinGo c f k hold

/-- A parity error in the instruction cache as the twin fetches (R213): the line is dropped, to be fetched again, and counted. -/
def State.fetchParity (s : State) (c : Nat) : State :=
  let line := (s.twin c).pc.toNat / 64
  if (s.twin c).icache.any fun e => e.1 == line then
    (s.modTwin c fun t => { t with icache := t.icache.filter fun e => e.1 != line }).inc Fd.twinCounts_CACHE_FIX_COUNT c
  else s

/-- The instruction at a running twin's program counter is taken, if it is of a class; ipar tells of a parity error in the instruction cache
as it is fetched, hold that its output stays in the release buffer. -/
def State.twinInstr (s : State) (c : Nat) (f : Option Word32) (k : TClass) (ipar : Bool) (hold : Bool := false) : State :=
  if s.twinRuns c then (if ipar && !(s.twin c).began then s.fetchParity c else s).twinTake c f (· == k) true hold else s

/-- CHEDAL_ALU (R181). -/
def execChedalAlu (core : CoreId) (f : Option Word32) (ipar : Bool) (s : State) : Host.Outcome State Fault Refusal := .next (s.twinInstr core f .alu ipar)
/-- CHEDAL_ALU_IMMEDIATE (R181). -/
def execChedalAluImmediate (core : CoreId) (f : Option Word32) (ipar : Bool) (s : State) : Host.Outcome State Fault Refusal :=
  .next (s.twinInstr core f .aluImm ipar)

/-- A parity error in the data cache as one of some addresses is read (R213): the first of their lines that the cache holds is dropped, to be
fetched again, and counted. -/
def State.dataParity (s : State) (c : Nat) (addrs : List Nat) : State :=
  let held (a : Nat) : Option Nat := (s.dcacheLine c 0 a).filter fun g => (s.twin c).dcache.any fun e => e.1 == g
  match addrs.findSome? held with
  | some g => (s.dcacheDrop c g).inc Fd.twinCounts_CACHE_FIX_COUNT c
  | none => s

/-- The word a twin is about to run: the one a fetch has brought, or that of its instruction cache. -/
def State.nextWord (s : State) (c : Nat) (f : Option Word32) : Option Nat :=
  let t := s.twin c
  match f with
  | some w => some w.toNat
  | none => (t.icache.find? fun e => e.1 == t.pc.toNat / 64).map fun e => leNat ((e.2.drop (t.pc.toNat % 64)).take 4)

/-- A parity error in the data cache as an instruction of a class reads addresses (R213). -/
def State.readParity (s : State) (c : Nat) (f : Option Word32) (k : TClass) (addrs : Nat → List Nat) : State :=
  if s.twinRuns c && !(s.twin c).began then
    match s.nextWord c f with
    | some w => if tClass w = k then s.dataParity c (addrs w) else s
    | none => s
  else s

/-- What the check bits of its target find as an instruction of a class makes its access (R660, R417). -/
def State.twinEcc (s : State) (c : Nat) (f : Option Word32) (k : TClass) (addr : Nat → Nat) (act : Nat → Act) (e : Ecc) : State :=
  if s.twinRuns c && !(s.twin c).began then
    match s.nextWord c f with
    | some w => if tClass w = k then s.eccMet (s.resolveCore c (act w).perm (addr w) true) (act w) (2 ^ (tOp w % 4)) e else s
    | none => s
  else s

/-- CHEDAL_LOAD (R184, R213): parity tells of an error in the data cache, ecc of one at the load's target. -/
def execChedalLoad (core : CoreId) (f : Option Word32) (parity ipar : Bool) (ecc : Ecc) (s : State) : Host.Outcome State Fault Refusal :=
  let s := if parity then s.readParity core f .load fun w => [(s.twin core).ea w] else s
  .next ((s.twinEcc core f .load (s.twin core).ea (fun _ => .load) ecc).twinInstr core f .load ipar)
/-- CHEDAL_STORE (R191): ecc tells of an error at its target. -/
def execChedalStore (core : CoreId) (f : Option Word32) (hold : Bool) (ipar : Bool) (ecc : Ecc) (s : State) : Host.Outcome State Fault Refusal :=
  .next ((s.twinEcc core f .store (s.twin core).ea (fun w => .store (List.replicate (2 ^ (tOp w % 4)) 0)) ecc).twinInstr core f .store ipar hold)
/-- CHEDAL_ATOMIC (R184): ecc tells of an error at its target. -/
def execChedalAtomic (core : CoreId) (f : Option Word32) (ipar : Bool) (ecc : Ecc) (s : State) : Host.Outcome State Fault Refusal :=
  .next ((s.twinEcc core f .atomic (fun w => ((s.twin core).gr (tRa w)).toNat) (fun _ => .atomic 0 8 0 0) ecc).twinInstr core f .atomic ipar)
/-- CHEDAL_BRANCH (R181). -/
def execChedalBranch (core : CoreId) (f : Option Word32) (ipar : Bool) (s : State) : Host.Outcome State Fault Refusal := .next (s.twinInstr core f .branch ipar)
/-- CHEDAL_JUMP (R181). -/
def execChedalJump (core : CoreId) (f : Option Word32) (ipar : Bool) (s : State) : Host.Outcome State Fault Refusal := .next (s.twinInstr core f .jump ipar)
/-- ISSUE (R185). -/
def execIssue (core : CoreId) (f : Option Word32) (hold : Bool) (ipar : Bool) (s : State) : Host.Outcome State Fault Refusal :=
  .next (s.twinInstr core f .issue ipar hold)
/-- The summary at the head of the queue that a SUMGET about to run names fails its parity (R316, R357): it is not delivered, and its engine
stops. -/
def State.sumParity (s : State) (c : Nat) (f : Option Word32) : State :=
  match s.nextWord c f with
  | some w =>
    let i := tFn w - 1
    if !s.twinRuns c || (s.twin c).began || tClass w != .sumget || ((s.core c).sums.getD i []).isEmpty then s
    else
      let s := s.modCore c fun k => { k with sums := k.sums.set i (k.sums.getD i []).tail }
      if i = 0 then s.vecFault c true ⟨0, 0, 0, 0⟩ else s.whiskFault c 0 0x21 9 Fd.whiskCounts_PARITY_COUNT
  | none => s

/-- SUMGET (R188): sumPar tells of a parity error of the summary it would take. -/
def execSumget (core : CoreId) (f : Option Word32) (ipar sumPar : Bool) (s : State) : Host.Outcome State Fault Refusal :=
  .next (if sumPar then s.sumParity core f else s.twinInstr core f .sumget ipar)
/-- QWAIT (R176). -/
def execQwait (core : CoreId) (f : Option Word32) (ipar : Bool) (s : State) : Host.Outcome State Fault Refusal := .next (s.twinInstr core f .qwait ipar)
/-- TWIN_WAIT_ACQ (R376). -/
def execTwinWaitAcq (core : CoreId) (f : Option Word32) (ipar : Bool) (s : State) : Host.Outcome State Fault Refusal := .next (s.twinInstr core f .waitAcq ipar)
/-- TWIN_SIGNAL (R375). -/
def execTwinSignal (core : CoreId) (f : Option Word32) (hold : Bool) (ipar : Bool) (s : State) : Host.Outcome State Fault Refusal :=
  .next (s.twinInstr core f .signal ipar hold)
/-- TWIN_FENCE (R375): every earlier access of the twin is performed as this instruction is taken. -/
def execTwinFence (core : CoreId) (f : Option Word32) (ipar : Bool) (s : State) : Host.Outcome State Fault Refusal := .next (s.twinInstr core f .fence ipar)
/-- TWIN_FLUSH (R375). -/
def execTwinFlush (core : CoreId) (f : Option Word32) (ipar : Bool) (s : State) : Host.Outcome State Fault Refusal := .next (s.twinInstr core f .flush ipar)
/-- DINV (R182). -/
def execDinv (core : CoreId) (f : Option Word32) (ipar : Bool) (s : State) : Host.Outcome State Fault Refusal := .next (s.twinInstr core f .dinv ipar)
/-- DINV_ALL (R182). -/
def execDinvAll (core : CoreId) (f : Option Word32) (ipar : Bool) (s : State) : Host.Outcome State Fault Refusal := .next (s.twinInstr core f .dinvAll ipar)
/-- IINV_ALL (R192). -/
def execIinvAll (core : CoreId) (f : Option Word32) (ipar : Bool) (s : State) : Host.Outcome State Fault Refusal := .next (s.twinInstr core f .iinvAll ipar)
/-- ECALL (R198). -/
def execEcall (core : CoreId) (f : Option Word32) (ipar : Bool) (s : State) : Host.Outcome State Fault Refusal := .next (s.twinInstr core f .ecall ipar)
/-- EBREAK (R198). -/
def execEbreak (core : CoreId) (f : Option Word32) (ipar : Bool) (s : State) : Host.Outcome State Fault Refusal := .next (s.twinInstr core f .ebreak ipar)
/-- ERET (R199). -/
def execEret (core : CoreId) (f : Option Word32) (parity : Bool) (ipar : Bool) (s : State) : Host.Outcome State Fault Refusal :=
  let sp := ((s.twin core).gr 30).toNat
  let s := if parity then s.readParity core f .eret fun _ => [sp, (sp + 8) % 2 ^ 64, (sp + 32) % 2 ^ 64] else s
  .next (s.twinInstr core f .eret ipar)
/-- MFS (R178). -/
def execMfs (core : CoreId) (f : Option Word32) (ipar : Bool) (s : State) : Host.Outcome State Fault Refusal := .next (s.twinInstr core f .mfs ipar)
/-- MTS (R178). -/
def execMts (core : CoreId) (f : Option Word32) (ipar : Bool) (s : State) : Host.Outcome State Fault Refusal := .next (s.twinInstr core f .mts ipar)
/-- WFE (R189). -/
def execWfe (core : CoreId) (f : Option Word32) (ipar : Bool) (s : State) : Host.Outcome State Fault Refusal := .next (s.twinInstr core f .wfe ipar)
/-- KICK (R214). -/
def execKick (core : CoreId) (f : Option Word32) (now : Nat) (ipar : Bool) (s : State) : Host.Outcome State Fault Refusal :=
  .next ((s.advance now).twinInstr core f .kick ipar)
/-- DONE (R194). -/
def execTwinDone (core : CoreId) (f : Option Word32) (ipar : Bool) (s : State) : Host.Outcome State Fault Refusal := .next (s.twinInstr core f .done ipar)

/-- ILLEGAL (R182, R331): of a twin, or of a Whisk group. -/
def execIllegal (core : CoreId) (slot : Option SlotId) (f : Option Word) (ipar : Bool) (s : State) : Host.Outcome State Fault Refusal :=
  match slot with
  | none => .next (s.twinInstr core (f.map fun w => BitVec.ofNat 32 w.toNat) .illegal ipar)
  | some sl => .next (s.whiskInstr core sl f .none .illegal)

/-! Twin debug (R779, R780). -/

/-- STEP of a halted twin: one instruction, or the exception it raises; then HALTED again with HALT_CAUSE STEP, once its access is done. On
the move to RUNNING the Kettle's window restarts (R203). -/
def State.stepTwin (c : Nat) (s : State) : State :=
  if !s.coreLive c then s
  else (s.modTwin c fun t => { t with
    mode := .running, haltAt := some 3, kettle := { t.kettle with start := s.elapsed } }).twinTake c none (fun _ => true) false false

/-- TWIN_HALT (R780). -/
def execTwinHalt (src : Source) (core : CoreId) (s : State) : Host.Outcome State Fault Refusal :=
  if s.shut src then .next (s.turned .host) else .next (s.tdbgCmd src core 1 State.stepTwin)
/-- TWIN_RESUME (R780). -/
def execTwinResume (src : Source) (core : CoreId) (s : State) : Host.Outcome State Fault Refusal :=
  if s.shut src then .next (s.turned .host) else .next (s.tdbgCmd src core 2 State.stepTwin)
/-- TWIN_STEP (R780). -/
def execTwinStep (src : Source) (core : CoreId) (s : State) : Host.Outcome State Fault Refusal :=
  if s.shut src then .next (s.turned .host) else .next (s.tdbgCmd src core 3 State.stepTwin)
/-- TDBG_DATA_WRITE (R780). -/
def execTdbgDataWrite (src : Source) (core : CoreId) (v : Word) (s : State) : Host.Outcome State Fault Refusal :=
  if s.shut src then .next (s.turned .host) else
  .next (s.tdbgWrite src core v)

/-- REGISTER_WRITE (R12). -/
def execRegisterWrite (src : Source) (off : Nat) (wide : Bool) (v : Word) (s : State) : Host.Outcome State Fault Refusal :=
  .next (s.writeRegWith src State.stepTwin off wide v.toNat)

/-! One access of an engine (R144, R147, R148). -/

/-- The act of an access: a signal's data is its increment, an atomic's its operand and then the value expected. The twin, the Whisk and the
mover reach the counters by a store, a D granule of another engine does not (Table 10.2). None where no fabric access is such. -/
def accessAct (agent : Nat) (op : AccessOp) (size : Nat) (data : Bytes) : Option Act :=
  match op with
  | .load => some .load
  | .store => if agent = 0 ∨ agent = 3 ∨ agent = 4 then some (.store (padTo size data)) else some (.engineStore (padTo size data))
  | .signal => some (.signal (leNat (data.take 8)))
  | .atomic aop =>
    if aop ≤ 9 ∧ (size = 4 ∨ size = 8) then some (.atomic aop size (leNat (data.take size)) (leNat ((data.drop size).take size))) else none

/-- CORE_REQUEST_RESOLVE (R144): an access of a live core's twin (agent 0) or engine (1 MATRIX to 5 POUR). Its answer waits for a requester
of its own; one that is no single access of the fabric (R148) does not occur. ecc is what the check bits of its target find (R660, R417). -/
def execCoreRequestResolve (core : CoreId) (agent : Fin 6) (op : AccessOp) (addr : Word) (size : Nat) (data : Bytes) (ecc : Ecc) (s : State) :
    Host.Outcome State Fault Refusal :=
  let b : Requester := .engine core agent (2 ^ 40)
  let a := addr.toNat
  match accessAct agent op size data with
  | none => .next s
  | some act =>
    let n := match act with | .signal _ => 8 | _ => size
    if !s.coreLive core || n == 0 || decide (64 < a % 64 + n) || s.inFlight b then .next s else
    let s := { s with replies := s.replies.filter fun r => r.by' != b }
    let aligned := match act with
      | .signal _ => a % 8 == 0
      | .atomic _ n _ _ => a % n == 0
      | _ => true
    if !aligned then .next ((s.violate (.core core)).reply ⟨b, .dropped, act.zeros size⟩) else
    let (s, r) := match s.resolveCore core act.perm a (agent == 0) with
      | .reg off => s.tRegs core off act size
      | r => (s.eccMet r act size ecc).deliver b r act size 0 0x7F (.core core)
    match r with
    | some (x, d) => .next (s.reply ⟨b, x, d⟩)
    | none => .next s

end Sys2Proof.Machine
end

