-- ==== Sys2Proof/Machine/Test.lean ====
section
/-!
DEFINITION. Fuse requests, the opening of scan, offline self-tests and the test port (chapter 21).
-/
namespace Sys2Proof.Machine

/-! Fuse requests (R763, R771 to R773, Table 21.7). -/

/-- MAGIC or SIG_MAGIC of a request is wrong. -/
def fuseMagicBad (b : Bytes) : Bool := imgN b 0 4 != 0x53554658 || imgN (sigBlock b) 0 4 != 0x47495358

/-- OP of a request is reserved, or a reserved byte is not zero. -/
def fuseReserved (b : Bytes) : Bool :=
  let op := imgN b 4 1
  op == 0 || decide (6 < op) || imgN b 6 2 != 0 || imgN b 0x1C 4 != 0 || imgN b 0x50 48 != 0 ||
    imgN (sigBlock b) 6 10 != 0 || imgN (sigBlock b) 0xD0 48 != 0

/-- A slot that has never been programmed (R761). -/
def KeySlot.blank (k : KeySlot) : Bool := k.hash.isNone && !k.revoked
/-- A slot that authenticates (R761). -/
def KeySlot.good (k : KeySlot) : Bool := k.hash.isSome && !k.revoked

/-- Whether checks 0x09 to 0x0B are skipped (R772). -/
def FuseSt.unsigned (x : FuseSt) (op : Nat) : Bool :=
  (op == 1 && x.slots.all fun k => k.blank) || (op == 6 && x.testLock == 0)

/-- Whether the slot a request names is in the wrong state: PROGRAM_SLOT of one not UNPROGRAMMED, REVOKE_SLOT of one not PROGRAMMED. -/
def FuseSt.slotState (x : FuseSt) (op slot : Nat) : Bool :=
  match x.slots[slot]? with
  | some k => (op == 1 && !k.blank) || (op == 2 && !k.good)
  | none => op == 1 || op == 2

/-- Whether a request's VALUE is not above the current one, or no value TEST_LOCK can take. -/
def FuseSt.notRaised (x : FuseSt) (op v : Nat) : Bool :=
  (op == 3 && decide (v ≤ x.imageFloor)) || (op == 4 && decide (v ≤ x.fwFloor)) || (op == 5 && (decide (v ≤ x.testLock) || decide (2 < v)))

/-- Whether no fuse row is left for a request (Table 21.1, R781). -/
def FuseSt.exhausted (x : FuseSt) (op : Nat) : Bool :=
  (op == 3 && decide (63 ≤ x.imageRows)) || (op == 4 && decide (63 ≤ x.fwRows)) || (op == 5 && decide (2 ≤ x.lockRows)) ||
    (op == 6 && decide (15 ≤ x.sessions))

/-- The first check of Table 21.7 that a request of 384 bytes fails; tap tells that it came through SCAN_UNLOCK. -/
def State.fuseBytesCheck (s : State) (tap : Bool) (b : Bytes) : Option Nat :=
  let op := imgN b 4 1
  let slot := imgN b 5 1
  let v := imgN b 0x18 4
  if fuseMagicBad b then some 0x04
  else if fuseReserved b then some 0x05
  else if (op == 6) != tap then some 0x06
  else if imgN b 8 8 ≠ s.fuse.deviceId then some 0x07
  else if imgN b 0x10 8 ≠ s.reg .fuseNonce then some 0x08
  else match (if s.fuse.unsigned op then none else authFail s.keySlots b) with
    | some k => some (8 + k)
    | none =>
      if s.fuse.slotState op slot then some 0x0C
      else if op = 2 ∧ (s.fuse.slots.filter fun k => k.good).length ≤ 1 then some 0x0D
      else if s.fuse.notRaised op v then some 0x0E
      else if s.fuse.exhausted op then some 0x0F
      else if op = 6 ∧ s.fuse.testLock = 2 then some 0x10
      else if s.fget Fd.railStatus_OP_NOW 4 < 5 ∨ 85 < s.fget Fd.thermal_TJ_MAX_C 4 then some 0x11
      else none

/-- The first check of Table 21.7 that a request fails: none where it is accepted. -/
def State.fuseCheck (s : State) (tap : Bool) (b : Option Bytes) : Option Nat :=
  if s.life.fuseReq.isSome || s.life.cmd.isSome || decide (2 ≤ s.fget Fd.fwStatus_STATE) then some 0x01
  else if s.scanOn then some 0x02
  else match b with
    | none => some 0x03
    | some b => if b.length = 384 then s.fuseBytesCheck tap b else some 0x03

/-- Whether a fuse request fails before it is fetched (Table 21.7, 0x01 and 0x02). -/
def State.fuseBusy (s : State) : Bool :=
  s.life.fuseReq.isSome || s.life.cmd.isSome || decide (2 ≤ s.fget Fd.fwStatus_STATE) || s.scanOn

/-- A write of FUSE_CMD.GO with the request of 384 bytes the Steward fetches from FUSE_REQ_ADDR, or the request of one written before (R771,
R810). While the device may not master the fetch is held (R799), and a later row brings the request. A request of another OP than the row's is
not this command. -/
def State.fuseCmd (s : State) (src : Source) (op : Nat) (req : HostRead) : State :=
  let b := readBytes req
  let o := (b.map fun b => imgN b 4 1).getD op
  if !s.life.fuseDue && src == .host && s.fget Fd.fwStatus_STATE == 0 then s.charge src
  else if !(s.proc 0).running then s
  else if decide (1 ≤ o) && decide (o ≤ 5) && o != op then s
  else if !s.fuseBusy && !s.mayMaster then (s.modLife fun l => { l with fuseDue := true }).fset Fd.fuseStatus_BUSY 1
  else
  let s := if s.life.fuseDue then (s.modLife fun l => { l with fuseDue := false }).fset Fd.fuseStatus_BUSY 0 else s
  let s := if s.fuseBusy then s else s.emit (.hostRead 0 (s.reg .fuseReqAddr) 384)
  match s.fuseCheck false b with
    | some e => ((if e = 3 then s.noteRead req else s).newNonce).fuseEnd e
    | none =>
      let b := b.getD []
      let s := s.modLife fun l => { l with fuseReq := some ⟨op, imgN b 5 1, imgN b 0x18 4, (b.drop 0x20).take 48⟩ }
      s.newNonce.fset Fd.fuseStatus_BUSY 1

/-- PROGRAM_SLOT (R771). -/
def execProgramSlot (src : Source) (req : HostRead) (s : State) : Host.Outcome State Fault Refusal :=
  if s.shut src then .next (s.turned .host) else .next (s.fuseCmd src 1 req)
/-- REVOKE_SLOT (R771). -/
def execRevokeSlot (src : Source) (req : HostRead) (s : State) : Host.Outcome State Fault Refusal :=
  if s.shut src then .next (s.turned .host) else .next (s.fuseCmd src 2 req)
/-- RAISE_IMAGE_FLOOR (R771). -/
def execRaiseImageFloor (src : Source) (req : HostRead) (s : State) : Host.Outcome State Fault Refusal :=
  if s.shut src then .next (s.turned .host) else .next (s.fuseCmd src 3 req)
/-- RAISE_FW_FLOOR (R771). -/
def execRaiseFwFloor (src : Source) (req : HostRead) (s : State) : Host.Outcome State Fault Refusal :=
  if s.shut src then .next (s.turned .host) else .next (s.fuseCmd src 4 req)
/-- RAISE_TEST_LOCK (R771). -/
def execRaiseTestLock (src : Source) (req : HostRead) (s : State) : Host.Outcome State Fault Refusal :=
  if s.shut src then .next (s.turned .host) else .next (s.fuseCmd src 5 req)

/-- A fuse program that succeeds (R773). -/
def FuseSt.programmed (x : FuseSt) (q : FuseRun) : FuseSt :=
  match q.op with
  | 1 => { x with slots := x.slots.set q.slot ⟨some q.hash, false⟩ }
  | 2 => { x with slots := x.slots.set q.slot { x.slots.getD q.slot {} with revoked := true } }
  | 3 => { x with imageFloor := q.value, imageRows := x.imageRows + 1 }
  | 4 => { x with fwFloor := q.value, fwRows := x.fwRows + 1 }
  | 5 => { x with testLock := q.value, lockRows := x.lockRows + 1 }
  | _ => x

/-! Opening scan (R774, R775, R788). -/

/-- Everything stops without drain and without a record (R774 step 1): cores, rings, streams, collectives, processors; every port is OFF. -/
def State.stopAll (s : State) : State :=
  let s := (List.range 36).foldl (fun s p => s.leaveActive p 0) s
  let s := { s with
    cores := [], rings := [], streams := [], colls := [], heldColls := [], procs := [], waiters := [], replies := [], dispatch := []
    hostOps := s.lateHostOps }
  let s := (List.range 64).foldl (fun s r => s.fset Fd.ringStatus_STATE 0 r) s
  let s := (List.range 8).foldl (fun s k => s.fset Fd.collSlot_BUSY 0 k) (s.fset Fd.groupStatus_OPEN 0)
  (List.range 288).foldl (fun s c => (List.range 5).foldl (fun s e => if s.engState c e = 0 then s else s.setEngState c e 0) s) s

/-- Every secret of Table 21.3 is written with zero (R774 step 3). What a core holds went with stopAll. -/
def State.clearSecrets (s : State) : State :=
  { s with mem := [], poison := [], l2 := [], arr := [], ctrPoison := [], patrol := []
           ports := s.ports.map fun (e : Nat × PortSt) => (e.1, { e.2 with
             wait := [], unacked := [], txq := [], rounds := [], round := none, stream := [], fwd := [] })
           life := { s.life with image := none, store := [], bundle := [], staged := [] } }

/-- An accepted SCAN_UNLOCK (R774); where the read-back of the cleared storage fails twice, R788. -/
def State.openScan (s : State) (ok : Bool) : State :=
  let up (x : FuseSt) : FuseSt := { x with sessions := x.sessions + 1 }
  let s := { s.stopAll with fuse := up s.fuse, fused := up s.fused }
  let s := s.clearSecrets
  if ok then (s.fset Fd.testStatus_SECRETS_CLEARED 1).fset Fd.testStatus_SCAN_OPEN 1 else s.fset Fd.testStatus_CLEAR_FAILED 1

/-- A SCAN_UNLOCK request is checked (R771), and runs if it is accepted. -/
def State.scanJudge (s : State) (b : Bytes) (ok : Bool) : State :=
  match s.fuseCheck true (some b) with
  | some e => s.newNonce.fuseEnd e
  | none => (s.newNonce.openScan ok).fuseEnd 0

/-- The data register of SCAN_UNLOCK captures FUSE_STATUS.REASON in bits [7:0] (Table 21.5); its other bits are a free value (assumption
log 4). -/
def State.captureReason (s : State) : State :=
  let (w, s) := s.free
  s.emit (.tdo (s.fget Fd.fuseStatus_REASON + 256 * w.toNat))

/-- SCAN_UNLOCK (R774, R782): one that arrives while a fuse is programmed waits. A shift of another length delivers no request. clearOk tells
whether the read-back of step 4 holds. -/
def execScanUnlock (req : Bytes) (clearOk : Bool) (s : State) : Host.Outcome State Fault Refusal :=
  let s := { s with tap := { s.tap with ir := 0x30, bypass := false } }.captureReason
  if req.length ≠ 384 ∨ !(s.proc 0).running then .next s
  else if s.life.fuseReq.isSome then .next (s.modLife fun l => { l with scanWait := some (req, clearOk) })
  else .next (s.scanJudge req clearOk)

/-- The scan request that waited for a fuse to be programmed (R782). -/
def State.scanGo (s : State) : State :=
  match s.life.scanWait with
  | some (b, ok) => (s.modLife fun l => { l with scanWait := none }).scanJudge b ok
  | none => s

/-- FUSE_PROGRAM_DONE (R773, R787). -/
def execFuseProgramDone (ok : Bool) (s : State) : Host.Outcome State Fault Refusal :=
  match s.life.fuseReq with
  | none => .next s
  | some q =>
    let (w, s) := if ok then ((0 : Word), s) else s.free
    let f (x : FuseSt) : FuseSt := if ok then x.programmed q else x.failed q (w.toNat.testBit 0)
    let s := { s with fused := f s.fused, fuse := f s.fuse, life := { s.life with fuseReq := none } }
    .next ((s.fset Fd.fuseStatus_BUSY 0).fuseEnd (if ok then 0 else 0x12)).scanGo

/-! Offline self-tests (R766, R777). -/

/-- CORE_OFFLINE (R777). -/
def execCoreOffline (src : Source) (core : CoreId) (s : State) : Host.Outcome State Fault Refusal :=
  if s.shut src then .next (s.turned .host) else .next (s.bistCmd src 1 core)
/-- STACK_OFFLINE (R777). -/
def execStackOffline (src : Source) (stack : Fin 8) (s : State) : Host.Outcome State Fault Refusal :=
  if s.shut src then .next (s.turned .host) else .next (s.bistCmd src 2 stack)

/-- The lines of a stack are written with zero and its slices emptied, with their pins (Table 21.4). -/
def State.clearStack (s : State) (i : Nat) : State :=
  let lo := hbmKey (32 * i) 0
  let hi := hbmKey (32 * i + 32) 0
  { s with mem := mclear s.mem lo hi
           poison := s.poison.filter fun e => !(decide (lo ≤ e.1 * 64) && decide (e.1 * 64 < hi))
           l2 := s.l2.filter fun e => e.1 / 256 / 32 != i }

/-- Bits of a list of numbers from lo upward, n of them. -/
def maskFrom (l : List Nat) (lo n : Nat) : Nat := l.foldl (fun m i => if lo ≤ i ∧ i < lo + n then m.lor (2 ^ (i - lo)) else m) 0

/-- OFFLINE_TEST_DONE (R777): of a core, failing names structures 0 to 8 and arrays as 64 + a; of a stack, channels 0 to 31. -/
def execOfflineTestDone (passed : Bool) (failing : List Nat) (s : State) : Host.Outcome State Fault Refusal :=
  match s.life.bist with
  | none => .next s
  | some t =>
    let l := if passed then [] else failing
    let s := s.modLife fun x => { x with bist := none }
    let s := (s.fset Fd.testBistStatus_BUSY 0).fset Fd.testBistStatus_RESULT 0
    let arrays := maskFrom l 64 64
    let s := if t.stack then
        ((s.clearStack t.id).fset Fd.testBistStatus_CHANNELS (maskFrom l 0 32)).fset Fd.testBistStatus_FAILED 0
      else
        (((s.clearPantry t.id).resetCore t.id).fset Fd.testBistStatus_CHANNELS 0).fset Fd.testBistStatus_FAILED
          ((maskFrom l 0 9).lor (if arrays = 0 then 0 else 16))
    let s := s.setReg .bistArrays (if t.stack then 0 else arrays)
    .next ((s.fset Fd.testBistStatus_DONE 1).raiseVec 120).powerGo

/-! The test port (R767 to R770, R776, R786). -/

/-- What the instruction register captures (R767). -/
def irCapture : Nat := 1

/-- Load an instruction of the test port. -/
def State.setIr (s : State) (ir : Nat) (bypass : Bool) : State := { s with tap := { s.tap with ir := ir, bypass := bypass } }

/-- Load an instruction that takes effect only while PERST_N is low; else it selects bypass and sets EXTEST_REFUSED (R776). -/
def State.perstIr (s : State) (ir : Nat) : State :=
  if s.life.perst then s.setIr ir false else (s.setIr ir true).fset Fd.testStatus_EXTEST_REFUSED 1

/-- EXTEST (R776). -/
def execExtest (s : State) : Host.Outcome State Fault Refusal := .next (s.perstIr 0)
/-- EXTEST_PULSE (R776). -/
def execExtestPulse (s : State) : Host.Outcome State Fault Refusal := .next (s.perstIr 3)
/-- EXTEST_TRAIN (R776). -/
def execExtestTrain (s : State) : Host.Outcome State Fault Refusal := .next (s.perstIr 4)
/-- CLAMP (R776). -/
def execClamp (s : State) : Host.Outcome State Fault Refusal := .next (s.perstIr 5)
/-- HIGHZ (R776). -/
def execHighz (s : State) : Host.Outcome State Fault Refusal := .next (s.perstIr 6)

/-- The value IDCODE reads (R769). -/
def FuseSt.idcode (x : FuseSt) : Nat := 2 ^ 28 + 2 ^ 12 * (x.orderCode % 2 ^ 16) + 0x3A7 * 2 + 1

/-- IDCODE (R769). -/
def execIdcode (s : State) : Host.Outcome State Fault Refusal := .next ((s.setIr 1 false).emit (.tdo s.fuse.idcode))

/-- SAMPLE/PRELOAD (R776): the boundary register takes the bits shifted in; the levels it samples are free values (assumption log 4). -/
def execSamplePreload (bits : Bytes) (s : State) : Host.Outcome State Fault Refusal :=
  let (w, s) := s.free
  .next ({ (s.setIr 2 false) with tap := { ir := 2, bypass := false, boundary := bits, access := s.tap.access, status := s.tap.status, data := s.tap.data } }.emit
    (.tdo w.toNat))

/-- SCAN_CHAIN (R767): bypass while scan is not open. -/
def execScanChain (s : State) : Host.Outcome State Fault Refusal := .next (s.setIr 0x31 (!s.fon Fd.testStatus_SCAN_OPEN))
/-- BYPASS (R767). -/
def execBypass (s : State) : Host.Outcome State Fault Refusal := .next (s.setIr 0xFF true)

/-- TEST_LOGIC_RESET (R786, R790): IDCODE is selected. An access that Update-DR has started goes on; a shift under way delivers nothing. -/
def execTestLogicReset (s : State) : Host.Outcome State Fault Refusal := .next (s.setIr 1 false)

/-- Whether an access of the test port is denied (R743, R778, R779). -/
def State.portDenied (s : State) (write : Bool) (off v : Nat) : Bool :=
  let lvl := if s.scanOn then 2 else s.fget Fd.debugCtl_PORT_LEVEL
  let r := regAt off
  let c := (r.map fun a => a.u).getD 0
  let is (n : RegName) : Bool := (r.map fun a => a.reg) == some n
  if lvl = 0 then true
  else if !write then lvl == 1 && (is .dbgData || is .tdbgData)
  else lvl == 1 || (decide (0x80100 ≤ off) && decide (off < 0x80240)) ||
    ((is .tdbgCmd || is .tdbgData || is .dbgData || (is .groupCmd && (bits v 11 8 == 4 || bits v 11 8 == 5))) && !s.mayDebug .tap c)

/-- A capture of DEBUG_ACCESS before its access is complete reads BUSY; the data beside it is a free value (R770). -/
def State.captureBusy (s : State) : State :=
  let (w, s) := s.free
  s.emit (.tdo (2 * 2 ^ 88 + w.toNat))

/-- DEBUG_ACCESS (R770, R778): Update-DR starts one access of 8 bytes, made here and shown when it is done; data that no rule gives the
capture is a free value. One under way goes on: the capture reads BUSY, and a new Update-DR changes nothing. -/
def execDebugAccess (dr : Nat) (s : State) : Host.Outcome State Fault Refusal :=
  let s := s.setIr 0x20 false
  if !s.life.aonUp then .next s
  else if s.tap.access.isSome then .next s.captureBusy else
  let off := bits dr 86 64 * 8
  let v := bits dr 63 0
  let hold (s : State) (st d : Nat) : State := { s with tap := { s.tap with access := some (st, d) } }
  if s.portDenied (bit dr 87) off v then let (w, s) := s.free; .next (hold s 1 w.toNat)
  else if bit dr 87 then
    let s := s.writeRegWith .tap State.stepTwin off true v
    let (w, s) := s.free
    .next (hold s 0 w.toNat)
  else
    let (d, s) := s.readReg off 8
    .next (hold s 0 d)

/-- DEBUG_ACCESS_DONE (R770): STATUS and DATA are there for the next capture, which shifts them out. -/
def execDebugAccessDone (s : State) : Host.Outcome State Fault Refusal :=
  match s.tap.access with
  | none => .next s
  | some (st, d) =>
    .next ({ s with tap := { s.tap with access := none, status := st, data := d } }.emit (.tdo (2 ^ 88 * st + d % 2 ^ 64)))

end Sys2Proof.Machine
end

