-- ==== Sys2Proof/Machine/HostBus.lean ====
section
/-!
DEFINITION. Requests of the host through BAR 4 and what the endpoint turns away (R795 to R808), and the sideband: MCTP, PLDM and the
direct register window (R811 to R816). What a response of the Steward holds beside the values the manual states is in assumption log 31.
-/
namespace Sys2Proof.Machine

/-! Configuration space (R793). -/

/-- A field of the identity in configuration space (Table 22.2). -/
inductive ConfigField where
  | vendorId
  | subsystemVendorId
  | deviceId
  | subsystemId
  | revisionId
  | classCode
  | deviceSerialNumber
  deriving DecidableEq, Repr

/-- A number of four decimal digits as a binary-coded value: 4288 as 0x4288 (Table 22.2). -/
def bcd (n : Nat) : Nat := n / 1000 % 10 * 4096 + n / 100 % 10 * 256 + n / 10 % 10 * 16 + n % 10

/-- What configuration space reports of the device's identity (R793, Table 22.2). No row of the table reads configuration space: the host's
read of a field returns this value and changes nothing (assumption log 55). -/
def State.configRead (s : State) : ConfigField → Nat
  | .vendorId => 0x1F6B
  | .subsystemVendorId => 0x1F6B
  | .deviceId => bcd s.fuse.orderCode
  | .subsystemId => bcd s.fuse.orderCode
  | .revisionId => 0xA1
  | .classCode => 0x120000
  | .deviceSerialNumber => s.fuse.deviceId

/-! BAR 4 (R797, R798). -/

/-- Cut a request at every 64-byte boundary (R797): offset and length of each access, at most n of them. -/
def piecesOf : Nat → Nat → Nat → List (Nat × Nat)
  | 0, _, _ => []
  | n + 1, off, len => if len = 0 then [] else
    let k := min len (64 - off % 64)
    (off, k) :: piecesOf n (off + k) (len - k)

/-- The accesses of a BAR 4 request. -/
def bar4Pieces (off len : Nat) : List (Nat × Nat) := piecesOf (len / 64 + 2) off len

/-- One access of the host, delivered at its target: every target a HOST request reaches answers at once. -/
def State.hostAccess (s : State) (off : Nat) (a : Act) (len : Nat) : State × Answer × Bytes :=
  let (s, r) := s.deliver (.late 304) (s.resolveHost a.perm off) a len 0 0x7F .host
  let (s, x) : State × Answer × Bytes := match r with
    | some x => (s, x.1, x.2)
    | none => (s, .error, [])
  (if x.1 = .fenced then s.inc Fd.pcieCounts_FENCED_HOST else s, x)

/-- The bytes a BAR 4 read returns for one access (R797, R798). -/
def readPiece (len : Nat) (x : Answer × Bytes) : Bytes := if x.1 = .done then padTo len x.2 else List.replicate len 0

/-- A BAR 4 read: one completion, with EP where an access was answered poisoned. -/
def State.bar4Read (s : State) (off len : Nat) : State :=
  let (s, b, ep) := (bar4Pieces off len).foldl (fun (s, b, ep) (o, n) =>
    let (s, x) := s.hostAccess o .load n
    (s, b ++ readPiece n x, ep || x.1 == .poisoned)) (s, ([] : Bytes), false)
  s.emit (.cpl b ep)

/-- A BAR 4 write: with poisoned data each access writes its bytes and poisons its granule or line (Table 22.4). -/
def State.bar4Write (s : State) (off : Nat) (data : Bytes) (poisoned : Bool) : State :=
  let s := if poisoned then (s.inc Fd.pcieCounts_POISON_RX).emit (.aer "Poisoned TLP Received") else s
  (bar4Pieces off data.length).foldl (fun s (o, n) =>
    let d := (data.drop (o - off)).take n
    (s.hostAccess o (if poisoned then .poisonStore d else .store d) n).1) s

/-- BAR4_REQUEST (R797, R775). -/
def execBar4Request (write : Bool) (off len : Nat) (data : Bytes) (poisoned : Bool) (s : State) : Host.Outcome State Fault Refusal :=
  let n := if write then data.length else len
  if !s.barUp || decide (2 ^ s.host.bar4 < off + n) then .next (unsupported s)
  else if s.scanOn then
    let s := (bar4Pieces off n).foldl (fun s _ => s.violate .host) s
    .next (if write then s else s.emit (.cpl (List.replicate n 0) false))
  else .next (if write then s.bar4Write off data poisoned else s.bar4Read off n)

/-! BAR 0, and requests to no BAR (R795, R802). -/

/-- Whether a BAR 0 access has a size and alignment R795 allows: GARNET_WINDOW takes aligned reads of up to 64 bytes within an entry. -/
def bar0Legal (write : Bool) (off size : Nat) : Bool :=
  ((size == 4 || size == 8) && off % size == 0) ||
    (!write && decide (0x90000 ≤ off) && decide (off + size ≤ 0xD0000) && (size == 16 || size == 32 || size == 64) && off % size == 0)

/-- BAR0_ACCESS_ILLEGAL (R795): of an access that R795 allows this is not the command. -/
def execBar0AccessIllegal (write : Bool) (off size : Nat) (s : State) : Host.Outcome State Fault Refusal :=
  if !s.barUp || decide (Config.regBytes < off + size) then .next (unsupported s)
  else if bar0Legal write off size then .next s
  else
    let s := s.violate .host
    .next (if write then s else s.emit (.cpl (List.replicate size 0) false))

/-- UNSUPPORTED_REQUEST (R802). -/
def execUnsupportedRequest (s : State) : Host.Outcome State Fault Refusal := .next (unsupported s)

/-- MALFORMED_TLP (R808): the TLP is dropped and recorded in AER; a Malformed TLP is PCIE_INTERFACE too. -/
def execMalformedTlp (kind : TlpError) (s : State) : Host.Outcome State Fault Refusal :=
  if !s.configUp then .next s else
  match kind with
  | .malformed => .next ((s.emit (.aer "Malformed TLP")).pcieFault 4)
  | .unexpectedCompletion => .next (s.emit (.aer "Unexpected Completion"))
  | .receiverOverflow => .next (s.emit (.aer "Receiver Overflow"))
  | .flowControl => .next (s.emit (.aer "Flow Control Protocol Error"))

/-! SMBus (R811). -/

/-- SMBUS_TRANSACTION (R811): one with a bad PEC is discarded and counted; one with a good PEC acts by the command it carries. -/
def execSmbusTransaction (_bytes : Bytes) (pecOk : Bool) (s : State) : Host.Outcome State Fault Refusal :=
  if s.life.aonUp && !pecOk then .next (s.inc Fd.sbStatus_PEC_ERRORS) else .next s

/-! MCTP control (R812). -/

/-- Whether MCTP is served (R812). -/
def State.mctpOn (s : State) : Bool := s.life.aonUp && s.fget Fd.fwStatus_STATE == 1 && s.fon Fd.sbCtl_MCTP_ENABLE && (s.proc 0).running

/-- A response of the Steward over SMBus, where MCTP is served. -/
def State.respondMctp (s : State) (b : Bytes) : State := if s.mctpOn then s.emit (.smbus b) else s

/-- SET_ENDPOINT_ID (R812): 0 and 0xFF name no endpoint (assumption log 31). -/
def execSetEndpointId (eid : Byte) (s : State) : Host.Outcome State Fault Refusal :=
  if !s.mctpOn then .next s
  else if eid = 0 ∨ eid = 0xFF then .next (s.emit (.smbus [2]))
  else .next ((s.fset Fd.sbStatus_EID eid.toNat).emit (.smbus [0, eid]))

/-- GET_ENDPOINT_ID (R812). -/
def execGetEndpointId (s : State) : Host.Outcome State Fault Refusal :=
  .next (s.respondMctp [0, BitVec.ofNat 8 (s.fget Fd.sbStatus_EID)])

/-- Four bytes of a version that the manual does not give: a free value. -/
def State.versionBytes (s : State) : Bytes × State := let (w, s) := s.free; (leBytes 4 w.toNat, s)

/-- GET_MCTP_VERSION_SUPPORT (R812): of the base protocol, of control messages and of PLDM; another type is not supported. -/
def execGetMctpVersionSupport (typ : Byte) (s : State) : Host.Outcome State Fault Refusal :=
  if !s.mctpOn then .next s
  else if typ = 0 ∨ typ = 1 ∨ typ = 0xFF then let (v, s) := s.versionBytes; .next (s.emit (.smbus ([0, 1] ++ v)))
  else .next (s.emit (.smbus [0x80]))

/-- GET_MESSAGE_TYPE_SUPPORT (R812): control and PLDM. -/
def execGetMessageTypeSupport (s : State) : Host.Outcome State Fault Refusal := .next (s.respondMctp [0, 2, 0, 1])

/-! PLDM (R813, Table 22.7). -/

/-- GETTID (R813): the terminus ID is a free value. -/
def execGettid (s : State) : Host.Outcome State Fault Refusal :=
  if !s.mctpOn then .next s else let (w, s) := s.free; .next (s.emit (.smbus [0, BitVec.ofNat 8 w.toNat]))

/-- GETPLDMVERSION (R813): of types 0 and 2. -/
def execGetpldmversion (typ : Byte) (s : State) : Host.Outcome State Fault Refusal :=
  if !s.mctpOn then .next s
  else if typ = 0 ∨ typ = 2 then let (v, s) := s.versionBytes; .next (s.emit (.smbus (0 :: v)))
  else .next (s.emit (.smbus [0x83]))

/-- GETPLDMTYPES (R813): types 0 and 2. -/
def execGetpldmtypes (s : State) : Host.Outcome State Fault Refusal := .next (s.respondMctp (0 :: leBytes 8 5))

/-- The command codes of a PLDM type that are supported (R813). -/
def pldmCommands (typ : Nat) : List Nat := if typ = 0 then [2, 3, 4, 5] else if typ = 2 then [0x11, 0x21, 0x50, 0x51] else []

/-- GETPLDMCOMMANDS (R813): a map of the codes of a type. -/
def execGetpldmcommands (typ : Byte) (s : State) : Host.Outcome State Fault Refusal :=
  let l := pldmCommands typ.toNat
  .next (s.respondMctp (if l.isEmpty then [0x83] else 0 :: leBytes 32 (l.foldl (fun m c => m + 2 ^ c) 0)))

/-- The sensors of Table 22.7, in its order. -/
def sensorIds : List Nat := (List.range 24).map (· + 1) ++ [32, 33, 34]

/-- The value of a sensor now (Table 22.7). A state sensor's states are numbered from 1 in the table's order; watts are rounded down. -/
def State.sensorNow (s : State) (id : Nat) : Nat :=
  if id ≤ 5 then s.fget Fd.thermal_TJ_MAX_C (id - 1)
  else if id ≤ 10 then s.fget Fd.railStatus_VOUT_MV (id - 6)
  else if id ≤ 15 then s.fget Fd.railStatus_IOUT_DA (id - 11)
  else if id = 16 then ((List.range 5).map fun k => s.fget Fd.railStatus_VOUT_MV k * s.fget Fd.railStatus_IOUT_DA k).foldl (· + ·) 0 / 10000
  else if id ≤ 24 then s.fget Fd.hbmStatus_STACK_TEMP (32 * (id - 17))
  else if id = 32 then
    let v := s.reg .faultSummary
    if v = 0 then 1 else if v.land 0xC0 = 0 then 2 else 3
  else if id = 33 then (if s.fon Fd.quartzStatus_TIME_LOCKED then 1 else 2)
  else s.fget Fd.bootStatus_STAGE

/-- The reading of a sensor as last refreshed; before the first refresh, as it is now. -/
def State.reading (s : State) (id : Nat) : Nat :=
  match s.host.readings[sensorIds.idxOf id]? with
  | some v => v
  | none => s.sensorNow id

/-- PLDM_SENSOR_REFRESH (R813). -/
def execPldmSensorRefresh (now : Nat) (s : State) : Host.Outcome State Fault Refusal :=
  let s := s.advance now
  if !(s.proc 0).running then .next s else .next (s.modHost fun h => { h with readings := sensorIds.map s.sensorNow })

/-- GETPDRREPOSITORYINFO (R813): one record for each sensor. -/
def execGetpdrrepositoryinfo (s : State) : Host.Outcome State Fault Refusal := .next (s.respondMctp (0 :: leBytes 4 sensorIds.length))

/-- GETPDR (R813): record n is that of the n-th sensor of Table 22.7, and 0 names the first: its sensor ID and its kind, 0 numeric, 1 state. -/
def execGetpdr (handle : Nat) (s : State) : Host.Outcome State Fault Refusal :=
  match sensorIds[handle - 1]? with
  | some id => .next (s.respondMctp (0 :: leBytes 2 id ++ [if id < 32 then 0 else 1]))
  | none => .next (s.respondMctp [0x82])

/-- GETSENSORREADING (R813): a numeric sensor's reading. -/
def execGetsensorreading (sensor : Nat) (s : State) : Host.Outcome State Fault Refusal :=
  .next (s.respondMctp (if 1 ≤ sensor ∧ sensor ≤ 24 then 0 :: leBytes 4 (s.reading sensor) else [0x80]))

/-- GETSTATESENSORREADINGS (R813): a state sensor's state. -/
def execGetstatesensorreadings (sensor : Nat) (s : State) : Host.Outcome State Fault Refusal :=
  .next (s.respondMctp (if 32 ≤ sensor ∧ sensor ≤ 34 then [0, BitVec.ofNat 8 (s.reading sensor)] else [0x80]))

/-- UNSUPPORTED_PLDM_CMD (R813): ERROR_UNSUPPORTED_PLDM_CMD; a supported command has a row of its own. -/
def execUnsupportedPldmCmd (typ cmd : Byte) (s : State) : Host.Outcome State Fault Refusal :=
  if (pldmCommands typ.toNat).contains cmd.toNat then .next s else .next (s.respondMctp [5])

/-! The direct register window (R814, R815). -/

/-- Whether a register lies in the always-on domain (chapters 16, 19, 20, 22 to 24). -/
def aonReg (off : Nat) : Bool :=
  (decide (0x9000 ≤ off) && decide (off < 0xA000)) || (decide (0x10008 ≤ off) && decide (off < 0x13000)) ||
    (decide (0x80000 ≤ off) && decide (off < 0x80300)) || (decide (0x90000 ≤ off) && decide (off < 0xD0000)) ||
    (decide (0xC100 ≤ off) && decide (off < 0xD000)) || off == 0xC010 || off == 0xC018 ||
    (match regAt off with | some a => a.reg == .aonStatus | none => false)

/-- WIN_ADDR (R814). -/
def execWinAddr (off : Word32) (s : State) : Host.Outcome State Fault Refusal :=
  if s.life.aonUp then .next (s.modHost fun h => { h with winAddr := off.toNat }) else .next s

/-- WIN_READ (R814): status and 8 bytes; the offset then advances by 8. The bytes beside a status that is not OK are free values. -/
def execWinRead (s : State) : Host.Outcome State Fault Refusal :=
  if !s.life.aonUp then .next s else
  let a := s.host.winAddr
  let s := s.modHost fun h => { h with winAddr := (a + 8) % 2 ^ 32 }
  let fail (st : Byte) : State := let (w, s) := s.free; s.emit (.smbus (st :: leBytes 8 w.toNat))
  if a % 8 ≠ 0 ∨ Config.regBytes ≤ a then .next (fail 1)
  else if s.life.inReset && !aonReg a then .next (fail 3)
  else
    let (v, s) := s.readReg a 8
    .next (s.emit (.smbus (0 :: leBytes 8 v)))

/-- WIN_WRITE (R815). -/
def execWinWrite (v : Word) (s : State) : Host.Outcome State Fault Refusal :=
  if !s.life.aonUp then .next s
  else if s.fon Fd.sbCtl_WINDOW_WRITE && (regAt s.host.winAddr).any fun a => a.reg == .thermCtl && a.o == 0 then
    .next ((s.writeWarn .smbus (v.toNat % 2 ^ 32)).emit (.smbus [0]))
  else .next ((s.inc Fd.sbStatus_REFUSED).emit (.smbus [2]))

end Sys2Proof.Machine
end

