-- ==== Sys2Proof/Machine/Receive.lean ====
section
/-!
DEFINITION. What an Oznum port receives (R512 to R517, R531): rounds of codewords become flits, the slots of DATA flits in FSEQ order become
one stream, and its packets act.
-/
namespace Sys2Proof.Machine

/-! Packets of the slot stream (R517, Table 14.5). -/

/-- The slots of a packet by its first slot (Table 14.5): none for a reserved TYPE, or a packet of no slots (R537). -/
def packetLen (w : Nat) : Option Nat :=
  match bits w 7 0 with
  | 0x00 => some 1
  | 0x01 => some 1
  | 0x10 => some 2
  | 0x11 => some (2 + (bits w 14 8 + 7) / 8)
  | 0x12 => some 11
  | 0x13 => some 3
  | 0x14 => some (2 + if bits w 59 56 = 9 then (if bits w 14 8 = 8 then 2 else bits w 23 19 + 1) else 1)
  | 0x20 => some (1 + bits w 15 8)
  | 0x30 => if bits w 15 8 = 0 then none else some (bits w 15 8)
  | 0x40 => if bits w 15 8 = 0 then none else some (bits w 15 8)
  | 0x41 => if bits w 15 8 = 0 then none else some (bits w 15 8)
  | _ => none

/-- A packet of the stream acts as its own row does. A TIME packet's time point is the present Quartz value (R597). -/
def State.packetArrives (s : State) (p : Nat) (l : List Word) : State :=
  let kind := slotBits l 0 19 16
  match slotBits l 0 7 0 with
  | 0x00 => s
  | 0x01 => s.creditArrives p (l.headD 0)
  | 0x20 => s.rspArrives p l
  | 0x30 =>
    if kind = 0 then s.partialPacket p l false else if kind = 1 then s.finalPacket p l
    else if kind = 2 then s.openArrives p l else s.abortArrives p l
  | 0x40 => s.agreeArrives p l
  | 0x41 => if kind = 0 then s.timeReqArrives p l s.now s.frac else s.timeRspArrives p l s.now s.frac
  | t => s.requestArrives t p l

/-- Take the whole packets at the front of a port's stream, at most n of them, each in turn (R517, R528). -/
def State.takePackets : Nat → State → Nat → State
  | 0, s, _ => s
  | n + 1, s, p =>
    match (s.port p).stream with
    | [] => s
    | w :: l => match packetLen w.toNat with
      | none => s.protocolError p
      | some k =>
        if (w :: l).length < k then s
        else State.takePackets n ((s.modPort p fun q => { q with stream := (w :: l).drop k }).packetArrives p ((w :: l).take k)) p

/-! Flits (R515, R516, R531). -/

/-- A flit: the slots of a DATA flit that is accepted join the stream. -/
def State.flit (s : State) (p : Nat) (crcOk : Bool) (kind fseq ack : Nat) (slots : List Word) : State :=
  let (s, ok) := s.flitHead p crcOk kind fseq ack
  if !ok then s else
  let s := s.modPort p fun q => { q with stream := q.stream ++ slots }
  State.takePackets (s.port p).stream.length s p

/-- FLIT_RECEIVE (R531). -/
def execFlitReceive (port : PortId) (crcOk : Bool) (fseq ack : Nat) (slots : List Word) (kind : Fin 4) (s : State) :
    Host.Outcome State Fault Refusal := .next (s.flit port crcOk kind fseq ack slots)

/-- A flit of 128 bytes (Table 14.3): its CRC is checked, and a reserved bit, an FSEQ outside a DATA flit, or a payload outside one is a protocol
error (R545, R516). -/
def State.rawFlit (s : State) (p : Nat) (b : Bytes) : State :=
  let t := leNat ((b.drop 120).take 4)
  let crcOk := leNat (b.drop 124) == crc32c (b.take 124)
  let kind := bits t 7 6
  if s.portUp p && crcOk && (bits t 5 0 != 0 || (kind != 1 && (bits t 31 20 != 0 || leNat (b.take 120) != 0))) then s.protocolError p
  else s.flit p crcOk kind (bits t 31 20) (bits t 19 8) (slotsOf (b.take 120))

/-! Rounds (R512, R513). -/

/-- Give on the rounds that are complete, at most n of them, in order. -/
def State.takeRounds : Nat → State → Nat → State
  | 0, s, _ => s
  | n + 1, s, p =>
    match (s.port p).roundReady (s.fget Fd.portStatus_RX_LANE_MAP p) with
    | none => s
    | some l =>
      State.takeRounds n (l.foldl (fun s b => s.rawFlit p b) (s.modPort p PortSt.nextRound)) p

/-- A codeword (R512, R513): its header, and its flits with those of its round. A row without flits says nothing of what it carries. -/
def State.codeword (s : State) (p lane : Nat) (rs : CodewordResult) (hdr : Nat) (flits : List Bytes) : State :=
  let was := (s.port p).lanes.getD lane {}
  let s := s.codewordHead p lane rs hdr
  let lost : Bool := rs == .uncorrectable && (s.port p).round.isSome
  if !s.portUp p || (flits.isEmpty && !lost) then s else
  let c : RxCodeword := match rs with
    | .uncorrectable => ⟨(was.seq + 1) % 256, lane, s.fget Fd.portStatus_RX_LANE_MAP p, []⟩
    | _ => ⟨bits hdr 19 12, lane, bits hdr 9 6, flits⟩
  State.takeRounds 16 (s.modPort p fun q => q.joinRound c) p

/-- CODEWORD_RECEIVE (R512). -/
def execCodewordReceive (port : PortId) (lane : Fin 4) (rs : CodewordResult) (hdr : Nat) (flits : List Bytes) (s : State) :
    Host.Outcome State Fault Refusal := .next (s.codeword port lane rs hdr flits)

end Sys2Proof.Machine
end

