-- ==== Sys2Proof/Machine/Dispatch.lean ====
section
/-!
DEFINITION. The dispatch of every command to its meaning.
-/
namespace Sys2Proof.Machine

/-- The effect of one command on everything but the queue. -/
def exec (i : Instr) (s : State) : Host.Outcome State Fault Refusal :=
  match i with
  | .registerWrite src off wide v => Sys2Proof.Machine.execRegisterWrite src off wide v s
  | .rootStall die channel openNs held now => Sys2Proof.Machine.execRootStall die channel openNs held now s
  | .heldEpisode die openNs => Sys2Proof.Machine.execHeldEpisode die openNs s
  | .bootImageLoad hdr data => Sys2Proof.Machine.execBootImageLoad hdr data s
  | .loadFull src fromFlash hdr data => Sys2Proof.Machine.execLoadFull src fromFlash hdr data s
  | .updateFold src fromFlash hdr data => Sys2Proof.Machine.execUpdateFold src fromFlash hdr data s
  | .imageValidate hdr data last => Sys2Proof.Machine.execImageValidate hdr data last s
  | .coreRequestResolve core agent op addr size data ecc => Sys2Proof.Machine.execCoreRequestResolve core agent op addr size data ecc s
  | .hostMapEntryFetch tag entry => Sys2Proof.Machine.execHostMapEntryFetch tag entry s
  | .ctxMapInval src c v => Sys2Proof.Machine.execCtxMapInval src c v s
  | .ctxMapInvalDone c => Sys2Proof.Machine.execCtxMapInvalDone c s
  | .ctxMapEnable src c v => Sys2Proof.Machine.execCtxMapEnable src c v s
  | .ctxMissClear src c => Sys2Proof.Machine.execCtxMissClear src c s
  | .chedalAlu core f ipar => Sys2Proof.Machine.execChedalAlu core f ipar s
  | .chedalAluImmediate core f ipar => Sys2Proof.Machine.execChedalAluImmediate core f ipar s
  | .chedalLoad core f parity ipar ecc => Sys2Proof.Machine.execChedalLoad core f parity ipar ecc s
  | .chedalStore core f hold ipar ecc => Sys2Proof.Machine.execChedalStore core f hold ipar ecc s
  | .chedalAtomic core f ipar ecc => Sys2Proof.Machine.execChedalAtomic core f ipar ecc s
  | .chedalBranch core f ipar => Sys2Proof.Machine.execChedalBranch core f ipar s
  | .chedalJump core f ipar => Sys2Proof.Machine.execChedalJump core f ipar s
  | .issue core f hold ipar => Sys2Proof.Machine.execIssue core f hold ipar s
  | .sumget core f ipar sumPar => Sys2Proof.Machine.execSumget core f ipar sumPar s
  | .qwait core f ipar => Sys2Proof.Machine.execQwait core f ipar s
  | .twinWaitAcq core f ipar => Sys2Proof.Machine.execTwinWaitAcq core f ipar s
  | .twinSignal core f hold ipar => Sys2Proof.Machine.execTwinSignal core f hold ipar s
  | .twinFence core f ipar => Sys2Proof.Machine.execTwinFence core f ipar s
  | .twinFlush core f ipar => Sys2Proof.Machine.execTwinFlush core f ipar s
  | .dinv core f ipar => Sys2Proof.Machine.execDinv core f ipar s
  | .dinvAll core f ipar => Sys2Proof.Machine.execDinvAll core f ipar s
  | .iinvAll core f ipar => Sys2Proof.Machine.execIinvAll core f ipar s
  | .ecall core f ipar => Sys2Proof.Machine.execEcall core f ipar s
  | .ebreak core f ipar => Sys2Proof.Machine.execEbreak core f ipar s
  | .eret core f parity ipar => Sys2Proof.Machine.execEret core f parity ipar s
  | .mfs core f ipar => Sys2Proof.Machine.execMfs core f ipar s
  | .mts core f ipar => Sys2Proof.Machine.execMts core f ipar s
  | .wfe core f ipar => Sys2Proof.Machine.execWfe core f ipar s
  | .kick core f now ipar => Sys2Proof.Machine.execKick core f now ipar s
  | .twinDone core f ipar => Sys2Proof.Machine.execTwinDone core f ipar s
  | .timerEvent core now => Sys2Proof.Machine.execTimerEvent core now s
  | .lockstepSignatureCheck core miscompare => Sys2Proof.Machine.execLockstepSignatureCheck core miscompare s
  | .twinKettleExpiry core now => Sys2Proof.Machine.execTwinKettleExpiry core now s
  | .twinStart src core => Sys2Proof.Machine.execTwinStart src core s
  | .kettleKeyWrite src kettle v now => Sys2Proof.Machine.execKettleKeyWrite src kettle v now s
  | .kettleWindowWrite src kettle field v now => Sys2Proof.Machine.execKettleWindowWrite src kettle field v now s
  | .kettleLock src kettle => Sys2Proof.Machine.execKettleLock src kettle s
  | .mma core => Sys2Proof.Machine.execMma core s
  | .matrixStepEnd core badArray hold => Sys2Proof.Machine.execMatrixStepEnd core badArray hold s
  | .matrixResume src core => Sys2Proof.Machine.execMatrixResume src core s
  | .matrixDiscard src core => Sys2Proof.Machine.execMatrixDiscard src core s
  | .arrayTestDue core now => Sys2Proof.Machine.execArrayTestDue core now s
  | .arrayTestEnd core ok => Sys2Proof.Machine.execArrayTestEnd core ok s
  | .vectorWord core fault after => Sys2Proof.Machine.execVectorWord core fault after s
  | .vectorResume src core => Sys2Proof.Machine.execVectorResume src core s
  | .vectorDiscard src core => Sys2Proof.Machine.execVectorDiscard src core s
  | .launch core parity => Sys2Proof.Machine.execLaunch core parity s
  | .crewResident core => Sys2Proof.Machine.execCrewResident core s
  | .whiskIntegerOp core slot f fault => Sys2Proof.Machine.execWhiskIntegerOp core slot f fault s
  | .whiskFloatOp core slot f fault => Sys2Proof.Machine.execWhiskFloatOp core slot f fault s
  | .whiskCvt core slot f fault => Sys2Proof.Machine.execWhiskCvt core slot f fault s
  | .tst core slot f fault => Sys2Proof.Machine.execTst core slot f fault s
  | .predicateOp core slot f fault => Sys2Proof.Machine.execPredicateOp core slot f fault s
  | .whiskSel core slot f fault => Sys2Proof.Machine.execWhiskSel core slot f fault s
  | .laneInformation core slot f fault => Sys2Proof.Machine.execLaneInformation core slot f fault s
  | .whiskLoad core slot f fault => Sys2Proof.Machine.execWhiskLoad core slot f fault s
  | .whiskStore core slot f fault => Sys2Proof.Machine.execWhiskStore core slot f fault s
  | .whiskAtomic core slot f fault => Sys2Proof.Machine.execWhiskAtomic core slot f fault s
  | .whiskJump core slot f fault => Sys2Proof.Machine.execWhiskJump core slot f fault s
  | .jr core slot f fault => Sys2Proof.Machine.execJr core slot f fault s
  | .meetBarrier core slot f fault => Sys2Proof.Machine.execMeetBarrier core slot f fault s
  | .markBarrier core slot f fault => Sys2Proof.Machine.execMarkBarrier core slot f fault s
  | .awaitBarrier core slot f fault => Sys2Proof.Machine.execAwaitBarrier core slot f fault s
  | .whiskSummary core slot f fault => Sys2Proof.Machine.execWhiskSummary core slot f fault s
  | .whiskWaitAcq core slot f fault => Sys2Proof.Machine.execWhiskWaitAcq core slot f fault s
  | .whiskSignal core slot f fault => Sys2Proof.Machine.execWhiskSignal core slot f fault s
  | .whiskFence core slot f fault => Sys2Proof.Machine.execWhiskFence core slot f fault s
  | .whiskFlush core slot f fault => Sys2Proof.Machine.execWhiskFlush core slot f fault s
  | .groupExit core slot f fault => Sys2Proof.Machine.execGroupExit core slot f fault s
  | .brk core slot f fault => Sys2Proof.Machine.execBrk core slot f fault s
  | .barrierStall core slot now => Sys2Proof.Machine.execBarrierStall core slot now s
  | .groupResume src core slot crew => Sys2Proof.Machine.execGroupResume src core slot crew s
  | .groupRelease src core slot crew => Sys2Proof.Machine.execGroupRelease src core slot crew s
  | .groupKill src core slot crew => Sys2Proof.Machine.execGroupKill src core slot crew s
  | .groupHalt src core slot crew => Sys2Proof.Machine.execGroupHalt src core slot crew s
  | .groupStep src core slot crew => Sys2Proof.Machine.execGroupStep src core slot crew s
  | .dbgDataWrite src core v => Sys2Proof.Machine.execDbgDataWrite src core v s
  | .whiskResume src core => Sys2Proof.Machine.execWhiskResume src core s
  | .whiskDiscard src core => Sys2Proof.Machine.execWhiskDiscard src core s
  | .copy core pieces => Sys2Proof.Machine.execCopy core pieces s
  | .fill core pieces => Sys2Proof.Machine.execFill core pieces s
  | .moverWordFinish core => Sys2Proof.Machine.execMoverWordFinish core s
  | .moverResume src core => Sys2Proof.Machine.execMoverResume src core s
  | .moverDiscard src core => Sys2Proof.Machine.execMoverDiscard src core s
  | .l2Load slice line off len ecc => Sys2Proof.Machine.execL2Load slice line off len ecc s
  | .l2Store slice line off data ecc => Sys2Proof.Machine.execL2Store slice line off data ecc s
  | .l2Atomic slice line off aop size operand expect ecc => Sys2Proof.Machine.execL2Atomic slice line off aop size operand expect ecc s
  | .hbmReadComplete slice line merge sev retried outcome => Sys2Proof.Machine.execHbmReadComplete slice line merge sev retried outcome s
  | .l2ScrubRead slice line ecc => Sys2Proof.Machine.execL2ScrubRead slice line ecc s
  | .hbmPatrolRead channel ecs outcome sev => Sys2Proof.Machine.execHbmPatrolRead channel ecs outcome sev s
  | .hbmTemperatureRead stack temp => Sys2Proof.Machine.execHbmTemperatureRead stack temp s
  | .pin src fold => Sys2Proof.Machine.execPin src fold s
  | .unpin src fold => Sys2Proof.Machine.execUnpin src fold s
  | .unpinAll src fold => Sys2Proof.Machine.execUnpinAll src fold s
  | .pinCommandDone fold => Sys2Proof.Machine.execPinCommandDone fold s
  | .hbmSelfRefresh src stack => Sys2Proof.Machine.execHbmSelfRefresh src stack s
  | .hbmActive src stack => Sys2Proof.Machine.execHbmActive src stack s
  | .hbmPowerDone => Sys2Proof.Machine.execHbmPowerDone s
  | .stream core => Sys2Proof.Machine.execStream core s
  | .pourDiscardWord core => Sys2Proof.Machine.execPourDiscardWord core s
  | .tileInject core => Sys2Proof.Machine.execTileInject core s
  | .tileAccept core node crcBad => Sys2Proof.Machine.execTileAccept core node crcBad s
  | .panelRelease core tree fault => Sys2Proof.Machine.execPanelRelease core tree fault s
  | .streamFinish core => Sys2Proof.Machine.execStreamFinish core s
  | .streamAbort core => Sys2Proof.Machine.execStreamAbort core s
  | .pourResume src core => Sys2Proof.Machine.execPourResume src core s
  | .pourDiscard src core => Sys2Proof.Machine.execPourDiscard src core s
  | .dbTail ring v => Sys2Proof.Machine.execDbTail ring v s
  | .dbStart ring v => Sys2Proof.Machine.execDbStart ring v s
  | .dbTimedTail ring v => Sys2Proof.Machine.execDbTimedTail ring v s
  | .timedDoorbellRelease ring now => Sys2Proof.Machine.execTimedDoorbellRelease ring now s
  | .descriptorFetch ring data => Sys2Proof.Machine.execDescriptorFetch ring data s
  | .handleEntryFetch ring data => Sys2Proof.Machine.execHandleEntryFetch ring data s
  | .commandStart ring now => Sys2Proof.Machine.execCommandStart ring now s
  | .nop ring => Sys2Proof.Machine.execNop ring s
  | .kernel ring => Sys2Proof.Machine.execKernel ring s
  | .wait ring => Sys2Proof.Machine.execWait ring s
  | .timestamp ring now => Sys2Proof.Machine.execTimestamp ring now s
  | .collective ring => Sys2Proof.Machine.execCollective ring s
  | .domain ring => Sys2Proof.Machine.execDomain ring s
  | .commandRetire ring writeOk seqOk => Sys2Proof.Machine.execCommandRetire ring writeOk seqOk s
  | .ringStart src ring => Sys2Proof.Machine.execRingStart src ring s
  | .stopDrain src ring => Sys2Proof.Machine.execStopDrain src ring s
  | .stopAbort src ring => Sys2Proof.Machine.execStopAbort src ring s
  | .ringReset src ring => Sys2Proof.Machine.execRingReset src ring s
  | .ctxHtEnable src c v => Sys2Proof.Machine.execCtxHtEnable src c v s
  | .ctxHtInval src c v => Sys2Proof.Machine.execCtxHtInval src c v s
  | .codewordReceive port lane rs hdr flits => Sys2Proof.Machine.execCodewordReceive port lane rs hdr flits s
  | .flitReceive port crcOk fseq ack slots kind => Sys2Proof.Machine.execFlitReceive port crcOk fseq ack slots kind s
  | .nakReceive port fseq => Sys2Proof.Machine.execNakReceive port fseq s
  | .replayTimer port now => Sys2Proof.Machine.execReplayTimer port now s
  | .loadRequest port slots => Sys2Proof.Machine.execLoadRequest port slots s
  | .storeRequest port slots => Sys2Proof.Machine.execStoreRequest port slots s
  | .storeMaskedRequest port slots => Sys2Proof.Machine.execStoreMaskedRequest port slots s
  | .signalRequest port slots => Sys2Proof.Machine.execSignalRequest port slots s
  | .atomicRequest port slots => Sys2Proof.Machine.execAtomicRequest port slots s
  | .rspReceive port slots => Sys2Proof.Machine.execRspReceive port slots s
  | .creditReceive port slot => Sys2Proof.Machine.execCreditReceive port slot s
  | .laneBad port lane => Sys2Proof.Machine.execLaneBad port lane s
  | .trainingLock port lanesRx lanesTx fallback now => Sys2Proof.Machine.execTrainingLock port lanesRx lanesTx fallback now s
  | .trainingTimeout port now => Sys2Proof.Machine.execTrainingTimeout port now s
  | .downRetry port now => Sys2Proof.Machine.execDownRetry port now s
  | .portTimeout port tag now => Sys2Proof.Machine.execPortTimeout port tag now s
  | .retrain src port now => Sys2Proof.Machine.execRetrain src port now s
  | .restoreLanes src port now => Sys2Proof.Machine.execRestoreLanes src port now s
  | .agreeSend port now => Sys2Proof.Machine.execAgreeSend port now s
  | .agreeReceive port slots now => Sys2Proof.Machine.execAgreeReceive port slots now s
  | .agreementLost port now => Sys2Proof.Machine.execAgreementLost port now s
  | .collOpen port slots => Sys2Proof.Machine.execCollOpen port slots s
  | .openRepeat quarter coll now => Sys2Proof.Machine.execOpenRepeat quarter coll now s
  | .collPartial port slots fault => Sys2Proof.Machine.execCollPartial port slots fault s
  | .collFinal port slots => Sys2Proof.Machine.execCollFinal port slots s
  | .collAbort port slots => Sys2Proof.Machine.execCollAbort port slots s
  | .segmentOriginate coll seg fault => Sys2Proof.Machine.execSegmentOriginate coll seg fault s
  | .collectiveComplete coll => Sys2Proof.Machine.execCollectiveComplete coll s
  | .noProgress coll now => Sys2Proof.Machine.execNoProgress coll now s
  | .groupEpochWrite src v => Sys2Proof.Machine.execGroupEpochWrite src v s
  | .timeReqSend port now => Sys2Proof.Machine.execTimeReqSend port now s
  | .timeReq port slots rx rxFrac now => Sys2Proof.Machine.execTimeReq port slots rx rxFrac now s
  | .timeRsp port slots rx rxFrac now => Sys2Proof.Machine.execTimeRsp port slots rx rxFrac now s
  | .measurementTimeout port now => Sys2Proof.Machine.execMeasurementTimeout port now s
  | .advertisementAgeOut port now => Sys2Proof.Machine.execAdvertisementAgeOut port now s
  | .holdoverEntry now => Sys2Proof.Machine.execHoldoverEntry now s
  | .holdoverExpiry now => Sys2Proof.Machine.execHoldoverExpiry now s
  | .stepForward src now => Sys2Proof.Machine.execStepForward src now s
  | .ptmSample src now => Sys2Proof.Machine.execPtmSample src now s
  | .ptmPeriodic now => Sys2Proof.Machine.execPtmPeriodic now s
  | .ptmDialogDone t1 t4 master delay => Sys2Proof.Machine.execPtmDialogDone t1 t4 master delay s
  | .ppsCrossing now => Sys2Proof.Machine.execPpsCrossing now s
  | .todMessage now => Sys2Proof.Machine.execTodMessage now s
  | .refTLoss now => Sys2Proof.Machine.execRefTLoss now s
  | .refTAccept now => Sys2Proof.Machine.execRefTAccept now s
  | .quartzCounter a b => Sys2Proof.Machine.execQuartzCounter a b s
  | .fence p => Sys2Proof.Machine.execFence p s
  | .drainLimitExpiry dom now => Sys2Proof.Machine.execDrainLimitExpiry dom now s
  | .fenceComplete dom => Sys2Proof.Machine.execFenceComplete dom s
  | .unfence p => Sys2Proof.Machine.execUnfence p s
  | .setState p => Sys2Proof.Machine.execSetState p s
  | .coreStateReached core => Sys2Proof.Machine.execCoreStateReached core s
  | .setOp p => Sys2Proof.Machine.execSetOp p s
  | .setOpComplete rail mv pace => Sys2Proof.Machine.execSetOpComplete rail mv pace s
  | .railFault rail => Sys2Proof.Machine.execRailFault rail s
  | .powerCommandDone => Sys2Proof.Machine.execPowerCommandDone s
  | .railTelemetry rail mv da uj => Sys2Proof.Machine.execRailTelemetry rail mv da uj s
  | .thermalSample die temp => Sys2Proof.Machine.execThermalSample die temp s
  | .thermCtlWrite src v => Sys2Proof.Machine.execThermCtlWrite src v s
  | .fcAck src die => Sys2Proof.Machine.execFcAck src die s
  | .pantryScrubRead core target ecc => Sys2Proof.Machine.execPantryScrubRead core target ecc s
  | .packetCrc die target channel req work => Sys2Proof.Machine.execPacketCrc die target channel req work s
  | .hubPathFailure quarter path => Sys2Proof.Machine.execHubPathFailure quarter path s
  | .hubPathRestore quarter path => Sys2Proof.Machine.execHubPathRestore quarter path s
  | .coreReset src core => Sys2Proof.Machine.execCoreReset src core s
  | .foldReset src fold => Sys2Proof.Machine.execFoldReset src fold s
  | .portReset src port => Sys2Proof.Machine.execPortReset src port s
  | .processorReset src proc => Sys2Proof.Machine.execProcessorReset src proc s
  | .resetDone stuck => Sys2Proof.Machine.execResetDone stuck s
  | .coldReset => Sys2Proof.Machine.execColdReset s
  | .deviceReset cause => Sys2Proof.Machine.execDeviceReset cause s
  | .alwaysOnStart straps refOk sense => Sys2Proof.Machine.execAlwaysOnStart straps refOk sense s
  | .hubBoot bootSel sfdpWidth found dirs slotA slotB => Sys2Proof.Machine.execHubBoot bootSel sfdpWidth found dirs slotA slotB s
  | .refTNotAccepted straps sense => Sys2Proof.Machine.execRefTNotAccepted straps sense s
  | .tagRetirementExpiry dom tag now => Sys2Proof.Machine.execTagRetirementExpiry dom tag now s
  | .stewardHeartbeat now => Sys2Proof.Machine.execStewardHeartbeat now s
  | .ladleHeartbeat q now => Sys2Proof.Machine.execLadleHeartbeat q now s
  | .ladleHung q now => Sys2Proof.Machine.execLadleHung q now s
  | .pkettleKick src proc pc now => Sys2Proof.Machine.execPkettleKick src proc pc now s
  | .pkettleExpiry proc pc now => Sys2Proof.Machine.execPkettleExpiry proc pc now s
  | .processorStart proc copyOk now => Sys2Proof.Machine.execProcessorStart proc copyOk now s
  | .fwUpdate src mask data => Sys2Proof.Machine.execFwUpdate src mask data s
  | .persist src ok => Sys2Proof.Machine.execPersist src ok s
  | .fwHandoff src proc v now record => Sys2Proof.Machine.execFwHandoff src proc v now record s
  | .handoverKick proc now => Sys2Proof.Machine.execHandoverKick proc now s
  | .handoverExpiry proc pc now => Sys2Proof.Machine.execHandoverExpiry proc pc now s
  | .fwTimerExpiry proc k now => Sys2Proof.Machine.execFwTimerExpiry proc k now s
  | .fwEventTake src proc => Sys2Proof.Machine.execFwEventTake src proc s
  | .garnetSubmit src proc bytes bankFault now => Sys2Proof.Machine.execGarnetSubmit src proc bytes bankFault now s
  | .garnetWindowRead src index => Sys2Proof.Machine.execGarnetWindowRead src index s
  | .garnetFlush outcome now => Sys2Proof.Machine.execGarnetFlush outcome now s
  | .hostLogRingWrite => Sys2Proof.Machine.execHostLogRingWrite s
  | .fwlogEnable src v => Sys2Proof.Machine.execFwlogEnable src v s
  | .programSlot src req => Sys2Proof.Machine.execProgramSlot src req s
  | .revokeSlot src req => Sys2Proof.Machine.execRevokeSlot src req s
  | .raiseImageFloor src req => Sys2Proof.Machine.execRaiseImageFloor src req s
  | .raiseFwFloor src req => Sys2Proof.Machine.execRaiseFwFloor src req s
  | .raiseTestLock src req => Sys2Proof.Machine.execRaiseTestLock src req s
  | .scanUnlock req clearOk => Sys2Proof.Machine.execScanUnlock req clearOk s
  | .fuseProgramDone ok => Sys2Proof.Machine.execFuseProgramDone ok s
  | .coreOffline src core => Sys2Proof.Machine.execCoreOffline src core s
  | .stackOffline src stack => Sys2Proof.Machine.execStackOffline src stack s
  | .offlineTestDone passed failing => Sys2Proof.Machine.execOfflineTestDone passed failing s
  | .extest => Sys2Proof.Machine.execExtest s
  | .idcode => Sys2Proof.Machine.execIdcode s
  | .samplePreload bits => Sys2Proof.Machine.execSamplePreload bits s
  | .extestPulse => Sys2Proof.Machine.execExtestPulse s
  | .extestTrain => Sys2Proof.Machine.execExtestTrain s
  | .clamp => Sys2Proof.Machine.execClamp s
  | .highz => Sys2Proof.Machine.execHighz s
  | .debugAccess dr => Sys2Proof.Machine.execDebugAccess dr s
  | .debugAccessDone => Sys2Proof.Machine.execDebugAccessDone s
  | .scanChain => Sys2Proof.Machine.execScanChain s
  | .bypass => Sys2Proof.Machine.execBypass s
  | .testLogicReset => Sys2Proof.Machine.execTestLogicReset s
  | .twinHalt src core => Sys2Proof.Machine.execTwinHalt src core s
  | .twinResume src core => Sys2Proof.Machine.execTwinResume src core s
  | .twinStep src core => Sys2Proof.Machine.execTwinStep src core s
  | .tdbgDataWrite src core v => Sys2Proof.Machine.execTdbgDataWrite src core v s
  | .bar4Request write off len data poisoned => Sys2Proof.Machine.execBar4Request write off len data poisoned s
  | .bar0AccessIllegal write off size => Sys2Proof.Machine.execBar0AccessIllegal write off size s
  | .deviceReadCompletion tag status data => Sys2Proof.Machine.execDeviceReadCompletion tag status data s
  | .completionTimeout tag => Sys2Proof.Machine.execCompletionTimeout tag s
  | .d3hotToD0 => Sys2Proof.Machine.execD3hotToD0 s
  | .smbusTransaction bytes pecOk => Sys2Proof.Machine.execSmbusTransaction bytes pecOk s
  | .setEndpointId eid => Sys2Proof.Machine.execSetEndpointId eid s
  | .getEndpointId => Sys2Proof.Machine.execGetEndpointId s
  | .getMctpVersionSupport typ => Sys2Proof.Machine.execGetMctpVersionSupport typ s
  | .getMessageTypeSupport => Sys2Proof.Machine.execGetMessageTypeSupport s
  | .gettid => Sys2Proof.Machine.execGettid s
  | .getpldmversion typ => Sys2Proof.Machine.execGetpldmversion typ s
  | .getpldmtypes => Sys2Proof.Machine.execGetpldmtypes s
  | .getpldmcommands typ => Sys2Proof.Machine.execGetpldmcommands typ s
  | .getpdrrepositoryinfo => Sys2Proof.Machine.execGetpdrrepositoryinfo s
  | .getpdr handle => Sys2Proof.Machine.execGetpdr handle s
  | .getsensorreading sensor => Sys2Proof.Machine.execGetsensorreading sensor s
  | .getstatesensorreadings sensor => Sys2Proof.Machine.execGetstatesensorreadings sensor s
  | .unsupportedPldmCmd typ cmd => Sys2Proof.Machine.execUnsupportedPldmCmd typ cmd s
  | .pldmSensorRefresh now => Sys2Proof.Machine.execPldmSensorRefresh now s
  | .winAddr off => Sys2Proof.Machine.execWinAddr off s
  | .winRead => Sys2Proof.Machine.execWinRead s
  | .winWrite v => Sys2Proof.Machine.execWinWrite v s
  | .pwrOkLow => Sys2Proof.Machine.execPwrOkLow s
  | .perstNRise now => Sys2Proof.Machine.execPerstNRise now s
  | .ctxHtInvalDone c => Sys2Proof.Machine.execCtxHtInvalDone c s
  | .noHandoff proc now => Sys2Proof.Machine.execNoHandoff proc now s
  | .illegal core slot f ipar => Sys2Proof.Machine.execIllegal core slot f ipar s
  | .quartzNowRead src => Sys2Proof.Machine.execQuartzNowRead src s
  | .configurationSpaceWrite w => Sys2Proof.Machine.execConfigurationSpaceWrite w s
  | .malformedTlp kind => Sys2Proof.Machine.execMalformedTlp kind s
  | .unsupportedRequest => Sys2Proof.Machine.execUnsupportedRequest s
  | .doorbellPageViolation off width => Sys2Proof.Machine.execDoorbellPageViolation off width s
  | .pcieRetrain width speed flit => Sys2Proof.Machine.execPcieRetrain width speed flit s
  | .privateMemoryDoubleError proc => Sys2Proof.Machine.execPrivateMemoryDoubleError proc s

end Sys2Proof.Machine
end

