-- ==== Sys2Proof/Safety.lean ====
section
/-!
DEFINITION. What the statements speak of: a command that runs to a next state, what it leaves as it was, the states a safe run passes
through, and a safe run.
-/
namespace Sys2Proof.Machine

/-- exec of a command answers a next state of which a property holds. -/
def Runs (c : Instr) (s : State) (q : State → Prop) : Prop := ∃ t, exec c s = .next t ∧ q t

/-- Every byte of memory reads as before. -/
def SameMem (s t : State) : Prop := ∀ a, mread t.mem a = mread s.mem a

/-- Every register reads as before but those a predicate picks by name and unit (units and sub-indices are below 2^32). -/
def SameRegs (p : RegName → Nat → Prop) (s t : State) : Prop :=
  ∀ r u k, u < 2 ^ 32 → k < 2 ^ 32 → ¬ p r u → t.reg r u k = s.reg r u k

/-- Only registers, and only those picked, differ. -/
def RegsOnly (p : RegName → Nat → Prop) (s t : State) : Prop := t = { s with regs := t.regs } ∧ SameRegs p s t

/-- Only those registers and what has left the block differ. -/
def RegsAndOut (p : RegName → Nat → Prop) (s t : State) : Prop := t = { s with regs := t.regs, out := t.out } ∧ SameRegs p s t

/-- Nothing differs. -/
def Same (s t : State) : Prop := t = s

/-- Every byte of memory reads as before but n bytes from an address. -/
def MemBut (lo n : Nat) (s t : State) : Prop := ∀ a, a < lo ∨ lo + n ≤ a → mread t.mem a = mread s.mem a

/-- Every arrival counter holds what it held but those a predicate picks. -/
def SameCtrs (p : Nat → Prop) (s t : State) : Prop := ∀ k, ¬ p k → t.ctr k = s.ctr k

/-- The registers a write of which does more than set their fields (R870): commands, and the registers of the Kettles, the maps and the
logs. -/
def actingRegs : List RegName :=
  [.imageCmd, .fwCmd, .fuseCmd, .ctxMapCtl, .ctxMapInval, .ctxMiss, .stallFirst, .pinCmd, .ringCmd, .ctxHtCtl, .ctxHtInval, .groupEpoch,
    .quartzCmd, .powerCmd, .thermCtl, .fcAck, .resetCmd, .pkettleCtl, .pkettleKey, .pkettleWindow, .pkettleKick, .fwlogCtl, .bistCmd, .sbCtl,
    .msixVectorCtl, .twinCmd, .kettleCtl, .kettleKey, .kettleWindow, .matrixCtl, .vectorCtl, .whiskCtl, .moverCtl, .pourCtl, .groupCmd,
    .dbgData, .portCmd, .hbmPwrCmd, .tdbgCmd, .tdbgData]

/-- Whether a field refuses its part of a value written to its whole register: a locked RWL field, an RWK field, a reserved value (R20,
R24). -/
def State.refuses (s : State) (a : RegAt) (v : Nat) (f : RegField) : Bool :=
  let res := reservedValue a.reg f v (bits v f.hi f.lo)
  match f.acc with
  | .rw => res
  | .rwl => s.locked a.reg a.u || res
  | .rwk => true
  | _ => false

/-- What a field holds after a value has been written to its whole register (R12, R23, R25). -/
def State.afterWrite (s : State) (a : RegAt) (v : Nat) (f : RegField) : Nat :=
  let old := bits (s.reg a.reg a.u a.k) f.hi f.lo
  let x := bits v f.hi f.lo
  if s.refuses a v f then old else
  match f.acc with
  | .rw => x
  | .rwl => x
  | .w1c => old.land (2 ^ (f.hi + 1 - f.lo) - 1 - x)
  | .w1s => old.lor x
  | _ => old

/-- The registers a detection, a report, a vector or a log entry writes (chapters 18, 20, 22). -/
def eventRegs : List RegName :=
  [.fcCounts, .fcActive, .fcActiveTime, .fcActiveDetail, .fcPending, .fcPendingTime, .fcPendingDetail, .faultClassCount, .faultSummary,
    .msixPba, .garnetSeq, .garnetCounts]

/-- Beside the registers picked, nothing differs but what a detection, a report, a vector or a log entry changes: their registers, the
events of the firmware processors, the counts a quarter holds, the log, and what leaves the block. -/
def EventFrame (p : RegName → Nat → Prop) (s t : State) : Prop :=
  t = { s with regs := t.regs, procs := t.procs, out := t.out, hubHeld := t.hubHeld, log := t.log } ∧
    SameRegs (fun r u => p r u ∨ r ∈ eventRegs) s t

/-- The image answers a class with RECORD, and the collector of a die holds nothing. -/
abbrev Quiet (die cls : Nat) (s : State) : Prop :=
  s.responseOf cls = 0 ∧ bit (s.reg .fcActive die) 63 = false ∧ bit (s.reg .fcPending die) 63 = false

/-- A detection answered with RECORD has been counted and stands in the collector of a die (R669). -/
def Detected (die : Nat) (d : Det) (s t : State) : Prop :=
  t.fget Fd.fcCounts_DETECTIONS die = satAdd Fd.fcCounts_DETECTIONS.max (s.fget Fd.fcCounts_DETECTIONS die) 1 ∧
    t.reg .fcActive die = slotTake d 0 ∧ t.reg .fcActiveDetail die = d.detail % 2 ^ 64

/-- A vector is raised: its message is sent or its pending bit is set (R796a). -/
def Raised (v : Nat) (s t : State) : Prop :=
  Nat.testBit (t.reg .msixPba (v / 64)) (v % 64) = true ∨ .msix v (s.reg .msixAddr v) (s.reg .msixData v) ∈ t.out

/-- A core's twin is running and at an instruction boundary at which nothing else is due: no access under way, no exception handed over,
no break, no event, no halt, no output held for compare. -/
abbrev TwinReady (s : State) (c : Nat) : Prop :=
  s.twinRuns c = true ∧ (s.twin c).began = false ∧ (s.twin c).excs = [] ∧ s.breakHere c = false ∧ s.eventDue c = false ∧
    (s.twin c).haltAt = none ∧ (s.twin c).rel = []

/-- The twin's instruction has retired, and the next is at pc. -/
def Retires (c : Nat) (pc : Word) (s t : State) : Prop := (t.twin c).pc = pc ∧ (t.twin c).lastPc = (s.twin c).pc

/-- A twin's general registers read as before but rd. -/
def SameGr (c rd : Nat) (s t : State) : Prop := ∀ n, n ≠ rd → (t.twin c).gr n = (s.twin c).gr n

/-- A twin's special registers hold what they held. -/
def SameSpecials (c : Nat) (s t : State) : Prop :=
  let a := s.twin c
  let b := t.twin c
  b.status = a.status ∧ b.epc = a.epc ∧ b.cause = a.cause ∧ b.evalue = a.evalue ∧ b.vbase = a.vbase ∧ b.stackLimit = a.stackLimit ∧
    b.tcmp = a.tcmp ∧ b.events = a.events ∧ b.eventMask = a.eventMask ∧ b.kscratch = a.kscratch ∧ b.uscratch = a.uscratch

/-- Nothing but core c differs. -/
def CoreOnly (c : Nat) (s t : State) : Prop := t = { s with cores := t.cores } ∧ ∀ d, d ≠ c → t.core d = s.core d

/-- Of core c nothing but its twin differs. -/
def TwinOnly (c : Nat) (s t : State) : Prop := CoreOnly c s t ∧ t.core c = { s.core c with twin := t.twin c }

/-- A group in a slot of which a property holds. -/
def AtGroup (c sl : Nat) (q : WGroup → Prop) (t : State) : Prop := ∃ g, nfind (t.whisk c).groups sl = some g ∧ q g

/-- The group in a slot may take an instruction and none of it has been performed; it is not stepped. -/
abbrev GroupReady (s : State) (c sl : Nat) (g : WGroup) : Prop :=
  nfind (s.whisk c).groups sl = some g ∧ s.groupReady c g = true ∧ g.step = false ∧ g.done = 0 ∧ g.missed = 0 ∧ g.poisoned = 0

/-- A group goes on at an address. -/
def GoesOn (pc : Word) (h : WGroup) : Prop := h.pc = pc ∧ h.wait = .none ∧ h.park = 0 ∧ h.done = 0

/-- A group's lane registers read as before but rd in some lanes, which read what f gives. -/
def LaneRegs (rd : Nat) (lanes : List Nat) (f : Nat → Nat) (g h : WGroup) : Prop :=
  ∀ (r : Fin 64) (l : Fin 32), h.reg r l = if r.val = rd ∧ l.val ∈ lanes then f l % 2 ^ 32 else g.reg r l

/-- A group's predicates read as before but pd in some lanes, which read what f gives; p0 reads as ones. -/
def LanePreds (pd : Nat) (lanes : List Nat) (f : Nat → Bool) (g h : WGroup) : Prop :=
  ∀ (n : Fin 8) (l : Fin 32), (h.pred n).testBit l = if n.val = pd ∧ n.val ≠ 0 ∧ l.val ∈ lanes then f l else (g.pred n).testBit l

/-- Nothing but a core's Whisk engine differs, and of it only the group in a slot and when its crew last retired. -/
def GroupOnly (c sl crew : Nat) (s t : State) : Prop :=
  CoreOnly c s t ∧ t.core c = { s.core c with whisk := t.whisk c } ∧
    t.whisk c = { s.whisk c with groups := (t.whisk c).groups, crews := (t.whisk c).crews } ∧
    (∀ x : SlotId, x.val ≠ sl → nfind (t.whisk c).groups x.val = nfind (s.whisk c).groups x.val) ∧
    ∀ n : SlotId, nfind (t.whisk c).crews n.val = (nfind (s.whisk c).crews n.val).map fun r => if n.val = crew then { r with since := s.elapsed } else r

/-- Every ring but one holds what it held beside its registers. -/
def OtherRings (r : Nat) (s t : State) : Prop := ∀ q, q ≠ r → t.ring q = s.ring q

/-- Only a ring differs: of its registers those picked, and what it holds beside them. -/
def RingOnly (p : RegName → Prop) (r : Nat) (s t : State) : Prop :=
  t = { s with regs := t.regs, rings := t.rings } ∧ SameRegs (fun q u => p q ∧ u = r) s t ∧ OtherRings r s t

/-- Every port but one holds what it held beside its registers. -/
def OtherPorts (p : Nat) (s t : State) : Prop := ∀ q, q ≠ p → t.port q = s.port q

/-- Every fence but one domain's is as it was. -/
def OtherFences (k : Nat) (s t : State) : Prop := ∀ j, j ≠ k → t.fenceAt j = s.fenceAt j

/-- A port's flits leave at once: none waits, and the replay buffer of 512 has room for n more (R531). -/
abbrev SendsNow (p n : Nat) (s : State) : Prop := (s.port p).txq = [] ∧ (s.port p).unacked.length + n ≤ 512

/-- A request packet of a type that an ACTIVE port takes, and whose address comes to a Pantry place of its fold that takes traffic. -/
abbrev RemoteAccess (p typ : Nat) (l : List Word) (perm f c off : Nat) (s : State) : Prop :=
  s.portState p = 5 ∧ slotBits l 0 7 0 = typ ∧ requestOk l = true ∧ l.length ≤ (s.port p).rxCred.getD 0 0 ∧ s.foldOfPort p = some f ∧
    s.foldUpdating f = false ∧ s.member = some (slotBits l 1 63 0 / 2 ^ 48) ∧
    s.resolveRemote p perm (slotBits l 1 63 0) = .here f (.pantry c off) ∧ s.placeFenced f (.pantry c off) = false ∧
    (s.port p).wait = [] ∧ 17 ≤ (s.port p).txCred.getD 1 0 ∧ SendsNow p 3 s ∧ s.portFence p = FencePhase.none ∧
    (∀ e ∈ s.ports, e.2.fwd = [])

/-- The rows of the request packets, each with its TYPE (Table 14.5). -/
def requestRows (p : PortId) (l : List Word) : List (Nat × Instr) :=
  [(0x10, .loadRequest p l), (0x11, .storeRequest p l), (0x12, .storeMaskedRequest p l), (0x13, .signalRequest p l),
    (0x14, .atomicRequest p l)]

/-- A well-formed COLL packet of a kind that an ACTIVE port of a fold takes (Table 15.3). -/
abbrev CollPacket (p kind : Nat) (l : List Word) (s : State) : Prop :=
  s.portState p = 5 ∧ slotBits l 0 7 0 = 0x30 ∧ collOk l = true ∧ slotBits l 0 19 16 = kind ∧ l.length ≤ (s.port p).rxCred.getD 2 0 ∧
    (s.foldOfPort p).isSome = true

/-- The rows of the COLL packets, each with its KIND (Table 15.3). -/
def collRows (p : PortId) (l : List Word) (fault : Bool) : List (Nat × Instr) :=
  [(0, .collPartial p l fault), (1, .collFinal p l), (2, .collOpen p l), (3, .collAbort p l)]

/-- The one open collective has been aborted with a reason: its command has completed with a status, and its slot is free (R579). -/
def CollAborted (i : Nat) (x : Coll) (c : RingCmd) (reason st det now : Nat) (s t : State) : Prop :=
  t.colls = [] ∧ t.fget Fd.collSlot_LAST_ABORT i = reason ∧ t.fget Fd.collSlot_BUSY i = 0 ∧ t.fget Fd.groupStatus_OPEN = 0 ∧
    (t.ring x.ring).cmds = [{ c with phase := .done, status := st, detail := det, fin := now }] ∧
    t.fget Fd.tureenCounts_ABORTS 0 = satAdd Fd.tureenCounts_ABORTS.max (s.fget Fd.tureenCounts_ABORTS 0) 1 ∧ t.mem = s.mem ∧
    OtherRings x.ring s t

/-- A port has sent packets in DATA flits of their own, in order, each flit with the next sequence number and the current ACK (R515, R531). -/
def Sent (p : Nat) (ls : List (List Word)) (s t : State) : Prop :=
  t.out = ((ls.flatMap fun l => flitsOf l.length l).zipIdx.map fun (f, i) =>
    Out.flit p (flitBytes 1 (((s.port p).txSeq + i) % 4096) (s.port p).rxSeq f)).reverse ++ s.out

/-- The port has returned a request's credits and sent the RSP with its tag and generation, a status and data (R519, R523). -/
def Answered (p : Nat) (l : List Word) (st : Nat) (data : Bytes) (s t : State) : Prop :=
  Sent p [[BitVec.ofNat 64 (1 + l.length * 2 ^ 16)], rspSlots (slotBits l 0 39 24) (slotBits l 0 55 48) st data] s t

/-- Only a port differs, beside its registers, and what has left the block. -/
def PortOnly (p : Nat) (s t : State) : Prop := t = { s with ports := t.ports, out := t.out } ∧ OtherPorts p s t

/-- What left the block last is a packet on a port of which a property holds. -/
def LastSent (p : Nat) (q : List Word → Prop) (t : State) : Prop :=
  ∃ l fseq ack, l.length ≤ 15 ∧ t.out.head? = some (.flit p (flitBytes 1 fseq ack l)) ∧ q l

/-- The power block may take a command of a source: the write reaches it, firmware runs if the host sends it, and no command runs (R645,
R810). -/
abbrev PowerFree (src : Source) (s : State) : Prop :=
  s.shut src = false ∧ (src ≠ .host ∨ s.fget Fd.fwStatus_STATE ≠ 0) ∧ s.power = none

/-- It takes the command, every check of Table 17.4 passes, and the unit is neither being reset nor tested. -/
abbrev PowerClear (src : Source) (dk id action arg : Nat) (s : State) : Prop :=
  PowerFree src s ∧ s.reset' = none ∧ s.underTest dk id = false ∧ s.powerCheck none dk id action arg = none

/-- The row of an ACTION of Table 17.3. -/
def powerInstr (action : Nat) (p : PowerSource) : Instr :=
  if action = 1 then .fence p else if action = 2 then .unfence p else if action = 3 then .setState p else .setOp p

/-- The reset row of a kind and number of Table 19.3, and the numbers each row has. -/
def resetInstr (src : Source) (dk id : Nat) : Instr :=
  if dk = 1 then .coreReset src (Fin.ofNat 288 id) else if dk = 2 then .foldReset src (Fin.ofNat 16 id)
  else if dk = 3 then .portReset src (Fin.ofNat 36 id) else .processorReset src (Fin.ofNat 5 id)

/-- A kind and a number that some reset row carries. -/
abbrev ResetNames (dk id : Nat) : Prop := dk = 1 ∧ id < 288 ∨ dk = 2 ∧ id < 16 ∨ dk = 3 ∧ id < 36 ∨ dk = 6 ∧ id < 5

/-- What the fuses read after one finding of their sensing (R760): a value whose second copy is good stands; one that lost both reads zero, and
the loss is shown. -/
def sensed (x : FuseSt) : FuseSense → FuseSt
  | .second _ => x
  | .lost v => { x.lose v with bad := true }

/-- Whether a finding is a value read from its second copy. -/
def isSecond : FuseSense → Bool
  | .second _ => true
  | .lost _ => false

/-- The row of a fuse request's OP (Table 21.2), one of 1 to 5. -/
def fuseInstr (src : Source) (op : Nat) (r : HostRead) : Instr :=
  if op = 1 then .programSlot src r else if op = 2 then .revokeSlot src r else if op = 3 then .raiseImageFloor src r
  else if op = 4 then .raiseFwFloor src r else .raiseTestLock src r

/-- A write of FUSE_CMD.GO reaches a Steward that runs (R771, R810), and no request written before waits. -/
abbrev FuseTakes (src : Source) (s : State) : Prop :=
  s.shut src = false ∧ (src ≠ .host ∨ s.fget Fd.fwStatus_STATE ≠ 0) ∧ (s.proc 0).running = true ∧ s.life.fuseDue = false

/-- What left the block last is a capture of the test port whose low eight bits are given (Table 21.5). -/
def Captured (low : Nat) (s t : State) : Prop := ∃ w, t.out = .tdo (low + 256 * w) :: s.out

/-- What left the block last is a capture of DEBUG_ACCESS whose STATUS is BUSY (R770). -/
def CapturedBusy (s t : State) : Prop := ∃ w, w < 2 ^ 88 ∧ t.out = .tdo (2 * 2 ^ 88 + w) :: s.out

/-- Whether an offset of an access through the test port lies in a GARNET_SUBMIT window (R743). -/
def inSubmit (off : Nat) : Bool := decide (0x80100 ≤ off) && decide (off < 0x80240)

/-- What left the block last is a response over SMBus: the bytes given, and then n bytes that are a free value. -/
def Responded (head : Bytes) (n : Nat) (s t : State) : Prop := ∃ v, v.length = n ∧ t.out = .smbus (head ++ v) :: s.out

/-- Every byte of a range reads 0. -/
def Cleared (lo n : Nat) (t : State) : Prop := ∀ a, lo ≤ a → a < lo + n → mread t.mem a = 0

/-- The states a safe run passes through: device memory is in its canonical form (no address listed twice or out of order, no cell that
equals what an unlisted address reads as). -/
def State.ok (s : State) : Prop := s.mem.wf = true

/-- A run of n steps is safe: each answers a next state in the canonical form. -/
def SafeRun : Nat → State → Prop
  | 0, s => s.ok
  | n + 1, s => s.ok ∧ ∃ t, step s = .next t ∧ SafeRun n t

end Sys2Proof.Machine
end

