-- ==== Sys2Proof/Certificates/Slice0/Obligations.lean ====
section
/-!
DEFINITION. The statements for the provers, about the model as the spec's rules have it.
-/
section
open Sys2Proof Sys2Proof.Machine

/-- A step runs the command at the front of the queue with the queue's rest, and with none waiting one reference period passes (the model's
choice, log 6). 95_what_each_step_holds.md. -/
def Obligations.StepTakesTheFrontCommand : Prop :=
  (∀ (c : Instr) (cs : List Instr) (s : State), s.pending = c :: cs → step s = exec c { s with pending := cs }) ∧
    ∀ s : State, s.pending = [] →
      ∃ t d, step s = .next t ∧ t.time.q = s.time.q + d ∧ t.time.el = s.time.el + d ∧ t = { s with time := t.time } ∧
        t.time = { s.time with q := t.time.q, el := t.time.el }

/-- Every step from a state whose memory is in canonical form ends in such a state. 04_address_space.md, R137, R217. -/
def Obligations.EveryStepKeepsMemoryCanonical : Prop :=
  ∀ s t : State, s.ok → step s = .next t → t.ok

/-- The state after reset meets the invariant, has nothing waiting, no image and every twin in RESET_HOLD. R52, R692, R137. -/
def Obligations.ResetIsCanonicalAndIdle : Prop :=
  State.reset.ok ∧ State.reset.pending = [] ∧ State.reset.hasImage = false ∧
    (∀ c, (State.reset.twin c).mode = .resetHold ∧ (State.reset.twin c).status = 0) ∧
    (∀ p, State.reset.portState p = 0) ∧ ∀ r, State.reset.ringState r = 0

/-- No command stops the machine: every command in every state answers a next state. R7, R22, R166, 00_scope.md. -/
def Obligations.EveryCommandAnswersANextState : Prop :=
  ∀ (c : Instr) (s : State), ∃ t, exec c s = .next t

/-- No command changes the queue of waiting commands, so a step always takes exactly the front command away. 95_what_each_step_holds.md. -/
def Obligations.CommandsLeaveTheQueueAlone : Prop :=
  ∀ (c : Instr) (s t : State), exec c s = .next t → t.pending = s.pending

/-- A write of a whole register that does no more than set its fields sets RW fields, RWL fields that are not locked, and bits of W1S
fields written with 1, clears bits of W1C fields written with 1, and ignores RO and WO fields; a field that refuses its value keeps it, and
the write is then one violation. It changes nothing else. A misaligned write is a violation. R12, R20, R22, R23, R24, R25, Table 2.7,
Table 3.8. -/
def Obligations.RegisterWriteFollowsAccessCodes : Prop :=
  (∀ (src : Source) (off : Nat) (v : Word) (a : RegAt) (s : State), s.shut src = false → off % a.reg.width = 0 → regAt off = some a →
    a.o = 0 → a.reg ∉ actingRegs → s.absentReg a.reg a.u off = false → timerOf off = none → (off < 0x80100 ∨ 0x80240 ≤ off) →
    (∀ f ∈ a.reg.fields, s.refuses a v.toNat f = false) → Runs (.registerWrite src off (a.reg.width == 8) v) s (fun t =>
      (∀ f ∈ a.reg.fields, bits (t.reg a.reg a.u a.k) f.hi f.lo = s.afterWrite a v.toNat f) ∧
      RegsOnly (fun r u => r = a.reg ∧ u = a.u) s t ∧ ∀ k, k < 2 ^ 32 → k ≠ a.k → t.reg a.reg a.u k = s.reg a.reg a.u k)) ∧
  (∀ (off : Nat) (v : Word) (a : RegAt) (s : State), s.shut .host = false → off % a.reg.width = 0 → regAt off = some a → a.o = 0 →
    a.reg ∉ actingRegs → s.absentReg a.reg a.u off = false → timerOf off = none → (off < 0x80100 ∨ 0x80240 ≤ off) →
    (∃ f ∈ a.reg.fields, s.refuses a v.toNat f = true) → Runs (.registerWrite .host off (a.reg.width == 8) v) s (fun t =>
      (∀ f ∈ a.reg.fields, bits (t.reg a.reg a.u a.k) f.hi f.lo = s.afterWrite a v.toNat f) ∧
      t.fget Fd.hostViol_COUNT = satAdd Fd.hostViol_COUNT.max (s.fget Fd.hostViol_COUNT) 1 ∧
      RegsOnly (fun r u => r = a.reg ∧ u = a.u ∨ r = .hostViol) s t)) ∧
  (∀ (src : Source) (die : Fin 5) (v : Word) (s : State), s.shut src = false → Runs (.registerWrite src (0x20010 + 0x1000 * die.val)
    false v) s (fun t => t.fget Fd.stallCount_COUNT die = v.toNat % 2 ^ 32 ∧ RegsOnly (fun r u => r = .stallCount ∧ u = die.val) s t)
    ∧ Runs (.registerWrite src (0x20018 + 0x1000 * die.val) false v) s (fun t => t.fget Fd.holdCount_COUNT die = v.toNat % 2 ^ 32 ∧
    RegsOnly (fun r u => r = .holdCount ∧ u = die.val) s t) ∧ Runs (.registerWrite src (0x20020 + 0x1000 * die.val) false v) s (Same
    s)) ∧
  (∀ (src : Source) (v : Word) (s : State), s.shut src = false → Runs (.registerWrite src 0x1018 true v) s (fun t => t.fget
    Fd.imageStatus_DONE = (if v.toNat.testBit 63 then 0 else s.fget Fd.imageStatus_DONE) ∧ t.fget Fd.imageStatus_REASON = s.fget
    Fd.imageStatus_REASON ∧ t.fget Fd.imageStatus_STATE = s.fget Fd.imageStatus_STATE ∧ RegsOnly (fun r _ => r = .imageStatus) s t)) ∧
  (∀ (off : Nat) (wide : Bool) (v : Word) (s : State), s.shut .host = false → off % (if wide then 8 else 4) ≠ 0 →
    Runs (.registerWrite .host off wide v) s (fun t =>
      t.fget Fd.hostViol_COUNT = satAdd Fd.hostViol_COUNT.max (s.fget Fd.hostViol_COUNT) 1 ∧ RegsOnly (fun r _ => r = .hostViol) s t))

/-- A root stall at STALL_LIMIT is counted, captured if STALL_FIRST is free or holds a later channel of the same tick, and reported; a held
episode longer than it is counted and nothing else; before an image, below the limit, of a receiver that holds traffic or a domain that
takes none, nothing is. R77, R78, R79, R80, R82, R83, R85, Table 2.7. -/
def Obligations.StallMonitorsCountAndCapture : Prop :=
  (∀ (die : Fin 5) (openNs : Nat) (s : State), s.hasImage = true → s.stallNs < openNs → Runs (.heldEpisode die openNs) s (fun t =>
    t.fget Fd.holdCount_COUNT die = satAdd Fd.holdCount_COUNT.max (s.fget Fd.holdCount_COUNT die) 1 ∧
    RegsOnly (fun r u => r = .holdCount ∧ u = die.val) s t)) ∧
  (∀ (die : Fin 5) (openNs : Nat) (s : State), s.hasImage = false ∨ openNs ≤ s.stallNs → Runs (.heldEpisode die openNs) s (Same s)) ∧
  (∀ (die : Fin 5) (ch openNs now : Nat) (d : Det) (s : State), s.hasImage = true → s.stallNs ≤ openNs → ch < 2 ^ 16 →
    stallDets die ch = [d] → s.stallExempt d = false → s.responseOf d.cls = 0 → bit (s.reg .fcActive die) 63 = false →
    Runs (.rootStall die ch openNs false now) s (fun t =>
      let old := s.fget Fd.stallFirst_CHANNEL_ID die
      let keeps := s.fon Fd.stallFirst_VALID die && !(nget 0 s.stallTick die == (s.advance now).now / 1000 && decide (ch < old))
      t.fget Fd.stallCount_COUNT die = satAdd Fd.stallCount_COUNT.max (s.fget Fd.stallCount_COUNT die) 1 ∧
      t.fget Fd.stallFirst_VALID die = 1 ∧ t.fget Fd.stallFirst_CHANNEL_ID die = (if keeps then old else ch) ∧
      t.fget Fd.stallFirst_DETECT_TIME die = (if keeps then s.fget Fd.stallFirst_DETECT_TIME die else
        (s.advance now).now % (Fd.stallFirst_DETECT_TIME.max + 1)) ∧
      t.fget Fd.fcCounts_DETECTIONS die = satAdd Fd.fcCounts_DETECTIONS.max (s.fget Fd.fcCounts_DETECTIONS die) 1 ∧
      t.mem = s.mem ∧ t.cores = s.cores)) ∧
  (∀ (die : Fin 5) (ch openNs now : Nat) (held : Bool) (s : State), s.hasImage = false ∨ openNs < s.stallNs ∨ held = true ∨
    (∀ d ∈ stallDets die ch, s.stallExempt d = true) → Runs (.rootStall die ch openNs held now) s (fun t => t = s.advance now))

/-- Image commands show LOADING or UPDATING and bring the image into the store, or the reason why there is none; IMAGE_VALIDATE ends them
with the reason found, or applies the FULL image or the fold update. R103, R104, R105, R106, R107, R108, R112, R115, R122, R129, R864,
Table 3.8. -/
def Obligations.ImageCommandsStartAndEnd : Prop :=
  (∀ (src : Source) (flash : Bool) (hdr : Option Bytes) (data : HostRead) (e : Option ImageErr) (b : Bytes) (s : State),
    s.shut src = false → s.imageRefused src = false → s.scanOn = false → (s.proc 0).running = true → s.fget Fd.fwStatus_STATE ≠ 2 →
    fetchResult true flash (s.reg .imageSrcLen) hdr (readBytes data) = (e, b) → Runs (.loadFull src flash hdr data) s (fun t =>
      let reads := !flash && !lengthBad true (s.reg .imageSrcLen)
      t.fget Fd.imageStatus_STATE = 1 ∧ t.life.cmd = some (true, !flash) ∧ t.mem = s.mem ∧ t.cores = s.cores ∧
      (s.hasImage = true → t.life.fetchErr = some ⟨0x44, 0xFF, 0⟩ ∧ t.out = s.out) ∧
      (s.hasImage = false → reads = true → s.mayMaster = false → t.life.imgDue.isSome = true ∧ t.out = s.out) ∧
      (s.hasImage = false → (reads = false ∨ s.mayMaster = true) → t.life.fetchErr = e ∧ t.life.store = b ∧ t.life.imgDue = none) ∧
      (∀ d, data = .ok d → RegsOnly (fun r _ => r = .imageStatus) { s with life := t.life, out := t.out } t ∧
        t.out = if reads && s.mayMaster && !s.hasImage then .hostRead 0 (s.reg .imageSrcAddr) (s.reg .imageSrcLen) :: s.out else s.out))) ∧
  (∀ (src : Source) (flash : Bool) (hdr : Option Bytes) (data : HostRead) (e : Option ImageErr) (b : Bytes) (s : State),
    s.shut src = false → s.imageRefused src = false → s.scanOn = false → (s.proc 0).running = true → s.fget Fd.fwStatus_STATE ≠ 2 →
    fetchResult false flash (s.reg .imageSrcLen) hdr (readBytes data) = (e, b) → Runs (.updateFold src flash hdr data) s (fun t =>
      let reads := !flash && !lengthBad false (s.reg .imageSrcLen)
      t.fget Fd.imageStatus_STATE = 3 ∧ t.life.cmd = some (false, !flash) ∧ t.mem = s.mem ∧ t.cores = s.cores ∧
      (s.hasImage = false → t.life.fetchErr = some ⟨0x40, 0xFF, 0⟩ ∧ t.out = s.out) ∧
      (s.hasImage = true → reads = true → s.mayMaster = false → t.life.imgDue.isSome = true ∧ t.out = s.out) ∧
      (s.hasImage = true → (reads = false ∨ s.mayMaster = true) → t.life.fetchErr = e ∧ t.life.store = b ∧ t.life.imgDue = none ∧
        t.life.updating = if e.isSome then none else some (imgN b 9 1)) ∧
      (∀ d, data = .ok d → RegsOnly (fun r _ => r = .imageStatus) { s with life := t.life, out := t.out } t ∧
        t.out = if reads && s.mayMaster && s.hasImage then .hostRead 0 (s.reg .imageSrcAddr) (s.reg .imageSrcLen) :: s.out else s.out))) ∧
  (∀ (hdr data : Option Bytes) (s : State), (s.proc 0).running = true → s.fget Fd.bootStatus_STAGE = 2 → s.imageRefused .host = false →
    s.scanOn = false → Runs (.bootImageLoad hdr data) s (fun t => t.fget Fd.bootStatus_STAGE = 3 ∧ (s.fget
    Fd.pinStraps_BOOT_SEL % 2 = 1 → t.life = s.life) ∧ (s.fget Fd.pinStraps_BOOT_SEL % 2 = 0 → t.fget Fd.imageStatus_STATE = 1 ∧
    t.life.cmd = some (true, false)) ∧ RegsOnly (fun r _ => r = .imageStatus ∨ r = .bootStatus) { s with life := t.life } t)) ∧
  (∀ (hdr : Option Bytes) (data : HostRead) (last : Nat) (full host : Bool) (e : ImageErr) (s : State), (s.proc 0).running = true →
    s.life.cmd = some (full, host) → s.life.applying = none → s.life.imgDue = none →
    (if s.life.fetchErr.isSome then s.life.fetchErr else if s.fuse.bad then some ⟨0x07, 0xFF, 0x18⟩ else
      checkImage (s.imageEnv full host) s.life.store) = some e →
    Runs (.imageValidate hdr data last) s (fun t => t.fget Fd.imageStatus_REASON = e.reason % 256 ∧ t.fget Fd.imageStatus_SECTION_INDEX =
    e.secNo % 256 ∧ t.fget Fd.imageStatus_BYTE_OFFSET = e.offset % 2 ^ 24 ∧ t.fget Fd.imageStatus_DONE = 1 ∧ t.life.cmd = none ∧
    t.fget Fd.imageStatus_STATE = (if s.hasImage then 2 else 0) ∧
    t.life.image = s.life.image ∧ t.fget Fd.rejectCount_COUNT = satAdd Fd.rejectCount_COUNT.max (s.fget Fd.rejectCount_COUNT) 1 ∧
    t.mem = s.mem ∧ t.cores = s.cores)) ∧
  (∀ (hdr : Option Bytes) (data : HostRead) (last : Nat) (host : Bool) (s : State), (s.proc 0).running = true →
    s.life.cmd = some (true, host) → s.life.applying = none → s.life.imgDue = none → s.life.fetchErr = none → s.fuse.bad = false →
    checkImage (s.imageEnv true host) s.life.store = none → 4 ≤ last → Runs (.imageValidate hdr data last) s (fun t =>
    t.life.image = some (readFull s.life.store) ∧ t.fget Fd.imageStatus_REASON = 0 ∧ t.fget Fd.imageStatus_DONE = 1 ∧
    t.fget Fd.imageStatus_STATE = 2 ∧ t.fget Fd.imageSerialNow_SERIAL = (readFull s.life.store).serial % 2 ^ 32 ∧
    4 ≤ t.fget Fd.bootStatus_STAGE ∧ t.life.cmd = none ∧ t.mem = s.mem)) ∧
  (∀ (hdr : Option Bytes) (data : HostRead) (last f : Nat) (host : Bool) (s : State), (s.proc 0).running = true →
    s.life.cmd = some (false, host) → s.life.applying = none → s.life.imgDue = none → s.life.fetchErr = none → s.fuse.bad = false →
    checkImage (s.imageEnv false host) s.life.store = none → 7 ≤ last → f = imgN s.life.store 9 1 →
    (∀ r, (s.ring r).segs = [] ∧ (s.ring r).due = [] ∧ (s.ring r).cancelled = []) →
    Runs (.imageValidate hdr data last) s (fun t =>
    t.life.image = s.life.image.map (fun x => { x with folds := x.folds.set f (readFold s.life.store (imgDir s.life.store) f
      (s.foldSec f).flags) }) ∧ t.fget Fd.imageStatus_REASON = 0 ∧ t.fget Fd.imageStatus_DONE = 1 ∧
    t.fget Fd.foldStatus_FOLD_SERIAL f = imgN s.life.store 0x14 4 % 2 ^ 32 ∧ t.fget Fd.foldStatus_IMAGE_STATE f = 1 ∧ t.life.cmd = none ∧
    t.life.updating = none))

/-- A core's access reaches the Pantry place its address resolves to and is answered: a load its bytes, a store done, a signal raises its
counter, an atomic returns the old value; one that nothing admits counts one violation; a double error met poisons the place and the answer,
and is reported. R144, R147, R148, R166, R366, R403, R660, Table 4.3, Table 10.2. -/
def Obligations.CoreAccessesReachTheirTarget : Prop :=
  (∀ (core : CoreId) (agent : Fin 6) (addr : Word) (size : Nat) (data : Bytes) (ecc : Ecc) (f c off : Nat) (s : State),
    s.coreLive core = true → 0 < size → addr.toNat % 64 + size ≤ 64 → s.inFlight (.engine core agent (2 ^ 40)) = false →
    s.resolveCore core 0 addr.toNat (agent == 0) = .here f (.pantry c off) → s.placeFenced f (.pantry c off) = false →
    s.pantryPoison c off size = false → s.replies = [] → ecc ≠ .double →
    Runs (.coreRequestResolve core agent .load addr size data ecc) s (fun t => t =
    { s with replies := [⟨.engine core agent (2 ^ 40), .done, s.pantryBytes c off size⟩] })) ∧
  (∀ (core : CoreId) (agent : Fin 6) (addr : Word) (size : Nat) (data : Bytes) (f c off : Nat) (s : State),
    s.coreLive core = true → 0 < size → addr.toNat % 64 + size ≤ 64 → s.inFlight (.engine core agent (2 ^ 40)) = false →
    s.resolveCore core 0 addr.toNat (agent == 0) = .here f (.pantry c off) → s.placeFenced f (.pantry c off) = false →
    isCtrOff off = false → c < 288 → off < Config.pantryBytes → Quiet (c / 72) 0x0A s → s.replies = [] →
    Runs (.coreRequestResolve core agent .load addr size data .double) s (fun t =>
      t.isPoison (pantryKey c off / 64) = true ∧ Detected (c / 72) ⟨0x0A, 1, c, off / 64 * 64⟩ s t ∧ t.mem = s.mem ∧
      t.replies = [⟨.engine core agent (2 ^ 40), .poisoned, s.pantryBytes c off size⟩])) ∧
  (∀ (core : CoreId) (agent : Fin 6) (addr : Word) (data : Bytes) (ecc : Ecc) (f c off : Nat) (s : State), s.coreLive core = true →
    0 < data.length → addr.toNat % 64 + data.length ≤ 64 → s.inFlight (.engine core agent (2 ^ 40)) = false →
    s.resolveCore core 1 addr.toNat (agent == 0) = .here f (.pantry c off) → s.placeFenced f (.pantry c off) = false →
    isCtrOff off = false → isRescueOff off = false → s.isPoison (pantryKey c off / 64) = false → s.replies = [] → ecc ≠ .double →
    Runs (.coreRequestResolve core agent .store addr data.length data ecc) s (fun t => mreads t.mem (pantryKey c off) data.length = data ∧
    MemBut (pantryKey c off) data.length s t ∧ t.regs = s.regs ∧ t.replies = [⟨.engine core agent (2 ^ 40), .done, []⟩])) ∧
  (∀ (core : CoreId) (agent : Fin 6) (addr : Word) (size : Nat) (data : Bytes) (ecc : Ecc) (f c off n : Nat) (s : State),
    s.coreLive core = true → addr.toNat % 8 = 0 → s.inFlight (.engine core agent (2 ^ 40)) = false →
    s.resolveCore core 2 addr.toNat (agent == 0) = .here f (.pantry c off) → s.placeFenced f (.pantry c off) = false →
    ctrOfOff off = some n → nhas s.ctrPoison (ctrKey c n) = false → s.replies = [] → ecc ≠ .double → Runs
    (.coreRequestResolve core agent .signal addr size data ecc) s (fun t => t.ctr (ctrKey c n) = satAdd (2 ^ 64 - 1) (s.ctr (ctrKey c n))
    (leNat (data.take 8)) ∧ t.mem = s.mem ∧ t.regs = s.regs ∧ t.replies = [⟨.engine core agent (2 ^ 40), .done, []⟩])) ∧
  (∀ (core : CoreId) (agent : Fin 6) (addr : Word) (aop size : Nat) (data : Bytes) (ecc : Ecc) (f c off : Nat) (s : State),
    s.coreLive core = true → aop ≤ 9 → (size = 4 ∨ size = 8) → addr.toNat % size = 0 → s.inFlight (.engine core agent (2 ^ 40)) = false →
    s.resolveCore core 3 addr.toNat (agent == 0) = .here f (.pantry c off) → s.placeFenced f (.pantry c off) = false →
    isCtrOff off = false → isRescueOff off = false → s.pantryPoison c off size = false → s.replies = [] → ecc ≠ .double →
    Runs (.coreRequestResolve core agent (.atomic aop) addr size data ecc) s (fun t =>
      mreads t.mem (pantryKey c off) size = leBytes size (atomicOp aop size (leNat (s.pantryBytes c off size)) (leNat (data.take size))
        (leNat ((data.drop size).take size))) ∧ MemBut (pantryKey c off) size s t ∧ t.regs = s.regs ∧
      t.replies = [⟨.engine core agent (2 ^ 40), .done, s.pantryBytes c off size⟩])) ∧
  (∀ (core : CoreId) (agent : Fin 6) (addr : Word) (size : Nat) (data : Bytes) (ecc : Ecc) (s : State), s.coreLive core = true → 0 <
    size → addr.toNat % 64 + size ≤ 64 → s.inFlight (.engine core agent (2 ^ 40)) = false → s.resolveCore core 0 addr.toNat (agent == 0) =
    .viol (.core core) → s.replies = [] → Runs (.coreRequestResolve core agent .load addr size data ecc) s (fun t => t.fget
    Fd.coreViol_COUNT core = satAdd Fd.coreViol_COUNT.max (s.fget Fd.coreViol_COUNT core) 1 ∧ t.replies = [⟨.engine core agent (2 ^
    40), .dropped, List.replicate size 0⟩] ∧ t.mem = s.mem ∧ SameRegs (fun r u => r = .coreViol ∧ u = core.val) s t))

/-- A host map entry that arrives is held, and its access is then a PCIe read or write, a violation where the entry does not permit it, or a
miss where the entry is not valid; one whose read fails answers poisoned and is reported. An invalidation drops the held entries of one page
or of all, and INVAL_BUSY falls once every entry read it had to pass has returned. An enable is checked; a disable drops what is held. A miss
that is cleared lets the next be captured. R152, R153, R157, R163, R165, R168, R169, R800, R862. -/
def Obligations.HostMapEntriesAreFetchedAndDropped : Prop :=
  (∀ (tag core : Nat) (b : Bytes) (o : HostOp) (s : State), nfind s.hostOps tag = some o → o.stage = 0 → o.gen = 0 →
    o.by' = .twin core → o.op = 0 → bits (leNat (b.take 8)) 20 4 = 0 → bit (leNat (b.take 8)) 0 = true → bit (leNat (b.take 8)) 1 = true →
    (∀ f, s.foldOfCtx o.ctx = some f → s.foldFence f = FencePhase.none) → s.mayMaster = true →
    Runs (.hostMapEntryFetch tag (.ok b)) s (fun t =>
      let addr := 0x200000 * bits (leNat (b.take 8)) 63 21 + o.off % 0x200000
      nfind t.mapCopies (mapKey o.ctx (o.off / 0x200000)) = some (leNat (b.take 8)) ∧
      (∃ tg, nfind t.hostOps tg = some { o with stage := 1, bus := addr } ∧ t.out = .hostRead tg addr o.len :: s.out) ∧
      t = { s with mapCopies := t.mapCopies, hostOps := t.hostOps, out := t.out })) ∧
  (∀ (tag core : Nat) (b : Bytes) (o : HostOp) (s : State), nfind s.hostOps tag = some o → o.stage = 0 → o.gen = 0 →
    o.by' = .twin core → o.op = 1 → o.mask = 2 ^ 64 - 1 → 0 < o.data.length → o.data.length ≤ 64 → bits (leNat (b.take 8)) 20 4 = 0 →
    bit (leNat (b.take 8)) 0 = true → bit (leNat (b.take 8)) 2 = true →
    (∀ f, s.foldOfCtx o.ctx = some f → s.foldFence f = FencePhase.none) → s.mayMaster = true → s.fon Fd.pcieStatus_LINK_UP = true →
    Runs (.hostMapEntryFetch tag (.ok b)) s (fun t =>
      nfind t.mapCopies (mapKey o.ctx (o.off / 0x200000)) = some (leNat (b.take 8)) ∧ nfind t.hostOps tag = none ∧
      t.out = .hostWrite (0x200000 * bits (leNat (b.take 8)) 63 21 + o.off % 0x200000) o.data :: s.out ∧
      t.replies = s.replies ++ [⟨.twin core, .done, []⟩] ∧
      t = { s with mapCopies := t.mapCopies, hostOps := t.hostOps, out := t.out, replies := t.replies })) ∧
  (∀ (tag core : Nat) (b : Bytes) (o : HostOp) (s : State), nfind s.hostOps tag = some o → o.stage = 0 → o.gen = 0 →
    o.by' = .twin core → bits (leNat (b.take 8)) 20 4 = 0 → bit (leNat (b.take 8)) 0 = true → bit (leNat (b.take 8)) (o.op + 1) = false →
    (s.foldOfCtx o.ctx).isSome = true → Runs (.hostMapEntryFetch tag (.ok b)) s (fun t =>
      t.fget Fd.contextViol_COUNT o.ctx = satAdd Fd.contextViol_COUNT.max (s.fget Fd.contextViol_COUNT o.ctx) 1 ∧ nfind t.hostOps tag = none ∧
      t.replies = s.replies ++ [⟨.twin core, .dropped, o.zeros⟩] ∧ t.mem = s.mem ∧ t.out = s.out)) ∧
  (∀ (tag core : Nat) (b : Bytes) (o : HostOp) (c : CtxId) (s : State), nfind s.hostOps tag = some o → o.stage = 0 → o.gen = 0 → o.ctx =
    c.val → o.by' = .twin core → (bit (leNat (b.take 8)) 0 = false ∨ bits (leNat (b.take 8)) 20 4 ≠ 0) →
    Runs (.hostMapEntryFetch tag (.ok b)) s (fun t => nfind t.mapCopies
    (mapKey c (o.off / 0x200000)) = some (leNat (b.take 8)) ∧ nfind t.hostOps tag = none ∧ t.fget Fd.ctxMissCount_COUNT c = satAdd
    Fd.ctxMissCount_COUNT.max (s.fget Fd.ctxMissCount_COUNT c) 1 ∧ t.fget Fd.ctxMiss_VALID c = 1 ∧ (s.fget Fd.ctxMiss_VALID c = 0 →
    t.fget Fd.ctxMiss_PAGE c = o.off / 0x200000 % 2 ^ 21 ∧ t.fget Fd.ctxMiss_KIND c = o.op % 4) ∧
    t.replies = s.replies ++ [⟨.twin core, .miss, o.zeros⟩] ∧ t.mem = s.mem)) ∧
  (∀ (tag core : Nat) (o : HostOp) (s : State), nfind s.hostOps tag = some o → o.stage = 0 → o.by' = .twin core →
    Runs (.hostMapEntryFetch tag .timeout) s (fun t => nfind t.hostOps tag = none ∧ t.mapCopies = s.mapCopies ∧
      t.fget Fd.pcieCounts_CPL_TIMEOUTS = satAdd Fd.pcieCounts_CPL_TIMEOUTS.max (s.fget Fd.pcieCounts_CPL_TIMEOUTS) 1 ∧
      t.replies = s.replies ++ [⟨.twin core, .poisoned, o.zeros⟩] ∧ t.mem = s.mem)) ∧
  (∀ (src : Source) (c : CtxId) (v : Word32) (s : State), s.shut src = false → s.fget Fd.ctxMapCtl_INVAL_BUSY c = 0 →
    Runs (.ctxMapInval src c v) s (fun t =>
      let hit (page : Nat) : Prop := v.toNat.testBit 31 = true ∨ page = v.toNat % 2 ^ 21
      t.fget Fd.ctxMapCtl_INVAL_BUSY c = 1 ∧ (∀ e ∈ t.mapCopies, ¬ (e.1 / 2 ^ 21 = c.val ∧ hit (e.1 % 2 ^ 21))) ∧
      (∀ e ∈ s.mapCopies, ¬ (e.1 / 2 ^ 21 = c.val ∧ hit (e.1 % 2 ^ 21)) → e ∈ t.mapCopies) ∧
      (∀ e ∈ t.hostOps, e.2.ctx = c.val → e.2.stage = 0 → hit (e.2.off / 0x200000) → e.2.gen = 1) ∧
      t = { s with regs := t.regs, mapCopies := t.mapCopies, hostOps := t.hostOps } ∧
      SameRegs (fun r u => r = .ctxMapCtl ∧ u = c.val) s t)) ∧
  (∀ (c : CtxId) (v : Word32) (s : State), s.shut .host = false → s.fget Fd.ctxMapCtl_INVAL_BUSY c = 1 → Runs (.ctxMapInval .host c v)
    s (fun t => t.fget Fd.hostViol_COUNT = satAdd Fd.hostViol_COUNT.max (s.fget Fd.hostViol_COUNT) 1 ∧ RegsOnly (fun r _ => r =
    .hostViol) s t)) ∧
  (∀ (c : CtxId) (s : State), (∀ e ∈ s.hostOps, e.2.ctx ≠ c.val ∨ e.2.stage ≠ 0 ∨ e.2.gen ≠ 1) → Runs (.ctxMapInvalDone c) s (fun t =>
    t.fget Fd.ctxMapCtl_INVAL_BUSY c = 0 ∧ RegsOnly (fun r u => r = .ctxMapCtl ∧ u = c.val) s t)) ∧
  (∀ (c : CtxId) (s : State), (∃ e ∈ s.hostOps, e.2.ctx = c.val ∧ e.2.stage = 0 ∧ e.2.gen = 1) → Runs (.ctxMapInvalDone c) s (Same s)) ∧
  (∀ (src : Source) (c : CtxId) (v : Word32) (s : State), s.shut src = false → v.toNat.testBit 31 = true → s.fget Fd.ctxMapCtl_ENABLE
    c = 0 → Runs (.ctxMapEnable src c v) s (fun t => t.fget Fd.ctxMapCtl_PAGES c = v.toNat % 2 ^ 22 ∧ t.fget Fd.ctxMapCtl_REASON c =
    (if (s.foldOfCtx c).isNone then 3 else if v.toNat % 2 ^ 22 = 0 then 1 else if 0x200000 < v.toNat % 2 ^ 22 then 2 else 0) ∧ t.fget
    Fd.ctxMapCtl_ENABLE c = b2n (t.fget Fd.ctxMapCtl_REASON c == 0) ∧ RegsOnly (fun r u => r = .ctxMapCtl ∧ u = c.val) s t)) ∧
  (∀ (c : CtxId) (v : Word32) (s : State), s.shut .host = false → v.toNat.testBit 31 = false → s.fget Fd.ctxMapCtl_ENABLE c = 1 →
    Runs (.ctxMapEnable .host c v) s (fun t => t.fget Fd.ctxMapCtl_ENABLE c = 0 ∧ t.fget Fd.ctxMapCtl_PAGES c = s.fget Fd.ctxMapCtl_PAGES c ∧
      t.fget Fd.hostViol_COUNT = satAdd Fd.hostViol_COUNT.max (s.fget Fd.hostViol_COUNT) 1 ∧
      t.mapCopies = s.mapCopies.filter (fun e => e.1 / 2 ^ 21 != c.val) ∧ t.mem = s.mem)) ∧
  (∀ (src : Source) (c : CtxId) (s : State), s.shut src = false → Runs (.ctxMissClear src c) s (fun t => t.fget Fd.ctxMiss_VALID c = 0
    ∧ SameRegs (fun r u => r = .ctxMiss ∧ u = c.val) s t ∧ t.mem = s.mem ∧
    ∀ core sl g, nfind (s.whisk core).groups sl = some g → g.park = 1 → c.val ∈ g.missCtx → AtGroup core sl (fun h => h.park = 0) t))

/-- A Chedal arithmetic instruction writes its result to rd, discards it for g0, and goes on at the next instruction; MFS reads and MTS writes
the special register it names, which at USER are those Table 5.1 lets USER use: any other is one violation, and rd is 0. R178, R179, R181,
R183, Table 5.1, Table 5.3. -/
def Obligations.TwinArithmeticWritesRd : Prop :=
  (∀ (c : CoreId) (w : Word32) (s : State), TwinReady s c → tClass w.toNat = .alu → Runs (.chedalAlu c (some w)) s (fun t => (t.twin
    c).gr (tRd w.toNat) = (if tRd w.toNat = 0 then 0 else tAlu (tFn w.toNat) ((s.twin c).gr (tRa w.toNat)) ((s.twin c).gr (tRb
    w.toNat))) ∧ SameGr c (tRd w.toNat) s t ∧ SameSpecials c s t ∧ Retires c ((s.twin c).pc + 4) s t ∧ TwinOnly c s t)) ∧
  (∀ (c : CoreId) (w : Word32) (s : State), TwinReady s c → tClass w.toNat = .aluImm → Runs (.chedalAluImmediate c (some w)) s (fun t
    => (t.twin c).gr (tRd w.toNat) = (if tRd w.toNat = 0 then 0 else tAluImm w.toNat ((s.twin c).gr (tRa w.toNat))) ∧ SameGr c (tRd
    w.toNat) s t ∧ SameSpecials c s t ∧ Retires c ((s.twin c).pc + 4) s t ∧ TwinOnly c s t)) ∧
  (∀ (c : CoreId) (w : Word32) (s : State), TwinReady s c → tClass w.toNat = .mfs → ((s.twin c).super = true ∨ userReads (tSn w.toNat)
    = true) → Runs (.mfs c (some w)) s
    (fun t => (t.twin c).gr (tRd w.toNat) = (if tRd w.toNat = 0 then 0 else s.special c (tSn w.toNat)) ∧ SameGr c (tRd w.toNat) s t ∧
    SameSpecials c s t ∧ Retires c ((s.twin c).pc + 4) s t ∧ TwinOnly c s t)) ∧
  (∀ (c : CoreId) (w : Word32) (s : State), TwinReady s c → tClass w.toNat = .mts → ((s.twin c).super = true ∨ tSn w.toNat = 12) →
    Runs (.mts c (some w)) s
    (fun t => (tSn w.toNat = 0 → (t.twin c).status = (s.twin c).gr (tRa w.toNat) &&& 15) ∧ (tSn w.toNat = 1 → (t.twin c).epc = (s.twin
    c).gr (tRa w.toNat)) ∧ (tSn w.toNat = 2 → (t.twin c).cause = (s.twin c).gr (tRa w.toNat)) ∧ (tSn w.toNat = 3 → (t.twin c).evalue =
    (s.twin c).gr (tRa w.toNat)) ∧ (tSn w.toNat = 4 → (t.twin c).vbase = (s.twin c).gr (tRa w.toNat) &&& ~~~3) ∧ (tSn w.toNat = 5 →
    (t.twin c).stackLimit = (s.twin c).gr (tRa w.toNat)) ∧ (tSn w.toNat = 6 → (t.twin c).tcmp = (s.twin c).gr (tRa w.toNat) ∧ (t.twin
    c).tcmpArmed = true) ∧ (tSn w.toNat = 8 → (t.twin c).events = (s.twin c).events &&& ~~~(s.twin c).gr (tRa w.toNat)) ∧ (tSn w.toNat
    = 9 → (t.twin c).eventMask = (s.twin c).gr (tRa w.toNat) &&& 31) ∧ (tSn w.toNat = 11 → (t.twin c).kscratch = (s.twin c).gr (tRa
    w.toNat)) ∧ (tSn w.toNat = 12 → (t.twin c).uscratch = (s.twin c).gr (tRa w.toNat)) ∧ (7 = tSn w.toNat ∨ 10 = tSn w.toNat ∨ 13 ≤
    tSn w.toNat → SameSpecials c s t) ∧ (∀ n : Fin 16, n.val ≠ tSn w.toNat → t.special c n = s.special c n) ∧ SameGr c 0 s t ∧ Retires
    c ((s.twin c).pc + 4) s t ∧ TwinOnly c s t)) ∧
  (∀ (c : CoreId) (w : Word32) (s : State), TwinReady s c → tClass w.toNat = .mfs → (s.twin c).super = false → userReads (tSn w.toNat) =
    false → Runs (.mfs c (some w)) s (fun t => (t.twin c).gr (tRd w.toNat) = 0 ∧ SameGr c (tRd w.toNat) s t ∧ SameSpecials c s t ∧
    t.fget Fd.coreViol_COUNT c = satAdd Fd.coreViol_COUNT.max (s.fget Fd.coreViol_COUNT c) 1 ∧ Retires c ((s.twin c).pc + 4) s t ∧
    SameRegs (fun r u => r = .coreViol ∧ u = c.val) s t ∧ TwinOnly c { s with regs := t.regs } t)) ∧
  (∀ (c : CoreId) (w : Word32) (s : State), TwinReady s c → tClass w.toNat = .mts → (s.twin c).super = false → tSn w.toNat ≠ 12 → Runs
    (.mts c (some w)) s (fun t => SameGr c 0 s t ∧ SameSpecials c s t ∧ t.fget Fd.coreViol_COUNT c = satAdd Fd.coreViol_COUNT.max (s.fget
    Fd.coreViol_COUNT c) 1 ∧ Retires c ((s.twin c).pc + 4) s t ∧ SameRegs (fun r u => r = .coreViol ∧ u = c.val) s t ∧
    TwinOnly c { s with regs := t.regs } t))

/-- DIV and DIVU by zero return all ones, REM and REMU by zero the dividend, and the signed overflow returns −2^63 and 0. R183. -/
def Obligations.DivisionCornersOfChedal : Prop :=
  (∀ (c : CoreId) (w : Word32) (s : State), TwinReady s c → tClass w.toNat = .alu → tRd w.toNat ≠ 0 → Runs (.chedalAlu c (some w)) s
    (fun t => (tFn w.toNat = 0x11 ∨ tFn w.toNat = 0x12 → (s.twin c).gr (tRb w.toNat) = 0 → (t.twin c).gr (tRd w.toNat) =
    0xFFFFFFFFFFFFFFFF) ∧ (tFn w.toNat = 0x13 ∨ tFn w.toNat = 0x14 → (s.twin c).gr (tRb w.toNat) = 0 → (t.twin c).gr (tRd w.toNat) =
    (s.twin c).gr (tRa w.toNat)) ∧ (tFn w.toNat = 0x11 → (s.twin c).gr (tRa w.toNat) = 0x8000000000000000 → (s.twin c).gr (tRb
    w.toNat) = 0xFFFFFFFFFFFFFFFF → (t.twin c).gr (tRd w.toNat) = 0x8000000000000000) ∧ (tFn w.toNat = 0x13 → (s.twin c).gr (tRa
    w.toNat) = 0x8000000000000000 → (s.twin c).gr (tRb w.toNat) = 0xFFFFFFFFFFFFFFFF → (t.twin c).gr (tRd w.toNat) = 0) ∧ (t.twin
    c).cause = (s.twin c).cause ∧ (t.twin c).epc = (s.twin c).epc ∧ (t.twin c).status = (s.twin c).status ∧ (t.twin c).mode =
    .running))

/-- A twin's load, store and atomic of a Pantry place read and write the bytes of their size at ra + IMM, whatever its check bits find
short of a double error; a load whose line the data cache holds reads the cached bytes. A misaligned one takes its exception. R148, R184,
R190, R191, Table 5.4. -/
def Obligations.TwinAccessesItsOwnPantry : Prop :=
  (∀ (c : CoreId) (w : Word32) (ecc : Ecc) (s : State) (f off : Nat) (a n : Nat), TwinReady s c → s.replies = [] → s.inFlight (.twin c) =
    false → a = (s.twin c).ea w.toNat → n = 2 ^ (tOp w.toNat % 4) → tClass w.toNat = .load → a % n = 0 → s.resolveCore c 0 a true = .here f
    (.pantry c off) → s.placeFenced f (.pantry c off) = false → s.pantryPoison c off n = false → ecc ≠ .double →
    Runs (.chedalLoad c (some w) false false ecc) s
    (fun t => (t.twin c).gr (tRd w.toNat) = (if tRd w.toNat = 0 then 0 else if tOp w.toNat < 0x14 then BitVec.ofInt 64 (sext (8 * n)
    (leNat (s.pantryBytes c off n))) else BitVec.ofNat 64 (leNat (s.pantryBytes c off n))) ∧ SameGr c (tRd w.toNat) s t ∧ SameSpecials
    c s t ∧ Retires c ((s.twin c).pc + 4) s t ∧ TwinOnly c s t)) ∧
  (∀ (c : CoreId) (w : Word32) (hold : Bool) (ecc : Ecc) (s : State) (f off : Nat) (a n : Nat), TwinReady s c → s.replies = [] →
    s.inFlight (.twin c) = false → a = (s.twin c).ea w.toNat → n = 2 ^ (tOp w.toNat % 4) → tClass w.toNat = .store → a % n = 0 →
    s.resolveCore c 1 a true = .here f (.pantry c off) → s.placeFenced f (.pantry c off) = false → isCtrOff off = false → isRescueOff off =
    false → ecc ≠ .double → hold = false → Runs (.chedalStore c
    (some w) hold false ecc) s (fun t => mreads t.mem (pantryKey c off) n = leBytes n ((s.twin c).gr (tRd w.toNat)).toNat ∧
    MemBut (pantryKey c off) n s t ∧ SameGr c 0 s t ∧ SameSpecials c s t ∧ Retires c ((s.twin c).pc + 4) s t ∧ t.regs = s.regs)) ∧
  (∀ (c : CoreId) (w : Word32) (ecc : Ecc) (s : State) (f off : Nat) (a : Nat), TwinReady s c → s.replies = [] → s.inFlight (.twin c) =
    false → a = ((s.twin c).gr (tRa w.toNat)).toNat → tClass w.toNat = .atomic → a % 8 = 0 → s.resolveCore c 3 a true = .here f (.pantry c
    off) → s.placeFenced f (.pantry c off) = false → isCtrOff off = false → isRescueOff off = false → s.pantryPoison c off 8 = false →
    ecc ≠ .double → Runs
    (.chedalAtomic c (some w) false ecc) s (fun t => (tRd w.toNat ≠ 0 → (t.twin c).gr (tRd w.toNat) = BitVec.ofNat 64 (leNat (s.pantryBytes c
    off 8))) ∧ mreads t.mem (pantryKey c off) 8 = leBytes 8 (atomicOp (tAtomicCode (tFn w.toNat)) 8 (leNat (s.pantryBytes c off 8))
    ((s.twin c).gr (tRb w.toNat)).toNat ((s.twin c).gr (tRd w.toNat)).toNat) ∧ MemBut (pantryKey c off) 8 s t ∧ SameGr c (tRd w.toNat)
    s t ∧ SameSpecials c s t ∧ Retires c ((s.twin c).pc + 4) s t ∧ t.regs = s.regs)) ∧
  (∀ (c : CoreId) (w : Word32) (s : State), TwinReady s c → s.replies = [] → s.inFlight (.twin c) = false → tClass w.toNat = .load →
    (s.twin c).ea w.toNat % 2 ^ (tOp w.toNat % 4) ≠ 0 → s.stackFails c = 0 → Runs (.chedalLoad c (some w) false) s (fun t => (t.twin
    c).cause = 2 ∧ (t.twin c).evalue = BitVec.ofNat 64 ((s.twin c).ea w.toNat) ∧ (t.twin c).epc = (s.twin c).pc ∧ (t.twin c).pc = (s.twin
    c).vbase)) ∧
  (∀ (c : CoreId) (w : Word32) (s : State), TwinReady s c → s.replies = [] → s.inFlight (.twin c) = false → tClass w.toNat = .store →
    (s.twin c).ea w.toNat % 2 ^ (tOp w.toNat % 4) ≠ 0 → s.stackFails c = 0 → Runs (.chedalStore c (some w)) s (fun t => (t.twin
    c).cause = 2 ∧ (t.twin c).evalue = BitVec.ofNat 64 ((s.twin c).ea w.toNat) ∧ (t.twin c).epc = (s.twin c).pc ∧ (t.twin c).pc = (s.twin
    c).vbase)) ∧
  (∀ (c : CoreId) (w : Word32) (s : State), TwinReady s c → s.replies = [] → s.inFlight (.twin c) = false → tClass w.toNat = .atomic →
    ((s.twin c).gr (tRa w.toNat)).toNat % 8 ≠ 0 → s.stackFails c = 0 → Runs (.chedalAtomic c (some w)) s (fun t => (t.twin c).cause =
    2 ∧ (t.twin c).evalue = (s.twin c).gr (tRa w.toNat) ∧ (t.twin c).epc = (s.twin c).pc ∧ (t.twin c).pc = (s.twin c).vbase)) ∧
  (∀ (c : CoreId) (w : Word32) (s : State) (g a n : Nat) (l : Nat × Bytes), TwinReady s c → s.replies = [] → s.inFlight (.twin c) = false →
    a = (s.twin c).ea w.toNat → n = 2 ^ (tOp w.toNat % 4) → tClass w.toNat = .load → a % n = 0 → s.dcacheLine c 0 a = some g →
    (s.twin c).dcache.find? (fun e => e.1 == g) = some l → Runs (.chedalLoad c (some w) false) s (fun t => (t.twin c).gr (tRd w.toNat) =
    (if tRd w.toNat = 0 then 0 else if tOp w.toNat < 0x14 then BitVec.ofInt 64 (sext (8 * n) (leNat ((l.2.drop (a % 64)).take n))) else
    BitVec.ofNat 64 (leNat ((l.2.drop (a % 64)).take n))) ∧ SameGr c (tRd w.toNat) s t ∧ SameSpecials c s t ∧ Retires c ((s.twin c).pc + 4)
    s t ∧ TwinOnly c s t))

/-- Branches, jumps, fences and cache operations move the pc as their word says and touch nothing else but the cache lines they name. R181,
R192, R199, Table 5.3. -/
def Obligations.TwinControlFlow : Prop :=
  (∀ (c : CoreId) (w : Word32) (s : State), TwinReady s c → tClass w.toNat = .branch → Runs (.chedalBranch c (some w)) s (fun t =>
    Retires c (if tTaken (tOp w.toNat) ((s.twin c).gr (tRd w.toNat)) ((s.twin c).gr (tRa w.toNat)) then (s.twin c).pc + BitVec.ofInt
    64 (4 * sext 16 (tImm w.toNat)) else (s.twin c).pc + 4) s t ∧ SameGr c 0 s t ∧ SameSpecials c s t ∧ TwinOnly c s t)) ∧
  (∀ (c : CoreId) (w : Word32) (s : State), TwinReady s c → tClass w.toNat = .jump → Runs (.chedalJump c (some w)) s (fun t => Retires
    c (if tOp w.toNat = 0x28 then ((s.twin c).gr (tRa w.toNat) + tSimm w.toNat) &&& ~~~3 else (s.twin c).pc + BitVec.ofInt 64 (4 *
    sext 26 (w.toNat % 2 ^ 26))) s t ∧ (tOp w.toNat = 0x27 → (t.twin c).gr 31 = (s.twin c).pc + 4) ∧ (tOp w.toNat = 0x28 → tRd w.toNat
    ≠ 0 → (t.twin c).gr (tRd w.toNat) = (s.twin c).pc + 4) ∧ SameGr c (if tOp w.toNat = 0x26 then 0 else if tOp w.toNat = 0x27 then 31
    else tRd w.toNat) s t ∧ SameSpecials c s t ∧ TwinOnly c s t)) ∧
  (∀ (c : CoreId) (w : Word32) (s : State), TwinReady s c → tClass w.toNat = .fence → Runs (.twinFence c (some w)) s (fun t => Retires
    c ((s.twin c).pc + 4) s t ∧ SameGr c 0 s t ∧ SameSpecials c s t ∧ TwinOnly c s t)) ∧
  (∀ (c : CoreId) (w : Word32) (s : State), TwinReady s c → tClass w.toNat = .flush → Runs (.twinFlush c (some w)) s (fun t => Retires
    c ((s.twin c).pc + 4) s t ∧ SameGr c 0 s t ∧ SameSpecials c s t ∧ TwinOnly c s t)) ∧
  (∀ (c : CoreId) (w : Word32) (s : State), TwinReady s c → tClass w.toNat = .dinvAll → Runs (.dinvAll c (some w)) s (fun t => (t.twin
    c).dcache = [] ∧ (t.twin c).icache = (s.twin c).icache ∧ Retires c ((s.twin c).pc + 4) s t ∧ SameGr c 0 s t ∧ SameSpecials c s t ∧
    TwinOnly c s t)) ∧
  (∀ (c : CoreId) (w : Word32) (s : State), TwinReady s c → tClass w.toNat = .iinvAll → Runs (.iinvAll c (some w)) s (fun t => (t.twin
    c).icache = [] ∧ (t.twin c).dcache = (s.twin c).dcache ∧ Retires c ((s.twin c).pc + 4) s t ∧ SameGr c 0 s t ∧ SameSpecials c s t ∧
    TwinOnly c s t)) ∧
  (∀ (c : CoreId) (w : Word32) (s : State), TwinReady s c → tClass w.toNat = .dinv → Runs (.dinv c (some w)) s (fun t =>
    (t.twin c).dcache = (match s.dcacheLine c 0 ((s.twin c).gr (tRa w.toNat)).toNat with
      | some g => (s.twin c).dcache.filter fun e => e.1 != g
      | none => (s.twin c).dcache) ∧ (t.twin c).icache = (s.twin c).icache ∧ Retires c ((s.twin c).pc + 4) s t ∧
    SameGr c 0 s t ∧ SameSpecials c s t ∧ TwinOnly c s t))

/-- ECALL, EBREAK and ILLEGAL take their exception: pc, STATUS, CAUSE, EVALUE and g30 saved in the frame below g30, SUPERVISOR, the pc at
VBASE; where the stack check fails the twin parks with its rescue frame. ERET takes pc, STATUS and g30 back from the frame; at USER it is a
violation. R182, R198, R199, R204, R205, R206, Table 5.5, Table 5.7. -/
def Obligations.ExceptionEntryAndReturn : Prop :=
  (∀ (c : CoreId) (w : Word32) (base : Nat) (s : State), TwinReady s c → s.stackFails c = 0 → tClass w.toNat = .ecall →
    base = pantryKey c (s.norm ((s.twin c).gr 30).toNat - pantryP c - 64) → Runs (.ecall c (some w)) s
    (fun t => (t.twin c).epc = (s.twin c).pc ∧ (t.twin c).cause = 3 ∧ (t.twin c).evalue = 0 ∧ (t.twin c).status = BitVec.ofNat 64 (1 +
    4 * ((s.twin c).status.toNat % 2) + 8 * ((s.twin c).status.toNat / 2 % 2)) ∧ (t.twin c).pc = (s.twin c).vbase ∧ (t.twin c).gr 30 =
    (s.twin c).gr 30 - 64 ∧ SameGr c 30 s t ∧ (t.twin c).mode = .running ∧ MemBut base 64 s t ∧
    (base + 64 ≤ pantryKey c 0xFC00 ∨ pantryKey c 0xFE00 ≤ base → mreads t.mem base 64 = [(s.twin c).pc.toNat, (s.twin c).status.toNat, 3,
      0, ((s.twin c).gr 30).toNat, 0, 0, 0].flatMap (leBytes 8)))) ∧
  (∀ (c : CoreId) (w : Word32) (base : Nat) (s : State), TwinReady s c → s.stackFails c = 0 → tClass w.toNat = .ebreak →
    base = pantryKey c (s.norm ((s.twin c).gr 30).toNat - pantryP c - 64) → Runs (.ebreak c (some w))
    s (fun t => (t.twin c).epc = (s.twin c).pc ∧ (t.twin c).cause = 4 ∧ (t.twin c).evalue = 0 ∧ (t.twin c).status = BitVec.ofNat 64 (1
    + 4 * ((s.twin c).status.toNat % 2) + 8 * ((s.twin c).status.toNat / 2 % 2)) ∧ (t.twin c).pc = (s.twin c).vbase ∧ (t.twin c).gr 30
    = (s.twin c).gr 30 - 64 ∧ SameGr c 30 s t ∧ (t.twin c).mode = .running ∧ MemBut base 64 s t ∧
    (base + 64 ≤ pantryKey c 0xFC00 ∨ pantryKey c 0xFE00 ≤ base → mreads t.mem base 64 = [(s.twin c).pc.toNat, (s.twin c).status.toNat, 4,
      0, ((s.twin c).gr 30).toNat, 0, 0, 0].flatMap (leBytes 8)))) ∧
  (∀ (c : CoreId) (w : Word32) (base : Nat) (s : State), TwinReady s c → s.stackFails c = 0 → tClass w.toNat = .illegal →
    base = pantryKey c (s.norm ((s.twin c).gr 30).toNat - pantryP c - 64) → Runs (.illegal c none
    (some (w.setWidth 64))) s (fun t => (t.twin c).epc = (s.twin c).pc ∧ (t.twin c).cause = 1 ∧ (t.twin c).evalue = w.setWidth 64 ∧
    (t.twin c).status = BitVec.ofNat 64 (1 + 4 * ((s.twin c).status.toNat % 2) + 8 * ((s.twin c).status.toNat / 2 % 2)) ∧ (t.twin
    c).pc = (s.twin c).vbase ∧ (t.twin c).gr 30 = (s.twin c).gr 30 - 64 ∧ SameGr c 30 s t ∧ (t.twin c).mode = .running ∧
    MemBut base 64 s t ∧
    (base + 64 ≤ pantryKey c 0xFC00 ∨ pantryKey c 0xFE00 ≤ base → mreads t.mem base 64 = [(s.twin c).pc.toNat, (s.twin c).status.toNat, 1,
      w.toNat, ((s.twin c).gr 30).toNat, 0, 0, 0].flatMap (leBytes 8)))) ∧
  (∀ (c : CoreId) (w : Word32) (s : State) (d0 d1 d2 : Bytes), TwinReady s c → tClass w.toNat = .eret → (s.twin c).super = true →
    ((s.twin c).gr 30).toNat % 8 = 0 → s.replies = [⟨eretBy c 0, .done, d0⟩, ⟨eretBy c 1, .done, d1⟩, ⟨eretBy c 2, .done, d2⟩] → Runs
    (.eret c (some w)) s (fun t => (t.twin c).pc = BitVec.ofNat 64 (leNat d0) ∧ (t.twin c).status = BitVec.ofNat 64 (leNat d1 % 16) ∧
    (t.twin c).gr 30 = BitVec.ofNat 64 (leNat d2) ∧ SameGr c 30 s t ∧ (t.twin c).lastPc = (s.twin c).pc ∧ t.mem = s.mem ∧ t.regs =
    s.regs)) ∧
  (∀ (c : CoreId) (w : Word32) (s : State), TwinReady s c → tClass w.toNat = .eret → (s.twin c).super = false → Runs (.eret c (some
    w)) s (fun t => t.fget Fd.coreViol_COUNT c = satAdd Fd.coreViol_COUNT.max (s.fget Fd.coreViol_COUNT c) 1 ∧ Retires c ((s.twin
    c).pc + 4) s t ∧ SameGr c 0 s t ∧ SameSpecials c s t ∧ t.mem = s.mem)) ∧
  (∀ (c : CoreId) (w : Word32) (s : State) (f off a : Nat), TwinReady s c → tClass w.toNat = .eret → (s.twin c).super = true →
    a = ((s.twin c).gr 30).toNat → a % 8 = 0 → s.replies = [] → s.inFlight (eretBy c 0) = false → s.inFlight (eretBy c 1) = false →
    s.inFlight (eretBy c 2) = false → s.resolveCore c 0 a true = .here f (.pantry c off) →
    s.resolveCore c 0 ((a + 8) % 2 ^ 64) true = .here f (.pantry c (off + 8)) →
    s.resolveCore c 0 ((a + 32) % 2 ^ 64) true = .here f (.pantry c (off + 32)) → (∀ i : Fin 5, s.placeFenced f (.pantry c (off + 8 * i)) =
    false ∧ s.pantryPoison c (off + 8 * i) 8 = false) → Runs (.eret c (some w)) s (fun t =>
      (t.twin c).pc = BitVec.ofNat 64 (leNat (s.pantryBytes c off 8)) ∧
      (t.twin c).status = BitVec.ofNat 64 (leNat (s.pantryBytes c (off + 8) 8) % 16) ∧
      (t.twin c).gr 30 = BitVec.ofNat 64 (leNat (s.pantryBytes c (off + 32) 8)) ∧ SameGr c 30 s t ∧ (t.twin c).lastPc = (s.twin c).pc ∧
      TwinOnly c s t)) ∧
  (∀ (c : CoreId) (w : Word32) (s : State), TwinReady s c → s.stackFails c ≠ 0 → tClass w.toNat = .ecall → Runs (.ecall c (some w)) s
    (fun t => (t.twin c).mode = .parked ∧ (t.twin c).epc = (s.twin c).pc ∧ (t.twin c).cause = 3 ∧ t.fget Fd.parkInfo_REASON c = 0x3F ∧
    t.fget Fd.twinCounts_RESCUE_COUNT c = satAdd Fd.twinCounts_RESCUE_COUNT.max (s.fget Fd.twinCounts_RESCUE_COUNT c) 1 ∧
    (t.reg .coreParked (c / 64)).testBit (c % 64) = true ∧ SameGr c 0 s t ∧ MemBut (pantryKey c 0xFE00) 512 s t ∧
    mreads t.mem (pantryKey c 0xFE00) 256 = (List.range 32).flatMap (fun i => leBytes 8 ((s.twin c).gr i).toNat) ∧
    mreads t.mem (pantryKey c 0xFF80) 32 = [3, (s.twin c).pc.toNat, ((s.twin c).gr 30).toNat, s.stackFails c].flatMap (leBytes 8)))

/-- ISSUE, SUMGET, QWAIT, WAIT.ACQ, WFE and DONE act when what they wait for is there, and otherwise wait with their pc kept; SUMGET and
QWAIT of a stopped engine take ENGINE_ERROR, WAIT.ACQ of a poisoned counter POISON. R176, R185, R188, R189, R194, R208, R376, R377, R403. -/
def Obligations.TwinQueuesAndWaits : Prop :=
  (∀ (c : CoreId) (w : Word32) (s : State), TwinReady s c → tClass w.toNat = .issue → ((s.core c).queue (tFn w.toNat)).length < 64 →
    tFn w.toNat < (s.core c).queues.length → Runs (.issue c (some w)) s (fun t => (t.core c).queue (tFn w.toNat) = (s.core c).queue
    (tFn w.toNat) ++
    [{ w0 := (s.twin c).gr (tRa w.toNat), w1 := (s.twin c).gr (tRa w.toNat + 1), w2 := (s.twin c).gr (tRa w.toNat + 2), w3 := (s.twin c).gr (tRa w.toNat + 3) }]
    ∧ Retires c ((s.twin c).pc + 4) s t ∧ SameGr c 0 s t ∧ SameSpecials c s t ∧ CoreOnly c s t)) ∧
  (∀ (c : CoreId) (w : Word32) (s : State), TwinReady s c → tClass w.toNat = .issue → 64 ≤ ((s.core c).queue (tFn w.toNat)).length →
    Runs (.issue c (some w)) s (fun t => (t.twin c).pc = (s.twin c).pc ∧ (t.core c).queues = (s.core c).queues ∧ (t.twin c).waiting =
    true ∧ SameGr c 0 s t ∧ SameSpecials c s t ∧ TwinOnly c s t)) ∧
  (∀ (c : CoreId) (w : Word32) (s : State) (v : Word) (vs : List Word), TwinReady s c → tClass w.toNat = .sumget → (s.core
    c).vecSum = none → (s.core c).sums.getD (tFn w.toNat - 1) [] = v :: vs → Runs (.sumget c (some w)) s (fun t => (t.core c).sums =
    (s.core c).sums.set (tFn w.toNat - 1) vs ∧ (tRd w.toNat ≠ 0 → (t.twin c).gr (tRd w.toNat) = v) ∧ SameGr c (tRd w.toNat) s t ∧
    SameSpecials c s t ∧ Retires c ((s.twin c).pc + 4) s t ∧ CoreOnly c s t)) ∧
  (∀ (c : CoreId) (w : Word32) (s : State), TwinReady s c → tClass w.toNat = .qwait → s.engState c (tFn w.toNat) = 0 → (s.core
    c).queue (tFn w.toNat) = [] → Runs (.qwait c (some w)) s (fun t => Retires c ((s.twin c).pc + 4) s t ∧ SameGr c 0 s t ∧
    SameSpecials c s t ∧ TwinOnly c s t)) ∧
  (∀ (c : CoreId) (w : Word32) (s : State) (k : Nat), TwinReady s c → tClass w.toNat = .waitAcq → s.ownCounter c ((s.twin c).gr (tRa
    w.toNat)).toNat = some k → nhas s.ctrPoison k = false → nfind s.waiters c = none → ((s.twin c).gr (tRb w.toNat)).toNat ≤ s.ctr k →
    Runs (.twinWaitAcq c (some w)) s (fun t => (t.twin c).dcache = [] ∧ (tRd w.toNat ≠ 0 → (t.twin c).gr (tRd w.toNat) = BitVec.ofNat
    64 (s.ctr k)) ∧ SameGr c (tRd w.toNat) s t ∧ SameSpecials c s t ∧ t.arr = s.arr ∧ Retires c ((s.twin c).pc + 4) s t ∧ t.mem =
    s.mem ∧ t.regs = s.regs)) ∧
  (∀ (c : CoreId) (w : Word32) (s : State), TwinReady s c → tClass w.toNat = .wfe → (s.twin c).due ≠ 0 → Runs (.wfe c (some w)) s (fun
    t => Retires c ((s.twin c).pc + 4) s t ∧ SameGr c 0 s t ∧ SameSpecials c s t ∧ TwinOnly c s t)) ∧
  (∀ (c : CoreId) (w : Word32) (s : State), TwinReady s c → tClass w.toNat = .wfe → (s.twin c).due = 0 → Runs (.wfe c (some w)) s (fun
    t => (t.twin c).pc = (s.twin c).pc ∧ (t.twin c).waiting = true ∧ SameGr c 0 s t ∧ SameSpecials c s t ∧ TwinOnly c s t)) ∧
  (∀ (c : CoreId) (w : Word32) (s : State) (p : Part) (ps : List Part), TwinReady s c → tClass w.toNat = .done → (s.twin c).super =
    true → bit (s.coreStatus c) 4 = true → (s.core c).parts = p :: ps → Runs (.twinDone c (some w)) s (fun t => (t.core c).parts = ps
    ∧ Retires c ((s.twin c).pc + 4) s t ∧ SameGr c 0 s t ∧ SameSpecials c s t ∧ t.mem = s.mem ∧ t.regs = s.regs)) ∧
  (∀ (c : CoreId) (w : Word32) (s : State), TwinReady s c → tClass w.toNat = .sumget → (s.core c).sums.getD (tFn w.toNat - 1) [] = [] →
    s.engState c (tFn w.toNat) ≠ 2 → Runs (.sumget c (some w)) s (fun t => (t.twin c).pc = (s.twin c).pc ∧ (t.twin c).waiting = true ∧
    SameGr c 0 s t ∧ SameSpecials c s t ∧ TwinOnly c s t)) ∧
  (∀ (c : CoreId) (w : Word32) (s : State), TwinReady s c → tClass w.toNat = .qwait → (s.engState c (tFn w.toNat) = 1 ∨ s.engState c (tFn
    w.toNat) = 0 ∧ (s.core c).queue (tFn w.toNat) ≠ []) → Runs (.qwait c (some w)) s (fun t => (t.twin c).pc = (s.twin c).pc ∧ (t.twin
    c).waiting = true ∧ SameGr c 0 s t ∧ SameSpecials c s t ∧ TwinOnly c s t)) ∧
  (∀ (c : CoreId) (w : Word32) (s : State) (k : Nat), TwinReady s c → tClass w.toNat = .waitAcq → s.ownCounter c ((s.twin c).gr (tRa
    w.toNat)).toNat = some k → nhas s.ctrPoison k = false → nfind s.waiters c = none → s.ctr k < ((s.twin c).gr (tRb w.toNat)).toNat →
    Runs (.twinWaitAcq c (some w)) s (fun t => nfind t.waiters c = some ⟨k, ((s.twin c).gr (tRb w.toNat)).toNat, none⟩ ∧ (t.twin c).pc =
    (s.twin c).pc ∧ (t.twin c).waiting = true ∧ SameGr c 0 s t ∧ SameSpecials c s t ∧ TwinOnly c { s with waiters := t.waiters } t)) ∧
  (∀ (c : CoreId) (w : Word32) (s : State) (k : Nat), TwinReady s c → tClass w.toNat = .waitAcq → s.ownCounter c ((s.twin c).gr (tRa
    w.toNat)).toNat = some k → nhas s.ctrPoison k = true → nfind s.waiters c = none → s.stackFails c = 0 → Runs (.twinWaitAcq c (some w)) s
    (fun t => (t.twin c).cause = 6 ∧ (t.twin c).evalue = (s.twin c).gr (tRa w.toNat) ∧ (t.twin c).epc = (s.twin c).pc ∧ (t.twin c).pc =
    (s.twin c).vbase ∧ SameGr c 30 s t)) ∧
  (∀ (c : CoreId) (w : Word32) (s : State), TwinReady s c → tClass w.toNat = .waitAcq → s.ownCounter c ((s.twin c).gr (tRa w.toNat)).toNat
    = none → Runs (.twinWaitAcq c (some w)) s (fun t => (t.twin c).gr (tRd w.toNat) = 0 ∧ SameGr c (tRd w.toNat) s t ∧ SameSpecials c s t ∧
    t.fget Fd.coreViol_COUNT c = satAdd Fd.coreViol_COUNT.max (s.fget Fd.coreViol_COUNT c) 1 ∧ Retires c ((s.twin c).pc + 4) s t ∧ t.arr =
    s.arr ∧ t.mem = s.mem)) ∧
  (∀ (c : CoreId) (w : Word32) (s : State), TwinReady s c → tClass w.toNat = .done → (s.twin c).super = true → bit (s.coreStatus c) 4 =
    false → Runs (.twinDone c (some w)) s (fun t => (t.twin c).pc = (s.twin c).pc ∧ (t.twin c).waiting = true ∧ (t.core c).parts = (s.core
    c).parts ∧ SameGr c 0 s t ∧ SameSpecials c s t ∧ TwinOnly c s t)) ∧
  (∀ (c : CoreId) (w : Word32) (s : State), TwinReady s c → tClass w.toNat = .done → ((s.twin c).super = false ∨ bit (s.coreStatus c) 4 =
    true ∧ (s.core c).parts = []) → Runs (.twinDone c (some w)) s (fun t => t.fget Fd.coreViol_COUNT c = satAdd Fd.coreViol_COUNT.max
    (s.fget Fd.coreViol_COUNT c) 1 ∧ Retires c ((s.twin c).pc + 4) s t ∧ (t.core c).parts = (s.core c).parts ∧ SameGr c 0 s t ∧
    SameSpecials c s t ∧ SameRegs (fun r u => r = .coreViol ∧ u = c.val) s t ∧ t.mem = s.mem)) ∧
  (∀ (c : CoreId) (w : Word32) (s : State), TwinReady s c → tClass w.toNat = .qwait → s.engState c (tFn w.toNat) = 2 → s.stackFails c = 0 →
    Runs (.qwait c (some w)) s (fun t => (t.twin c).cause = 7 ∧ (t.twin c).evalue = BitVec.ofNat 64 (2 ^ 60 * tFn w.toNat + 1) ∧ (t.twin
    c).epc = (s.twin c).pc ∧ (t.twin c).pc = (s.twin c).vbase ∧ SameGr c 30 s t))

/-- A twin's SIGNAL raises the counter its address resolves to by rd; a misaligned one is a violation and changes nothing else. R166, R366,
R375, Table 4.3. -/
def Obligations.TwinSignalRaisesItsCounter : Prop :=
  (∀ (c : CoreId) (w : Word32) (s : State) (f n off k : Nat), TwinReady s c → s.replies = [] → s.inFlight (.twin c) = false → tClass
    w.toNat = .signal → ((s.twin c).gr (tRa w.toNat)).toNat % 8 = 0 → s.resolveCore c 2 ((s.twin c).gr (tRa w.toNat)).toNat true =
    .here f (.pantry n off) → s.placeFenced f (.pantry n off) = false → ctrOfOff off = some k → nhas s.ctrPoison (ctrKey n k) = false
    → Runs (.twinSignal c (some w)) s (fun t => t.ctr (ctrKey n k) = satAdd (2 ^ 64 - 1) (s.ctr (ctrKey n k)) ((s.twin c).gr (tRd
    w.toNat)).toNat ∧ SameCtrs (fun x => x = ctrKey n k) s t ∧ t.mem = s.mem ∧ t.regs = s.regs ∧ SameGr c 0 s t ∧ Retires c ((s.twin
    c).pc + 4) s t)) ∧
  (∀ (c : CoreId) (w : Word32) (s : State), TwinReady s c → s.replies = [] → s.inFlight (.twin c) = false → tClass w.toNat = .signal →
    ((s.twin c).gr (tRa w.toNat)).toNat % 8 ≠ 0 → Runs (.twinSignal c (some w)) s (fun t => t.fget Fd.coreViol_COUNT c = satAdd
    Fd.coreViol_COUNT.max (s.fget Fd.coreViol_COUNT c) 1 ∧ t.mem = s.mem ∧ t.arr = s.arr ∧ SameRegs (fun r u => r = .coreViol ∧ u =
    c.val) s t ∧ SameGr c 0 s t ∧ Retires c ((s.twin c).pc + 4) s t))

/-- With the line of the pc in the instruction cache, an instruction that is fetched acts as the word of that line at the pc; a parity error
found in that line drops it and is counted, and the instruction then acts as the word fetched. R181, R190, R213. -/
def Obligations.TwinFetchesFromItsInstructionCache : Prop :=
  (∀ (c : CoreId) (now : Nat) (b1 b2 : Bool) (e : Ecc) (s : State) (l : Nat × Bytes) (w : Word32), TwinReady s c → (s.twin c).pc.toNat % 4
    = 0 → (s.twin c).icache.find? (fun e => e.1 == (s.twin c).pc.toNat / 64) = some l → w.toNat = leNat ((l.2.drop ((s.twin c).pc.toNat %
    64)).take 4) → exec (.chedalAlu c none) s = exec (.chedalAlu c (some w)) s ∧
    exec (.chedalAluImmediate c none) s = exec (.chedalAluImmediate c (some w)) s ∧
    exec (.chedalLoad c none b1 false e) s = exec (.chedalLoad c (some w) b1 false e) s ∧
    exec (.chedalStore c none b2 false e) s = exec (.chedalStore c (some w) b2 false e) s ∧
    exec (.chedalAtomic c none false e) s = exec (.chedalAtomic c (some w) false e) s ∧
    exec (.chedalBranch c none) s = exec (.chedalBranch c (some w)) s ∧ exec (.chedalJump c none) s = exec (.chedalJump c (some w)) s ∧
    exec (.issue c none b2) s = exec (.issue c (some w) b2) s ∧ exec (.sumget c none) s = exec (.sumget c (some w)) s ∧
    exec (.qwait c none) s = exec (.qwait c (some w)) s ∧ exec (.twinWaitAcq c none) s = exec (.twinWaitAcq c (some w)) s ∧
    exec (.twinSignal c none b2) s = exec (.twinSignal c (some w) b2) s ∧ exec (.twinFence c none) s = exec (.twinFence c (some w)) s ∧
    exec (.twinFlush c none) s = exec (.twinFlush c (some w)) s ∧ exec (.dinv c none) s = exec (.dinv c (some w)) s ∧
    exec (.dinvAll c none) s = exec (.dinvAll c (some w)) s ∧ exec (.iinvAll c none) s = exec (.iinvAll c (some w)) s ∧
    exec (.ecall c none) s = exec (.ecall c (some w)) s ∧ exec (.ebreak c none) s = exec (.ebreak c (some w)) s ∧
    exec (.eret c none b1) s = exec (.eret c (some w) b1) s ∧ exec (.mfs c none) s = exec (.mfs c (some w)) s ∧
    exec (.mts c none) s = exec (.mts c (some w)) s ∧ exec (.wfe c none) s = exec (.wfe c (some w)) s ∧
    exec (.kick c none now) s = exec (.kick c (some w) now) s ∧ exec (.twinDone c none) s = exec (.twinDone c (some w)) s ∧
    exec (.illegal c none none) s = exec (.illegal c none (some (w.setWidth 64))) s) ∧
  (∀ (c : CoreId) (w : Word32) (s : State), TwinReady s c → (s.twin c).icache.any (fun e => e.1 == (s.twin c).pc.toNat / 64) = true →
    (s.fetchParity c).fget Fd.twinCounts_CACHE_FIX_COUNT c = satAdd Fd.twinCounts_CACHE_FIX_COUNT.max (s.fget Fd.twinCounts_CACHE_FIX_COUNT c)
      1 ∧ ((s.fetchParity c).twin c).icache = (s.twin c).icache.filter (fun e => e.1 != (s.twin c).pc.toNat / 64) ∧
    exec (.chedalAlu c (some w) true) s = exec (.chedalAlu c (some w)) (s.fetchParity c) ∧
    exec (.chedalBranch c (some w) true) s = exec (.chedalBranch c (some w)) (s.fetchParity c) ∧
    exec (.mfs c (some w) true) s = exec (.mfs c (some w)) (s.fetchParity c) ∧
    exec (.ecall c (some w) true) s = exec (.ecall c (some w)) (s.fetchParity c))

/-- START begins a twin in RESET_HOLD; the timer event latches; a KICK within its window restarts it, one outside it and the end of the
window expire it; an output held for compare is released when B matches, and a miscompare drops it, stops the twin and marks its work. R193,
R208, R210, R211, R212, R214, R215, R218, Table 5.6. -/
def Obligations.TwinKettleStartAndLockstep : Prop :=
  (∀ (src : Source) (c : CoreId) (s : State), s.shut src = false → s.corePresent c = true → s.coreOut c = false → (s.twin c).mode =
    .resetHold → s.fget Fd.corePwr_STATE c = 0 → (s.foldOfCore c).isSome → Runs (.twinStart src c) s (fun t => (t.twin c).mode =
    .running ∧ (t.twin c).status = 1 ∧ (t.twin c).pc = BitVec.ofNat 64 (4 * s.fget Fd.twinBootPc_PC c) ∧ TwinOnly c s t)) ∧
  (∀ (c : CoreId) (s : State), s.shut .host = false → s.corePresent c = false → Runs (.twinStart .host c) s (fun t => t.fget
    Fd.hostViol_COUNT = satAdd Fd.hostViol_COUNT.max (s.fget Fd.hostViol_COUNT) 1 ∧ RegsOnly (fun r _ => r = .hostViol) s t)) ∧
  (∀ (c : CoreId) (now : Nat) (s : State), (s.twin c).tcmpArmed = true → (s.twin c).tcmp.toNat ≤ (s.advance now).now → Runs
    (.timerEvent c now) s (fun t => (t.twin c).events = (s.twin c).events ||| 1 ∧ (t.twin c).tcmpArmed = false ∧ TwinOnly c (s.advance
    now) t)) ∧
  (∀ (c : CoreId) (w : Word32) (now : Nat) (s : State), TwinReady (s.advance now) c → tClass w.toNat = .kick → s.fon
    Fd.kettleCtl_ENABLE c = true → 1000 * s.fget Fd.kettleWindow_OPEN_US c ≤ (s.advance now).elapsed - (s.twin c).kettle.start →
    (s.advance now).elapsed - (s.twin c).kettle.start < 1000 * s.fget Fd.kettleWindow_CLOSE_US c → Runs (.kick c (some w) now) s (fun
    t => (t.twin c).kettle.start = (s.advance now).elapsed ∧ Retires c ((s.twin c).pc + 4) s t ∧ SameGr c 0 s t ∧ SameSpecials c s t ∧
    TwinOnly c (s.advance now) t)) ∧
  (∀ (c : CoreId) (now : Nat) (s : State), (s.advance now).twinRuns c = true → s.fon Fd.kettleCtl_ENABLE c = true → (s.twin
    c).kettle.start + 1000 * s.fget Fd.kettleWindow_CLOSE_US c ≤ (s.advance now).elapsed → s.responseOf 3 = 0 → Runs
    (.twinKettleExpiry c now) s (fun t => t.fget Fd.kettleStatus_EXPIRED c = 1 ∧ t.fget Fd.kettleStatus_EXPIRED_KIND c = 2 ∧ (t.twin
    c).kettle.start = (s.advance now).elapsed ∧ (t.twin c).mode = .running ∧ t.mem = s.mem)) ∧
  (∀ (c : CoreId) (k : Fin 4) (s : State), s.twinRuns c = true → s.responseOf 2 = 0 → Runs (.lockstepSignatureCheck c (some k)) s (fun
    t => (t.twin c).mode = .stopped ∧ (t.twin c).rel = [] ∧ t.fget Fd.twinCounts_MISCOMPARE_COUNT c = satAdd
    Fd.twinCounts_MISCOMPARE_COUNT.max (s.fget Fd.twinCounts_MISCOMPARE_COUNT c) 1 ∧ t.fget Fd.lockstepStatus_VALID c = 1 ∧ (s.fget
    Fd.lockstepStatus_VALID c = 0 → t.fget Fd.lockstepStatus_KIND c = k.val) ∧ (∀ p ∈ (t.core c).parts.take 1, bit p.mark 1 = true) ∧
    (t.core c).parts.length = (s.core c).parts.length ∧ (t.core c).queues = (s.core c).queues ∧ t.mem = s.mem)) ∧
  (∀ (c : CoreId) (s : State), (s.twin c).rel = [] → Runs (.lockstepSignatureCheck c none) s (Same s)) ∧
  (∀ (c : CoreId) (w : Word32) (now : Nat) (s : State), TwinReady (s.advance now) c → tClass w.toNat = .kick → s.fon
    Fd.kettleCtl_ENABLE c = true → (s.advance now).elapsed - (s.twin c).kettle.start < 1000 * s.fget Fd.kettleWindow_OPEN_US c →
    s.responseOf 3 = 0 → Runs (.kick c (some w) now) s (fun t => t.fget Fd.kettleStatus_EXPIRED c = 1 ∧ t.fget Fd.kettleStatus_EXPIRED_KIND
    c = 1 ∧ (t.twin c).kettle.start = (s.advance now).elapsed ∧ Retires c ((s.twin c).pc + 4) s t ∧ SameGr c 0 s t ∧ t.mem = s.mem)) ∧
  (∀ (c : CoreId) (w : Word32) (s : State) (f off : Nat) (a n : Nat), TwinReady s c → s.replies = [] → s.inFlight (.twin c) = false →
    a = (s.twin c).ea w.toNat → n = 2 ^ (tOp w.toNat % 4) → tClass w.toNat = .store → a % n = 0 → s.resolveCore c 1 a true = .here f
    (.pantry c off) → Runs (.chedalStore c (some w) true) s (fun t => (t.twin c).rel = [.store a (leBytes n ((s.twin c).gr (tRd
    w.toNat)).toNat)] ∧ SameGr c 0 s t ∧ SameSpecials c s t ∧ Retires c ((s.twin c).pc + 4) s t ∧ TwinOnly c s t)) ∧
  (∀ (c : CoreId) (d : Bytes) (s : State) (f off a : Nat), (s.twin c).rel = [.store a d] → (s.twin c).mode = .running → s.coreFence c =
    FencePhase.none → s.resolveCore c 1 a true = .here f (.pantry c off) → s.placeFenced f (.pantry c off) = false → isCtrOff off = false →
    isRescueOff off = false → 0 < d.length → off % 64 + d.length ≤ 64 → Runs (.lockstepSignatureCheck c none) s (fun t =>
      mreads t.mem (pantryKey c off) d.length = d ∧ MemBut (pantryKey c off) d.length s t ∧ (t.twin c).rel = [] ∧ SameGr c 0 s t ∧
      SameSpecials c s t ∧ t.regs = s.regs)) ∧
  (∀ (c : CoreId) (e : Nat) (x : EWord) (s : State), (s.twin c).rel = [.issue e x] → (s.twin c).mode = .running → s.coreFence c =
    FencePhase.none → e < (s.core c).queues.length → Runs (.lockstepSignatureCheck c none) s (fun t => (t.core c).queue e = (s.core c).queue
    e ++ [x] ∧ (t.twin c).rel = [] ∧ CoreOnly c s t))

/-- Key words open a Kettle's window, which admits one write of its ENABLE or of its window register, judged by its range rules; any other
write is a violation. LOCK sets. A kick inside the window restarts it, one too early and the end of the window are expiries, which leave
evidence and reset the processor. R197, R707, R708, R709, R710, R711, R712, R716, Table 19.4. -/
def Obligations.KettleKeysWindowsAndKicks : Prop :=
  (∀ (src : Source) (id : KettleId) (now : Nat) (s : State), s.shut src = false → kettleWriter src id = true → s.kettleLocked id =
    false → (s.kettle id).key = .idle → Runs (.kettleKeyWrite src id 0xC1A5 now) s (fun t => (t.kettle id).key = .first src (s.advance
    now).elapsed ∧ (t.kettle id).start = (s.kettle id).start ∧ t.regs = s.regs ∧ t.mem = s.mem ∧ t.time = (s.advance now).time)) ∧
  (∀ (src : Source) (id : KettleId) (now at' : Nat) (s : State), s.shut src = false → kettleWriter src id = true → s.kettleLocked id =
    false → (s.kettle id).key = .first src at' → (s.advance now).elapsed ≤ at' + 1000000 → Runs (.kettleKeyWrite src id 0x5EA1 now) s
    (fun t => (t.kettle id).key = .window src (s.advance now).elapsed ∧ t.regs = s.regs ∧ t.mem = s.mem)) ∧
  (∀ (src : Source) (c : CoreId) (v : Word) (now : Nat) (s : State), s.shut src = false → kettleWriter src (.twin c) = true →
    s.kettleLocked (.twin c) = false → (s.advance now).keyOpen (.twin c) src = true → Runs (.kettleWindowWrite src (.twin c) .window v
    now) s (fun t => (t.kettle (.twin c)).key = .idle ∧ t.mem = s.mem ∧ SameRegs (fun r u => (r = .kettleWindow ∨ r = .kettleStatus) ∧
    u = c.val) s t ∧
    (let open' := bits v.toNat 23 0; let close := bits v.toNat 55 32; if close = 0 then t.fget Fd.kettleStatus_REASON c = 1 ∧ t.reg
      .kettleWindow c = s.reg .kettleWindow c else if close < 10 ∨ 10000000 < close then t.fget Fd.kettleStatus_REASON c = 2 ∧ t.reg
      .kettleWindow c = s.reg .kettleWindow c else if close ≤ open' then t.fget Fd.kettleStatus_REASON c = 3 ∧ t.reg .kettleWindow c =
      s.reg .kettleWindow c else t.fget Fd.kettleWindow_OPEN_US c = open' ∧ t.fget Fd.kettleWindow_CLOSE_US c = close ∧ t.reg
      .kettleStatus c = s.reg .kettleStatus c))) ∧
  (∀ (src : Source) (n : Fin 5) (v : Word) (now : Nat) (s : State), s.shut src = false → kettleWriter src (.proc n) = true →
    s.kettleLocked (.proc n) = false → (s.advance now).keyOpen (.proc n) src = true → 10 ≤ bits v.toNat 55 32 → bits v.toNat 55 32 ≤
    10000000 → bits v.toNat 23 0 < bits v.toNat 55 32 → Runs (.kettleWindowWrite src (.proc n) .window v now) s (fun t => t.fget
    Fd.pkettleWindow_OPEN_US n = bits v.toNat 23 0 ∧ t.fget Fd.pkettleWindow_CLOSE_US n = bits v.toNat 55 32 ∧ (t.kettle (.proc
    n)).key = .idle ∧ t.mem = s.mem ∧ SameRegs (fun r u => r = .pkettleWindow ∧ u = n.val) s t)) ∧
  (∀ (src : Source) (c : CoreId) (s : State), s.shut src = false → kettleWriter src (.twin c) = true → s.keyOpen (.twin c) src = false
    → Runs (.kettleLock src (.twin c)) s (fun t => t.fget Fd.kettleCtl_LOCK c = 1 ∧ t.fget Fd.kettleCtl_ENABLE c = s.fget
    Fd.kettleCtl_ENABLE c ∧ t.fget Fd.kettleWindow_CLOSE_US c = s.fget Fd.kettleWindow_CLOSE_US c ∧ t.mem = s.mem ∧ t.cores =
    s.cores)) ∧
  (∀ (n : Fin 5) (pc : Word) (now : Nat) (s : State), s.pkActive n = true → 1000 * s.fget Fd.pkettleWindow_OPEN_US n ≤ (s.advance
    now).elapsed - (s.proc n).kettle.start → (s.advance now).elapsed - (s.proc n).kettle.start < 1000 * s.fget
    Fd.pkettleWindow_CLOSE_US n → Runs (.pkettleKick (.proc n) n pc now) s (fun t => (t.proc n).kettle.start = (s.advance now).elapsed
    ∧ (t.proc n).kettle.lastKick = (s.advance now).now ∧ (t.proc n).running = true ∧ t = { s with time := t.time, procs := t.procs } ∧
    t.time = (s.advance now).time)) ∧
  (∀ (n : Fin 5) (pc : Word) (now : Nat) (s : State), s.pkActive n = true → (s.proc n).kettle.start + 1000 * s.fget
    Fd.pkettleWindow_CLOSE_US n ≤ (s.advance now).elapsed → Quiet 4 0x1D s → Runs (.pkettleExpiry n pc now) s (fun t => t.fget
    Fd.pkettleStatus_EXPIRED n = 1 ∧ t.fget Fd.pkettleStatus_EXPIRED_KIND n = 2 ∧ t.fget Fd.pkettleStatus_EXPIRIES n = satAdd
    Fd.pkettleStatus_EXPIRIES.max (s.fget Fd.pkettleStatus_EXPIRIES n) 1 ∧ t.reg .pkettleEvidence n = pc.toNat ∧ t.reg
    .pkettleLastKick n = (s.proc n).kettle.lastKick % 2 ^ 64 ∧ (t.proc n).running = false ∧ (t.proc n).starts = true ∧ (t.proc
    n).cause = 2 ∧ t.mem = s.mem ∧ t.cores = s.cores)) ∧
  (∀ (src : Source) (c : CoreId) (v : Word) (now : Nat) (s : State), s.shut src = false → kettleWriter src (.twin c) = true →
    s.kettleLocked (.twin c) = false → (s.advance now).keyOpen (.twin c) src = true → Runs (.kettleWindowWrite src (.twin c) .enable v now)
    s (fun t => t.fget Fd.kettleCtl_ENABLE c = v.toNat % 2 ∧ t.fget Fd.kettleCtl_LOCK c = s.fget Fd.kettleCtl_LOCK c ∧ (t.kettle (.twin
    c)).key = .idle ∧ (s.fget Fd.kettleCtl_ENABLE c = 0 → v.toNat % 2 = 1 → (t.kettle (.twin c)).start = (s.advance now).elapsed) ∧
    t.mem = s.mem ∧ SameRegs (fun r u => r = .kettleCtl ∧ u = c.val) s t)) ∧
  (∀ (src : Source) (n : Fin 5) (v : Word) (now : Nat) (s : State), s.shut src = false → kettleWriter src (.proc n) = true →
    s.kettleLocked (.proc n) = false → (s.advance now).keyOpen (.proc n) src = true → Runs (.kettleWindowWrite src (.proc n) .enable v now)
    s (fun t => t.fget Fd.pkettleCtl_ENABLE n = v.toNat % 2 ∧ t.fget Fd.pkettleCtl_LOCK n = s.fget Fd.pkettleCtl_LOCK n ∧ (t.kettle (.proc
    n)).key = .idle ∧ (s.fget Fd.pkettleCtl_ENABLE n = 0 → v.toNat % 2 = 1 → (t.kettle (.proc n)).start = (s.advance now).elapsed) ∧
    t.mem = s.mem ∧ SameRegs (fun r u => r = .pkettleCtl ∧ u = n.val) s t)) ∧
  (∀ (id : KettleId) (v : Word32) (now : Nat) (s : State), s.shut .host = false → (kettleWriter .host id = false ∨ s.kettleLocked id = true
    ∨ (s.kettle id).key = .idle ∧ v ≠ 0xC1A5) → Runs (.kettleKeyWrite .host id v now) s (fun t => t.kettle id = s.kettle id ∧
    t.fget Fd.hostViol_COUNT = satAdd Fd.hostViol_COUNT.max (s.fget Fd.hostViol_COUNT) 1 ∧ RegsOnly (fun r _ => r = .hostViol) (s.advance
    now) t)) ∧
  (∀ (id : KettleId) (v : Word32) (w : Source) (now at' : Nat) (s : State), s.shut .host = false → kettleWriter .host id = true →
    s.kettleLocked id = false → (s.kettle id).key = .first w at' → (w ≠ .host ∨ v ≠ 0x5EA1 ∨ at' + 1000000 < (s.advance now).elapsed) →
    Runs (.kettleKeyWrite .host id v now) s (fun t => (t.kettle id).key = .idle ∧ t.fget Fd.hostViol_COUNT = satAdd Fd.hostViol_COUNT.max
    (s.fget Fd.hostViol_COUNT) 1 ∧ SameRegs (fun r _ => r = .hostViol) s t ∧ t.mem = s.mem)) ∧
  (∀ (id : KettleId) (v : Word) (now : Nat) (s : State), s.shut .host = false → (kettleWriter .host id = false ∨ s.kettleLocked id = true ∨
    (s.advance now).keyOpen id .host = false) → Runs (.kettleWindowWrite .host id .window v now) s (fun t => t.fget Fd.hostViol_COUNT =
    satAdd Fd.hostViol_COUNT.max (s.fget Fd.hostViol_COUNT) 1 ∧ RegsOnly (fun r _ => r = .hostViol) (s.advance now) t)) ∧
  (∀ (n : Fin 5) (pc : Word) (now : Nat) (s : State), s.pkActive n = true → (s.advance now).elapsed - (s.proc n).kettle.start < 1000 *
    s.fget Fd.pkettleWindow_OPEN_US n → Quiet 4 0x1D s → Runs (.pkettleKick (.proc n) n pc now) s (fun t => t.fget
    Fd.pkettleStatus_EXPIRED n = 1 ∧ t.fget Fd.pkettleStatus_EXPIRED_KIND n = 1 ∧ t.reg .pkettleEvidence n = pc.toNat ∧ (t.proc n).running =
    false ∧ (t.proc n).starts = true ∧ (t.proc n).cause = 2 ∧ t.mem = s.mem ∧ t.cores = s.cores)) ∧
  (∀ (n m : Fin 5) (pc : Word) (now : Nat) (s : State), n ≠ m → s.dark (.proc m) = false → Runs (.pkettleKick (.proc m) n pc now) s (fun t =>
    t.fget Fd.procViol_COUNT m = satAdd Fd.procViol_COUNT.max (s.fget Fd.procViol_COUNT m) 1 ∧ RegsOnly (fun r u => r = .procViol ∧ u =
    m.val) (s.advance now) t))

/-- A reset processor that authenticates runs again and logs its start, the Steward with every Ladle's missed heartbeats counted afresh;
heartbeats count, and reach the host word where it is enabled; a hung Ladle is reset, and a bad copy or private memory is reported. R704,
R705, R708, R721, R725, R739, R742, R753. -/
def Obligations.FirmwareProcessorsStartAndBeat : Prop :=
  (∀ (q : Fin 4) (now : Nat) (s : State), (s.proc (q.val + 1)).starts = true → (s.proc (q.val + 1)).cause ≠ 2 → (s.proc (q.val +
    1)).handover = false → slotGood s.keySlots (s.proc (q.val + 1)).copy = true → Runs (.processorStart ⟨q.val + 1, by omega⟩ true
    now) s (fun t => (t.proc (q.val + 1)).running = true ∧ (t.proc (q.val + 1)).starts = false ∧ (t.proc (q.val + 1)).beat =
    (s.advance now).elapsed ∧ (t.proc (q.val + 1)).kettle.start = (s.advance now).elapsed ∧ t.fget Fd.fwVersion_FW_SERIAL (q.val + 1)
    = imgN (s.proc (q.val + 1)).copy 0x10 4 % 2 ^ 32 ∧ bit (t.fget Fd.stewardHb_LADLES_ALIVE) q = true ∧ t.reg .garnetSeq = (s.reg
    .garnetSeq + 1) % 2 ^ 64 ∧ t.mem = s.mem ∧ t.cores = s.cores ∧ SameRegs (fun r u => r = .fwVersion ∧ u = q.val + 1 ∨ r =
    .stewardHb ∨ r ∈ eventRegs) s t)) ∧
  (∀ (n : Fin 5) (now : Nat) (s : State), (s.proc n).starts = true → Quiet 4 0x1D s → Runs (.processorStart n false now) s (fun t =>
    (t.proc n).running = (s.proc n).running ∧ (t.proc n).starts = false ∧ Detected 4 ⟨0x1D, 4, procDie n, n + 64⟩ s t ∧ EventFrame
    (fun _ _ => False) (s.advance now) t)) ∧
  (∀ (now : Nat) (s : State), (s.proc 0).running = true → (s.proc 0).beat + s.hbPeriod ≤ (s.advance now).elapsed → s.fon
    Fd.hbHostAddr_ENABLE = false → Runs (.stewardHeartbeat now) s (fun t => t.fget Fd.stewardHb_COUNT = (s.fget Fd.stewardHb_COUNT +
    1) % 2 ^ 48 ∧ t.fget Fd.stewardHb_STAGE = s.fget Fd.bootStatus_STAGE ∧ t.fget Fd.stewardHb_LADLES_ALIVE = s.fget
    Fd.stewardHb_LADLES_ALIVE ∧ (t.proc 0).beat = (s.advance now).elapsed ∧ SameRegs (fun r _ => r = .stewardHb) s t ∧ t =
    { s.advance now with procs := t.procs, regs := t.regs })) ∧
  (∀ (q : Fin 4) (now : Nat) (s : State), (s.proc 0).running = true → (s.proc (q.val + 1)).running = true → Runs (.ladleHeartbeat q
    now) s (fun t => bits (t.reg .ladleHb) (16 * q.val + 15) (16 * q.val) = (bits (s.reg .ladleHb) (16 * q.val + 15) (16 * q.val) + 1)
    % 2 ^ 16 ∧ (∀ p : Fin 4, p ≠ q → bits (t.reg .ladleHb) (16 * p.val + 15) (16 * p.val) = bits (s.reg .ladleHb) (16 * p.val + 15)
    (16 * p.val)) ∧ (t.proc (q.val + 1)).beat = (s.advance now).elapsed ∧ SameRegs (fun r _ => r = .ladleHb) s t ∧ t =
    { s.advance now with procs := t.procs, regs := t.regs })) ∧
  (∀ (q : Fin 4) (now : Nat) (s : State), (s.proc 0).running = true → (s.proc (q.val + 1)).running = true → (s.proc (q.val +
    1)).handover = false → (s.proc (q.val + 1)).beat + 3000000 ≤ (s.advance now).elapsed → Quiet 4 0x1D s → Runs (.ladleHung q now) s
    (fun t => bit (t.fget Fd.stewardHb_LADLES_ALIVE) q = false ∧ (t.proc (q.val + 1)).running = false ∧ (t.proc (q.val + 1)).starts =
    true ∧ (t.proc (q.val + 1)).cause = 4 ∧ t.fget Fd.domainGen_GEN (305 + q.val) = (s.fget Fd.domainGen_GEN (305 + q.val) + 1) % 256
    ∧ t.mem = s.mem ∧ t.cores = s.cores ∧ t.log = s.log)) ∧
  (∀ (n : Fin 5) (s : State), Quiet 4 0x1D s → Runs (.privateMemoryDoubleError n) s (fun t => (t.proc n).badMem = true ∧ Detected 4
    ⟨0x1D, 4, procDie n, n + 48⟩ s t ∧ EventFrame (fun _ _ => False) s t)) ∧
  (∀ (now : Nat) (s : State), (s.proc 0).starts = true → (s.proc 0).cause ≠ 2 → (s.proc 0).handover = false → slotGood s.keySlots (s.proc
    0).copy = true → s.life.cmd = none → (∀ d : Fin 5, bit (s.reg .fcActive d) 63 = false) → Runs (.processorStart 0 true now) s (fun t =>
    (t.proc 0).running = true ∧ (t.proc 0).starts = false ∧ (∀ n : Fin 5, nhas s.procs n = true → (t.proc n).beat = (s.advance
    now).elapsed) ∧ (t.proc 0).kettle.start = (s.advance now).elapsed ∧ t.fget Fd.fwVersion_FW_SERIAL 0 = imgN (s.proc 0).copy 0x10 4 %
    2 ^ 32 ∧ t.reg .garnetSeq = (s.reg .garnetSeq + 1) % 2 ^ 64 ∧ t.mem = s.mem ∧ t.cores = s.cores ∧ SameRegs (fun r u => r = .fwVersion ∧
    u = 0 ∨ r ∈ eventRegs) s t)) ∧
  (∀ (now : Nat) (s : State), (s.proc 0).running = true → (s.proc 0).beat + s.hbPeriod ≤ (s.advance now).elapsed → s.fon
    Fd.hbHostAddr_ENABLE = true → s.mayMaster = true → s.fon Fd.pcieStatus_LINK_UP = true → Runs (.stewardHeartbeat now) s (fun t =>
    t.fget Fd.stewardHb_COUNT = (s.fget Fd.stewardHb_COUNT + 1) % 2 ^ 48 ∧ t.out = .hostWrite (8 * s.fget Fd.hbHostAddr_ADDR) (leBytes 8
    (t.reg .stewardHb)) :: s.out ∧ SameRegs (fun r _ => r = .stewardHb) s t ∧ t =
    { s.advance now with procs := t.procs, regs := t.regs, out := t.out }))

/-- UPDATE fetches its bundle, which it must be able to, and asks the first processor of its mask to hand over; FW_HANDOFF, the first kick,
expiries and PERSIST act as R737 to R741 say. R730, R736, R737, R738, R739, R740, R741, R799, Table 20.8. -/
def Obligations.FirmwareUpdatesHandOver : Prop :=
  (∀ (src : Source) (mask : Nat) (data : HostRead) (s : State), s.shut src = false → s.fwCmdRefused src = false → s.life.fwDue = none → (s.proc 0).running =
    true → s.life.cmd = none → fwLenBad (s.reg .fwSrcLen) = true → Runs (.fwUpdate src mask data) s (fun t => t.fget
    Fd.fwStatus_REASON = 2 ∧ t.fget Fd.fwStatus_DONE = 1 ∧ t.fget Fd.fwStatus_STATE = s.fget Fd.fwStatus_STATE ∧ t.life = s.life ∧
    Raised 120 s t ∧ EventFrame (fun r _ => r = .fwStatus) s t)) ∧
  (∀ (src : Source) (mask : Nat) (b : Bytes) (n : Nat) (s : State), s.shut src = false → s.fwCmdRefused src = false → s.life.fwDue = none → s.mayMaster = true → (s.proc
    0).running = true → s.fwCheck mask (some b) = none → fwOrder.find? (fun k => bit (mask % 32) k) = some n → Runs (.fwUpdate src
    mask (.ok b)) s (fun t => t.fget Fd.fwStatus_STATE = 2 ∧ t.fget Fd.fwStatus_UPDATED = 0 ∧ t.life.staged = b ∧ t.life.fwCur = some
    n ∧ t.life.fwMask = (mask % 32).land (31 - 2 ^ n) ∧ t.life.fwSince = s.elapsed ∧ t.out = .hostRead 0 (s.reg .fwSrcAddr) (s.reg .fwSrcLen) :: s.out ∧ SameRegs (fun r _ => r =
    .fwStatus) s t ∧ t = { s with regs := t.regs, life := t.life, out := t.out })) ∧
  (∀ (n : Fin 5) (now : Nat) (record : Bytes) (s : State), s.life.fwCur = some n.val → (s.proc n).handover = false → (s.proc n).running =
    true → Runs (.fwHandoff (.proc n) n 0x60D0 now record) s (fun t => (t.proc n).record = record.take 65536 ∧ (t.proc n).handover = true ∧ (t.proc n).running = false ∧ (t.proc n).cause = 5 ∧
    (t.proc n).starts = true ∧ (t.proc n).prev = some (s.proc n).copy ∧ (t.proc n).copy = s.life.staged ∧ (t.proc n).hoAt = (s.advance
    now).elapsed ∧ bit (t.fget Fd.fwStatus_HANDOVER) n = true ∧ (∀ m : Fin 5, m ≠ n → t.proc m = s.proc m) ∧ t.life = s.life ∧ t.mem =
    s.mem ∧ t.cores = s.cores)) ∧
  (∀ (n : Fin 5) (now : Nat) (s : State), (s.proc n).handover = true → (s.proc n).running = true → s.life.fwCur = none → Runs
    (.handoverKick n now) s (fun t => (t.proc n).handover = false ∧ (t.proc n).kettle.start = (s.advance now).elapsed ∧ (t.proc
    n).kettle.lastKick = (s.advance now).now ∧ bit (t.fget Fd.fwStatus_UPDATED) n = true ∧ bit (t.fget Fd.fwStatus_HANDOVER) n = false
    ∧ t.life = s.life ∧ SameRegs (fun r _ => r = .fwStatus) s t ∧ t = { s.advance now with procs := t.procs, regs := t.regs })) ∧
  (∀ (n m : Fin 5) (now : Nat) (s : State), (s.proc n).handover = true → (s.proc n).running = true → s.life.fwCur = some n.val →
    fwOrder.find? (fun k => bit s.life.fwMask k) = some m.val → Runs (.handoverKick n now) s (fun t => (t.proc n).handover = false ∧
    bit (t.fget Fd.fwStatus_UPDATED) n = true ∧ t.life.fwCur = some m.val ∧ bit t.life.fwMask m = false ∧ t.life.fwSince = (s.advance
    now).elapsed ∧ SameRegs (fun r _ => r = .fwStatus) s t ∧ t.mem = s.mem ∧ t.cores = s.cores)) ∧
  (∀ (n : Fin 5) (now : Nat) (s : State), s.life.fwCur = some n.val → (s.proc n).handover = false → s.life.fwSince + 100000000 ≤
    (s.advance now).elapsed → Runs (.noHandoff n now) s (fun t => t.fget Fd.fwStatus_REASON = 0x10 ∧ t.fget Fd.fwStatus_STATE = 1 ∧
    t.fget Fd.fwStatus_DONE = 1 ∧ t.life.fwCur = none ∧ t.life.staged = [] ∧ Raised 120 s t ∧ t.reg .garnetSeq = (s.reg .garnetSeq +
    1) % 2 ^ 64 ∧ t.mem = s.mem ∧ t.cores = s.cores ∧ SameRegs (fun r _ => r = .fwStatus ∨ r ∈ eventRegs) s t)) ∧
  (∀ (n : Fin 5) (pc : Word) (now : Nat) (b : Bytes) (s : State), (s.proc n).handover = true → (s.proc n).prev = some b → s.life.fwCur
    = some n.val → (s.proc n).hoAt + 1000000 * (if s.hasImage then s.devSec.handoverMs else 500) ≤ (s.advance now).elapsed → Quiet 4
    0x1D s → Runs (.handoverExpiry n pc now) s (fun t => (t.proc n).handover = false ∧ (t.proc n).running = false ∧ (t.proc n).starts
    = true ∧ (t.proc n).cause = 6 ∧ (t.proc n).copy = b ∧ (t.proc n).prev = none ∧ t.fget Fd.fwStatus_REASON = 0x11 ∧ t.fget
    Fd.fwStatus_DONE = 1 ∧ t.life.fwCur = none ∧ t.mem = s.mem ∧ t.cores = s.cores)) ∧
  (∀ (src : Source) (s : State), s.shut src = false → s.fwCmdRefused src = false → s.life.fwDue = none → (s.proc 0).running = true → s.life.cmd = none →
    Runs (.persist src true) s (fun t => t.fget Fd.fwStatus_FLASH_SLOT = 1 - s.fget Fd.fwStatus_FLASH_SLOT ∧ t.fget Fd.fwStatus_REASON
    = 0 ∧ t.fget Fd.fwStatus_DONE = 1 ∧ t.life = { s.life with dirGen := s.life.dirGen + 1, dirOld := 1 - s.life.dirOld } ∧ Out.flash
    (if s.fget Fd.fwStatus_FLASH_SLOT = 1 then 0x10000 else 0x410000) (s.proc 0).copy ∈ t.out ∧ Raised 120 s t ∧ EventFrame (fun r _
    => r = .fwStatus) { s with life := t.life } t)) ∧
  (∀ (src : Source) (mask : Nat) (data : HostRead) (s : State), s.shut src = false → s.fwCmdRefused src = false → s.life.fwDue = none →
    s.mayMaster = false → (s.proc 0).running = true → s.fwReads = true → Runs (.fwUpdate src mask data) s (fun t => t.fget Fd.fwStatus_STATE
    = 2 ∧ t.life = { s.life with fwDue := some (1, mask) } ∧ RegsOnly (fun r _ => r = .fwStatus) { s with life := t.life } t)) ∧
  (∀ (src : Source) (s : State), s.shut src = false → s.fwCmdRefused src = false → s.life.fwDue = none → (s.proc 0).running = true →
    Runs (.persist src false) s (fun t => t.fget Fd.fwStatus_REASON = (if s.life.cmd.isSome then 1 else 0x12) ∧ t.fget Fd.fwStatus_DONE = 1
    ∧ t.fget Fd.fwStatus_FLASH_SLOT = s.fget Fd.fwStatus_FLASH_SLOT ∧ t.life = s.life ∧ Raised 120 s t ∧ EventFrame (fun r _ => r =
    .fwStatus) s t)) ∧
  (∀ (n : Fin 5) (v : Word) (now : Nat) (s : State), v ≠ 0x60D0 → s.dark (.proc n) = false → Runs (.fwHandoff (.proc n) n v now) s (fun t =>
    t.fget Fd.procViol_COUNT n = satAdd Fd.procViol_COUNT.max (s.fget Fd.procViol_COUNT n) 1 ∧ RegsOnly (fun r u => r = .procViol ∧ u =
    n.val) (s.advance now) t))

/-- Firmware timers latch their event once, event reads clear, log entries take SEQ and both banks, the window returns an entry and repairs it
from the other bank, a flush moves them to flash, and the host ring takes entries in order and tells of those it dropped. R732, R743, R744,
R745, R746, R747, R750, Table 20.6. -/
def Obligations.TimersEventsAndTheGarnetLog : Prop :=
  (∀ (n : Fin 5) (k : Fin 16) (now : Nat) (s : State), nget 0 (s.proc n).timers k.val ≠ 0 → nget 0 (s.proc n).timers k.val ≤
    (s.advance now).now → nhas (s.proc n).timerDone k.val = false → Runs (.fwTimerExpiry n k now) s (fun t => (t.proc n).events =
    (s.proc n).events.lor (2 ^ k.val) ∧ nhas (t.proc n).timerDone k.val = true ∧ (t.proc n).timers = (s.proc n).timers ∧ t =
    { s.advance now with procs := t.procs } ∧ ∀ m : Fin 5, m ≠ n → t.proc m = s.proc m)) ∧
  (∀ (n : Fin 5) (s : State), (s.proc n).handover = false → Runs (.fwEventTake (.proc n) n) s (fun t => t.out = .regRead (BitVec.ofNat
    64 (s.proc n).events) :: s.out ∧ (t.proc n).events = 0 ∧ t = { s with procs := t.procs, out := t.out } ∧ ∀ m : Fin 5, m ≠ n →
    t.proc m = s.proc m)) ∧
  (∀ (n : Fin 5) (b : Bytes) (now : Nat) (s : State), s.fget Fd.garnetStatus_RETIRED = 0 → s.fon Fd.fwlogCtl_ENABLE = false → s.life.begun = [] →
    Runs (.garnetSubmit (.proc n) n b none now) s (fun t => t.reg .garnetSeq = (s.reg .garnetSeq + 1) % 2 ^ 64 ∧
    (let e := garnetEntry (s.reg .garnetSeq) (s.advance now).now (imgN b 0 2) (imgN b 2 1) (imgN b 3 1) (padTo 40 (b.drop 4)); nfind
      t.log.bank0 (s.reg .garnetSeq % 4096) = some e ∧ nfind t.log.bank1 (s.reg .garnetSeq % 4096) = some e) ∧ SameRegs (fun r _ => r = .garnetSeq ∨ r = .garnetCounts)
      s t ∧ t = { s.advance now with regs := t.regs, log := t.log })) ∧
  (∀ (src : Source) (i : Nat) (s : State), s.dark src = false → s.fget Fd.garnetStatus_RETIRED = 0 → crcOk (nget blankEntry
    s.log.bank0 (i % 4096)) = true → Runs (.garnetWindowRead src i) s (fun t => t = s.emit (.cpl (nget blankEntry s.log.bank0 (i %
    4096)) false))) ∧
  (∀ (now : Nat) (s : State), (s.advance now).flushDue = true → Runs (.garnetFlush .ok now) s (fun t => t.reg .garnetFlushed = s.reg
    .garnetSeq ∧ (s.reg .garnetSeq ≤ s.reg .garnetFlushed + 4096 → ∀ q, s.reg .garnetFlushed ≤ q → q < s.reg .garnetSeq → ∀ e, s.heldEntry q =
    some e → nfind t.log.flash (q % 65536) = some e) ∧ t.reg .garnetSeq = s.reg .garnetSeq ∧ t.log.failRow = 0 ∧ SameRegs (fun r _ => r = .garnetFlushed) s t ∧ t =
    { s.advance now with regs := t.regs, log := t.log, out := t.out })) ∧
  (∀ (e : Bytes) (q : List Bytes) (s : State), s.fon Fd.fwlogCtl_ENABLE = true → (s.proc 0).running = true → s.log.ringQ = e :: q →
    s.log.ringN = s.reg .fwlogTail + s.fget Fd.fwlogCtl_SIZE → Runs .hostLogRingWrite s (fun t => t.log =
    { s.log with ringQ := q, dropped := s.log.dropped + 1 } ∧ t.fget Fd.fwlogCounts_DROPS = satAdd Fd.fwlogCounts_DROPS.max (s.fget
    Fd.fwlogCounts_DROPS) 1 ∧ RegsOnly (fun r _ => r = .fwlogCounts) { s with log := t.log } t)) ∧
  (∀ (e : Bytes) (q : List Bytes) (s : State), s.fon Fd.fwlogCtl_ENABLE = true → s.fon Fd.fwlogCtl_IRQ = false → (s.proc 0).running =
    true → s.log.ringQ = e :: q → s.log.ringN ≠ s.reg .fwlogTail + s.fget Fd.fwlogCtl_SIZE → s.log.dropped = 0 → s.mayMaster = true →
    s.fon Fd.pcieStatus_LINK_UP = true → Runs .hostLogRingWrite s (fun t => t.log =
    { s.log with ringQ := q, ringN := s.log.ringN + 1 } ∧ t.out = .hostWrite (s.fget Fd.fwlogHeadAddr_ADDR * 8) (leBytes 8
    (s.log.ringN + 1)) :: .hostWrite (4096 * s.fget Fd.fwlogBase_ADDR + 64 * (s.log.ringN % s.fget Fd.fwlogCtl_SIZE)) e :: s.out ∧
    RegsOnly (fun r _ => r = .fwlogCounts) { s with log := t.log, out := t.out } t)) ∧
  (∀ (src : Source) (v : Word32) (s : State), s.shut src = false → s.fon Fd.fwlogCtl_ENABLE = false → v.toNat.testBit 31 = true → Runs
    (.fwlogEnable src v) s (fun t => RegsOnly (fun r _ => r = .fwlogCtl) s t ∧
    (let n := t.fget Fd.fwlogCtl_SIZE; if n = 0 then t.fget Fd.fwlogCtl_ENABLE = 0 ∧ t.fget Fd.fwlogCtl_REASON = 1 else if n < 64 ∨
      65536 < n then t.fget Fd.fwlogCtl_ENABLE = 0 ∧ t.fget Fd.fwlogCtl_REASON = 2 else t.fget Fd.fwlogCtl_ENABLE = 1))) ∧
  (∀ (src : Source) (i : Nat) (s : State), s.dark src = false → s.fget Fd.garnetStatus_RETIRED = 0 → crcOk (nget blankEntry s.log.bank0 (i %
    4096)) = false → crcOk (nget blankEntry s.log.bank1 (i % 4096)) = true → Runs (.garnetWindowRead src i) s (fun t => t.out = .cpl (nget
    blankEntry s.log.bank1 (i % 4096)) false :: s.out ∧ t.fget Fd.garnetCounts_CRC_REPAIRS = satAdd Fd.garnetCounts_CRC_REPAIRS.max (s.fget
    Fd.garnetCounts_CRC_REPAIRS) 1 ∧ RegsAndOut (fun r _ => r = .garnetCounts) s t)) ∧
  (∀ (e : Bytes) (q : List Bytes) (s : State), s.fon Fd.fwlogCtl_ENABLE = true → s.fon Fd.fwlogCtl_IRQ = false → (s.proc 0).running =
    true → s.log.ringQ = e :: q → s.log.ringN ≠ s.reg .fwlogTail + s.fget Fd.fwlogCtl_SIZE → s.log.dropped ≠ 0 → s.mayMaster = true →
    s.fon Fd.pcieStatus_LINK_UP = true → Runs .hostLogRingWrite s (fun t => t.log =
    { s.log with dropped := 0, ringN := s.log.ringN + 1 } ∧ t.out = .hostWrite (s.fget Fd.fwlogHeadAddr_ADDR * 8) (leBytes 8
    (s.log.ringN + 1)) :: .hostWrite (4096 * s.fget Fd.fwlogBase_ADDR + 64 * (s.log.ringN % s.fget Fd.fwlogCtl_SIZE)) (garnetEntry 0 s.now
    0xF 7 2 (leBytes 4 s.log.dropped)) :: s.out ∧ RegsOnly (fun r _ => r = .fwlogCounts) { s with log := t.log, out := t.out } t)) ∧
  (∀ (src : Source) (v : Word32) (s : State), s.shut src = false → v.toNat.testBit 31 = false → s.fon Fd.fwlogCtl_ENABLE = false →
    Runs (.fwlogEnable src v) s (fun t => t.fget Fd.fwlogCtl_ENABLE = 0 ∧ RegsOnly (fun r _ => r = .fwlogCtl) s t))

/-- An array word is taken, checked, run step by step into D, and stops with its code; the drain may hold a step's results back; array tests take
an array out and count their result. R233, R234, R238, R240, R241, R249, R250, R673, R674, R676, Table 6.3. -/
def Obligations.MatrixWordsAndArrayTests : Prop :=
  (∀ (c : CoreId) (e : EWord) (s : State), s.engReady c 0 = true → (s.mat c).word = none → s.headWord c 0 = some e → s.mmaFail c e.mma
    = none → e.mma.m ≠ 0 → e.mma.n ≠ 0 → Runs (.mma c) s (fun t => (t.mat c).word = some e ∧ (t.mat c).arrays = s.arraysFor c e.mma ∧
    (t.mat c).round = 0 ∧ (t.mat c).row = 0 ∧ (t.core c).queue 0 = ((s.core c).queue 0).tail ∧ t.engState c 0 = 1 ∧ t.twin c = s.twin
    c ∧ SameRegs (fun r u => r = .matrixStatus ∧ u = c.val) s t ∧ CoreOnly c { s with regs := t.regs } t)) ∧
  (∀ (c : CoreId) (e : EWord) (s : State), s.engReady c 0 = true → (s.mat c).word = none → s.headWord c 0 = some e → s.mmaFail c e.mma
    = none → (e.mma.m = 0 ∨ e.mma.n = 0) → Runs (.mma c) s (fun t => (t.mat c).word = none ∧ (t.core c).queue 0 = ((s.core c).queue
    0).tail ∧ t.fget Fd.matrixCounts_WORDS_DONE c = satAdd Fd.matrixCounts_WORDS_DONE.max (s.fget Fd.matrixCounts_WORDS_DONE c) 1 ∧
    t.engState c 0 = (if ((s.core c).queue 0).tail = [] then 0 else 1) ∧ t.mem = s.mem ∧ t.twin c = s.twin c)) ∧
  (∀ (c : CoreId) (e : EWord) (r : Nat) (s : State), s.engReady c 0 = true → (s.mat c).word = none → s.headWord c 0 = some e →
    s.mmaFail c e.mma = some r → (s.twin c).mode = .halted → r < 256 → Runs (.mma c) s (fun t => t.engState c 0 = 2 ∧ t.fget
    Fd.matrixStatus_REASON c = r ∧ (t.mat c).word = none ∧ t.fget Fd.matrixFault_VALID c = 1 ∧ (s.fget Fd.matrixFault_VALID c = 0 →
    t.fget Fd.matrixFault_REASON c = r) ∧ (t.twin c).excs = (s.twin c).excs ++ [(7, r)] ∧ t.mem = s.mem ∧ CoreOnly c
    { s with regs := t.regs } t)) ∧
  (∀ (c : CoreId) (e : EWord) (as : List Nat) (panel : Bytes) (s : State), s.matRuns c = true → (s.mat c) =
    { word := some e, arrays := as } → as ≠ [] → e.mma.intAcc = true → isIntFmt e.mma.dfmt = true → e.mma.m = 1 → 0 < e.mma.n →
    e.mma.n ≤ 8 → 0 < e.mma.k → e.mma.pour = false → e.mma.doff % 64 = 0 → e.mma.n * e.mma.db ≤ 64 → isCtrOff e.mma.doff = false →
    isRescueOff e.mma.doff = false → s.rangePoison c e.mma.boff e.mma.panel = false → s.rangePoison c e.mma.aoff e.mma.ra = false →
    s.rangePoison c e.mma.doff (e.mma.n * e.mma.db) = false → panel = s.pantryBytes c e.mma.boff e.mma.panel → Runs (.matrixStepEnd c
    none) s (fun t => mreads t.mem (pantryKey c e.mma.doff) (e.mma.n * e.mma.db) = packElems (8 * e.mma.db) 0 ((List.range
    e.mma.n).map fun j => (limitInt e.mma.dfmt e.mma.sat ((((List.range e.mma.k).map fun k => sext (fmtBits e.mma.afmt) (elemAt
    (s.pantryBytes c e.mma.aoff e.mma.ra) (k * fmtBits e.mma.afmt) (fmtBits e.mma.afmt)) * sext (fmtBits e.mma.bfmt) (panelElem
    e.mma.bfmt panel k j)).foldl (· + ·) 0) + sext (fmtBits e.mma.dfmt) (if e.mma.acc then elemAt (s.pantryBytes c e.mma.doff (e.mma.n
    * e.mma.db)) (j * 8 * e.mma.db) (8 * e.mma.db) else 0))).bits) ∧ MemBut (pantryKey c e.mma.doff) (e.mma.n * e.mma.db) s t ∧ (t.mat
    c).word = none ∧ t.fget Fd.matrixCounts_WORDS_DONE c = satAdd Fd.matrixCounts_WORDS_DONE.max (s.fget Fd.matrixCounts_WORDS_DONE c)
    1 ∧ t.twin c = s.twin c ∧ t.arr = s.arr)) ∧
  (∀ (c : CoreId) (now : Nat) (s : State), s.hasImage = true → bit s.devSec.policyFlags 2 = true → s.testDue c (nget 0 s.tests c.val +
    1) ≤ (s.advance now).elapsed → (s.reg .arrayOut c).testBit (nget 0 s.tests c.val % 64) = false → s.coreLive c = true → (s.core
    c).test = none → Runs (.arrayTestDue c now) s (fun t => (t.core c).test = some (nget 0 s.tests c.val % 64) ∧ nget 0 t.tests c.val
    = nget 0 s.tests c.val + 1 ∧ (∀ d, d ≠ c.val → nget 0 t.tests d = nget 0 s.tests d) ∧ t.core c =
    { s.core c with test := (t.core c).test } ∧ CoreOnly c { s.advance now with tests := t.tests } t)) ∧
  (∀ (c : CoreId) (a : Nat) (s : State), (s.core c).test = some a → a < 64 → Runs (.arrayTestEnd c true) s (fun t => (t.core c).test =
    none ∧ t.fget Fd.bistStatus_TESTS_DONE (coreDie c) = satAdd Fd.bistStatus_TESTS_DONE.max (s.fget Fd.bistStatus_TESTS_DONE (coreDie
    c)) 1 ∧ t.fget Fd.bistStatus_LAST_CORE (coreDie c) = c.val % 72 ∧ t.fget Fd.bistStatus_LAST_ARRAY (coreDie c) = a ∧ t.fget
    Fd.bistStatus_FAILURES (coreDie c) = s.fget Fd.bistStatus_FAILURES (coreDie c) ∧ SameRegs (fun r u => r = .bistStatus ∧ u =
    coreDie c) s t ∧ CoreOnly c { s with regs := t.regs } t)) ∧
  (∀ (c : CoreId) (a : Nat) (s : State), (s.core c).test = some a → a < 64 → Quiet (coreDie c) 5 s → Runs (.arrayTestEnd c false) s
    (fun t => (t.core c).test = none ∧ t.fget Fd.bistStatus_FAILURES (coreDie c) = satAdd Fd.bistStatus_FAILURES.max (s.fget
    Fd.bistStatus_FAILURES (coreDie c)) 1 ∧ Detected (coreDie c) ⟨5, 1, c.val, a⟩ s t ∧ t.mem = s.mem)) ∧
(∀ (c : CoreId) (e : EWord) (as : List Nat) (s : State), s.matRuns c = true → (s.mat c) = { word := some e, arrays := as } → 0 < e.mma.m →
    e.mma.m ≤ 8 → 0 < e.mma.n → e.mma.n ≤ 8 * as.length → 0 < e.mma.k → e.mma.pour = false → e.mma.n * e.mma.db ≤ e.mma.ldd →
    (∀ r, r < e.mma.m → ∀ i, i < e.mma.n * e.mma.db → isCtrOff (e.mma.doff + r * e.mma.ldd + i) = false ∧ isRescueOff (e.mma.doff + r *
    e.mma.ldd + i) = false) → (∀ j, j < e.mma.colBlocks → s.rangePoison c (e.mma.boff + j * e.mma.panel) e.mma.panel = false) → (∀ r, r <
    e.mma.m → s.rangePoison c (e.mma.aoff + r * e.mma.lda) e.mma.ra = false ∧ (e.mma.sa = true → s.rangePoison c (e.mma.saOff + r *
    (e.mma.k / 32)) (e.mma.k / 32) = false) ∧ (e.mma.acc = true → s.rangePoison c (e.mma.doff + r * e.mma.ldd) (e.mma.n * e.mma.db) =
    false)) → Runs (.matrixStepEnd c none) s (fun t => (∀ r, r < e.mma.m → mreads t.mem (pantryKey c (e.mma.doff + r * e.mma.ldd))
    (e.mma.n * e.mma.db) = packElems (8 * e.mma.db) 0 ((mmaRow e.mma (e.mma.rowElems (s.pantryBytes c (e.mma.aoff + r * e.mma.lda)
    e.mma.ra)) (if e.mma.sa then (s.pantryBytes c (e.mma.saOff + r * (e.mma.k / 32)) (e.mma.k / 32)).map (·.toNat) else []) ((List.range
    e.mma.colBlocks).map fun j => s.pantryBytes c (e.mma.boff + j * e.mma.panel) e.mma.panel) 0 e.mma.n (if e.mma.acc then
    s.pantryBytes c (e.mma.doff + r * e.mma.ldd) (e.mma.n * e.mma.db) else [])).map (·.bits))) ∧ (∀ a, (∀ r, r < e.mma.m → a <
    pantryKey c (e.mma.doff + r * e.mma.ldd) ∨ pantryKey c (e.mma.doff + r * e.mma.ldd) + e.mma.n * e.mma.db ≤ a) → mread t.mem a = mread
    s.mem a) ∧ (t.mat c).word = none ∧ t.fget Fd.matrixCounts_WORDS_DONE c = satAdd Fd.matrixCounts_WORDS_DONE.max (s.fget
    Fd.matrixCounts_WORDS_DONE c) 1 ∧ t.twin c = s.twin c ∧ t.arr = s.arr)) ∧
  (∀ (c : CoreId) (e : EWord) (as : List Nat) (s : State), s.matRuns c = true → (s.mat c) =
    { word := some e, arrays := as } → 8 < e.mma.m → 0 < e.mma.n → e.mma.n ≤ 8 * as.length → 0 < e.mma.k → e.mma.pour = false → (∀ j, j < e.mma.colBlocks → s.rangePoison c (e.mma.boff + j * e.mma.panel) e.mma.panel = false) → (∀ r, r < 8 → s.rangePoison
    c (e.mma.aoff + r * e.mma.lda) e.mma.ra = false ∧ (e.mma.sa = true → s.rangePoison c (e.mma.saOff + r * (e.mma.k / 32)) (e.mma.k /
    32) = false) ∧ (e.mma.acc = true → s.rangePoison c (e.mma.doff + r * e.mma.ldd) (e.mma.n * e.mma.db) = false)) → Runs
    (.matrixStepEnd c none true) s (fun t => (t.mat c).row = 1 ∧ t.fget Fd.matrixStatus_ROW_BLOCK c = 1 ∧ (t.mat c).word = some e ∧ (t.mat
    c).drain.length = 1 ∧ t.mem = s.mem ∧ SameRegs (fun r u => r = .matrixStatus ∧ u = c.val) s t ∧ CoreOnly c { s with regs := t.regs }
    t)) ∧
  (∀ (c : CoreId) (e : EWord) (a : Fin 64) (k : Nat) (as : List Nat) (s : State), s.matRuns c = true → (s.mat c) =
    { word := some e, arrays := as } → as.idxOf? a.val = some k → k < e.mma.colBlocks → 0 < e.mma.m → 0 < e.mma.n → 0 < e.mma.k →
    e.mma.pour = false → e.mma.acc = false → (∀ j, j < e.mma.colBlocks → s.rangePoison c (e.mma.boff + j * e.mma.panel) e.mma.panel =
    false) → (∀ r, r < e.mma.m → s.rangePoison c (e.mma.aoff + r * e.mma.lda) e.mma.ra = false ∧ (e.mma.sa = true → s.rangePoison c
    (e.mma.saOff + r * (e.mma.k / 32)) (e.mma.k / 32) = false)) → Quiet (coreDie c) 4 s → Runs (.matrixStepEnd c (some a)) s (fun t =>
    t.engState c 0 = 2 ∧ t.fget Fd.matrixStatus_REASON c = 0x20 ∧ (t.mat c).word = none ∧ t.fget Fd.matrixCounts_RESIDUE_COUNT c = satAdd
    Fd.matrixCounts_RESIDUE_COUNT.max (s.fget Fd.matrixCounts_RESIDUE_COUNT c) 1 ∧ (s.fget Fd.matrixFault_VALID c = 0 → t.fget
    Fd.matrixFault_ARRAY c = a.val ∧ t.fget Fd.matrixFault_COL_BLOCK c = k) ∧ t.mem = s.mem))

/-- RESUME and DISCARD of a stopped engine let it go on with its queue or empty it; of one that is not stopped they are violations.
R252, R317, R359, R402, R462. -/
def Obligations.EnginesResumeAndDiscard : Prop :=
  (∀ (src : Source) (c : CoreId) (s : State), s.shut src = false → s.engState c 0 = 2 → Runs (.matrixResume src c) s (fun t =>
    t.engState c 0 = (if (s.core c).queue 0 = [] then 0 else 1) ∧ t.core c = { s.core c with mat := {} } ∧ SameRegs (fun r u => r =
    .matrixStatus ∧ u = c.val) s t ∧ CoreOnly c { s with regs := t.regs } t)) ∧
  (∀ (src : Source) (c : CoreId) (s : State), s.shut src = false → s.engState c 0 = 2 → Runs (.matrixDiscard src c) s (fun t =>
    t.engState c 0 = 0 ∧ t.core c = { s.core c with mat := {}, queues := (s.core c).queues.set 0 [] } ∧ SameRegs (fun r u => r =
    .matrixStatus ∧ u = c.val) s t ∧ CoreOnly c { s with regs := t.regs } t)) ∧
  (∀ (src : Source) (c : CoreId) (s : State), s.shut src = false → s.engState c 1 = 2 → Runs (.vectorResume src c) s (fun t =>
    t.engState c 1 = (if (s.core c).queue 1 = [] then 0 else 1) ∧ t.core c = s.core c ∧ SameRegs (fun r u => r = .vectorStatus ∧ u =
    c.val) s t ∧ CoreOnly c { s with regs := t.regs } t)) ∧
  (∀ (src : Source) (c : CoreId) (s : State), s.shut src = false → s.engState c 1 = 2 → Runs (.vectorDiscard src c) s (fun t =>
    t.engState c 1 = 0 ∧ t.core c = { s.core c with queues := (s.core c).queues.set 1 [] } ∧ SameRegs (fun r u => r = .vectorStatus ∧
    u = c.val) s t ∧ CoreOnly c { s with regs := t.regs } t)) ∧
  (∀ (src : Source) (c : CoreId) (s : State), s.shut src = false → s.engState c 2 = 2 → Runs (.whiskResume src c) s (fun t =>
    t.engState c 2 = (if (s.core c).queue 2 = [] then 0 else 1) ∧ t.core c =
    { s.core c with whisk := { (s.core c).whisk with word := none } } ∧ SameRegs (fun r u => r = .whiskStatus ∧ u = c.val) s t ∧
    CoreOnly c { s with regs := t.regs } t)) ∧
  (∀ (src : Source) (c : CoreId) (s : State), s.shut src = false → s.engState c 2 = 2 → Runs (.whiskDiscard src c) s (fun t =>
    t.engState c 2 = 0 ∧ t.core c =
    { s.core c with whisk := { (s.core c).whisk with word := none }, queues := (s.core c).queues.set 2 [] } ∧ SameRegs (fun r u => r =
    .whiskStatus ∧ u = c.val) s t ∧ CoreOnly c { s with regs := t.regs } t)) ∧
  (∀ (src : Source) (c : CoreId) (s : State), s.shut src = false → s.engState c 3 = 2 → Runs (.moverResume src c) s (fun t =>
    t.engState c 3 = (if (s.mov c).word.isSome = true then 1 else if (s.core c).queue 3 = [] then 0 else 1) ∧ t.core c =
    { s.core c with mov := if (s.mov c).word.isSome = true then { s.mov c with skipped := [], again := (s.mov c).skipped.foldl (fun l n => placeIn n l) (s.mov c).again } else s.mov c }
    ∧ SameRegs (fun r u => r = .moverStatus ∧ u = c.val) s t ∧ CoreOnly c { s with regs := t.regs } t)) ∧
  (∀ (src : Source) (c : CoreId) (s : State), s.shut src = false → s.engState c 3 = 2 → Runs (.moverDiscard src c) s (fun t =>
    t.engState c 3 = 0 ∧ t.core c = { s.core c with mov := {}, queues := (s.core c).queues.set 3 [] } ∧ SameRegs (fun r u => r =
    .moverStatus ∧ u = c.val) s t ∧ CoreOnly c { s with regs := t.regs } t)) ∧
  (∀ (src : Source) (c : CoreId) (s : State), s.shut src = false → s.engState c 4 = 2 → Runs (.pourResume src c) s (fun t =>
    t.engState c 4 = (if (s.core c).queue 4 = [] then 0 else 1) ∧ t.core c = s.core c ∧ SameRegs (fun r u => r = .pourStatus ∧ u =
    c.val) s t ∧ CoreOnly c { s with regs := t.regs } t)) ∧
  (∀ (src : Source) (c : CoreId) (s : State), s.shut src = false → s.engState c 4 = 2 → Runs (.pourDiscard src c) s (fun t =>
    t.engState c 4 = 0 ∧ t.core c = { s.core c with queues := (s.core c).queues.set 4 [] } ∧ SameRegs (fun r u => r = .pourStatus ∧ u
    = c.val) s t ∧ CoreOnly c { s with regs := t.regs } t)) ∧
  (∀ (c : CoreId) (i : Instr) (e : Nat) (s : State), s.shut .host = false → ((i, e) ∈ [(Instr.matrixResume .host c, 0),
    (.matrixDiscard .host c, 0), (.vectorResume .host c, 1), (.vectorDiscard .host c, 1), (.whiskResume .host c, 2), (.whiskDiscard
    .host c, 2), (.moverResume .host c, 3), (.moverDiscard .host c, 3), (.pourResume .host c, 4), (.pourDiscard .host c, 4)]) →
    s.engState c e ≠ 2 → Runs i s (fun t => t.fget Fd.hostViol_COUNT = satAdd Fd.hostViol_COUNT.max (s.fget Fd.hostViol_COUNT) 1 ∧
    RegsOnly (fun r _ => r = .hostViol) s t))

/-- Every vector word that passes its checks runs to its end, delivers its summary and is counted; element-wise words write their operations'
results; COPY and FILL write their pieces, counted under ARR_IDX, and the finished word raises its counter. R295, R301, R309, R371, R374,
Table 8.2, Table 10.3. -/
def Obligations.VectorAndMoverWords : Prop :=
  (∀ (c : CoreId) (e : EWord) (s : State), s.engReady c 1 = true → (s.core c).vecSum = none → s.headWord c 1 = some e → e.vec.fail = none → e.vec.opc ∈ [1, 2, 3,
    6, 7, 0x10, 0x11, 0x12, 0x13, 0x14] → e.vec.oneKind false = true → e.vec.dvreg = true → e.vec.a.mode = 2 → e.vec.b.mode = 2 →
    e.vec.rows = 1 → 0 < e.vec.len → e.vec.summary = 0 → e.vec.overlaps = false → Runs (.vectorWord c .none) s (fun t => t.vreg c
    e.vec.doff = vregPut (s.vreg c e.vec.doff) (fmtBits e.vec.dfmt) 0 ((List.range e.vec.len).map fun i => (limitInt e.vec.dfmt
    e.vec.sat (vecInt e.vec.opc (sext (fmtBits e.vec.a.fmt) (bitsFrom (fun k => (s.vreg c e.vec.a.off).getD k 0) (i % vregCap
    e.vec.a.fmt * fmtBits e.vec.a.fmt) (fmtBits e.vec.a.fmt))) (sext (fmtBits e.vec.b.fmt) (bitsFrom (fun k => (s.vreg c
    e.vec.b.off).getD k 0) (i % vregCap e.vec.b.fmt * fmtBits e.vec.b.fmt) (fmtBits e.vec.b.fmt))))).bits) ∧ (∀ n, n ≠ e.vec.doff →
    t.vreg c n = s.vreg c n) ∧ (t.core c).queue 1 = ((s.core c).queue 1).tail ∧ t.fget Fd.vectorCounts_WORDS_DONE c = satAdd
    Fd.vectorCounts_WORDS_DONE.max (s.fget Fd.vectorCounts_WORDS_DONE c) 1 ∧ t.engState c 1 = (if ((s.core c).queue 1).tail = [] then
    0 else 1) ∧ t.twin c = s.twin c ∧ SameRegs (fun r u => r ∈ [.vectorStatus, .vectorCounts, .numFlags, .numCounts, .numLast] ∧ u =
    c.val) s t ∧ CoreOnly c { s with regs := t.regs } t)) ∧
  (∀ (c : CoreId) (e : EWord) (f n off : Nat) (s : State), s.engReady c 3 = true → (s.mov c).word = none → s.headWord c 3 = some e →
    s.movFail c e.mov = none → e.mov.opc = 2 → 0 < e.mov.len → e.mov.dst % 64 + e.mov.len ≤ 64 → e.mov.arr = 0x7F → s.replies = [] →
    s.inFlight (.engine c 4 2) = false → s.resolveCore c 1 e.mov.dst false = .here f (.pantry n off) → s.placeFenced f (.pantry n off)
    = false → isCtrOff off = false → isRescueOff off = false → s.isPoison (pantryKey n off / 64) = false → Runs (.fill c 1) s (fun t
    => mreads t.mem (pantryKey n off) e.mov.len = (List.range e.mov.len).map (fun i => BitVec.ofNat 8 (e.mov.src / 2 ^ (8 *
    ((e.mov.dst + i) % 8)))) ∧ MemBut (pantryKey n off) e.mov.len s t ∧ (t.mov c).at' = e.mov.len ∧ (t.mov c).word = some e ∧
    t.engState c 3 = 1 ∧ t.arr = s.arr ∧ t.twin c = s.twin c ∧ SameRegs (fun r u => r ∈ [.moverStatus, .moverCounts] ∧ u = c.val) s
    t)) ∧
  (∀ (c : CoreId) (e : EWord) (f n off g m src : Nat) (s : State), s.engReady c 3 = true → (s.mov c).word = none → s.headWord c 3 =
    some e → s.movFail c e.mov = none → e.mov.opc = 1 → 0 < e.mov.len → e.mov.dst % 64 + e.mov.len ≤ 64 → e.mov.src % 64 + e.mov.len ≤
    64 → e.mov.arr = 0x7F → s.replies = [] → s.inFlight (.engine c 4 2) = false → s.inFlight (.engine c 4 0) = false → s.resolveCore c
    1 e.mov.dst false = .here f (.pantry n off) → s.placeFenced f (.pantry n off) = false → isCtrOff off = false → isRescueOff off =
    false → s.isPoison (pantryKey n off / 64) = false → s.resolveCore c 0 e.mov.src false = .here g (.pantry m src) → s.placeFenced g
    (.pantry m src) = false → s.pantryPoison m src e.mov.len = false → Runs (.copy c 1) s (fun t => mreads t.mem (pantryKey n off)
    e.mov.len = s.pantryBytes m src e.mov.len ∧ MemBut (pantryKey n off) e.mov.len s t ∧ (t.mov c).at' = e.mov.len ∧ (t.mov c).word =
    some e ∧ t.engState c 3 = 1 ∧ t.arr = s.arr ∧ t.twin c = s.twin c ∧ SameRegs (fun r u => r ∈ [.moverStatus, .moverCounts] ∧ u =
    c.val) s t)) ∧
  (∀ (c : CoreId) (e : EWord) (s : State), (s.mov c).word = some e → (s.mov c).cut = false → e.mov.len ≤ (s.mov c).pos → s.coreLive c = true → s.engState c 3
    = 1 → e.mov.done < 64 → nhas s.ctrPoison (ctrKey c e.mov.done) = false → Runs (.moverWordFinish c) s (fun t => t.ctr (ctrKey c
    e.mov.done) = satAdd (2 ^ 64 - 1) (s.ctr (ctrKey c e.mov.done)) 1 ∧ SameCtrs (fun k => k = ctrKey c e.mov.done) s t ∧ (t.mov
    c).word = none ∧ t.fget Fd.moverCounts_WORDS_DONE c = satAdd Fd.moverCounts_WORDS_DONE.max (s.fget Fd.moverCounts_WORDS_DONE c) 1
    ∧ t.engState c 3 = (if (s.core c).queue 3 = [] then 0 else 1) ∧ t.mem = s.mem ∧ SameRegs (fun r u => r ∈ [.moverStatus,
    .moverCounts] ∧ u = c.val) s t)) ∧
(∀ (c : CoreId) (e : EWord) (after : Nat) (s : State), s.engReady c 1 = true → (s.core c).vecSum = none → s.headWord c 1 = some e →
    e.vec.fail = none → (e.vec.len = 0 ∨ ∀ r, r < e.vec.rows → ∀ p ∈ e.vec.pieces r, ∀ x ∈ e.vec.pieceReads p, s.rangePoison c x.1 x.2 =
    false) → (e.vec.summary = 0 ∨ ((s.core c).sums.getD 0 []).length < 16 ∧ 0 < (s.core c).sums.length) → Runs (.vectorWord c .none after)
    s (fun t => (t.core c).queue 1 = ((s.core c).queue 1).tail ∧ (t.core c).vecSum = none ∧ t.fget Fd.vectorCounts_WORDS_DONE c = satAdd
    Fd.vectorCounts_WORDS_DONE.max (s.fget Fd.vectorCounts_WORDS_DONE c) 1 ∧ t.engState c 1 = (if ((s.core c).queue 1).tail = [] then 0
    else 1) ∧ (e.vec.summary = 0 → (t.core c).sums = (s.core c).sums) ∧ (e.vec.summary ≠ 0 → ((t.core c).sums.getD 0 []).dropLast = (s.core
    c).sums.getD 0 [] ∧ ((t.core c).sums.getD 0 []).length = ((s.core c).sums.getD 0 []).length + 1) ∧ (e.vec.dvreg = true → t.mem = s.mem ∧ ∀ n, n ≠ e.vec.doff → t.vreg c n = s.vreg c n))) ∧
  (∀ (c : CoreId) (e : EWord) (s : State), s.engReady c 1 = true → (s.core c).vecSum = none → s.headWord c 1 = some e → e.vec.fail = none →
    vecReduces e.vec.opc = false → e.vec.opc ≠ 0x21 → e.vec.opc ≠ 0x22 → e.vec.dvreg = true → e.vec.summary = 0 → e.vec.overlaps = false
    → 0 < e.vec.len → (∀ r, r < e.vec.rows → ∀ p ∈ e.vec.pieces r, ∀ x ∈ e.vec.pieceReads p, s.rangePoison c x.1 x.2 = false) → Runs
    (.vectorWord c .none) s (fun t => ∀ r i, r < e.vec.rows → i < e.vec.len →
    let env : VecEnv := ⟨s, s, fun _ => true⟩
    bitsFrom (fun k => (t.vreg c e.vec.doff).getD k 0) ((r * e.vec.len + i) * fmtBits e.vec.dfmt) (fmtBits e.vec.dfmt) = (e.vec.elemRes (if
      vecUsesA e.vec.opc && !(e.vec.opc == 0x43 || e.vec.opc == 0x44) then env.elem c e.vec e.vec.a r i else 0) (if vecUsesB e.vec.opc then
      env.elem c e.vec e.vec.b r i else 0) (if vecUsesC e.vec.opc && e.vec.opc != 0x45 then env.elem c e.vec e.vec.c r i else 0)
      (if e.vec.opc = 0x43 ∨ e.vec.opc = 0x44 then env.pos c e.vec.a r else if e.vec.opc = 0x45 then env.pos c e.vec.c r else 0) (r *
      e.vec.len + i)).bits % 2 ^ fmtBits e.vec.dfmt)) ∧
  (∀ (c : CoreId) (e : EWord) (s : State), s.engReady c 1 = true → (s.core c).vecSum = none → s.headWord c 1 = some e → e.vec.fail = none →
    vecReduces e.vec.opc = false → e.vec.opc ≠ 0x21 → e.vec.opc ≠ 0x22 → e.vec.dvreg = false → e.vec.summary = 0 → e.vec.overlaps = false
    → 0 < e.vec.len → e.vec.rows = 1 → fmtBits e.vec.dfmt ≠ 6 → fmtBits e.vec.dfmt * e.vec.len % 8 = 0 → e.vec.doff % 4 * 16 + rowBytes
    e.vec.dfmt e.vec.len ≤ 64 → isCtrOff (e.vec.doff * 16) = false → isRescueOff (e.vec.doff * 16) = false → (∀ p ∈ e.vec.pieces 0, ∀ x ∈
    e.vec.pieceReads p, s.rangePoison c x.1 x.2 = false) → Runs (.vectorWord c .none) s (fun t =>
    let env : VecEnv := ⟨s, s, fun _ => true⟩
    mreads t.mem (pantryKey c (e.vec.doff * 16)) (rowBytes e.vec.dfmt e.vec.len) = packElems (fmtBits e.vec.dfmt) 0 ((List.range
      e.vec.len).map fun i => (e.vec.elemRes (if vecUsesA e.vec.opc && !(e.vec.opc == 0x43 || e.vec.opc == 0x44) then env.elem c e.vec
      e.vec.a 0 i else 0) (if vecUsesB e.vec.opc then env.elem c e.vec e.vec.b 0 i else 0) (if vecUsesC e.vec.opc && e.vec.opc != 0x45
      then env.elem c e.vec e.vec.c 0 i else 0) (if e.vec.opc = 0x43 ∨ e.vec.opc = 0x44 then env.pos c e.vec.a 0 else if e.vec.opc = 0x45
      then env.pos c e.vec.c 0 else 0) i).bits) ∧ MemBut (pantryKey c (e.vec.doff * 16)) (rowBytes e.vec.dfmt e.vec.len) s t ∧ t.arr =
      s.arr ∧ t.twin c = s.twin c)) ∧
  (∀ (c : CoreId) (e : EWord) (s : State), s.engReady c 1 = true → (s.core c).vecSum = none → s.headWord c 1 = some e → e.vec.fail = none →
    vecReduces e.vec.opc = true → e.vec.dvreg = true → e.vec.summary = 0 → e.vec.overlaps = false → 0 < e.vec.len → (∀ r, r < e.vec.rows
    → ∀ p ∈ e.vec.pieces r, ∀ x ∈ e.vec.pieceReads p, s.rangePoison c x.1 x.2 = false) → Runs (.vectorWord c .none) s (fun t => ∀ r, r <
    e.vec.rows → bitsFrom (fun k => (t.vreg c e.vec.doff).getD k 0) (r * fmtBits e.vec.dfmt) (fmtBits e.vec.dfmt) = (e.vec.reduce
    ((List.range e.vec.len).map fun i => VecEnv.elem ⟨s, s, fun _ => true⟩ c e.vec e.vec.a r i)).bits % 2 ^ fmtBits e.vec.dfmt)) ∧
  (∀ (c : CoreId) (e : EWord) (r after : Nat) (s : State), s.engReady c 1 = true → (s.core c).vecSum = none → s.headWord c 1 = some e →
    e.vec.fail = some r → (s.twin c).mode = .halted → Runs (.vectorWord c .none after) s (fun t => t.engState c 1 = 2 ∧ t.fget
    Fd.vectorStatus_REASON c = r ∧ (t.core c).queue 1 = ((s.core c).queue 1).tail ∧ (s.fget Fd.vectorFault_VALID c = 0 → t.fget
    Fd.vectorFault_REASON c = r) ∧ (t.twin c).excs = (s.twin c).excs ++ [(7, 2 ^ 60 + r)] ∧ t.mem = s.mem ∧ CoreOnly c { s with regs := t.regs }
    t)) ∧
  (∀ (c : CoreId) (e : EWord) (v : Word) (n : Nat) (s : State), s.engReady c 1 = true → (s.core c).vecSum = none → s.headWord c 1 = some e →
    e.vec.fail = none → (e.vec.len = 0 ∨ e.vec.rows = 0) → e.vec.summary = 3 → n = ((s.core c).sums.getD 0 []).length → 16 ≤ n → v = 0 →
    Runs (.vectorWord c .none) s (fun t => (t.core c).vecSum = some v ∧ (t.core c).sums = (s.core c).sums ∧ (t.core c).queue 1 = ((s.core
    c).queue 1).tail ∧ t.fget Fd.vectorCounts_WORDS_DONE c = s.fget Fd.vectorCounts_WORDS_DONE c ∧ t.engState c 1 = 1)) ∧
  (∀ (c : CoreId) (e : EWord) (f n off p : Nat) (s : State), s.engReady c 3 = true → (s.mov c).word = none → s.headWord c 3 = some e →
    s.movFail c e.mov = none → e.mov.opc = 2 → 0 < e.mov.len → e.mov.dst % 64 + e.mov.len ≤ 64 * p → e.mov.arr = 0x7F → s.replies = [] →
    s.inFlight (.engine c 4 2) = false → off % 64 = e.mov.dst % 64 → (∀ i, i < e.mov.len → s.resolveCore c 1 (e.mov.dst + i) false =
    .here f (.pantry n (off + i)) ∧ isCtrOff (off + i) = false ∧ isRescueOff (off + i) = false ∧ s.isPoison (pantryKey n (off + i) / 64) =
    false) → s.placeFenced f (.pantry n off) = false → Runs (.fill c p) s (fun t => mreads t.mem (pantryKey n off) e.mov.len = (List.range
    e.mov.len).map (fun i => BitVec.ofNat 8 (e.mov.src / 2 ^ (8 * ((e.mov.dst + i) % 8)))) ∧ MemBut (pantryKey n off) e.mov.len s t ∧
    e.mov.len ≤ (t.mov c).at' ∧ (t.mov c).done = (e.mov.dst % 64 + e.mov.len + 63) / 64 ∧ (t.mov c).word = some e ∧ t.arr = s.arr ∧
    t.twin c = s.twin c ∧ SameRegs (fun r u => r ∈ [.moverStatus, .moverCounts] ∧ u = c.val) s t)) ∧
  (∀ (c : CoreId) (e : EWord) (f n off : Nat) (s : State), s.engReady c 3 = true → (s.mov c).word = none → s.headWord c 3 = some e →
    s.movFail c e.mov = none → e.mov.opc = 2 → 0 < e.mov.len → e.mov.dst % 64 + e.mov.len ≤ 64 → e.mov.arr < 64 → s.replies = [] →
    s.inFlight (.engine c 4 2) = false → s.resolveCore c 1 e.mov.dst false = .here f (.pantry n off) → s.placeFenced f (.pantry n off) =
    false → isCtrOff off = false → isRescueOff off = false → s.isPoison (pantryKey n off / 64) = false → nhas s.ctrPoison (ctrKey n
    e.mov.arr) = false → Runs (.fill c 1) s (fun t => mreads t.mem (pantryKey n off) e.mov.len = (List.range e.mov.len).map (fun i =>
    BitVec.ofNat 8 (e.mov.src / 2 ^ (8 * ((e.mov.dst + i) % 8)))) ∧ MemBut (pantryKey n off) e.mov.len s t ∧ t.ctr (ctrKey n e.mov.arr) =
    satAdd (2 ^ 64 - 1) (s.ctr (ctrKey n e.mov.arr)) 1 ∧ SameCtrs (fun k => k = ctrKey n e.mov.arr) s t ∧ (t.mov c).at' = e.mov.len ∧
    SameRegs (fun r u => r ∈ [.moverStatus, .moverCounts] ∧ u = c.val) s t))

/-- A slice answers a load from its line or from HBM, merged under its valid bytes, merges a store into its line, performs an atomic on it, evicts
its least recently used line, and answers for a channel that does not serve; errors a code finds are counted. R406, R407, R412, R413, R417,
Table 11.2, Table 14.6. -/
def Obligations.L2SlicesServeTheirLines : Prop :=
  (∀ (ch : ChanId) (ln off len : Nat) (w : L2Line) (s : State), s.chanAnswer ch = none → off + len ≤ 64 → off < 64 → s.l2Find ch ln =
    some w → w.valid.land (maskOf off len) = maskOf off len → Runs (.l2Load ch ln off len .clean) s (fun t => t.out = .l2Data ch ln
    ((w.data.drop off).take len) (if w.poison then .poisoned else .done) :: s.out ∧ t.l2Find ch ln = some w ∧ t =
    { s with l2 := t.l2, out := t.out })) ∧
  (∀ (ch : ChanId) (ln off len : Nat) (s : State), s.chanAnswer ch = none → off + len ≤ 64 → off < 64 → s.l2Find ch ln = none →
    (s.l2Set ch ln).length < 16 → Runs (.l2Load ch ln off len .clean) s (fun t => t.out = .l2Data ch ln ((mreads s.mem (hbmKey ch ln)
    64).drop off |>.take len) (if s.isPoison (hbmKey ch ln / 64) then .poisoned else .done) :: s.out ∧ t.l2Find ch ln = some
    { q := ln, valid := fullMask, dirty := 0, data := mreads s.mem (hbmKey ch ln) 64, poison := s.isPoison (hbmKey ch ln / 64) } ∧ t =
    { s with l2 := t.l2, out := t.out })) ∧
  (∀ (ch : ChanId) (ln off len : Nat) (r : Answer) (s : State), off + len ≤ 64 → off < 64 → s.chanAnswer ch = some r → Runs (.l2Load ch ln off
    len .clean) s (fun t => t = s.emit (.l2Data ch ln (List.replicate len 0) r) ∧ (s.chanState ch = 3 → r = .poisoned) ∧ (s.chanState ch =
    2 → r = .fenced))) ∧
  (∀ (ch : ChanId) (ln off : Nat) (data : Bytes) (w : L2Line) (s : State), s.chanAnswer ch = none → 0 < data.length → off < 64 → off +
    data.length ≤ 64 → s.l2Find ch ln = some w → Runs (.l2Store ch ln off data) s (fun t => t.out = .l2Data ch ln [] .done :: s.out ∧
    t.l2Find ch ln = some
    { w with data := (List.range 64).map (fun i => if off ≤ i ∧ i < off + data.length then data.getD (i - off) 0 else w.data.getD i 0), valid := w.valid.lor (maskOf off data.length), dirty := w.dirty.lor (maskOf off data.length), poison := w.poison && data.length != 64 }
    ∧ t = { s with l2 := t.l2, out := t.out })) ∧
  (∀ (ch : ChanId) (ln off aop n : Nat) (x e : Word) (w : L2Line) (s : State), s.chanAnswer ch = none → (n = 4 ∨ n = 8) → off % n = 0
    → off < 64 → s.l2Find ch ln = some w → w.valid = fullMask → w.poison = false → Runs (.l2Atomic ch ln off aop n x e) s (fun t =>
    t.out = .l2Data ch ln ((w.data.drop off).take n) .done :: s.out ∧ t.l2Find ch ln = some
    { w with data := (List.range 64).map (fun i => if off ≤ i ∧ i < off + n then (leBytes n (atomicOp aop n (leNat ((w.data.drop off).take n)) x.toNat e.toNat)).getD (i - off) 0 else w.data.getD i 0), valid := w.valid.lor (maskOf off n), dirty := w.dirty.lor (maskOf off n) }
    ∧ t = { s with l2 := t.l2, out := t.out })) ∧
(∀ (ch : ChanId) (ln off : Nat) (data : Bytes) (s : State), s.chanAnswer ch = none → 0 < data.length → off < 64 → off + data.length ≤ 64 →
    s.l2Find ch ln = none → (s.l2Set ch ln).length < 16 → Runs (.l2Store ch ln off data) s (fun t => t.out = .l2Data ch ln [] .done ::
    s.out ∧ t.l2Find ch ln = some
    { q := ln, valid := maskOf off data.length, dirty := maskOf off data.length, data := (List.range 64).map (fun i => if off ≤ i ∧ i < off + data.length then data.getD (i - off) 0 else 0) }
    ∧ t = { s with l2 := t.l2, out := t.out })) ∧
  (∀ (ch : ChanId) (ln off : Nat) (data : Bytes) (r : Answer) (s : State), s.chanAnswer ch = some r → off < 64 → Runs (.l2Store ch ln off
    data) s (fun t => t = s.emit (.l2Data ch ln [] r))) ∧
  (∀ (ch : ChanId) (ln off len : Nat) (w : L2Line) (s : State), s.chanAnswer ch = none → off + len ≤ 64 → off < 64 → s.l2Find ch ln =
    some w → w.valid.land (maskOf off len) ≠ maskOf off len →
    let w' : L2Line := { w with data := (List.range 64).map (fun i => if w.valid.testBit i then w.data.getD i 0 else mread s.mem (hbmKey ch ln + i)), valid := fullMask, poison := w.poison || s.isPoison (hbmKey ch ln / 64) }
    Runs (.l2Load ch ln off len .clean) s (fun t => t.out = .l2Data ch ln ((w'.data.drop off).take len) (if w'.poison then .poisoned else
      .done) :: s.out ∧ t.l2Find ch ln = some w' ∧ t = { s with l2 := t.l2, out := t.out })) ∧
  (∀ (ch : ChanId) (ln off aop n : Nat) (x e : Word) (s : State), s.chanAnswer ch = none → (n = 4 ∨ n = 8) → off % n = 0 → off < 64 →
    s.l2Find ch ln = none → (s.l2Set ch ln).length < 16 → s.isPoison (hbmKey ch ln / 64) = false → Runs (.l2Atomic ch ln off aop n x e) s
    (fun t => t.out = .l2Data ch ln (mreads s.mem (hbmKey ch ln + off) n) .done :: s.out ∧ t.l2Find ch ln = some
    { q := ln, valid := fullMask, dirty := maskOf off n, data := (List.range 64).map (fun i => if off ≤ i ∧ i < off + n then (leBytes n (atomicOp aop n (leNat (mreads s.mem (hbmKey ch ln + off) n)) x.toNat e.toNat)).getD (i - off) 0 else mread s.mem (hbmKey ch ln + i)) }
    ∧ t = { s with l2 := t.l2, out := t.out })) ∧
  (∀ (ch : ChanId) (ln off aop n : Nat) (x e : Word) (w : L2Line) (s : State), s.chanAnswer ch = none → (n = 4 ∨ n = 8) → off % n = 0 →
    off < 64 → s.l2Find ch ln = some w → w.valid = fullMask → w.poison = true → Runs (.l2Atomic ch ln off aop n x e) s (fun t => t.out =
    .l2Data ch ln ((w.data.drop off).take n) .poisoned :: s.out ∧ t.l2Find ch ln = some w ∧ t = { s with l2 := t.l2, out := t.out })) ∧
  (∀ (ch : ChanId) (ln off len : Nat) (v : L2Line) (s : State), s.chanAnswer ch = none → off + len ≤ 64 → off < 64 → s.l2Find ch ln = none
    → (s.l2Set ch ln).length = 16 → (s.l2Set ch ln).getLast? = some v → v.pin = none → v.valid = fullMask → v.dirty ≠ 0 → v.data.length =
    64 → v.q ≠ ln → Runs (.l2Load ch ln off len .clean) s (fun t => mreads t.mem (hbmKey ch v.q) 64 = v.data ∧ MemBut (hbmKey ch v.q) 64
    s t ∧ t.isPoison (hbmKey ch v.q / 64) = v.poison ∧ t.fget Fd.l2Pressure_EVICTIONS ch = satAdd Fd.l2Pressure_EVICTIONS.max (s.fget
    Fd.l2Pressure_EVICTIONS ch) 1 ∧ t.l2Find ch ln = some
    { q := ln, valid := fullMask, dirty := 0, data := mreads t.mem (hbmKey ch ln) 64, poison := t.isPoison (hbmKey ch ln / 64) } ∧
    (∀ x ∈ t.l2Set ch ln, x.q ≠ v.q) ∧ SameRegs (fun r u => r = .l2Pressure ∧ u = ch.val) s t)) ∧
  (∀ (ch : ChanId) (ln off len : Nat) (w : L2Line) (s : State), s.chanAnswer ch = none → off + len ≤ 64 → off < 64 → s.l2Find ch ln =
    some w → w.valid.land (maskOf off len) = maskOf off len → w.poison = false → Runs (.l2Load ch ln off len .single) s (fun t => t.out =
    .l2Data ch ln ((w.data.drop off).take len) .done :: s.out ∧ t.l2Find ch ln = some w ∧ t.fget Fd.l2EccCounts_CORRECTED ch = satAdd
    Fd.l2EccCounts_CORRECTED.max (s.fget Fd.l2EccCounts_CORRECTED ch) 1 ∧ RegsOnly (fun r u => r = .l2EccCounts ∧ u = ch.val)
    { s with l2 := t.l2, out := t.out } t)) ∧
  (∀ (ch : ChanId) (ln off len : Nat) (w : L2Line) (s : State), s.chanAnswer ch = none → off + len ≤ 64 → off < 64 → s.l2Find ch ln =
    some w → w.valid.land (maskOf off len) = maskOf off len → Quiet (chanDie ch) 0x10 s → Runs (.l2Load ch ln off len .double) s (fun t =>
    t.l2Find ch ln = some { w with poison := true } ∧ .l2Data ch ln ((w.data.drop off).take len) .poisoned ∈ t.out ∧ t.fget
    Fd.l2EccCounts_UNCORRECTABLE ch = satAdd Fd.l2EccCounts_UNCORRECTABLE.max (s.fget Fd.l2EccCounts_UNCORRECTABLE ch) 1 ∧ t.fget
    Fd.l2Fault_VALID ch = 1 ∧ Detected (chanDie ch) ⟨0x10, 3, ch.val, s.l2Detail ch ln 0⟩ s t ∧ t.mem = s.mem))

/-- An HBM read's decode fills, merges, corrects or poisons the line and is counted; patrol and scrub advance and count; pins are set, cleared,
refused and shown as their rules say. R410, R411, R415, R416, R417, R419, R420, R421, R434, R868, Table 11.3. -/
def Obligations.HbmReadsPatrolAndPins : Prop :=
  (∀ (ch : ChanId) (ln : Nat) (sev : Fin 3) (rt : Bool) (o : HbmDecode) (s : State), s.chanState ch = 1 → s.l2Find ch ln = none → (s.l2Set
    ch ln).length < 16 → (o = .clean ∨ o = .corrected) → Runs (.hbmReadComplete ch ln false sev rt o) s (fun t => t.fget
    Fd.hbmEccCounts_SYMBOL_CORRECTED ch = satAdd Fd.hbmEccCounts_SYMBOL_CORRECTED.max (s.fget Fd.hbmEccCounts_SYMBOL_CORRECTED ch) (if o =
    .corrected then 1 else 0) ∧ t.fget Fd.hbmEccCounts_RETRIED ch = satAdd Fd.hbmEccCounts_RETRIED.max (s.fget Fd.hbmEccCounts_RETRIED ch)
    (if rt then 1 else 0) ∧ t.fget Fd.hbmEcs_SEV_COUNT ch = satAdd Fd.hbmEcs_SEV_COUNT.max (s.fget Fd.hbmEcs_SEV_COUNT ch) sev.val ∧
    t.l2Find ch ln = some
    { q := ln, valid := fullMask, dirty := 0, data := mreads s.mem (hbmKey ch ln) 64, poison := s.isPoison (hbmKey ch ln / 64) } ∧ t.out =
    .l2Data ch ln (mreads s.mem (hbmKey ch ln) 64) (if s.isPoison (hbmKey ch ln / 64) then .poisoned else .done) :: s.out ∧
    RegsOnly (fun r u => (r = .hbmEccCounts ∨ r = .hbmEcs) ∧ u = ch.val) { s with l2 := t.l2, out := t.out } t)) ∧
  (∀ (ch : ChanId) (ln : Nat) (w : L2Line) (s : State), s.chanState ch = 1 → s.l2Find ch ln = some w → w.dirty ≠ 0 → w.data.length =
    64 → Runs (.hbmReadComplete ch ln true 0 false .clean) s (fun t => mreads t.mem (hbmKey ch ln) 64 = (List.range 64).map (fun i
    => if w.valid.testBit i then w.data.getD i 0 else mread s.mem (hbmKey ch ln + i)) ∧ MemBut (hbmKey ch ln) 64 s t ∧ t.l2Find ch ln
    = some { w with dirty := 0 } ∧ t = { s with l2 := t.l2, mem := t.mem, poison := t.poison })) ∧
  (∀ (ch : ChanId) (ln : Nat) (s : State), s.chanState ch = 1 → s.l2Find ch ln = none → (s.l2Set ch ln).length < 16 → Quiet (chanDie
    ch) 0x11 s → Runs (.hbmReadComplete ch ln false 0 false .detected) s (fun t => t.isPoison (hbmKey ch ln / 64) = true ∧ t.fget
    Fd.hbmEccCounts_UNCORRECTABLE ch = satAdd Fd.hbmEccCounts_UNCORRECTABLE.max (s.fget Fd.hbmEccCounts_UNCORRECTABLE ch) 1 ∧ t.fget
    Fd.l2Fault_VALID ch = 1 ∧ Detected (chanDie ch) ⟨0x11, 3, ch.val, s.l2Detail ch ln 1⟩ s t ∧ t.mem = s.mem)) ∧
  (∀ (ch : ChanId) (ln : Nat) (w : L2Line) (s : State), bit s.devSec.policyFlags 0 = true → s.l2Find ch ln = some w → Runs
    (.l2ScrubRead ch ln .single) s (fun t => t.fget Fd.l2EccCounts_CORRECTED ch = satAdd Fd.l2EccCounts_CORRECTED.max (s.fget
    Fd.l2EccCounts_CORRECTED ch) 1 ∧ RegsOnly (fun r u => r = .l2EccCounts ∧ u = ch.val) s t)) ∧
  (∀ (ch : ChanId) (ecs : Nat) (s : State), bit s.devSec.policyFlags 1 = true → s.chanState ch = 1 → s.l2Find ch (s.fget
    Fd.hbmPatrol_NEXT_LINE ch) = none → s.fget Fd.hbmPatrol_NEXT_LINE ch + 1 < Config.channelLines → Runs (.hbmPatrolRead ch ecs
    .clean) s (fun t => t.fget Fd.hbmPatrol_NEXT_LINE ch = s.fget Fd.hbmPatrol_NEXT_LINE ch + 1 ∧ t.fget Fd.hbmPatrol_PASSES ch = s.fget
    Fd.hbmPatrol_PASSES ch ∧ RegsOnly (fun r u => r = .hbmPatrol ∧ u = ch.val) s t)) ∧
  (∀ (st : Fin 8) (temp : Nat) (s : State), Runs (.hbmTemperatureRead st temp) s (fun t => (∀ i : Fin 32, t.fget
    Fd.hbmStatus_STACK_TEMP (32 * st.val + i.val) = min temp 255 ∧ t.fget Fd.hbmStatus_REFRESH_2X (32 * st.val + i.val) = (if 85 <
    temp then 1 else 0) ∧ t.fget Fd.hbmStatus_STATE (32 * st.val + i.val) = s.fget Fd.hbmStatus_STATE (32 * st.val + i.val)) ∧
    RegsOnly (fun r u => r = .hbmStatus ∧ u / 32 = st.val) s t)) ∧
  (∀ (src : Source) (f : FoldId) (s : State), s.shut src = false → s.fget Fd.pinStatus_BUSY f = 0 → f.val < s.foldSecs.length →
    (s.foldSec f).noPin = false → (s.fget Fd.pinBase_ADDR f + s.reg .pinLen f > s.regionBase f + s.regionSize f) → Runs (.pin src f) s
    (fun t => t.fget Fd.pinStatus_BUSY f = 1 ∧ nfind t.pins f.val = some ⟨3, 0⟩ ∧ RegsOnly (fun r u => r = .pinStatus ∧ u = f.val)
    { s with pins := t.pins } t)) ∧
  (∀ (src : Source) (f : FoldId) (ch ln : Nat) (s : State), s.shut src = false → s.fget Fd.pinStatus_BUSY f = 0 → f.val <
    s.foldSecs.length → s.pinCheck f (s.fget Fd.pinBase_ADDR f) (s.reg .pinLen f) = none → s.pinRange (s.fget Fd.pinBase_ADDR f)
    (s.reg .pinLen f) = [(ch, ln)] → s.pinnedBy f (ch, ln) = false → s.chanAnswer ch = none → ((s.l2Set ch ln).filter fun w =>
    w.pin.isSome).length < s.devSec.pinCap → 64 * (s.pinnedLines f + 1) ≤ 1024 * (s.foldSec f).pinKib → Runs (.pin src f) s (fun t =>
    t.fget Fd.pinStatus_BUSY f = 1 ∧ nfind t.pins f.val = some ⟨0, 0⟩ ∧ t.pinnedBy f (ch, ln) = true)) ∧
  (∀ (src : Source) (f : FoldId) (s : State), s.shut src = false → s.fget Fd.pinStatus_BUSY f = 0 → f.val < s.foldSecs.length → Runs
    (.unpinAll src f) s (fun t => t.fget Fd.pinStatus_BUSY f = 1 ∧ nfind t.pins f.val = some ⟨0, s.fget Fd.pinStatus_LINES_REFUSED f⟩ ∧ (∀ e ∈ t.l2, ∀ w ∈ e.2, w.pin ≠
    some f.val) ∧ t.l2.map (fun e => (e.1, e.2.map fun w => { w with pin := none })) = s.l2.map (fun e => (e.1, e.2.map fun w =>
    { w with pin := none })) ∧ RegsOnly (fun r u => r = .pinStatus ∧ u = f.val) { s with pins := t.pins, l2 := t.l2 } t)) ∧
  (∀ (src : Source) (f : FoldId) (ch ln : Nat) (w : L2Line) (s : State), s.shut src = false → s.fget Fd.pinStatus_BUSY f = 0 → f.val <
    s.foldSecs.length → s.pinCheck f (s.fget Fd.pinBase_ADDR f) (s.reg .pinLen f) = none → s.pinRange (s.fget Fd.pinBase_ADDR f)
    (s.reg .pinLen f) = [(ch, ln)] → s.l2Find ch ln = some w → w.pin = some f.val → Runs (.unpin src f) s (fun t => t.fget
    Fd.pinStatus_BUSY f = 1 ∧ nfind t.pins f.val = some ⟨0, s.fget Fd.pinStatus_LINES_REFUSED f⟩ ∧ t.l2Find ch ln = some { w with pin := none } ∧ RegsOnly (fun r u => r
    = .pinStatus ∧ u = f.val) { s with pins := t.pins, l2 := t.l2 } t)) ∧
  (∀ (f : FoldId) (pr : PinRun) (s : State), nfind s.pins f.val = some pr → pr.result < 8 → pr.refused < 2 ^ 32 → Runs
    (.pinCommandDone f) s (fun t => t.fget Fd.pinStatus_BUSY f = 0 ∧ t.fget Fd.pinStatus_DONE f = 1 ∧ t.fget Fd.pinStatus_RESULT f =
    pr.result ∧ t.fget Fd.pinStatus_LINES_REFUSED f = pr.refused ∧ nfind t.pins f.val = none ∧ Raised 99 s t ∧ EventFrame (fun r u =>
    r = .pinStatus ∧ u = f.val) { s with pins := t.pins } t)) ∧
(∀ (ch : ChanId) (ln : Nat) (d : Bytes) (s : State), s.chanState ch = 1 → s.l2Find ch ln = none → (s.l2Set ch ln).length < 16 → d.length =
    64 → Runs (.hbmReadComplete ch ln false 0 false (.wrong d)) s (fun t => mreads t.mem (hbmKey ch ln) 64 = d ∧ MemBut (hbmKey ch ln) 64 s
    t ∧ t.isPoison (hbmKey ch ln / 64) = false ∧ t.fget Fd.hbmEccCounts_SYMBOL_CORRECTED ch = satAdd Fd.hbmEccCounts_SYMBOL_CORRECTED.max
    (s.fget Fd.hbmEccCounts_SYMBOL_CORRECTED ch) 1 ∧ t.l2Find ch ln = some { q := ln, valid := fullMask, dirty := 0, data := d } ∧ t.out =
    .l2Data ch ln d .done :: s.out ∧ SameRegs (fun r u => r = .hbmEccCounts ∧ u = ch.val) s t)) ∧
  (∀ (ch : ChanId) (ln : Nat) (s : State), s.chanState ch = 1 → s.l2Find ch ln = none → (s.l2Set ch ln).length < 16 → Runs (.hbmReadComplete
    ch ln false 0 false .poisoned) s (fun t => t.isPoison (hbmKey ch ln / 64) = true ∧ t.l2Find ch ln = some
    { q := ln, valid := fullMask, dirty := 0, data := mreads s.mem (hbmKey ch ln) 64, poison := true } ∧ t.out = .l2Data ch ln (mreads
    s.mem (hbmKey ch ln) 64) .poisoned :: s.out ∧ t = { s with l2 := t.l2, out := t.out, poison := t.poison })) ∧
  (∀ (ch : ChanId) (ln : Nat) (merge : Bool) (s : State), s.chanState ch = 1 → Quiet (chanDie ch) 0x12 s → Runs (.hbmReadComplete ch ln merge
    0 false .parity) s (fun t => Detected (chanDie ch) ⟨0x12, 3, ch.val, 1⟩ s t ∧ t.mem = s.mem ∧ t.l2 = s.l2)) ∧
  (∀ (ch : ChanId) (ln : Nat) (w : L2Line) (s : State), bit s.devSec.policyFlags 0 = true → s.l2Find ch ln = some w → Quiet (chanDie ch) 0x10
    s → Runs (.l2ScrubRead ch ln .double) s (fun t => t.l2Find ch ln = some { w with poison := true } ∧ t.fget Fd.l2EccCounts_UNCORRECTABLE
    ch = satAdd Fd.l2EccCounts_UNCORRECTABLE.max (s.fget Fd.l2EccCounts_UNCORRECTABLE ch) 1 ∧ t.fget Fd.l2Fault_VALID ch = 1 ∧ (s.fget
    Fd.l2Fault_VALID ch = 0 → t.fget Fd.l2Fault_KIND ch = 3) ∧ Detected (chanDie ch) ⟨0x10, 3, ch.val, s.l2Detail ch ln 3⟩ s t ∧ t.mem =
    s.mem)) ∧
  (∀ (ch : ChanId) (ecs : Nat) (sev : Fin 3) (s : State), bit s.devSec.policyFlags 1 = true → s.chanState ch = 1 → s.l2Find ch (s.fget
    Fd.hbmPatrol_NEXT_LINE ch) = none → s.fget Fd.hbmPatrol_NEXT_LINE ch + 1 < Config.channelLines → Runs (.hbmPatrolRead ch ecs .corrected
    sev) s (fun t => t.fget Fd.hbmPatrol_NEXT_LINE ch = s.fget Fd.hbmPatrol_NEXT_LINE ch + 1 ∧ t.fget Fd.hbmEccCounts_SYMBOL_CORRECTED ch =
    satAdd Fd.hbmEccCounts_SYMBOL_CORRECTED.max (s.fget Fd.hbmEccCounts_SYMBOL_CORRECTED ch) 1 ∧ t.fget Fd.hbmEcs_SEV_COUNT ch = satAdd
    Fd.hbmEcs_SEV_COUNT.max (s.fget Fd.hbmEcs_SEV_COUNT ch) sev.val ∧ (nget [0, 0] t.patrol ch.val).getD 1 0 = (nget [0, 0] s.patrol
    ch.val).getD 1 0 ∧ RegsOnly (fun r u => (r = .hbmPatrol ∨ r = .hbmEccCounts ∨ r = .hbmEcs) ∧ u = ch.val) { s with patrol := t.patrol }
    t)) ∧
  (∀ (ch : ChanId) (ecs : Nat) (s : State), bit s.devSec.policyFlags 1 = true → s.chanState ch = 1 → s.l2Find ch (s.fget
    Fd.hbmPatrol_NEXT_LINE ch) = none → s.fget Fd.hbmPatrol_NEXT_LINE ch + 1 = Config.channelLines → ecs < 65536 → Runs (.hbmPatrolRead ch
    ecs .clean) s (fun t => t.fget Fd.hbmPatrol_NEXT_LINE ch = 0 ∧ t.fget Fd.hbmPatrol_PASSES ch = satAdd Fd.hbmPatrol_PASSES.max (s.fget
    Fd.hbmPatrol_PASSES ch) 1 ∧ t.fget Fd.hbmEcs_ECS_COUNT ch = ecs ∧ nfind t.patrol ch.val = none ∧ t.reg .garnetSeq = (s.reg .garnetSeq +
    1) % 2 ^ 64 ∧ t.mem = s.mem)) ∧
  (∀ (ch : ChanId) (ecs ln : Nat) (s : State), bit s.devSec.policyFlags 1 = true → s.chanState ch = 1 → ln = s.fget Fd.hbmPatrol_NEXT_LINE ch
    → s.l2Find ch ln = none → ln + 1 < Config.channelLines → Quiet (chanDie ch) 0x11 s → Runs (.hbmPatrolRead ch ecs .detected) s (fun t =>
    t.isPoison (hbmKey ch ln / 64) = true ∧ t.fget Fd.hbmEccCounts_UNCORRECTABLE ch = satAdd Fd.hbmEccCounts_UNCORRECTABLE.max (s.fget
    Fd.hbmEccCounts_UNCORRECTABLE ch) 1 ∧ t.fget Fd.hbmPatrol_NEXT_LINE ch = ln + 1 ∧ Detected (chanDie ch) ⟨0x11, 3, ch.val, s.l2Detail ch
    ln 3⟩ s t ∧ t.mem = s.mem)) ∧
  (∀ (src : Source) (f : FoldId) (s : State), s.shut src = false → s.fget Fd.pinStatus_BUSY f = 0 → f.val < s.foldSecs.length → (s.foldSec
    f).noPin = true → Runs (.pin src f) s (fun t => t.fget Fd.pinStatus_BUSY f = 1 ∧ nfind t.pins f.val = some ⟨4, 0⟩ ∧ RegsOnly (fun r u =>
    r = .pinStatus ∧ u = f.val) { s with pins := t.pins } t)) ∧
  (∀ (src : Source) (f : FoldId) (s : State), s.shut src = false → s.fget Fd.pinStatus_BUSY f = 0 → f.val < s.foldSecs.length → s.pinCheck f
    (s.fget Fd.pinBase_ADDR f) (s.reg .pinLen f) = none → s.reg .pinLen f ≠ 0 → 1024 * (s.foldSec f).pinKib < 64 * (s.pinnedLines f +
    ((s.pinRange (s.fget Fd.pinBase_ADDR f) (s.reg .pinLen f)).filter fun p => !s.pinnedBy f p).length) → Runs (.pin src f) s (fun t =>
    t.fget Fd.pinStatus_BUSY f = 1 ∧ nfind t.pins f.val = some ⟨2, 0⟩ ∧ RegsOnly (fun r u => r = .pinStatus ∧ u = f.val)
    { s with pins := t.pins } t)) ∧
  (∀ (src : Source) (f : FoldId) (ch ln : Nat) (s : State), s.shut src = false → s.fget Fd.pinStatus_BUSY f = 0 → f.val < s.foldSecs.length →
    s.pinCheck f (s.fget Fd.pinBase_ADDR f) (s.reg .pinLen f) = none → s.pinRange (s.fget Fd.pinBase_ADDR f) (s.reg .pinLen f) = [(ch, ln)]
    → s.pinnedBy f (ch, ln) = false → s.chanAnswer ch = none → s.devSec.pinCap ≤ ((s.l2Set ch ln).filter fun w => w.pin.isSome).length → 64
    * (s.pinnedLines f + 1) ≤ 1024 * (s.foldSec f).pinKib → Runs (.pin src f) s (fun t => nfind t.pins f.val = some ⟨1, 1⟩ ∧ t.fget
    Fd.l2PinState_PIN_REFUSED ch = satAdd Fd.l2PinState_PIN_REFUSED.max (s.fget Fd.l2PinState_PIN_REFUSED ch) 1 ∧ RegsOnly (fun r u => (r =
    .pinStatus ∧ u = f.val) ∨ (r = .l2PinState ∧ u = ch)) { s with pins := t.pins } t)) ∧
  (∀ (f : FoldId) (i : Instr) (s : State), s.shut .host = false → (s.fget Fd.pinStatus_BUSY f = 1 ∨ s.foldSecs.length ≤ f.val) → i ∈ [Instr.pin
    .host f, .unpin .host f, .unpinAll .host f] → Runs i s (fun t => t.fget Fd.hostViol_COUNT = satAdd Fd.hostViol_COUNT.max (s.fget
    Fd.hostViol_COUNT) 1 ∧ RegsOnly (fun r _ => r = .hostViol) s t)) ∧
  (∀ (ch : ChanId) (i : Instr) (s : State), (i ∈ [Instr.hbmReadComplete ch 0 false 0 false .clean, .hbmReadComplete ch 0 true 2 true .detected,
    .hbmPatrolRead ch 0 .clean] ∧ s.chanState ch ≠ 1 ∨ i = .l2ScrubRead ch 0 .single ∧ bit s.devSec.policyFlags 0 = false) → Runs i s (Same
    s))

/-- A lane instruction writes its result in the guarded lanes of its destination, in those alone, and its group goes on in order; a word the
instruction cache holds is the word fetched; a failed self-check stops the engine. R321, R325, R327, R328, R330, R331, R345, R357, Table 9.3. -/
def Obligations.WhiskLaneInstructions : Prop :=
  (∀ (c : CoreId) (sl : SlotId) (w : Word) (g : WGroup) (s : State), GroupReady s c sl g → wClass w = .int → Runs (.whiskIntegerOp c
    sl (some w) .none) s (fun t => AtGroup c sl (fun h => GoesOn (g.pc + 8) h ∧ LaneRegs (wRd w) (g.guard w) (g.intRes w) g h ∧ h.p =
    g.p) t ∧ GroupOnly c sl g.crew s t)) ∧
  (∀ (c : CoreId) (sl : SlotId) (w : Word) (g : WGroup) (s : State), GroupReady s c sl g → wClass w = .float → Runs (.whiskFloatOp c
    sl (some w) .none) s (fun t => AtGroup c sl (fun h => GoesOn (g.pc + 8) h ∧ LaneRegs (wRd w) (g.guard w) (fun l => (g.floatRes w
    l).bits) g h ∧ h.p = g.p) t ∧ t.mem = s.mem ∧ SameRegs (fun r u => (r = .numFlags ∨ r = .numCounts) ∧ u = c.val) s t)) ∧
  (∀ (c : CoreId) (sl : SlotId) (w : Word) (g : WGroup) (s : State), GroupReady s c sl g → wClass w = .cvt → Runs (.whiskCvt c sl
    (some w) .none) s (fun t => AtGroup c sl (fun h => GoesOn (g.pc + 8) h ∧ LaneRegs (wRd w) (g.guard w) (fun l => (g.cvtRes w
    l).bits) g h ∧ h.p = g.p) t ∧ t.mem = s.mem ∧ SameRegs (fun r u => (r = .numFlags ∨ r = .numCounts) ∧ u = c.val) s t)) ∧
  (∀ (c : CoreId) (sl : SlotId) (w : Word) (g : WGroup) (s : State), GroupReady s c sl g → wClass w = .tst → Runs (.tst c sl (some w)
    .none) s (fun t => AtGroup c sl (fun h => GoesOn (g.pc + 8) h ∧ LanePreds (wf w 47 45) (g.guard w) (fun l => wTest (wSub w) (g.reg
    (wRa w) l) (g.reg (wRb w) l)) g h ∧ h.t = g.t) t ∧ GroupOnly c sl g.crew s t)) ∧
  (∀ (c : CoreId) (sl : SlotId) (w : Word) (g : WGroup) (s : State), GroupReady s c sl g → wClass w = .pred → Runs (.predicateOp c sl
    (some w) .none) s (fun t => AtGroup c sl (fun h => GoesOn (g.pc + 8) h ∧ LanePreds (wf w 47 45) (g.guard w) (fun l => [((g.pred
    (wf w 29 27)).testBit l && (g.pred (wf w 44 42)).testBit l), ((g.pred (wf w 29 27)).testBit l || (g.pred (wf w 44 42)).testBit l),
    ((g.pred (wf w 29 27)).testBit l != (g.pred (wf w 44 42)).testBit l), ((g.pred (wf w 29 27)).testBit l && !(g.pred (wf w 44
    42)).testBit l)].getD (wSub w) false) g h ∧ h.t = g.t) t ∧ GroupOnly c sl g.crew s t)) ∧
  (∀ (c : CoreId) (sl : SlotId) (w : Word) (g : WGroup) (s : State), GroupReady s c sl g → wClass w = .sel → Runs (.whiskSel c sl
    (some w) .none) s (fun t => AtGroup c sl (fun h => GoesOn (g.pc + 8) h ∧ LaneRegs (wRd w) (g.guard w) (fun l => if (g.pred (wRc
    w)).testBit l then g.reg (wRa w) l else g.reg (wRb w) l) g h ∧ h.p = g.p) t ∧ GroupOnly c sl g.crew s t)) ∧
  (∀ (c : CoreId) (sl : SlotId) (w : Word) (g : WGroup) (s : State), GroupReady s c sl g → wClass w = .lane → Runs (.laneInformation c
    sl (some w) .none) s (fun t => AtGroup c sl (fun h => GoesOn (g.pc + 8) h ∧ LaneRegs (wRd w) (g.guard w) (fun l => if wSub w = 0
    then l else if wSub w = 1 then g.index else if wSub w = 2 then g.rank else if wSub w = 3 then g.reg (wRa w) (g.reg (wRb w) l % 32)
    else g.pred (wRc w)) g h ∧ h.p = g.p) t ∧ GroupOnly c sl g.crew s t)) ∧
(∀ (c : CoreId) (sl : SlotId) (w : Word) (g : WGroup) (e : Nat × Bytes) (i j : Instr) (s : State), nfind (s.whisk c).groups sl.val = some g →
    g.pc.toNat % 8 = 0 → (s.whisk c).icache.find? (fun x => x.1 == g.pc.toNat / 64) = some e → w = BitVec.ofNat 64 (leNat ((e.2.drop
    (g.pc.toNat % 64)).take 8)) → (i, j) ∈ [(Instr.whiskIntegerOp c sl none .none, Instr.whiskIntegerOp c sl (some w) .none),
    (.whiskFloatOp c sl none .none, .whiskFloatOp c sl (some w) .none), (.whiskCvt c sl none .none, .whiskCvt c sl (some w) .none), (.tst c
    sl none .none, .tst c sl (some w) .none), (.predicateOp c sl none .none, .predicateOp c sl (some w) .none), (.whiskSel c sl none .none,
    .whiskSel c sl (some w) .none), (.laneInformation c sl none .none, .laneInformation c sl (some w) .none), (.whiskLoad c sl none .none,
    .whiskLoad c sl (some w) .none), (.whiskStore c sl none .none, .whiskStore c sl (some w) .none), (.whiskAtomic c sl none .none,
    .whiskAtomic c sl (some w) .none), (.whiskJump c sl none .none, .whiskJump c sl (some w) .none), (.jr c sl none .none, .jr c sl (some w)
    .none), (.meetBarrier c sl none .none, .meetBarrier c sl (some w) .none), (.markBarrier c sl none .none, .markBarrier c sl (some w)
    .none), (.awaitBarrier c sl none .none, .awaitBarrier c sl (some w) .none), (.whiskSummary c sl none .none, .whiskSummary c sl (some w)
    .none), (.whiskWaitAcq c sl none .none, .whiskWaitAcq c sl (some w) .none), (.whiskSignal c sl none .none, .whiskSignal c sl (some w)
    .none), (.whiskFence c sl none .none, .whiskFence c sl (some w) .none), (.whiskFlush c sl none .none, .whiskFlush c sl (some w) .none),
    (.groupExit c sl none .none, .groupExit c sl (some w) .none), (.brk c sl none .none, .brk c sl (some w) .none)] → exec i s = exec j s) ∧
  (∀ (c : CoreId) (sl : SlotId) (g : WGroup) (f : Option Word) (fl : EngineFault) (i : Instr) (s : State), nfind (s.whisk c).groups sl.val =
    some g → s.groupReady c g = true → (fl = .residue ∨ fl = .parity) → Quiet (coreDie c) (if fl = .residue then 8 else 9) s → i ∈
    [Instr.whiskIntegerOp c sl f fl, .whiskFloatOp c sl f fl, .whiskLoad c sl f fl, .tst c sl f fl, .whiskJump c sl f fl] → Runs i s (fun t
    => t.engState c 2 = 2 ∧ t.fget Fd.whiskStatus_REASON c = (if fl = .residue then 0x20 else 0x21) ∧ (t.whisk c).groups = [] ∧ (t.whisk
    c).crews = [] ∧ (t.whisk c).word = none ∧ t.fget Fd.whiskFault_VALID c = 1 ∧ (s.fget Fd.whiskFault_VALID c = 0 → t.fget
    Fd.whiskFault_SLOT c = sl.val) ∧ t.fget Fd.whiskCounts_RESIDUE_COUNT c = satAdd Fd.whiskCounts_RESIDUE_COUNT.max (s.fget
    Fd.whiskCounts_RESIDUE_COUNT c) (if fl = .residue then 1 else 0)))

/-- A group's loads, stores and atomics of the own Pantry read and write their lanes' bytes, of two lanes' bytes the higher lane's and of two
lanes' atomics in lane order; a misaligned or poisoned access parks the group; signals, acquires, fences and flushes order and count.
R329, R338, R341, R343, R344, R354, R375, R376, Table 9.3, Table 9.7. -/
def Obligations.WhiskMemoryInstructions : Prop :=
  (∀ (c : CoreId) (sl : SlotId) (w : Word) (g : WGroup) (l f off : Nat) (s : State), GroupReady s c sl g → wClass w = .load → g.guard
    w = [l] → g.ea w l % wSize w = 0 → s.replies = [] → s.inFlight (.engine c 3 (64 * sl.val + l)) = false → s.resolveCore c 0 (g.ea w
    l) false = .here f (.pantry c off) → s.placeFenced f (.pantry c off) = false → s.pantryPoison c off (wSize w) = false → Runs
    (.whiskLoad c sl (some w) .none) s (fun t => AtGroup c sl (fun h => GoesOn (g.pc + 8) h ∧ h.p = g.p ∧ h.reg (wRd w) l = (if wSub w
    < 2 then unsext 32 (sext (8 * wSize w) (leNat (s.pantryBytes c off (wSize w)))) else leNat (s.pantryBytes c off (wSize w)) % 2 ^
    32) ∧ (wSub w = 3 → h.reg (wRd w + 1) l = leNat (s.pantryBytes c off (wSize w)) / 2 ^ 32) ∧ ∀ (r : Fin 64) (k : Fin 32), (k.val ≠
    l ∨ r.val ≠ wRd w ∧ (wSub w ≠ 3 ∨ r.val ≠ wRd w + 1)) → h.reg r k = g.reg r k) t ∧ GroupOnly c sl g.crew s t)) ∧
  (∀ (c : CoreId) (sl : SlotId) (w : Word) (g : WGroup) (l f off o : Nat) (s : State), GroupReady s c sl g → wClass w = .store →
    g.guard w = [l] → g.ea w l % wSize w = 0 → s.replies = [] → s.inFlight (.engine c 3 (64 * sl.val + l)) = false → s.resolveCore c 1
    (g.ea w l) false = .here f (.pantry c off) → s.resolveCore c 1 (g.ea w l / 64 * 64) false = .here f (.pantry c o) → s.placeFenced
    f (.pantry c off) = false → isCtrOff off = false → isRescueOff off = false → s.isPoison (pantryKey c off / 64) = false → Runs
    (.whiskStore c sl (some w) .none) s (fun t => mreads t.mem (pantryKey c off) (wSize w) = leBytes (wSize w) (if wSub w = 3 then
    g.pair (wRb w) l else g.reg (wRb w) l) ∧ MemBut (pantryKey c off) (wSize w) s t ∧ t.regs = s.regs ∧ t.arr = s.arr ∧ AtGroup c sl
    (fun h => GoesOn (g.pc + 8) h ∧ h.t = g.t ∧ h.p = g.p) t)) ∧
  (∀ (c : CoreId) (sl : SlotId) (w : Word) (g : WGroup) (l f off : Nat) (s : State), GroupReady s c sl g → wClass w = .atomic →
    g.guard w = [l] → g.ea w l % 4 = 0 → s.replies = [] → s.inFlight (.engine c 3 (64 * sl.val + l)) = false → s.resolveCore c 3 (g.ea
    w l) false = .here f (.pantry c off) → s.placeFenced f (.pantry c off) = false → isCtrOff off = false → isRescueOff off = false →
    s.isPoison (pantryKey c off / 64) = false → Runs (.whiskAtomic c sl (some w) .none) s (fun t => mreads t.mem (pantryKey c off) 4 =
    leBytes 4 (atomicOp (wSub w) 4 (leNat (s.pantryBytes c off 4)) (g.reg (wRb w) l) (g.reg (wRc w) l)) ∧ MemBut (pantryKey c off) 4 s
    t ∧ t.regs = s.regs ∧ t.arr = s.arr ∧ AtGroup c sl (fun h => GoesOn (g.pc + 8) h ∧ h.p = g.p ∧ LaneRegs (wRd w) [l] (fun _ =>
    leNat (s.pantryBytes c off 4)) g h) t)) ∧
  (∀ (c : CoreId) (sl : SlotId) (w : Word) (g : WGroup) (l k : Nat) (s : State), GroupReady s c sl g → wClass w = .acq → g.chosen
    (wPqG w) = some l → s.ownCounter c (g.pair (wRd w) l) = some k → nhas s.ctrPoison k = false → nfind s.waiters (slotWaiter c sl) =
    none → g.reg (wRa w) l ≤ s.ctr k → Runs (.whiskWaitAcq c sl (some w) .none) s (fun t => (∀ x ∈ (t.whisk c).l1, x.dirty ≠ 0 ∧
    x.valid = x.dirty) ∧ t.mem = s.mem ∧ t.arr = s.arr ∧ t.regs = s.regs ∧ AtGroup c sl (fun h => GoesOn (g.pc + 8) h ∧ h.t = g.t ∧
    h.p = g.p) t)) ∧
  (∀ (c : CoreId) (sl : SlotId) (w : Word) (g : WGroup) (l k f n off : Nat) (s : State), GroupReady s c sl g → wClass w = .signal →
    g.chosen (wPqG w) = some l → (s.whisk c).l1 = [] → g.pair (wRd w) l % 8 = 0 → s.replies = [] → s.inFlight (.engine c 3 (64 *
    sl.val + l)) = false → s.resolveCore c 2 (g.pair (wRd w) l) false = .here f (.pantry c off) → s.placeFenced f (.pantry c off) =
    false → ctrOfOff off = some n → k = ctrKey c n → nhas s.ctrPoison k = false → Runs (.whiskSignal c sl (some w) .none) s (fun t =>
    t.ctr k = satAdd (2 ^ 64 - 1) (s.ctr k) (g.reg (wRa w) l) ∧ SameCtrs (fun x => x = k) s t ∧ t.mem = s.mem ∧ t.regs = s.regs ∧
    AtGroup c sl (fun h => GoesOn (g.pc + 8) h ∧ h.t = g.t ∧ h.p = g.p) t)) ∧
  (∀ (c : CoreId) (sl : SlotId) (w : Word) (g : WGroup) (s : State), GroupReady s c sl g → wClass w = .fence → Runs (.whiskFence c sl
    (some w) .none) s (fun t => AtGroup c sl (fun h => GoesOn (g.pc + 8) h ∧ h.t = g.t ∧ h.p = g.p) t ∧ GroupOnly c sl g.crew s t)) ∧
  (∀ (c : CoreId) (sl : SlotId) (w : Word) (g : WGroup) (s : State), GroupReady s c sl g → wClass w = .flush → Runs (.whiskFlush c sl
    (some w) .none) s (fun t => (∀ x ∈ (t.whisk c).l1, x.dirty = 0) ∧ ((∀ x ∈ (s.whisk c).l1, x.dirty = 0) → t.mem = s.mem ∧ t.regs =
    s.regs) ∧ AtGroup c sl (fun h => GoesOn (g.pc + 8) h ∧ h.t = g.t ∧ h.p = g.p) t)) ∧
(∀ (c : CoreId) (sl : SlotId) (w : Word) (g : WGroup) (f b : Nat) (s : State), GroupReady s c sl g → wClass w = .load → (∀ l ∈ g.guard w, g.ea
    w l % wSize w = 0) → s.replies = [] → (∀ l ∈ g.guard w, s.inFlight (.engine c 3 (64 * sl.val + l)) = false) → b =
    0xFFFF000000000000 + Config.pantryBase + Config.pantryBytes * c.val → s.foldOfCore c = some f → (∀ l ∈ g.guard w, s.norm (g.ea w l) /
    Config.pantryBytes = b / Config.pantryBytes) → s.placeFenced f (.pantry c 0) = false → (∀ l ∈ g.guard w, s.pantryPoison c (g.ea w l %
    Config.pantryBytes / 64 * 64) 64 = false) → Runs (.whiskLoad c sl (some w) .none) s (fun t => AtGroup c sl (fun h => GoesOn (g.pc + 8)
    h ∧ h.p = g.p ∧ (∀ l ∈ g.guard w,
    let v := leNat (s.pantryBytes c (g.ea w l % Config.pantryBytes) (wSize w))
    h.reg (wRd w) l = (if wSub w < 2 then unsext 32 (sext (8 * wSize w) v) else v % 2 ^ 32) ∧ (wSub w = 3 → h.reg (wRd w + 1) l = v / 2 ^
      32)) ∧ ∀ (r : Fin 64) (k : Fin 32), (k.val ∉ g.guard w ∨ r.val ≠ wRd w ∧ (wSub w ≠ 3 ∨ r.val ≠ wRd w + 1)) → h.reg r k = g.reg r k)
      t ∧ GroupOnly c sl g.crew s t)) ∧
  (∀ (c : CoreId) (sl : SlotId) (w : Word) (g : WGroup) (f b : Nat) (s : State), GroupReady s c sl g → wClass w = .store → (∀ l ∈ g.guard w,
    g.ea w l % wSize w = 0) → s.replies = [] → (∀ l ∈ g.guard w, s.inFlight (.engine c 3 (64 * sl.val + l)) = false) → b =
    0xFFFF000000000000 + Config.pantryBase + Config.pantryBytes * c.val → s.foldOfCore c = some f → (∀ l ∈ g.guard w, s.norm (g.ea w l) /
    Config.pantryBytes = b / Config.pantryBytes) → s.placeFenced f (.pantry c 0) = false → (∀ l ∈ g.guard w, isCtrOff (g.ea w l %
    Config.pantryBytes) = false ∧ isRescueOff (g.ea w l % Config.pantryBytes) = false ∧ s.isPoison (pantryKey c (g.ea w l %
    Config.pantryBytes) / 64) = false) → Runs (.whiskStore c sl (some w) .none) s (fun t => (∀ l ∈ g.guard w, ∀ i, i < wSize w → (∀ m ∈
    g.guard w, l < m → g.ea w m % Config.pantryBytes ≠ g.ea w l % Config.pantryBytes) → mread t.mem (pantryKey c (g.ea w l %
    Config.pantryBytes) + i) = (leBytes (wSize w) (if wSub w = 3 then g.pair (wRb w) l else g.reg (wRb w) l)).getD i 0) ∧ (∀ a, (∀ l ∈
    g.guard w, a < pantryKey c (g.ea w l % Config.pantryBytes) ∨ pantryKey c (g.ea w l % Config.pantryBytes) + wSize w ≤ a) → mread t.mem a
    = mread s.mem a) ∧ t.regs = s.regs ∧ t.arr = s.arr ∧ AtGroup c sl (fun h => GoesOn (g.pc + 8) h ∧ h.t = g.t ∧ h.p = g.p) t)) ∧
  (∀ (c : CoreId) (sl : SlotId) (w : Word) (g : WGroup) (f b : Nat) (s : State), GroupReady s c sl g → wClass w = .atomic → (∀ l ∈ g.guard w,
    g.ea w l % 4 = 0) → s.replies = [] → (∀ l ∈ g.guard w, s.inFlight (.engine c 3 (64 * sl.val + l)) = false) → b =
    0xFFFF000000000000 + Config.pantryBase + Config.pantryBytes * c.val → s.foldOfCore c = some f → (∀ l ∈ g.guard w, s.norm (g.ea w l) /
    Config.pantryBytes = b / Config.pantryBytes) → s.placeFenced f (.pantry c 0) = false → (∀ l ∈ g.guard w, isCtrOff (g.ea w l %
    Config.pantryBytes) = false ∧ isRescueOff (g.ea w l % Config.pantryBytes) = false ∧ s.isPoison (pantryKey c (g.ea w l %
    Config.pantryBytes) / 64) = false) → Runs (.whiskAtomic c sl (some w) .none) s (fun t =>
    let off (l : Nat) : Nat := g.ea w l % Config.pantryBytes
    let upTo (l n : Nat) : Nat := ((g.guard w).filter fun m => decide (m < n) && off m == off l).foldl (fun v m => atomicOp (wSub w) 4 v (g.reg (wRb w) m) (g.reg (wRc w) m)) (leNat (s.pantryBytes c (off l) 4))
    (∀ l ∈ g.guard w, mreads t.mem (pantryKey c (off l)) 4 = leBytes 4 (upTo l 32)) ∧ (∀ a, (∀ l ∈ g.guard w, a < pantryKey c (off l) ∨
      pantryKey c (off l) + 4 ≤ a) → mread t.mem a = mread s.mem a) ∧ t.regs = s.regs ∧ t.arr = s.arr ∧ AtGroup c sl (fun h => GoesOn (g.pc
      + 8) h ∧ h.p = g.p ∧ LaneRegs (wRd w) (g.guard w) (fun l => upTo l l) g h) t)) ∧
  (∀ (c : CoreId) (sl : SlotId) (w : Word) (g : WGroup) (l n : Nat) (i : Instr) (s : State), GroupReady s c sl g → ((wClass w, i, n) ∈
    [(WClass.load, Instr.whiskLoad c sl (some w) .none, wSize w), (.store, .whiskStore c sl (some w) .none, wSize w), (.atomic, .whiskAtomic
    c sl (some w) .none, 4)]) → l ∈ g.guard w → g.ea w l % n ≠ 0 → Runs i s (fun t => AtGroup c sl (fun h => h = { g with park := 6 }) t ∧
    (t.twin c).events = (s.twin c).events ||| 2 ∧ t.mem = s.mem ∧ CoreOnly c s t)) ∧
  (∀ (c : CoreId) (sl : SlotId) (w : Word) (g : WGroup) (l f off : Nat) (s : State), GroupReady s c sl g → wClass w = .load → g.guard w = [l]
    → g.ea w l % wSize w = 0 → s.replies = [] → s.inFlight (.engine c 3 (64 * sl.val + l)) = false → s.resolveCore c 0 (g.ea w l) false =
    .here f (.pantry c off) → s.placeFenced f (.pantry c off) = false → s.pantryPoison c off (wSize w) = true → Runs (.whiskLoad c sl (some
    w) .none) s (fun t => AtGroup c sl (fun h => h.park = 7 ∧ h.pc = g.pc ∧ h.t = g.t ∧ h.p = g.p) t ∧ (t.twin c).events = (s.twin
    c).events ||| 2 ∧ t.mem = s.mem ∧ CoreOnly c s t)) ∧
  (∀ (c : CoreId) (sl : SlotId) (w : Word) (g : WGroup) (l k : Nat) (s : State), GroupReady s c sl g → wClass w = .acq → g.chosen (wPqG w) =
    some l → s.ownCounter c (g.pair (wRd w) l) = some k → nhas s.ctrPoison k = false → nfind s.waiters (slotWaiter c sl) = none → s.ctr k <
    g.reg (wRa w) l → Runs (.whiskWaitAcq c sl (some w) .none) s (fun t => nfind t.waiters (slotWaiter c sl) = some ⟨k, g.reg (wRa w) l,
    none⟩ ∧ AtGroup c sl (fun h => h = g) t ∧ t = { s with waiters := t.waiters })) ∧
  (∀ (c : CoreId) (sl : SlotId) (w : Word) (g : WGroup) (i : Instr) (s : State), GroupReady s c sl g → g.chosen (wPqG w) = none → ((wClass w,
    i) ∈ [(WClass.acq, Instr.whiskWaitAcq c sl (some w) .none), (.signal, .whiskSignal c sl (some w) .none)]) → Runs i s (fun t => AtGroup c
    sl (fun h => GoesOn (g.pc + 8) h ∧ h.t = g.t ∧ h.p = g.p) t ∧ GroupOnly c sl g.crew s t))

/-- Jumps, summaries, barriers, EXIT and BRK act on their group and crew as their rules say; a crew that waits too long parks. R328, R332,
R333, R334, R335, R336, R337, R340, R354, R355, Table 9.7. -/
def Obligations.WhiskControlAndBarriers : Prop :=
  (∀ (c : CoreId) (sl : SlotId) (w : Word) (g : WGroup) (s : State), GroupReady s c sl g → wClass w = .jump → Runs (.whiskJump c sl
    (some w) .none) s (fun t => AtGroup c sl (fun h => GoesOn (if [true, g.pred (wPqB w) != 0, g.pred (wPqB w) == 2 ^ 32 - 1, g.pred
    (wPqB w) == 0].getD (wCond w) false then g.pc + BitVec.ofInt 64 (sext 32 (wf w 31 0) * 8) else g.pc + 8) h ∧ h.p = g.p ∧ LaneRegs
    63 (if wOp w = 0x21 then List.range 32 else []) (fun _ => (g.pc + 8).toNat) g h) t ∧ GroupOnly c sl g.crew s t)) ∧
  (∀ (c : CoreId) (sl : SlotId) (w : Word) (g : WGroup) (s : State), GroupReady s c sl g → wClass w = .jr → Runs (.jr c sl (some w)
    .none) s (fun t => AtGroup c sl (fun h => GoesOn (((g.chosen (wPqG w)).map fun l => BitVec.ofNat 64 (g.pair (wRd w) l)).getD (g.pc
    + 8)) h ∧ h.t = g.t ∧ h.p = g.p) t ∧ GroupOnly c sl g.crew s t)) ∧
  (∀ (c : CoreId) (sl : SlotId) (w : Word) (g : WGroup) (s : State), GroupReady s c sl g → wClass w = .sum → ((s.core c).sums.getD 1
    []).length < 16 → Runs (.whiskSummary c sl (some w) .none) s (fun t => (t.core c).sums = (s.core c).sums.set 1 ((s.core
    c).sums.getD 1 [] ++ [g.summary w]) ∧ AtGroup c sl (fun h => GoesOn (g.pc + 8) h ∧ h.t = g.t ∧ h.p = g.p) t ∧ CoreOnly c s t ∧
    t.twin c = s.twin c)) ∧
  (∀ (c : CoreId) (sl y : SlotId) (w : Word) (g : WGroup) (r : Crew) (s : State), GroupReady s c sl g → wClass w = .meet → nfind
    (s.whisk c).crews g.crew = some r → sl.val ∉ r.arrived.getD (wBx w) [] → y ≠ sl → y.val ∈ (s.whisk c).alive r → y.val ∉
    r.arrived.getD (wBx w) [] → Runs (.meetBarrier c sl (some w) .none) s (fun t => AtGroup c sl (fun h => h.wait = .meet (wBx w) ∧
    h.pc = g.pc ∧ h.t = g.t ∧ h.p = g.p) t ∧ nfind (t.whisk c).crews g.crew = some
    { r with arrived := r.arrived.set (wBx w) (sl.val :: r.arrived.getD (wBx w) []), since := if ((s.whisk c).alive r).any (fun x => ((nfind (s.whisk c).groups x).map fun h => h.wait != GroupWait.none).getD false) then r.since else s.elapsed }
    ∧ CoreOnly c s t)) ∧
  (∀ (c : CoreId) (sl : SlotId) (w : Word) (g : WGroup) (r : Crew) (s : State), GroupReady s c sl g → wClass w = .meet → nfind
    (s.whisk c).crews g.crew = some r → r.slots = [sl.val] → r.arrived.getD (wBx w) [] = [] → r.arrived.length = 8 → r.gens.length = 8
    → Runs (.meetBarrier c sl (some w) .none) s (fun t => AtGroup c sl (fun h => GoesOn (g.pc + 8) h ∧ h.t = g.t ∧ h.p = g.p) t ∧
    (nfind (t.whisk c).crews g.crew).map (fun x => x.gens) = some (r.gens.set (wBx w) (r.gens.getD (wBx w) 0 + 1)) ∧ CoreOnly c s t)) ∧
  (∀ (c : CoreId) (sl y : SlotId) (w : Word) (g : WGroup) (r : Crew) (s : State), GroupReady s c sl g → wClass w = .mark → nfind
    (s.whisk c).crews g.crew = some r → sl.val ∉ r.arrived.getD (wBx w) [] → y ≠ sl → y.val ∈ (s.whisk c).alive r → y.val ∉
    r.arrived.getD (wBx w) [] → Runs (.markBarrier c sl (some w) .none) s (fun t => AtGroup c sl (fun h => GoesOn (g.pc + 8) h ∧ h.t =
    g.t ∧ h.p = g.p) t ∧ nfind (t.whisk c).crews g.crew = some
    { r with arrived := r.arrived.set (wBx w) (sl.val :: r.arrived.getD (wBx w) []), since := s.elapsed } ∧ CoreOnly c s t)) ∧
  (∀ (c : CoreId) (sl : SlotId) (w : Word) (g : WGroup) (r : Crew) (n : Nat) (s : State), GroupReady s c sl g → wClass w = .await →
    nfind (s.whisk c).crews g.crew = some r → nfind g.last (wBx w) = some n → Runs (.awaitBarrier c sl (some w) .none) s (fun t =>
    AtGroup c sl (fun h => h.t = g.t ∧ h.p = g.p ∧ (if n < r.gens.getD (wBx w) 0 then GoesOn (g.pc + 8) h else h.wait = .await (wBx w)
    ∧ h.pc = g.pc)) t ∧ CoreOnly c s t)) ∧
  (∀ (c : CoreId) (sl : SlotId) (w : Word) (g : WGroup) (r : Crew) (e : EWord) (s : State), GroupReady s c sl g → wClass w = .exit →
    nfind (s.whisk c).crews g.crew = some r → r.slots = [sl.val] → (s.whisk c).word = some e → (s.whisk c).next < e.launch.groups →
    Runs (.groupExit c sl (some w) .none) s (fun t => nfind (t.whisk c).groups sl.val = none ∧ nfind (t.whisk c).crews g.crew = none ∧
    (∀ x : SlotId, x ≠ sl → nfind (t.whisk c).groups x.val = nfind (s.whisk c).groups x.val) ∧ (t.whisk c).word = some e ∧ t.fget
    Fd.whiskStatus_RESIDENT c = (t.whisk c).groups.length % 256 ∧ t.mem = s.mem ∧ t.twin c = s.twin c)) ∧
  (∀ (c : CoreId) (sl : SlotId) (w : Word) (g : WGroup) (s : State), GroupReady s c sl g → wClass w = .brk → Runs (.brk c sl (some w)
    .none) s (fun t => AtGroup c sl (fun h => h.pc = g.pc + 8 ∧ h.park = 4 ∧ h.t = g.t ∧ h.p = g.p) t ∧ (t.twin c).events = (s.twin
    c).events ||| 2 ∧ CoreOnly c s t)) ∧
  (∀ (c : CoreId) (sl : SlotId) (g : WGroup) (r : Crew) (now : Nat) (s : State), s.coreLive c = true → nfind (s.whisk c).groups sl.val
    = some g → nfind (s.whisk c).crews g.crew = some r → r.slots = [sl.val] → g.wait ≠ .none → g.park = 0 → r.since + 1000 *
    s.devSec.barrierUs ≤ (s.advance now).elapsed → Runs (.barrierStall c sl now) s (fun t => AtGroup c sl (fun h => h.park = 2 ∧ h.pc
    = g.pc ∧ h.wait = g.wait ∧ h.t = g.t ∧ h.p = g.p) t ∧ (t.twin c).events = (s.twin c).events ||| 2 ∧ CoreOnly c (s.advance now) t)) ∧
(∀ (c : CoreId) (sl y : SlotId) (w : Word) (g h : WGroup) (r : Crew) (s : State), GroupReady s c sl g → wClass w = .meet → nfind (s.whisk
    c).crews g.crew = some r → y.val < sl.val → r.slots = [y.val, sl.val] → nfind (s.whisk c).groups y.val = some h → h.crew = g.crew →
    h.wait = .meet (wBx w) → h.park = 0 → h.step = false → r.arrived.getD (wBx w) [] = [y.val] → r.arrived.length = 8 → r.gens.length = 8 →
    Runs (.meetBarrier c sl (some w) .none) s (fun t => AtGroup c sl (fun x => GoesOn (g.pc + 8) x ∧ x.t = g.t ∧ x.p = g.p) t ∧ AtGroup c y
    (fun x => GoesOn (h.pc + 8) x ∧ x.t = h.t ∧ x.p = h.p) t ∧ (nfind (t.whisk c).crews g.crew).map (fun x => (x.gens, x.arrived.getD (wBx
    w) [])) = some (r.gens.set (wBx w) (r.gens.getD (wBx w) 0 + 1), []) ∧ CoreOnly c s t)) ∧
  (∀ (c : CoreId) (sl : SlotId) (w : Word) (g : WGroup) (r : Crew) (i : Instr) (s : State), GroupReady s c sl g → nfind (s.whisk c).crews
    g.crew = some r → sl.val ∈ r.arrived.getD (wBx w) [] → ((wClass w, i) ∈ [(WClass.meet, Instr.meetBarrier c sl (some w) .none), (.mark,
    .markBarrier c sl (some w) .none)]) → Runs i s (fun t => AtGroup c sl (fun h => h = { g with wait := .second (wBx w) (wClass w == .meet) })
    t ∧ (nfind (t.whisk c).crews g.crew).map (fun x => (x.gens, x.arrived)) = some (r.gens, r.arrived) ∧ CoreOnly c s t)) ∧
  (∀ (c : CoreId) (sl : SlotId) (w : Word) (g : WGroup) (s : State), GroupReady s c sl g → wClass w = .await → nfind g.last (wBx w) = none →
    Runs (.awaitBarrier c sl (some w) .none) s (fun t => AtGroup c sl (fun h => GoesOn (g.pc + 8) h ∧ h.t = g.t ∧ h.p = g.p) t ∧ GroupOnly c
    sl g.crew s t)) ∧
  (∀ (c : CoreId) (sl : SlotId) (w : Word) (g : WGroup) (s : State), GroupReady s c sl g → wClass w = .sum → 16 ≤ ((s.core c).sums.getD 1
    []).length → Runs (.whiskSummary c sl (some w) .none) s (Same s)) ∧
  (∀ (c : CoreId) (sl : SlotId) (w : Word) (g : WGroup) (r : Crew) (e : EWord) (s : State), GroupReady s c sl g → wClass w = .exit → nfind
    (s.whisk c).crews g.crew = some r → r.slots = [sl.val] → (s.whisk c).crews.length = 1 → (s.whisk c).word = some e → e.launch.groups ≤
    (s.whisk c).next → (∀ x ∈ (s.whisk c).l1, x.dirty = 0) → Runs (.groupExit c sl (some w) .none) s (fun t => nfind (t.whisk c).groups
    sl.val = none ∧ (t.whisk c).crews = [] ∧ (t.whisk c).word = none ∧ t.fget Fd.whiskCounts_LAUNCHES_DONE c = satAdd
    Fd.whiskCounts_LAUNCHES_DONE.max (s.fget Fd.whiskCounts_LAUNCHES_DONE c) 1 ∧ t.engState c 2 = (if (s.core c).queue 2 = [] then 0 else 1)
    ∧ t.mem = s.mem ∧ t.twin c = s.twin c)) ∧
(∀ (c : CoreId) (sl : SlotId) (w : Word) (g : WGroup) (s : State), GroupReady s c sl g → wClass w = .illegal → Runs (.illegal c (some sl) (some
    w)) s (fun t => AtGroup c sl (fun h => h = { g with park := 5 }) t ∧ (t.twin c).events = (s.twin c).events ||| 2 ∧ CoreOnly c s t))

/-- A launch word is checked, becomes the running word, its crews become resident with their groups' first registers; group commands act on the
groups they name, of one slot or of its crew. R320, R322, R325, R345, R348, R349, R355, R356, R357, R361, Table 9.1, Table 9.8. -/
def Obligations.WhiskLaunchesAndGroupCommands : Prop :=
  (∀ (c : CoreId) (e : EWord) (s : State), s.engReady c 2 = true → (s.whisk c).word = none → (s.whisk c).crews = [] → s.headWord c 2 =
    some e → e.launch.fail = none → 0 < e.launch.groups → Runs (.launch c) s (fun t => (t.whisk c).word = some e ∧ (t.whisk c).next =
    0 ∧ (t.whisk c).icache = [] ∧ t.engState c 2 = 1 ∧ (t.core c).queue 2 = ((s.core c).queue 2).tail ∧ t.twin c = s.twin c ∧ SameRegs
    (fun r u => r = .whiskStatus ∧ u = c.val) s t ∧ CoreOnly c { s with regs := t.regs } t)) ∧
  (∀ (c : CoreId) (e : EWord) (s : State), s.coreLive c = true → (s.whisk c).word = some e → (s.whisk c).crews = [] → (s.whisk
    c).groups = [] → e.launch.crew = 1 → (s.whisk c).next < e.launch.groups → Runs (.crewResident c) s (fun t => AtGroup c 0 (fun h =>
    h.pc = e.launch.entry ∧ h.index = (s.whisk c).next ∧ h.rank = 0 ∧ h.crew = (s.whisk c).next ∧ GoesOn e.launch.entry h ∧ ∀ l : Fin
    32, h.reg 0 l = e.launch.arg % 2 ^ 32 ∧ h.reg 1 l = e.launch.arg / 2 ^ 32 ∧ h.reg 2 l = e.launch.argw) t ∧ (t.whisk c).next =
    (s.whisk c).next + 1 ∧ (t.whisk c).groups.length = 1 ∧ t.fget Fd.whiskStatus_RESIDENT c = 1 ∧ t.twin c = s.twin c ∧ SameRegs (fun
    r u => r = .whiskStatus ∧ u = c.val) s t ∧ CoreOnly c { s with regs := t.regs } t)) ∧
  (∀ (src : Source) (c : CoreId) (sl : SlotId) (g : WGroup) (s : State), s.shut src = false → nfind (s.whisk c).groups sl.val = some g
    → g.park ≠ 0 → g.park ≠ 2 → Runs (.groupResume src c sl false) s (fun t => AtGroup c sl (fun h => h =
    { g with park := 0, missCtx := [] }) t ∧ GroupOnly c sl g.crew s t)) ∧
  (∀ (src : Source) (c : CoreId) (sl : SlotId) (g : WGroup) (r : Crew) (b : Fin 8) (s : State), s.shut src = false → nfind (s.whisk
    c).groups sl.val = some g → g.park = 2 → g.step = false → g.wait = .meet b.val → nfind (s.whisk c).crews g.crew = some r → r.slots
    = [sl.val] → r.arrived.length = 8 → r.gens.length = 8 → Runs (.groupRelease src c sl false) s (fun t => AtGroup c sl (fun h =>
    GoesOn (g.pc + 8) h ∧ h.t = g.t ∧ h.p = g.p) t ∧ (nfind (t.whisk c).crews g.crew).map (fun x => x.gens) = some (r.gens.set b.val
    (r.gens.getD b.val 0 + 1)) ∧ CoreOnly c s t)) ∧
  (∀ (src : Source) (c : CoreId) (sl : SlotId) (g : WGroup) (r : Crew) (e : EWord) (s : State), s.shut src = false → nfind (s.whisk
    c).groups sl.val = some g → nfind (s.whisk c).crews g.crew = some r → r.slots = [sl.val] → (s.whisk c).word = some e → (s.whisk
    c).next < e.launch.groups → Runs (.groupKill src c sl false) s (fun t => nfind (t.whisk c).groups sl.val = none ∧ (∀ x : SlotId, x
    ≠ sl → nfind (t.whisk c).groups x.val = nfind (s.whisk c).groups x.val) ∧ (t.core c).parts = (s.core c).parts.modifyHead (fun p =>
    { p with mark := p.mark.lor (if g.park = 7 then 1 else 2) }) ∧ t.mem = s.mem ∧ t.twin c = s.twin c)) ∧
  (∀ (src : Source) (c : CoreId) (sl : SlotId) (g : WGroup) (s : State), s.shut src = false → s.mayDebug src c = true → nfind (s.whisk
    c).groups sl.val = some g → g.park = 0 → Runs (.groupHalt src c sl false) s (fun t => AtGroup c sl (fun h => h =
    { g with park := 3, step := false }) t ∧ (t.twin c).events = (s.twin c).events ||| 2 ∧ CoreOnly c s t)) ∧
  (∀ (src : Source) (c : CoreId) (sl : SlotId) (g : WGroup) (s : State), s.shut src = false → s.mayDebug src c = true → nfind (s.whisk
    c).groups sl.val = some g → (g.park = 3 ∨ g.park = 4) → g.wait = .none → Runs (.groupStep src c sl false) s (fun t => AtGroup c sl
    (fun h => h = { g with park := 0, step := true }) t ∧ CoreOnly c s t)) ∧
  (∀ (src : Source) (c : CoreId) (v : Word) (g : WGroup) (s : State), s.shut src = false → s.mayDebug src c = true → nfind (s.whisk
    c).groups (s.fget Fd.dbgSel_SLOT c) = some g → (g.park = 3 ∨ g.park = 4) → s.fget Fd.dbgSel_PRED c = 0 → Runs (.dbgDataWrite src c
    v) s (fun t => AtGroup c (s.fget Fd.dbgSel_SLOT c) (fun h => LaneRegs (s.fget Fd.dbgSel_REG c) [s.fget Fd.dbgSel_LANE c] (fun _ =>
    v.toNat) g h ∧ h.pc = g.pc ∧ h.p = g.p ∧ h.park = g.park) t ∧ CoreOnly c s t)) ∧
  (∀ (c : CoreId) (sl : SlotId) (s : State), s.shut .host = false → nfind (s.whisk c).groups sl.val = none → Runs (.groupResume .host
    c sl false) s (fun t => t.fget Fd.hostViol_COUNT = satAdd Fd.hostViol_COUNT.max (s.fget Fd.hostViol_COUNT) 1 ∧ RegsOnly (fun r _
    => r = .hostViol) s t)) ∧
(∀ (c : CoreId) (e : EWord) (r : Nat) (s : State), s.engReady c 2 = true → (s.whisk c).word = none → s.headWord c 2 = some e → e.launch.fail =
    some r → (s.twin c).mode = .halted → Runs (.launch c) s (fun t => t.engState c 2 = 2 ∧ t.fget Fd.whiskStatus_REASON c = r ∧ (t.core
    c).queue 2 = ((s.core c).queue 2).tail ∧ (t.whisk c).word = none ∧ (s.fget Fd.whiskFault_VALID c = 0 → t.fget Fd.whiskFault_REASON c =
    r) ∧ (t.twin c).excs = (s.twin c).excs ++ [(7, 2 ^ 60 * 2 + r)] ∧ t.mem = s.mem)) ∧
  (∀ (c : CoreId) (e : EWord) (s : State), s.engReady c 2 = true → (s.whisk c).word = none → s.headWord c 2 = some e → Quiet (coreDie c) 9 s →
    Runs (.launch c true) s (fun t => t.engState c 2 = 2 ∧ t.fget Fd.whiskStatus_REASON c = 0x21 ∧ t.fget Fd.whiskCounts_PARITY_COUNT c =
    satAdd Fd.whiskCounts_PARITY_COUNT.max (s.fget Fd.whiskCounts_PARITY_COUNT c) 1 ∧ (t.whisk c).word = none ∧ Detected (coreDie c) ⟨9, 1,
    c.val, 0⟩ s t ∧ t.mem = s.mem)) ∧
  (∀ (c : CoreId) (e : EWord) (s : State), s.engReady c 2 = true → (s.whisk c).word = none → (s.whisk c).crews = [] → (∀ x ∈ (s.whisk c).l1,
    x.dirty = 0) → s.headWord c 2 = some e → e.launch.fail = none → e.launch.groups = 0 → Runs (.launch c) s (fun t => (t.whisk c).word =
    none ∧ t.fget Fd.whiskCounts_LAUNCHES_DONE c = satAdd Fd.whiskCounts_LAUNCHES_DONE.max (s.fget Fd.whiskCounts_LAUNCHES_DONE c) 1 ∧
    t.engState c 2 = (if ((s.core c).queue 2).tail = [] then 0 else 1) ∧ (t.core c).queue 2 = ((s.core c).queue 2).tail ∧ t.mem = s.mem ∧
    t.twin c = s.twin c)) ∧
  (∀ (c : CoreId) (e : EWord) (n : Nat) (s : State), s.coreLive c = true → (s.whisk c).word = some e → (s.whisk c).crews = [] → (s.whisk
    c).groups = [] → 0 < n → n = min e.launch.crew (e.launch.groups - (s.whisk c).next) → n ≤ 48 → Runs (.crewResident c) s (fun t => (∀ i,
    i < n → AtGroup c i (fun h => h.index = (s.whisk c).next + i ∧ h.rank = i ∧ h.crew = (s.whisk c).next / e.launch.crew ∧ GoesOn
    e.launch.entry h ∧ h.p = [] ∧ ∀ (r : Fin 64) (l : Fin 32), h.reg r l = if r.val = 0 then e.launch.arg % 2 ^ 32 else if r.val = 1 then
    e.launch.arg / 2 ^ 32 else if r.val = 2 then e.launch.argw else 0) t) ∧ (t.whisk c).next = (s.whisk c).next + n ∧ (t.whisk
    c).groups.length = n ∧ nfind (t.whisk c).crews ((s.whisk c).next / e.launch.crew) = some { slots := List.range n, since := s.elapsed } ∧
    t.fget Fd.whiskStatus_RESIDENT c = n ∧ t.mem = s.mem ∧ t.twin c = s.twin c)) ∧
  (∀ (src : Source) (c : CoreId) (sl x : SlotId) (g h : WGroup) (r : Crew) (s : State), s.shut src = false → nfind (s.whisk c).groups sl.val =
    some g → g.park = 2 → nfind (s.whisk c).crews g.crew = some r → x.val ∈ r.slots → sl.val ∈ r.slots → nfind (s.whisk c).groups x.val =
    some h → h.park = 2 → Runs (.groupResume src c sl false) s (fun t => AtGroup c x (fun k => k = { h with park := 0, missCtx := [] }) t ∧
    (nfind (t.whisk c).crews g.crew) = some { r with since := s.elapsed } ∧ CoreOnly c s t)) ∧
  (∀ (src : Source) (c : CoreId) (sl x : SlotId) (g h : WGroup) (r : Crew) (s : State), s.shut src = false → nfind (s.whisk c).groups sl.val =
    some g → nfind (s.whisk c).crews g.crew = some r → r.slots = [sl.val, x.val] → sl ≠ x → nfind (s.whisk c).groups x.val = some h →
    h.crew = g.crew → g.park ≠ 0 → g.park ≠ 2 → h.park ≠ 0 → h.park ≠ 2 → Runs (.groupResume src c sl true) s (fun t => AtGroup c sl (fun k
    => k = { g with park := 0, missCtx := [] }) t ∧ AtGroup c x (fun k => k = { h with park := 0, missCtx := [] }) t ∧ CoreOnly c s t)) ∧
  (∀ (src : Source) (c : CoreId) (sl x : SlotId) (g h : WGroup) (r : Crew) (e : EWord) (s : State), s.shut src = false → nfind (s.whisk
    c).groups sl.val = some g → nfind (s.whisk c).crews g.crew = some r → r.slots = [sl.val, x.val] → sl ≠ x → nfind (s.whisk c).groups x.val
    = some h → h.crew = g.crew → (s.whisk c).word = some e → (s.whisk c).next < e.launch.groups → Runs (.groupKill src c sl true) s (fun t
    => nfind (t.whisk c).groups sl.val = none ∧ nfind (t.whisk c).groups x.val = none ∧ nfind (t.whisk c).crews g.crew = none ∧ (t.whisk
    c).word = some e ∧ t.mem = s.mem)) ∧
  (∀ (src : Source) (c : CoreId) (sl : SlotId) (g : WGroup) (s : State), s.shut src = false → s.mayDebug src c = true → nfind (s.whisk
    c).groups sl.val = some g → (g.park = 3 ∨ g.park = 4) → g.wait ≠ .none → Runs (.groupStep src c sl false) s (fun t => AtGroup c sl (fun
    h => h = { g with park := 3 }) t ∧ CoreOnly c s t)) ∧
  (∀ (src : Source) (c : CoreId) (v : Word) (g : WGroup) (s : State), s.shut src = false → s.mayDebug src c = true → nfind (s.whisk c).groups
    (s.fget Fd.dbgSel_SLOT c) = some g → (g.park = 3 ∨ g.park = 4) → s.fget Fd.dbgSel_PRED c = 1 → Runs (.dbgDataWrite src c v) s (fun t =>
    AtGroup c (s.fget Fd.dbgSel_SLOT c) (fun h => LanePreds (s.fget Fd.dbgSel_REG c % 8) (List.range 32) (fun l => v.toNat.testBit l) g h ∧
    h.pc = g.pc ∧ h.t = g.t ∧ h.park = g.park) t ∧ CoreOnly c s t)) ∧
  (∀ (c : CoreId) (sl : SlotId) (g : WGroup) (i : Instr) (s : State), s.shut .host = false → s.mayDebug .host c = true → nfind (s.whisk
    c).groups sl.val = some g → (i = .groupResume .host c sl false ∧ g.park = 0 ∨ i = .groupRelease .host c sl false ∧ g.park ≠ 2 ∨ i =
    .groupHalt .host c sl false ∧ g.park ≠ 0 ∨ i = .groupStep .host c sl false ∧ g.park ≠ 3 ∧ g.park ≠ 4 ∨ i = .dbgDataWrite .host c 5 ∧
    s.fget Fd.dbgSel_SLOT c = sl.val ∧ g.park ≠ 3 ∧ g.park ≠ 4) → Runs i s (fun t => t.fget Fd.hostViol_COUNT = satAdd
    Fd.hostViol_COUNT.max (s.fget Fd.hostViol_COUNT) 1 ∧ RegsOnly (fun r _ => r = .hostViol) s t)) ∧
  (∀ (c : CoreId) (sl : SlotId) (i : Instr) (s : State), s.shut .host = false → s.mayDebug .host c = false → i ∈ [Instr.groupHalt .host c sl
    false, .groupStep .host c sl true, .dbgDataWrite .host c 5] → Runs i s (fun t => t.fget Fd.hostViol_COUNT = satAdd
    Fd.hostViol_COUNT.max (s.fget Fd.hostViol_COUNT) 1 ∧ RegsOnly (fun r _ => r = .hostViol) s t))

/-- STREAM and DISCARD words are checked; a stream gives every node of its tree an entry; tiles are checked, injected, accepted hop by hop in turn
and released as panels; a stream finishes, discards, stops and aborts as its rules say. R444, R446, R448, R449, R450, R451, R452, R453, R457,
R459, R462, R463. -/
def Obligations.PourStreamsAndTiles : Prop :=
  (∀ (c : CoreId) (e : EWord) (f : Nat) (tr : Tree) (s : State), s.pourHead c 1 = some e → s.pourFail c e.pour = none → e.pour.count ≠
    0 → s.foldOfCore c = some f → s.treeOf f e.pour.tree = some tr → s.streamsOn f e.pour.tree = [] → s.rootFull tr.root = false →
    (tr.cores.all fun n => (s.pourEntry n e.pour.tree).isSome || (s.freeEntry n).isSome) = true → Runs (.stream c) s (fun t =>
    t.streams = s.streams ++ [{ core := c, fold := f, word := e }] ∧ (∀ n ∈ tr.cores, (t.pourEntry n e.pour.tree).isSome = true) ∧
    (t.core c).queue 4 = ((s.core c).queue 4).tail ∧ t.engState c 4 = 1 ∧ t =
    { s with cores := t.cores, regs := t.regs, streams := t.streams } ∧ SameRegs (fun r u => r = .pourPort ∨ r = .pourStatus ∧ u =
    c.val) s t)) ∧
  (∀ (c : CoreId) (x : StreamSt) (tr : Tree) (a b : State) (h d : Bytes) (s : State), s.streamOf c = some x → s.streamBroken x = false
    → x.inj = none → x.tile < x.word.pour.count → s.streamTree x = some tr → x.at' + 64 + imgN h 0xC 4 ≤ x.word.pour.limit → s.readHbm
    (x.word.pour.src % 2 ^ 48 + x.at') 1 = (a, h, false) → tileHeaderBad h x.tile = false → a.readHbm (x.word.pour.src % 2 ^ 48 +
    x.at' + 64) (imgN h 0xC 4 / 64) = (b, d, false) → Runs (.tileInject c) s (fun t => t.streamOf c = some
    { x with tile := x.tile + 1, at' := x.at' + 64 + imgN h 0xC 4, inj := some ⟨x.tile, h ++ d, tr.children tr.root, true, x.tile + 1 == x.word.pour.count, false⟩ }
    ∧ t = { b with streams := t.streams })) ∧
  (∀ (c node : CoreId) (x : StreamSt) (tr : Tree) (i : Nat) (en : PourEntry) (tile : PourTile) (s : State), s.streamOf c = some x →
    s.streamBroken x = false → s.accepting c node = some x → s.streamTree x = some tr → tr.hops = [(tr.root, node.val)] → tr.dests.testBit node = true → s.pourEntry
    node tr.id = some (i, en) → i < 4 → en.tiles.length < 4 → (∀ y ∈ en.tiles, y.taken = false) → x.inj = some tile → tile.pending =
    [node.val] → tile.taken = true → tr.root ≠ node.val → Runs (.tileAccept c node false) s (fun t => t.pourEntry node tr.id = some
    (i, { en with tiles := en.tiles ++ [{ tile with pending := [], taken := false }] }) ∧ t.streamOf c = some { x with inj := none } ∧
    t.fget Fd.pourPort_SLOTS_FULL node i = en.tiles.length + 1 ∧ t.mem = s.mem ∧ SameRegs (fun r u => r = .pourPort ∧ u = node.val) s
    t)) ∧
  (∀ (c : CoreId) (id n f : Nat) (e : EWord) (en : PourEntry) (y : PourTile) (ys : List PourTile) (s : State), s.mat c =
    { word := some e, arrays := [0] } → s.foldOfCore c = some f → s.pourEntry c id = some (n, en) → n < 4 → en.tiles = y :: ys →
    y.taken = false → s.matRuns c = true → e.mma.pour = true → e.mma.tree = id → e.mma.k ≠ 0 → 0 < e.mma.n → imgN y.data 1 1 =
    e.mma.bfmt → imgN y.data 2 1 = e.mma.bfmt → bit (imgN y.data 3 1) 1 = e.mma.sb → Runs (.panelRelease c id false) s (fun t =>
    (t.mat c).panels = [y.data.drop 64] ∧ (t.mat c).limit = none ∧ (t.mat c).word = some e ∧ t.mem = s.mem ∧ t.twin c = s.twin c ∧
    t.streams = s.streams)) ∧
  (∀ (c : CoreId) (x : StreamSt) (tr : Tree) (s : State), s.streamOf c = some x → s.streamBroken x = false → s.streamTree x = some tr
    → x.word.pour.count ≤ x.tile → s.onItsWay x tr = false → x.word.pour.done < 64 → nhas s.ctrPoison (ctrKey c x.word.pour.done) =
    false → Runs (.streamFinish c) s (fun t => t.ctr (ctrKey c x.word.pour.done) = satAdd (2 ^ 64 - 1) (s.ctr (ctrKey c
    x.word.pour.done)) 1 ∧ SameCtrs (fun k => k = ctrKey c x.word.pour.done) s t ∧ t.fget Fd.pourCounts_STREAMS_DONE c = satAdd
    Fd.pourCounts_STREAMS_DONE.max (s.fget Fd.pourCounts_STREAMS_DONE c) 1 ∧ t.streams = s.streams.filter (fun y => !(y.core == x.core
    && y.fold == x.fold && y.word.pour.tree == x.word.pour.tree)) ∧ t.engState c 4 = (if (s.core c).queue 4 = [] then 0 else 1) ∧
    t.mem = s.mem)) ∧
  (∀ (c : CoreId) (e : EWord) (n f : Nat) (en : PourEntry) (s : State), s.pourHead c 2 = some e → s.pourFail c e.pour = none →
    s.pourEntry c e.pour.tree = some (n, en) → s.foldOfCore c = some f → s.streamsOn f e.pour.tree = [] → (∀ y ∈ en.tiles, y.pending =
    []) → e.pour.done < 64 → nhas s.ctrPoison (ctrKey c e.pour.done) = false → Runs (.pourDiscardWord c) s (fun t => nfind (t.core
    c).pour n = none ∧ (t.core c).queue 4 = ((s.core c).queue 4).tail ∧ t.ctr (ctrKey c e.pour.done) = satAdd (2 ^ 64 - 1) (s.ctr
    (ctrKey c e.pour.done)) 1 ∧ SameCtrs (fun k => k = ctrKey c e.pour.done) s t ∧ t.mem = s.mem ∧ t.streams = s.streams)) ∧
  (∀ (c : CoreId) (x : StreamSt) (s : State), s.streams.find? (fun z => z.core == c.val && s.streamBroken z) = some x → x.orphan =
    false → s.coreFence c = FencePhase.none → Runs (.streamAbort c) s (fun t => t.engState c 4 = 2 ∧ t.fget Fd.pourStatus_REASON c =
    0x30 ∧ t.streams = s.streams.filter (fun y => !(y.core == x.core && y.fold == x.fold && y.word.pour.tree == x.word.pour.tree)))) ∧
(∀ (c node : CoreId) (x : StreamSt) (tr : Tree) (i p : Nat) (en : PourEntry) (tile : PourTile) (s : State), s.accepting c node = some x →
    s.streamTree x = some tr → x.ended = false → tr.hops.find? (fun h => h.2 == node.val) = some (p, node.val) → p ≠ node.val → s.pourEntry
    node tr.id = some (i, en) → i < 4 → s.tileHeld x tr p node = some tile → Runs (.tileAccept c node false) s (fun t => t.pourEntry node
    tr.id = some (i, { en with tiles := slotsLeft (en.tiles ++ [{ tile with pending := tr.children node, taken := !tr.dests.testBit node }]) })
    ∧ nget 1023 (t.core node).hops p = tr.id ∧ (p ≠ tr.root → (t.pourEntry p tr.id).map (fun e => e.2.tiles) = (s.pourEntry p tr.id).map (fun
    e => tileSent e.2.tiles node) ∧ t.streams = s.streams) ∧ (p = tr.root → ∀ y ∈ t.streams, y ∈ s.streams ∨ y =
    { x with inj := (tileSent x.inj.toList node).head? }) ∧ t.mem = s.mem ∧ t.arr = s.arr ∧ SameRegs (fun r u => r = .pourPort ∧ (u = node.val
    ∨ u = p)) s t)) ∧
  (∀ (c node : CoreId) (x : StreamSt) (tr : Tree) (i p : Nat) (en : PourEntry) (tile : PourTile) (s : State), s.accepting c node = some x →
    s.streamTree x = some tr → x.ended = false → tr.hops.find? (fun h => h.2 == node.val) = some (p, node.val) → s.pourEntry node tr.id =
    some (i, en) → s.tileHeld x tr p node = some tile → Quiet (coreDie node) 0x0D s → s.coreFence c = FencePhase.none → Runs (.tileAccept c
    node true) s (fun t => t.fget Fd.pourCounts_CRC_COUNT node = satAdd Fd.pourCounts_CRC_COUNT.max (s.fget Fd.pourCounts_CRC_COUNT node) 1 ∧
    Detected (coreDie node) ⟨0x0D, 1, node.val, tr.id⟩ s t ∧ t.streams = s.streams.filter (fun y => !(y.core == x.core && y.fold == x.fold &&
    y.word.pour.tree == x.word.pour.tree)) ∧ t.engState c 4 = 2 ∧ t.fget Fd.pourStatus_REASON c = 0x30 ∧ t.mem = s.mem)) ∧
  (∀ (c : CoreId) (id n f : Nat) (e : EWord) (en : PourEntry) (y : PourTile) (s : State), (s.mat c).word = some e → (s.mat c).limit = none →
    (s.mat c).panels.length + (s.mat c).round * (s.mat c).arrays.length < min (((s.mat c).round + 2) * (s.mat c).arrays.length) e.mma.colBlocks
    → s.foldOfCore c = some f → s.pourEntry c id = some (n, en) → n < 4 → en.tiles.find? (fun z => !z.taken) = some y → s.matRuns c = true →
    e.mma.pour = true → e.mma.tree = id → e.mma.k ≠ 0 → imgN y.data 2 1 = e.mma.bfmt → bit (imgN y.data 3 1) 1 = e.mma.sb → Runs
    (.panelRelease c id false) s (fun t => (t.mat c).panels = (s.mat c).panels ++ [(expandTile y.data).1] ∧ (t.mat c).limit = none ∧ (t.mat
    c).word = some e ∧ t.fget Fd.pourPort_TILES_TAKEN c n = (if y.old then s.fget Fd.pourPort_TILES_TAKEN c n else satAdd
    Fd.pourPort_TILES_TAKEN.max (s.fget Fd.pourPort_TILES_TAKEN c n) 1) ∧ (slotsLeft (takeFirst en.tiles) ≠ [] → (t.pourEntry c id).map (fun x
    => x.2.tiles) = some (slotsLeft (takeFirst en.tiles))) ∧ t.mem = s.mem ∧ t.twin c = s.twin c ∧ t.streams = s.streams)) ∧
  (∀ (c : CoreId) (id n f : Nat) (e : EWord) (en : PourEntry) (y : PourTile) (s : State), s.mat c = { word := some e, arrays := [0] } →
    s.foldOfCore c = some f → s.pourEntry c id = some (n, en) → n < 4 → en.tiles.find? (fun z => !z.taken) = some y → s.matRuns c = true →
    e.mma.pour = true → e.mma.tree = id → e.mma.k ≠ 0 → 0 < e.mma.n → (imgN y.data 2 1 ≠ e.mma.bfmt ∨ bit (imgN y.data 3 1) 1 ≠ e.mma.sb) →
    Runs (.panelRelease c id false) s (fun t => t.engState c 0 = 2 ∧ t.fget Fd.matrixStatus_REASON c = 0x18 ∧ (t.mat c).word = none ∧ t.mem =
    s.mem)) ∧
  (∀ (c : CoreId) (id n f : Nat) (e : EWord) (en : PourEntry) (y : PourTile) (s : State), s.mat c = { word := some e, arrays := [0] } →
    s.foldOfCore c = some f → s.pourEntry c id = some (n, en) → en.tiles.find? (fun z => !z.taken) = some y → s.matRuns c = true → e.mma.pour
    = true → e.mma.tree = id → e.mma.k ≠ 0 → 0 < e.mma.n → Quiet (coreDie c) 0x0E s → Runs (.panelRelease c id true) s (fun t => t.fget
    Fd.pourCounts_RESIDUE_COUNT c = satAdd Fd.pourCounts_RESIDUE_COUNT.max (s.fget Fd.pourCounts_RESIDUE_COUNT c) 1 ∧ (t.mat c).panels = [] ∧
    Detected (coreDie c) ⟨0x0E, 1, c.val, id⟩ s t ∧ t.mem = s.mem)) ∧
  (∀ (c : CoreId) (x : StreamSt) (tr : Tree) (a : State) (h : Bytes) (bad : Bool) (r : Nat) (s : State), s.streamOf c = some x → s.streams.filter (fun y => y.core == c.val) = [x] →
    s.streamBroken x = false → x.inj = none → x.tile < x.word.pour.count → s.streamTree x = some tr → (s.twin c).mode = .halted → (x.at' + 64
    ≤ x.word.pour.limit → s.readHbm (x.word.pour.src % 2 ^ 48 + x.at') 1 = (a, h, bad)) → (x.word.pour.limit < x.at' + 64 ∧ r = 0x15 ∨ x.at' +
    64 ≤ x.word.pour.limit ∧ bad = true ∧ r = 0x22 ∨ x.at' + 64 ≤ x.word.pour.limit ∧ bad = false ∧ tileHeaderBad h x.tile = true ∧ r = 0x14
    ∨ x.at' + 64 ≤ x.word.pour.limit ∧ bad = false ∧ tileHeaderBad h x.tile = false ∧ x.word.pour.limit < x.at' + 64 + imgN h 0xC 4 ∧ r =
    0x15) → Runs (.tileInject c) s (fun t => t.engState c 4 = 2 ∧ t.fget Fd.pourStatus_REASON c = r ∧ t.streamOf c = none ∧ (t.twin c).excs =
    (s.twin c).excs ++ [(7, 2 ^ 60 * 4 + r)] ∧ (s.fget Fd.pourFault_VALID c = 0 → t.fget Fd.pourFault_TILE c = x.tile % 2 ^ 32))) ∧
  (∀ (c : CoreId) (e : EWord) (op r : Nat) (i : Instr) (s : State), s.pourHead c op = some e → s.pourFail c e.pour = some r → (s.twin c).mode =
    .halted → ((i, op) ∈ [(Instr.stream c, 1), (.pourDiscardWord c, 2)]) → Runs i s (fun t => t.engState c 4 = 2 ∧ t.fget Fd.pourStatus_REASON
    c = r ∧ (t.core c).queue 4 = ((s.core c).queue 4).tail ∧ (s.fget Fd.pourFault_VALID c = 0 → t.fget Fd.pourFault_REASON c = r) ∧ (t.twin
    c).excs = (s.twin c).excs ++ [(7, 2 ^ 60 * 4 + r)] ∧ t.streams = s.streams ∧ t.mem = s.mem)) ∧
  (∀ (c : CoreId) (e : EWord) (s : State), s.pourHead c 1 = some e → s.pourFail c e.pour = none → e.pour.count = 0 → e.pour.done < 64 → nhas
    s.ctrPoison (ctrKey c e.pour.done) = false → Runs (.stream c) s (fun t => t.ctr (ctrKey c e.pour.done) = satAdd (2 ^ 64 - 1) (s.ctr
    (ctrKey c e.pour.done)) 1 ∧ SameCtrs (fun k => k = ctrKey c e.pour.done) s t ∧ (t.core c).queue 4 = ((s.core c).queue 4).tail ∧ t.fget
    Fd.pourCounts_STREAMS_DONE c = satAdd Fd.pourCounts_STREAMS_DONE.max (s.fget Fd.pourCounts_STREAMS_DONE c) 1 ∧ t.streams = s.streams ∧
    t.mem = s.mem)) ∧
  (∀ (c : CoreId) (e : EWord) (f : Nat) (tr : Tree) (s : State), s.pourHead c 1 = some e → s.pourFail c e.pour = none → e.pour.count ≠ 0 →
    s.foldOfCore c = some f → s.treeOf f e.pour.tree = some tr → (s.streamsOn f e.pour.tree ≠ [] ∨ s.rootFull tr.root = true) → Runs (.stream
    c) s (Same s))

/-- A doorbell posts the entries up to its tail, at once or held until its time; held doorbells are released at it, late or unlocked as the
rules say. R467, R468, R469, R481, R482, R483, Table 13.1. -/
def Obligations.DoorbellsPostEntries : Prop :=
  (∀ (r : RingId) (v : Word32) (n : Nat) (s : State), s.shut .host = false → (s.foldOfRing r).isSome = true → v.toNat % 65536 <
    s.ringSize r → n = ((((v.toNat % 65536 : Nat) : Int) - (s.fget Fd.ringPtrs_TAIL r : Nat)) % (s.ringSize r : Nat)).toNat → 0 < n →
    Runs (.dbTail r v) s (fun t => t.ring r = { s.ring r with segs := (s.ring r).segs ++ [{ count := n }] } ∧ t.fget Fd.ringPtrs_TAIL
    r = v.toNat % 65536 ∧ t.fget Fd.ringPtrs_HEAD r = s.fget Fd.ringPtrs_HEAD r ∧ RingOnly (fun q => q = .ringPtrs) r s t)) ∧
  (∀ (r : RingId) (v : Word32) (s : State), s.shut .host = false → (s.foldOfRing r = none ∨ s.ringSize r ≤ v.toNat % 65536) → Runs
    (.dbTail r v) s (fun t => t.fget Fd.ringViol_COUNT r = satAdd Fd.ringViol_COUNT.max (s.fget Fd.ringViol_COUNT r) 1 ∧ RegsOnly (fun
    q u => q = .ringViol ∧ u = r.val) s t)) ∧
  (∀ (r : RingId) (v : Word) (s : State), s.shut .host = false → (s.foldOfRing r).isSome = true → Runs (.dbStart r v) s (fun t =>
    t.ring r = { s.ring r with dbStart := v.toNat } ∧ RingOnly (fun _ => False) r s t)) ∧
  (∀ (r : RingId) (v : Word32) (n : Nat) (s : State), s.shut .host = false → (s.foldOfRing r).isSome = true → v.toNat % 65536 <
    s.ringSize r → n = ((((v.toNat % 65536 : Nat) : Int) - (s.fget Fd.ringPtrs_TAIL r : Nat)) % (s.ringSize r : Nat)).toNat → 0 < n →
    ((s.ring r).segs.filter fun g => g.held).length < 8 → s.now < (s.ring r).dbStart → Runs (.dbTimedTail r v) s (fun t => t.ring r =
    { s.ring r with segs := (s.ring r).segs ++ [{ count := n, start := (s.ring r).dbStart, held := true }] } ∧ t.fget Fd.ringPtrs_TAIL
    r = v.toNat % 65536 ∧ t.fget Fd.ringStatus_HELD r = ((s.ring r).segs.filter fun g => g.held).length + 1 ∧ t.ringState r =
    s.ringState r ∧ RingOnly (fun q => q = .ringPtrs ∨ q = .ringStatus ∨ q = .ringNextStart) r s t)) ∧
  (∀ (r : RingId) (v : Word32) (s : State), s.shut .host = false → (s.foldOfRing r).isSome = true → v.toNat % 65536 < s.ringSize r →
    ((v.toNat % 65536 : Nat) : Int) % (s.ringSize r : Nat) ≠ (s.fget Fd.ringPtrs_TAIL r : Int) % (s.ringSize r : Nat) → 8 ≤ ((s.ring
    r).segs.filter fun g => g.held).length → Runs (.dbTimedTail r v) s (fun t => t.fget Fd.ringViol_COUNT r = satAdd
    Fd.ringViol_COUNT.max (s.fget Fd.ringViol_COUNT r) 1 ∧ RegsOnly (fun q u => q = .ringViol ∧ u = r.val) s t)) ∧
  (∀ (r : RingId) (v : Word32) (n : Nat) (s : State), s.shut .host = false → (s.foldOfRing r).isSome = true → v.toNat % 65536 <
    s.ringSize r → n = ((((v.toNat % 65536 : Nat) : Int) - (s.fget Fd.ringPtrs_TAIL r : Nat)) % (s.ringSize r : Nat)).toNat → 0 < n →
    (∀ g ∈ (s.ring r).segs, g.held = false ∧ g.unlocked = false) → s.fon Fd.quartzStatus_TIME_LOCKED = true → ((s.ring r).dbStart = 0
    ∨ (s.ring r).dbStart < s.now) → Runs (.dbTimedTail r v) s (fun t => t.ring r =
    { s.ring r with segs := (s.ring r).segs ++ [{ count := n, start := (s.ring r).dbStart, late := true, rel := some s.now }] } ∧ t.fget
    Fd.ringCounts_LATE_STARTS r = satAdd Fd.ringCounts_LATE_STARTS.max (s.fget Fd.ringCounts_LATE_STARTS r) 1 ∧ RingOnly (fun q => q =
    .ringPtrs ∨ q = .ringStatus ∨ q = .ringNextStart ∨ q = .ringCounts) r s t)) ∧
  (∀ (r : RingId) (now : Nat) (g : Seg) (s : State), (s.ring r).segs = [g] → g.held = true → g.start ≤ (s.advance now).now → s.fon
    Fd.quartzStatus_TIME_LOCKED = true → Runs (.timedDoorbellRelease r now) s (fun t => t.ring r =
    { s.ring r with segs := [{ g with held := false, unlocked := false, rel := some (if g.late then (s.advance now).now else g.start) }] } ∧ t.fget Fd.ringStatus_HELD r = 0 ∧ t.fget
    Fd.ringCounts_LATE_STARTS r = satAdd Fd.ringCounts_LATE_STARTS.max (s.fget Fd.ringCounts_LATE_STARTS r) (b2n g.late) ∧ RingOnly
    (fun q => q = .ringStatus ∨ q = .ringNextStart ∨ q = .ringCounts) r (s.advance now) t)) ∧
  (∀ (r : RingId) (now : Nat) (g : Seg) (c : RingCmd) (s : State), (s.ring r).segs = [g] → 0 < g.count → g.held = true → g.start ≤
    (s.advance now).now → s.fon Fd.quartzStatus_TIME_LOCKED = false → (s.ring r).cmds = [c] → c.phase = .ready → Runs
    (.timedDoorbellRelease r now) s (fun t => (t.ring r).cmds =
    [{ c with phase := .done, status := 6, detail := 0, need := 0, fin := (s.advance now).now }] ∧ RingOnly (fun q => q = .ringStatus
    ∨ q = .ringNextStart ∨ q = .ringCounts) r (s.advance now) t)) ∧
  (∀ (off width : Nat) (s : State), s.barUp = true → off < 64 * 4096 → (s.foldOfRing (off / 4096) = none ∨ off % 4096 ≠ 0 ∧ off % 4096
    ≠ 8 ∧ off % 4096 ≠ 16) → Runs (.doorbellPageViolation off width) s (fun t => t.fget Fd.ringViol_COUNT (off / 4096) = satAdd
    Fd.ringViol_COUNT.max (s.fget Fd.ringViol_COUNT (off / 4096)) 1 ∧ RegsOnly (fun q u => q = .ringViol ∧ u = off / 4096) s t)) ∧
(∀ (r : RingId) (now : Nat) (g h : Seg) (s : State), (s.ring r).segs = [g, h] → g.held = true → h.held = true → g.start ≤ (s.advance now).now →
    (s.advance now).now < h.start → s.fon Fd.quartzStatus_TIME_LOCKED = true → Runs (.timedDoorbellRelease r now) s (fun t => (t.ring
    r).segs.map (fun x => (x.count, x.held)) = [(g.count, false), (h.count, true)] ∧ t.fget Fd.ringStatus_HELD r = 1 ∧ t.fget
    Fd.ringNextStart_START r = h.start % 2 ^ 64 ∧ (t.ring r).cmds = (s.ring r).cmds ∧ RingOnly (fun q => q = .ringStatus ∨ q =
    .ringNextStart ∨ q = .ringCounts) r (s.advance now) t)) ∧
  (∀ (r : RingId) (now : Nat) (g : Seg) (l : List Seg) (s : State), (s.ring r).segs = g :: l → (∀ x ∈ g :: l, x.held = true) → (s.advance
    now).now < g.start → Runs (.timedDoorbellRelease r now) s (fun t => (t.ring r).segs = g :: l ∧ (t.ring r).cmds = (s.ring r).cmds ∧ t.fget
    Fd.ringCounts_LATE_STARTS r = s.fget Fd.ringCounts_LATE_STARTS r)) ∧
  (∀ (r : RingId) (i : Instr) (s : State), s.shut .host = false → s.foldOfRing r = none → i ∈ [Instr.dbStart r 5, .dbTimedTail r 3] → Runs i s
    (fun t => t.fget Fd.ringViol_COUNT r = satAdd Fd.ringViol_COUNT.max (s.fget Fd.ringViol_COUNT r) 1 ∧ RegsOnly (fun q u => q = .ringViol ∧
    u = r.val) s t)) ∧
  (∀ (r : RingId) (v : Word32) (i : Instr) (s : State), s.shut .host = false → (s.foldOfRing r).isSome = true → v.toNat % 65536 < s.ringSize r →
    v.toNat % 65536 = s.fget Fd.ringPtrs_TAIL r → i ∈ [Instr.dbTail r v, .dbTimedTail r v] → Runs i s (Same s))

/-- A posted entry is fetched in order and checked, its handles looked up; the rings take turns to start their next commands; a command retires
with its signal, its record, its sequence number and its counts. R466, R470, R472, R473, R475, R477, R478, R479, R484, R506, Table 13.6, Table
13.8. -/
def Obligations.RingCommandsAreFetchedStartedAndRetired : Prop :=
  (∀ (r : RingId) (b : Bytes) (g : Seg) (s : State), s.mayMaster = true → s.ringState r = 1 → (s.ring r).segs = [g] → 0 < g.count →
    g.unlocked = false → g.gone = false → (s.ring r).due = [] → (s.ring r).cancelled = [] → (s.ring r).cmds = [] → 0 < s.ringSize r → s.ringSize r ≤ 65536 → b.length = 64 →
    ({ idx := 0, seq := 0, desc := b } : RingCmd).opc = 1 → ({ idx := 0, seq := 0, desc := b } : RingCmd).reserved = false →
    ({ idx := 0, seq := 0, desc := b } : RingCmd).sigHandle / 65536 = 0 → Runs (.descriptorFetch r (.ok b)) s (fun t => t.ring r =
    { s.ring r with cmds := [{ idx := s.fget Fd.ringPtrs_HEAD r, seq := s.reg .ringSeq r + 1, desc := b, phase := .ready, addrs := [(4, 0)] }] }
    ∧ t.fget Fd.ringPtrs_HEAD r = (s.fget Fd.ringPtrs_HEAD r + 1) % s.ringSize r ∧ t.fget Fd.ringPtrs_TAIL r = s.fget Fd.ringPtrs_TAIL
    r ∧ t.out = .hostRead 0 (4096 * s.fget Fd.ringBase_ADDR r + 64 * s.fget Fd.ringPtrs_HEAD r) 64 :: s.out ∧ RingOnly (fun q => q = .ringPtrs) r { s with out := t.out } t)) ∧
  (∀ (r : RingId) (b : Bytes) (g : Seg) (s : State), s.mayMaster = true → s.ringState r = 1 → (s.ring r).segs = [g] → 0 < g.count →
    g.unlocked = false → g.gone = false → (s.ring r).due = [] → (s.ring r).cancelled = [] → (s.ring r).cmds = [] → b.length = 64 → (({ idx := 0, seq := 0, desc := b } : RingCmd).opc = 0 ∨ 6 <
    ({ idx := 0, seq := 0, desc := b } : RingCmd).opc) → Runs (.descriptorFetch r (.ok b)) s (fun t => t.ring r =
    { s.ring r with cmds := [{ idx := s.fget Fd.ringPtrs_HEAD r, seq := s.reg .ringSeq r + 1, desc := b, phase := .done, status := 3, detail := 1, fin := s.now }] }
    ∧ RingOnly (fun q => q = .ringPtrs) r { s with out := t.out } t)) ∧
  (∀ (r : RingId) (g : Seg) (s : State), s.mayMaster = true → s.ringState r = 1 → (s.ring r).segs = [g] → 0 < g.count → g.gone = false → (s.ring r).due = [] → (s.ring r).cancelled = [] → (s.ring
    r).cmds = [] → Quiet 4 0x1C s → Runs (.descriptorFetch r .timeout) s (fun t => t.ring r =
    { s.ring r with cmds := [{ idx := s.fget Fd.ringPtrs_HEAD r, seq := s.reg .ringSeq r + 1, desc := [], phase := .done, status := 9, detail := 1, fin := s.now }] }
    ∧ t.fget Fd.pcieCounts_CPL_TIMEOUTS = satAdd Fd.pcieCounts_CPL_TIMEOUTS.max (s.fget Fd.pcieCounts_CPL_TIMEOUTS) 1 ∧ Detected 4
    ⟨0x1C, 4, 4, 1⟩ s t ∧ OtherRings r s t ∧ t.mem = s.mem)) ∧
  (∀ (r : RingId) (b : Bytes) (c : RingCmd) (s : State), s.mayMaster = true → (s.ring r).cmds = [c] → c.phase = .checking → c.opc = 1
    → c.need = 4 → c.addrs = [] → c.stale = false → s.fon Fd.ctxHtCtl_ENABLE (s.ringCtx r) = true → c.sigHandle % 65536 < s.fget
    Fd.ctxHtCtl_ENTRIES (s.ringCtx r) → c.sigHandle / 65536 ≠ 0 → (leNat (padTo 16 b)).testBit 111 = false → Runs (.handleEntryFetch r
    (.ok b)) s (fun t => (t.ring r).cmds = [c.fails s.now 2 0x4002] ∧ t.htCopies = nset s.htCopies (htKey (s.ringCtx r) (c.sigHandle %
    65536)) (leNat (padTo 16 b)) ∧ t.out = .hostRead 0 (4096 * s.fget Fd.ctxHtAddr_ADDR (s.ringCtx r) + 16 * (c.sigHandle % 65536)) 16 :: s.out ∧ t =
    { s with rings := t.rings, htCopies := t.htCopies, out := t.out } ∧ OtherRings r s t)) ∧
  (∀ (r : RingId) (b : Bytes) (c : RingCmd) (a size perm n k : Nat) (self : Bool) (s : State), s.mayMaster = true → (s.ring r).cmds =
    [c] → c.phase = .checking → c.opc = 1 → c.need = 4 → c.addrs = [] → c.stale = false → s.fon Fd.ctxHtCtl_ENABLE (s.ringCtx r) =
    true → c.sigHandle % 65536 < s.fget Fd.ctxHtCtl_ENTRIES (s.ringCtx r) → c.sigHandle / 65536 ≠ 0 → decideEntry (leNat (padTo 16 b))
    c.sigUse = .found a size perm → s.sigPlace (s.ringFold r) a = .counter self n k → perm.testBit 2 = true → a % 8 = 0 → k < 64 →
    Runs (.handleEntryFetch r (.ok b)) s (fun t => (t.ring r).cmds = [{ c with need := 0, addrs := [(4, a)], phase := .ready }] ∧ t =
    { s with rings := t.rings, htCopies := t.htCopies, out := t.out } ∧ OtherRings r s t)) ∧
  (∀ (r : RingId) (now : Nat) (g : Seg) (c : RingCmd) (s : State), s.ringState r = 1 → (s.ring r).segs = [g] → 0 < g.count → g.held =
    false → (s.ring r).cmds = [c] → c.phase = .ready → c.opc ≠ 2 → c.opc ≠ 5 → (c.opc = 6 ∨ s.foldFence (s.ringFold r) =
    FencePhase.none) → s.nextRing = some r.val → (s.ring r).cancelled = [] → Runs (.commandStart r now) s (fun t => t.ring r =
    { s.ring r with cmds := [{ c with phase := .started, start := (s.advance now).now }], segs := [{ g with rel := none }] } ∧ t.lastRing = r.val ∧
    RingOnly (fun _ => False) r { s.advance now with lastRing := r.val } t)) ∧
  (∀ (r : RingId) (now : Nat) (g : Seg) (c : RingCmd) (s : State), s.ringState r = 1 → (s.ring r).segs = [g] → 0 < g.count → g.held =
    false → (s.ring r).cmds = [c] → c.phase = .ready → c.opc = 1 → s.foldFence (s.ringFold r) ≠ FencePhase.none → s.nextRing = some r.val → Runs (.commandStart
    r now) s (fun t => (t.ring r).cmds = [{ c with phase := .done, status := 4, detail := 0, fin := (s.advance now).now }] ∧ t.lastRing = r.val ∧ RingOnly
    (fun _ => False) r { s.advance now with lastRing := r.val } t)) ∧
  (∀ (r : RingId) (now : Nat) (g : Seg) (c : RingCmd) (s : State), (s.ring r).segs = [g] → 0 < g.count → g.held = true → (s.ring
    r).cmds = [c] → c.phase = .ready → Runs (.commandStart r now) s (Same (s.advance now))) ∧
  (∀ (r : RingId) (g : Seg) (c : RingCmd) (s : State), s.ringState r = 1 → (s.ring r).segs = [g] → 0 < g.count → g.held = false →
    (s.ring r).cmds = [c] → (s.ring r).cancelled = [] → c.told = false → c.phase = .done → c.sig = none → c.sigHandle / 65536 = 0 → c.irq = false → s.mayMaster = true → s.fon
    Fd.pcieStatus_LINK_UP = true → Runs (.commandRetire r true) s (fun t => t.out = .hostWrite (s.fget Fd.ringSeqAddr_ADDR r * 8)
    (leBytes 8 c.seq) :: .hostWrite (4096 * s.fget Fd.ringCplBase_ADDR r + 32 * c.idx) (({ c with sig := some 0 } :
    RingCmd).completion g.late) :: s.out ∧ (t.ring r).cmds = [] ∧ (t.ring r).segs = dropEntry [g] ∧ t.reg .ringSeq r = c.seq % 2 ^ 64
    ∧ t.fget Fd.ringCounts_COMMANDS r = satAdd Fd.ringCounts_COMMANDS.max (s.fget Fd.ringCounts_COMMANDS r) 1 ∧ t =
    { s with regs := t.regs, rings := t.rings, out := t.out } ∧ OtherRings r s t ∧ SameRegs (fun q u => (q = .ringSeq ∨ q =
    .ringCounts) ∧ u = r.val) s t)) ∧
  (∀ (r : RingId) (b : Bool) (c : RingCmd) (l : List RingCmd) (s : State), (s.ring r).cmds = c :: l → (s.ring r).cancelled = [] → c.phase ≠ .done → Runs
    (.commandRetire r b) s (Same s)) ∧
(∀ (r : RingId) (b : Bytes) (g : Seg) (c : RingCmd) (s : State), s.mayMaster = true → s.ringState r = 1 → (s.ring r).due = [] → (s.ring
    r).cancelled = [] → (s.ring r).cmds.length < (s.ring r).total → (aheadCmds (s.ring r).cmds).length < 16 → segAt (s.ring r).segs (s.ring
    r).cmds.length = some g → g.unlocked = false → g.gone = false → b.length = 64 → 0 < s.ringSize r → s.ringSize r ≤ 65536 → c =
    { idx := s.fget Fd.ringPtrs_HEAD r, seq := s.reg .ringSeq r + (s.ring r).cmds.length + 1, desc := b } → Runs (.descriptorFetch r (.ok b)) s
    (fun t => t.ring r = { s.ring r with cmds := (s.ring r).cmds ++ [s.check r (s.ringFold r) c] } ∧ t.fget Fd.ringPtrs_HEAD r = (s.fget
    Fd.ringPtrs_HEAD r + 1) % s.ringSize r ∧ t.out = .hostRead 0 (4096 * s.fget Fd.ringBase_ADDR r + 64 * s.fget Fd.ringPtrs_HEAD r) 64 :: s.out
    ∧ RingOnly (fun q => q = .ringPtrs) r { s with out := t.out } t)) ∧
  (∀ (r : RingId) (d : HostRead) (s : State), (s.mayMaster = false ∨ (s.ring r).due = [] ∧ (s.ringState r = 0 ∨ s.ringState r = 2 ∨ (s.ring
    r).total ≤ (s.ring r).cmds.length ∨ 16 ≤ (aheadCmds (s.ring r).cmds).length)) → Runs (.descriptorFetch r d) s (Same s)) ∧
  (∀ (r : RingId) (c : RingCmd) (d : HostRead) (s : State), s.mayMaster = true → (s.ring r).cmds = [c] → (s.ring r).cancelled = [] → c.need ≠ 0 →
    c.phase = .checking → (d = .timeout ∨ d = .refused) → Quiet 4 0x1C s → Runs (.handleEntryFetch r d) s (fun t => (t.ring r).cmds = [c.fails
    s.now 9 2] ∧ Detected 4 ⟨0x1C, 4, 4, if d = .timeout then 1 else 2⟩ s t ∧ t.htCopies = s.htCopies ∧ t.mem = s.mem)) ∧
  (∀ (r : RingId) (now : Nat) (s : State), (s.advance now).nextRing ≠ some r.val → Runs (.commandStart r now) s (Same (s.advance now))) ∧
  (∀ (r : RingId) (now i : Nat) (c : RingCmd) (s : State), (s.advance now).nextRing = some r.val → (s.advance now).startable r = some (i, c) →
    (c.opc = 6 ∨ s.foldFence (s.ringFold r) = FencePhase.none) → Runs (.commandStart r now) s (fun t => (t.ring r).cmds.getD i c =
    { c with phase := .started, start := (s.advance now).now } ∧ (t.ring r).cmds.length = (s.ring r).cmds.length ∧ t.lastRing = r.val ∧
    RingOnly (fun _ => False) r { s.advance now with lastRing := r.val } t)) ∧
  (∀ (r : RingId) (g : Seg) (c : RingCmd) (s : State), s.ringState r = 1 → (s.ring r).segs = [g] → 0 < g.count → g.held = false → (s.ring r).cmds
    = [c] → (s.ring r).cancelled = [] → c.told = false → c.phase = .done → c.sig = some 0 → c.irq = false → s.mayMaster = true → s.fon
    Fd.pcieStatus_LINK_UP = true → Quiet 4 0x1C s → Runs (.commandRetire r false true) s (fun t => .hostWrite (s.fget Fd.ringSeqAddr_ADDR r * 8)
    (leBytes 8 c.seq) ∈ t.out ∧ t.fget Fd.pcieCounts_WRITES_LOST = satAdd Fd.pcieCounts_WRITES_LOST.max (s.fget Fd.pcieCounts_WRITES_LOST) 1 ∧
    Detected 4 ⟨0x1C, 4, 4, 5⟩ s t ∧ (t.ring r).cmds = [] ∧ t.reg .ringSeq r = c.seq % 2 ^ 64 ∧ t.fget Fd.ringCounts_COMMANDS r = satAdd
    Fd.ringCounts_COMMANDS.max (s.fget Fd.ringCounts_COMMANDS r) 1)) ∧
  (∀ (r : RingId) (g : Seg) (c : RingCmd) (f n k off : Nat) (s : State), s.ringState r = 1 → (s.ring r).segs = [g] → 0 < g.count → g.held = false
    → g.late = false → (s.ring r).cmds = [c] → (s.ring r).cancelled = [] → c.told = false → c.phase = .done → c.status = 0 → c.sig = none →
    c.sigHandle / 65536 % 65536 ≠ 0 → c.sent = false → nhas c.addrs 4 = true → c.irq = false → s.mayMaster = true → s.fon
    Fd.pcieStatus_LINK_UP = true → s.ringBusy r = false → s.sigPlace (s.ringFold r) (c.addr 4) = .counter true n k → s.resolveFold (s.ringFold
    r) 2 (c.addr 4) false (.ring r) = .here f (.pantry n off) → s.placeFenced f (.pantry n off) = false → ctrOfOff off = some k → nhas
    s.ctrPoison (ctrKey n k) = false → Runs (.commandRetire r true) s (fun t => t.ctr (ctrKey n k) = satAdd (2 ^ 64 - 1) (s.ctr (ctrKey n k)) 1
    ∧ SameCtrs (fun x => x = ctrKey n k) s t ∧ t.out = .hostWrite (s.fget Fd.ringSeqAddr_ADDR r * 8) (leBytes 8 c.seq) :: .hostWrite (4096 *
    s.fget Fd.ringCplBase_ADDR r + 32 * c.idx) (({ c with sig := some 0 } : RingCmd).completion false) :: s.out ∧ (t.ring r).cmds = [] ∧ t.mem
    = s.mem)) ∧
  (∀ (r : RingId) (now : Nat) (c : RingCmd) (s : State), s.mayMaster = true → (s.ring r).cancelled = [c] → (s.ring r).cmds = [] → (s.ring r).segs
    = [] → c.sig = some 0 → c.told = false → c.irq = false → s.fon Fd.pcieStatus_LINK_UP = true → now = s.now → Runs (.commandRetire r true) s
    (fun t => t.out = .hostWrite (4096 * s.fget Fd.ringCplBase_ADDR r + 32 * c.idx) (c.completion false) :: s.out ∧ (t.ring r).cancelled = [] ∧
    t.reg .ringSeq r = s.reg .ringSeq r ∧ t.fget Fd.ringCounts_COMMANDS r = satAdd Fd.ringCounts_COMMANDS.max (s.fget Fd.ringCounts_COMMANDS r)
    1))

/-- NOP, KERNEL, WAIT, TIMESTAMP, COLLECTIVE and DOMAIN of a ring do what their rules say when they have started. R485, R486, R490, R491,
R393, R403, R487, R560, R568, R569, R630, R632, Table 13.9. That a write answered FENCED ends a TIMESTAMP ENGINE_FAULT is log 71. -/
def Obligations.RingCommandsDoTheirWork : Prop :=
  (∀ (r : RingId) (c : RingCmd) (s : State), (s.ring r).cmds = [c] → c.phase = .started → c.opc = 1 → Runs (.nop r) s (fun t =>
    (t.ring r).cmds = [{ c with phase := .done, status := 0, detail := 0, fin := s.now }] ∧ RingOnly (fun _ => False) r s t)) ∧
  (∀ (r : RingId) (n : CoreId) (c : RingCmd) (s : State), (s.ring r).cmds = [c] → c.phase = .started → c.opc = 2 → c.cores = [n.val] →
    s.takesPart n = true → (s.core n).parts.length < 4 → s.coreFence n = FencePhase.none → s.fget Fd.corePwr_STATE n = 0 → nhas
    s.ctrPoison (ctrKey n 63) = false → Runs (.kernel r) s (fun t => (t.core n).parts = (s.core n).parts ++
    [{ ring := r.val, seq := c.seq }] ∧ mreads t.mem (pantryKey n (0xFB00 + 64 * (nget 0 s.dispatch n % 4))) 64 = c.record r (n - bits
    (c.word 1) 15 0) ∧ MemBut (pantryKey n (0xFB00 + 64 * (nget 0 s.dispatch n % 4))) 64 s t ∧ nget 0 t.dispatch n = nget 0 s.dispatch
    n + 1 ∧ t.ctr (ctrKey n 63) = satAdd (2 ^ 64 - 1) (s.ctr (ctrKey n 63)) 1 ∧ SameCtrs (fun k => k = ctrKey n 63) s t ∧ (t.ring
    r).cmds = [{ c with phase := .running, left := 1 }] ∧ t.regs = s.regs ∧ OtherRings r s t)) ∧
  (∀ (r : RingId) (n : CoreId) (c : RingCmd) (s : State), (s.ring r).cmds = [c] → c.phase = .started → c.opc = 2 → c.cores = [n.val] →
    s.takesPart n = false → c.status < 8 → Runs (.kernel r) s (fun t => (t.ring r).cmds =
    [{ c with phase := .done, status := 8, detail := 2, left := 0, fin := s.now }] ∧ RingOnly (fun _ => False) r s t)) ∧
  (∀ (r : RingId) (c : RingCmd) (s : State), (s.ring r).cmds = [c] → c.phase = .started → c.opc = 2 → c.cores = [] → Runs (.kernel r)
    s (fun t => (t.ring r).cmds = [{ c with phase := .done, status := 0, detail := 0, fin := s.now }] ∧ RingOnly (fun _ => False) r s
    t)) ∧
  (∀ (r : RingId) (c : RingCmd) (k : Nat) (s : State), (s.ring r).cmds = [c] → c.phase = .started → c.opc = 3 → s.waitCtr (s.ringFold
    r) c = some k → s.coreFence (k / 64) = FencePhase.none → nhas s.ctrPoison k = false → c.word 3 ≤ s.ctr k → Runs (.wait r) s (fun t
    => (t.ring r).cmds = [{ c with phase := .done, status := 0, detail := 0, fin := s.now }] ∧ t =
    { s with rings := t.rings, waiters := t.waiters } ∧ OtherRings r s t)) ∧
  (∀ (r : RingId) (c : RingCmd) (k : Nat) (s : State), (s.ring r).cmds = [c] → c.phase = .started → c.opc = 3 → s.waitCtr (s.ringFold
    r) c = some k → s.coreFence (k / 64) = FencePhase.none → nhas s.ctrPoison k = false → s.ctr k < c.word 3 → nfind s.waiters (20000
    + r) = none → Runs (.wait r) s (fun t => t = { s with waiters := nset s.waiters (20000 + r) ⟨k, c.word 3, none⟩ })) ∧
  (∀ (r : RingId) (c : RingCmd) (k : Nat) (s : State), (s.ring r).cmds = [c] → c.phase = .started → c.opc = 3 → s.waitCtr (s.ringFold
    r) c = some k → s.coreFence (k / 64) ≠ FencePhase.none → Runs (.wait r) s (fun t => (t.ring r).cmds =
    [{ c with phase := .done, status := 4, detail := 0, fin := s.now }] ∧ t = { s with rings := t.rings, waiters := t.waiters } ∧
    OtherRings r s t)) ∧
  (∀ (r : RingId) (now f n off : Nat) (c : RingCmd) (s : State), (s.ring r).cmds = [c] → c.phase = .started → c.opc = 4 → c.sent =
    false → s.ringBusy r = false → s.resolveFold (s.ringFold r) 1 (c.addr 3) false (.ring r) = .here f (.pantry n off) → s.placeFenced
    f (.pantry n off) = false → isCtrOff off = false → isRescueOff off = false → Runs (.timestamp r now) s (fun t => mreads t.mem
    (pantryKey n off) 8 = leBytes 8 c.start ∧ MemBut (pantryKey n off) 8 s t ∧ (t.ring r).cmds =
    [{ c with phase := .done, status := b2n c.cut, detail := 0, fin := (s.advance now).now }] ∧ t.regs = s.regs ∧ OtherRings r s t)) ∧
  (∀ (r : RingId) (c d : RingCmd) (k : Nat) (s : State), (s.ring r).cmds = [c] → c.phase = .started → c.opc = 5 → (c.coll r
    (s.ringFold r) (s.fget Fd.groupEpoch_EPOCH) s.elapsed).reserved (c.word 5) = false →
    (let n := (c.coll r (s.ringFold r) (s.fget Fd.groupEpoch_EPOCH) s.elapsed).spans s.devSec.memberCount (s.member.getD 0);
      s.relocate (s.ringFold r) (s.ringCtx r) none [⟨2, bits (c.word 1) 31 0, c.word 2, n.1, some 0⟩, ⟨3, bits (c.word 1) 63 32,
      c.word 3, n.2, some 1⟩, c.sigUse] c = (d, true)) → s.sigTarget (s.ringFold r) (s.ringCtx r) d = none → s.collCheck (d.coll r
      (s.ringFold r) (s.fget Fd.groupEpoch_EPOCH) s.elapsed) = some k → Runs (.collective r) s (fun t => (t.ring r).cmds = [d.fails
      s.now 3 k] ∧ RingOnly (fun _ => False) r s t)) ∧
  (∀ (r : RingId) (c d : RingCmd) (x : Coll) (s : State), (s.ring r).cmds = [c] → c.phase = .started → c.opc = 5 → (c.coll r
    (s.ringFold r) (s.fget Fd.groupEpoch_EPOCH) s.elapsed).reserved (c.word 5) = false →
    (let n := (c.coll r (s.ringFold r) (s.fget Fd.groupEpoch_EPOCH) s.elapsed).spans s.devSec.memberCount (s.member.getD 0);
      s.relocate (s.ringFold r) (s.ringCtx r) none [⟨2, bits (c.word 1) 31 0, c.word 2, n.1, some 0⟩, ⟨3, bits (c.word 1) 63 32,
      c.word 3, n.2, some 1⟩, c.sigUse] c = (d, true)) → s.sigTarget (s.ringFold r) (s.ringCtx r) d = none → x = d.coll r (s.ringFold
      r) (s.fget Fd.groupEpoch_EPOCH) s.elapsed → s.collCheck x = none → x.elems ≠ 0 → s.colls = [] → s.heldColls = [] → (∀ m ∈
      s.devSec.neighbours (s.member.getD 0), (s.collPort x.fold m 0).isSome = true) → x.epoch < 2 ^ 32 → Runs (.collective r) s (fun t
      => nfind t.colls 0 = some x ∧ t.fget Fd.collSlot_BUSY 0 = 1 ∧ t.fget Fd.collSlot_COLL_ID 0 = x.id ∧ t.fget Fd.collSlot_EPOCH 0 =
      x.epoch ∧ t.fget Fd.groupStatus_OPEN = 1 ∧ (t.ring r).cmds = [{ d with phase := .running, left := 0 }] ∧ t.mem = s.mem)) ∧
  (∀ (r : RingId) (c : RingCmd) (e : Nat) (s : State), (s.ring r).cmds = [c] → c.phase = .started → c.opc = 6 → s.power = none → s.powerWait = [] →
    s.powerCheck (some (s.ringFold r)) (bits (c.word 1) 7 0) (bits (c.word 1) 47 32) (bits (c.word 1) 15 8) (bits (c.word 1) 23 16) =
    some e → Runs (.domain r) s (fun t => t.power = some ⟨some r.val, bits (c.word 1) 7 0, bits (c.word 1) 47 32, bits (c.word 1) 15
    8, bits (c.word 1) 23 16, some e, false, false⟩ ∧ t.fget Fd.powerStatus_BUSY = 1 ∧ (t.ring r).cmds =
    [{ c with phase := .running, left := 0 }] ∧ t = { s with regs := t.regs, rings := t.rings, power := t.power } ∧ SameRegs (fun q _
    => q = .powerStatus) s t ∧ OtherRings r s t)) ∧
  (∀ (r : RingId) (c : RingCmd) (n : CoreId) (s : State), (s.ring r).cmds = [c] → c.phase = .started → c.opc = 6 → s.power = none → s.powerWait = [] →
    s.reset' = none → s.underTest 1 n = false → bits (c.word 1) 7 0 = 1 → bits (c.word 1) 15 8 = 1 → bits (c.word 1) 47 32 = n.val →
    s.powerCheck (some (s.ringFold r)) 1 n 1 (bits (c.word 1) 23 16) = none → s.coreFence n = FencePhase.none → Runs (.domain r) s
    (fun t => t.power = some ⟨some r.val, 1, n.val, 1, bits (c.word 1) 23 16, none, false, false⟩ ∧ t.coreFence n = .fencing ∧
    OtherFences n s t ∧ (t.ring r).cmds = [{ c with phase := .running, left := 0 }] ∧ t.mem = s.mem)) ∧
  (∀ (r : RingId) (now f : Nat) (p : Place) (c : RingCmd) (s : State), (s.ring r).cmds = [c] → c.phase = .started → c.opc = 4 → c.sent =
    false → s.ringBusy r = false → s.resolveFold (s.ringFold r) 1 (c.addr 3) false (.ring r) = .here f p → s.placeFenced f p = true → Runs
    (.timestamp r now) s (fun t => (t.ring r).cmds = [{ c with phase := .done, status := 8, detail := 1, fin := (s.advance now).now }] ∧
    RingOnly (fun _ => False) r (s.advance now) t)) ∧
  (∀ (r : RingId) (c : RingCmd) (k : Nat) (w : Waiter) (s : State), (s.ring r).cmds = [c] → c.phase = .started → c.opc = 3 → s.waitCtr
    (s.ringFold r) c = some k → s.coreFence (k / 64) = FencePhase.none → nfind s.waiters (20000 + r) = some w → w.hit.isSome = true → Runs
    (.wait r) s (fun t => (t.ring r).cmds = [{ c with phase := .done, status := 0, detail := 0, fin := s.now }] ∧ t =
    { s with rings := t.rings, waiters := ndel s.waiters (20000 + r) } ∧ OtherRings r s t)) ∧
  (∀ (r : RingId) (c : RingCmd) (k : Nat) (s : State), (s.ring r).cmds = [c] → c.phase = .started → c.opc = 3 → s.waitCtr (s.ringFold r) c =
    some k → s.coreFence (k / 64) = FencePhase.none → (∀ w, nfind s.waiters (20000 + r) = some w → w.hit = none) → nhas s.ctrPoison k = true
    → Runs (.wait r) s (fun t => (t.ring r).cmds = [{ c with phase := .done, status := 9, detail := 3, fin := s.now }] ∧ t =
    { s with rings := t.rings, waiters := ndel s.waiters (20000 + r) } ∧ OtherRings r s t)) ∧
  (∀ (r : RingId) (n : CoreId) (c : RingCmd) (s : State), (s.ring r).cmds = [c] → c.phase = .started → c.opc = 2 → n.val ∈ c.cores →
    s.takesPart n = true → 4 ≤ (s.core n).parts.length → Runs (.kernel r) s (Same s)) ∧
  (∀ (r : RingId) (n : CoreId) (c : RingCmd) (s : State), (s.ring r).cmds = [c] → c.phase = .started → c.opc = 2 → c.cores = [n.val] →
    s.takesPart n = true → (s.core n).parts.length < 4 → (s.coreFence n ≠ FencePhase.none ∨ s.fget Fd.corePwr_STATE n ≠ 0) → c.status < 4 →
    Runs (.kernel r) s (fun t => (t.ring r).cmds = [{ c with phase := .done, status := 4, detail := 0, left := 0, fin := s.now }] ∧ RingOnly
    (fun _ => False) r s t)) ∧
  (∀ (r : RingId) (n m : CoreId) (c : RingCmd) (s : State), n ≠ m → (s.ring r).cmds = [c] → c.phase = .started → c.opc = 2 → c.cores =
    [n.val, m.val] → (∀ k ∈ [n, m], s.takesPart k = true ∧ (s.core k).parts.length < 4 ∧ s.coreFence k = FencePhase.none ∧ s.fget
    Fd.corePwr_STATE k = 0 ∧ nhas s.ctrPoison (ctrKey k 63) = false) → Runs (.kernel r) s (fun t => (∀ k ∈ [n, m], (t.core k).parts =
    (s.core k).parts ++ [{ ring := r.val, seq := c.seq }] ∧ mreads t.mem (pantryKey k (0xFB00 + 64 * (nget 0 s.dispatch k % 4))) 64 =
    c.record r (k - bits (c.word 1) 15 0) ∧ nget 0 t.dispatch k = nget 0 s.dispatch k + 1 ∧ t.ctr (ctrKey k 63) = satAdd (2 ^ 64 - 1)
    (s.ctr (ctrKey k 63)) 1) ∧ (t.ring r).cmds = [{ c with phase := .running, left := 2 }] ∧ t.regs = s.regs ∧ OtherRings r s t)) ∧
  (∀ (r : RingId) (c : RingCmd) (p : PowerRun) (s : State), (s.ring r).cmds = [c] → c.phase = .started → c.opc = 6 → s.power = some p →
    (s.powerWait.any fun q => q.ring == some r.val) = false → Runs (.domain r) s (fun t => t = { s with powerWait := t.powerWait } ∧
    t.powerWait = s.powerWait ++ [⟨some r.val, bits (c.word 1) 7 0, bits (c.word 1) 47 32, bits (c.word 1) 15 8, bits (c.word 1) 23 16, none,
    false, false⟩])) ∧
  (∀ (r : RingId) (s : State), (∀ c ∈ (s.ring r).cmds, c.phase ≠ .started) → Runs (.nop r) s (Same s) ∧ Runs (.kernel r) s (Same s) ∧ Runs
    (.wait r) s (Same s) ∧ Runs (.timestamp r 0) s (fun t => t = s.advance 0) ∧ Runs (.collective r) s (Same s) ∧ Runs (.domain r) s (Same
    s))

/-- START, STOP_DRAIN, STOP_ABORT and RESET move a ring as Table 13.12 says; a handle table is enabled if it fits, and its copies dropped.
R474, R493, R494, R495, R497, R502, R507, R508, Table 13.11, Table 13.12. -/
def Obligations.RingsStartStopAndReset : Prop :=
  (∀ (src : Source) (r : RingId) (f : Nat) (s : State), s.shut src = false → s.ringState r = 0 → s.foldOfRing r = some f → s.foldOfCtx
    (s.ringCtx r) = some f → 16 ≤ s.ringSize r → s.ringSize r ≤ 65536 → Runs (.ringStart src r) s (fun t => t.ringState r = 1 ∧ (4 ≤
    s.fget Fd.bootStatus_STAGE → t.fget Fd.bootStatus_STAGE = 6) ∧ RegsOnly (fun q u => q = .ringStatus ∧ u = r.val ∨ q = .bootStatus
    ∧ 4 ≤ s.fget Fd.bootStatus_STAGE) s t)) ∧
  (∀ (src : Source) (r : RingId) (s : State), s.shut src = false → s.ringState r = 0 → (s.foldOfRing r = none ∨ s.foldOfCtx (s.ringCtx
    r) = s.foldOfRing r ∧ (s.ringSize r < 16 ∨ 65536 < s.ringSize r)) → Runs (.ringStart src r) s (fun t => t.ringState r = 0 ∧ t.fget
    Fd.ringStatus_REASON r = (if s.foldOfRing r = none then 3 else if s.ringSize r = 0 then 1 else 2) ∧ RegsOnly (fun q u => q =
    .ringStatus ∧ u = r.val) s t)) ∧
  (∀ (r : RingId) (s : State), s.shut .host = false → s.ringState r ≠ 0 → Runs (.ringStart .host r) s (fun t => t.fget
    Fd.ringStatus_REASON r = 5 ∧ t.ringState r = s.ringState r ∧ t.fget Fd.hostViol_COUNT = satAdd Fd.hostViol_COUNT.max (s.fget
    Fd.hostViol_COUNT) 1 ∧ RegsOnly (fun q u => q = .ringStatus ∧ u = r.val ∨ q = .hostViol) s t)) ∧
  (∀ (src : Source) (r : RingId) (s : State), s.shut src = false → s.ringState r = 1 → (s.ring r).cmds = [] → Runs (.stopDrain src r)
    s (fun t => t.ringState r = 0 ∧ t.ring r = s.ring r ∧ RingOnly (fun q => q = .ringStatus) r s t)) ∧
  (∀ (src : Source) (r : RingId) (c d : RingCmd) (s : State), s.shut src = false → s.ringState r = 1 → (s.ring r).cmds = [c, d] → segHeld (s.ring r).segs 0 = false →
    (c.phase = .started ∨ c.phase = .running ∨ c.phase = .done) → d.phase = .ready → Runs (.stopDrain src r) s (fun t => t.ringState r
    = 2 ∧ t.ring r = { s.ring r with cmds := [c] } ∧ t.fget Fd.ringPtrs_HEAD r = d.idx % 65536 ∧ RingOnly (fun q => q = .ringStatus ∨
    q = .ringPtrs) r s t)) ∧
  (∀ (src : Source) (r : RingId) (c : RingCmd) (g : Seg) (s : State), s.shut src = false → (s.ringState r = 1 ∨ s.ringState r = 2) →
    (s.ring r).cmds = [c] → c.phase = .ready → (s.ring r).segs = [g] → 0 < g.count → Runs (.stopAbort src r) s (fun t => t.ringState r
    = 3 ∧ (t.ring r).cmds = [c.fails s.now 1 0] ∧ (t.ring r).segs = [{ g with held := false }] ∧ (t.ring r).abortLeft = g.count ∧
    t.fget Fd.ringStatus_HELD r = 0 ∧ RingOnly (fun q => q = .ringStatus ∨ q = .ringNextStart) r s t)) ∧
  (∀ (src : Source) (r : RingId) (s : State), s.shut src = false → s.ringState r = 0 → Runs (.ringReset src r) s (fun t => t.ring r =
    {} ∧ t.fget Fd.ringPtrs_HEAD r = 0 ∧ t.fget Fd.ringPtrs_TAIL r = 0 ∧ t.reg .ringSeq r = 0 ∧ t.ringState r = 0 ∧ OtherRings r s t ∧
    t.mem = s.mem ∧ t.cores = s.cores)) ∧
  (∀ (src : Source) (c : CtxId) (v : Word32) (s : State), s.shut src = false → s.fon Fd.ctxHtCtl_ENABLE c = false → v.toNat.testBit 31
    = true → (src = .host ∨ (s.foldOfCtx c).isSome = true) → Runs (.ctxHtEnable src c v) s (fun t => t.fget Fd.ctxHtCtl_ENTRIES c =
    v.toNat % 2 ^ 17 ∧ t.fget Fd.ctxHtCtl_REASON c = (if s.foldOfCtx c = none then 3 else if v.toNat % 2 ^ 17 = 0 then 1 else if 65536
    < v.toNat % 2 ^ 17 then 2 else 0) ∧ t.fget Fd.ctxHtCtl_ENABLE c = (if s.foldOfCtx c ≠ none ∧ v.toNat % 2 ^ 17 ≠ 0 ∧ v.toNat % 2 ^
    17 ≤ 65536 then 1 else 0) ∧ RegsOnly (fun q u => q = .ctxHtCtl ∧ u = c.val) s t)) ∧
  (∀ (src : Source) (c : CtxId) (v : Word32) (s : State), s.shut src = false → s.fon Fd.ctxHtCtl_INVAL_BUSY c = false → Runs
    (.ctxHtInval src c v) s (fun t => t.fget Fd.ctxHtCtl_INVAL_BUSY c = 1 ∧ t.htCopies = s.htCopies.filter (fun e => !(e.1 / 65536 ==
    c.val && (bit v.toNat 31 || e.1 % 65536 == bits v.toNat 15 0))) ∧ t =
    { s with regs := t.regs, htCopies := t.htCopies, rings := t.rings } ∧ SameRegs (fun q u => q = .ctxHtCtl ∧ u = c.val) s t)) ∧
  (∀ (c : CtxId) (s : State), Runs (.ctxHtInvalDone c) s (fun t => t.fget Fd.ctxHtCtl_INVAL_BUSY c = 0 ∧ t.fget Fd.ctxHtCtl_ENABLE c =
    s.fget Fd.ctxHtCtl_ENABLE c ∧ RegsOnly (fun q u => q = .ctxHtCtl ∧ u = c.val) s t)) ∧
  (∀ (r : RingId) (s : State), s.shut .host = false → s.ringState r ≠ 1 → Runs (.stopDrain .host r) s (fun t => t.fget Fd.ringStatus_REASON r = 5 ∧
    t.ringState r = s.ringState r ∧ t.ring r = s.ring r ∧ t.fget Fd.hostViol_COUNT = satAdd Fd.hostViol_COUNT.max (s.fget
    Fd.hostViol_COUNT) 1 ∧ RegsOnly (fun q u => q = .ringStatus ∧ u = r.val ∨ q = .hostViol) s t)) ∧
  (∀ (r : RingId) (s : State), s.shut .host = false → s.ringState r ≠ 1 → s.ringState r ≠ 2 → Runs (.stopAbort .host r) s (fun t => t.fget Fd.ringStatus_REASON r = 5 ∧
    t.ringState r = s.ringState r ∧ t.ring r = s.ring r ∧ t.fget Fd.hostViol_COUNT = satAdd Fd.hostViol_COUNT.max (s.fget
    Fd.hostViol_COUNT) 1 ∧ RegsOnly (fun q u => q = .ringStatus ∧ u = r.val ∨ q = .hostViol) s t)) ∧
  (∀ (r : RingId) (s : State), s.shut .host = false → s.ringState r ≠ 0 → Runs (.ringReset .host r) s (fun t => t.fget Fd.ringStatus_REASON r = 5 ∧
    t.ringState r = s.ringState r ∧ t.ring r = s.ring r ∧ t.fget Fd.hostViol_COUNT = satAdd Fd.hostViol_COUNT.max (s.fget
    Fd.hostViol_COUNT) 1 ∧ RegsOnly (fun q u => q = .ringStatus ∧ u = r.val ∨ q = .hostViol) s t)) ∧
  (∀ (src : Source) (r : RingId) (f : Nat) (s : State), s.shut src = false → s.ringState r = 0 → s.foldOfRing r = some f → s.foldOfCtx
    (s.ringCtx r) ≠ some f → Runs (.ringStart src r) s (fun t => t.ringState r = 0 ∧ t.fget Fd.ringStatus_REASON r = 4 ∧ RegsOnly (fun q u =>
    q = .ringStatus ∧ u = r.val) s t)) ∧
  (∀ (src : Source) (r : RingId) (c : RingCmd) (g : Seg) (s : State), s.shut src = false → (s.ringState r = 1 ∨ s.ringState r = 2) →
    (s.ring r).cmds = [c] → c.phase = .started → (s.ring r).segs = [g] → 0 < g.count → Runs (.stopAbort src r) s (fun t => t.ringState r = 3 ∧
    (t.ring r).cmds = [if c.opc = 1 ∨ c.opc = 6 then c else if c.opc = 4 then { c with cut := true } else { c with phase := .done, status := 1, detail := 0, fin := s.now }] ∧
    (t.ring r).abortLeft = g.count ∧ OtherRings r s t ∧ t.cores = s.cores ∧ t.mem = s.mem ∧ SameRegs (fun q u => (q = .ringStatus ∨ q =
    .ringNextStart) ∧ u = r.val) s t)) ∧
  (∀ (src : Source) (r : RingId) (c : RingCmd) (l : List RingCmd) (s : State), s.shut src = false → s.ringState r = 1 → (s.ring r).cmds = c ::
    l → (segHeld (s.ring r).segs 0 = true ∨ c.phase = .ready ∨ c.phase = .checking) → Runs (.stopDrain src r) s (fun t => t.ringState r = 0 ∧
    t.ring r = { s.ring r with cmds := [] } ∧ t.fget Fd.ringPtrs_HEAD r = c.idx % 65536 ∧ RingOnly (fun q => q = .ringStatus ∨ q = .ringPtrs)
    r s t)) ∧
  (∀ (c : CtxId) (v : Word32) (s : State), s.shut .host = false → s.fon Fd.ctxHtCtl_INVAL_BUSY c = true → Runs (.ctxHtInval .host c v) s (fun
    t => t.fget Fd.hostViol_COUNT = satAdd Fd.hostViol_COUNT.max (s.fget Fd.hostViol_COUNT) 1 ∧ RegsOnly (fun q _ => q = .hostViol) s t)) ∧
  (∀ (c : CtxId) (v : Word32) (r : RingId) (x : RingCmd) (s : State), s.shut .host = false → s.fon Fd.ctxHtCtl_INVAL_BUSY c = false → s.ringCtx
    r = c.val → (s.ring r).cmds = [x] → x.need ≠ 0 → Runs (.ctxHtInval .host c v) s (fun t => (t.ring r).cmds = [{ x with stale := true }])) ∧
  (∀ (c : CtxId) (v : Word32) (s : State), s.shut .host = false → (s.foldOfCtx c).isSome = true → (s.fon Fd.ctxHtCtl_ENABLE c = true ∨ v.toNat.testBit 31
    = false) → Runs (.ctxHtEnable .host c v) s (fun t => RegsOnly (fun q u => q = .ctxHtCtl ∧ u = c.val ∨ q = .hostViol) s t))

/-- Codewords choose LANE_MAP and bring the flits of a round in order; a bad lane is mapped out; a port trains to HELD, goes DOWN after
500 ms, retries after 1 s, retrains on command. The lanes TRAINING_LOCK names are beside those whose codewords locked (the model's reading,
log 44). R512, R513, R532, R534, R535, R545, Table 14.2, Table 14.8. -/
def Obligations.LanesTrainDegradeAndReturn : Prop :=
  (∀ (p : PortId) (lane : Fin 4) (rs : CodewordResult) (hdr m : Nat) (s : State), s.portUp p = true → rs ≠ .uncorrectable →
    bits hdr 1 0 = 0 → bits hdr 11 10 = lane.val → (s.port p).lanes.length = 4 →
    m = chooseLanes ((bits hdr 5 2).land (15 - (s.lanesOutOf p).lor (s.fget Fd.portStatus_LANES_FAILED p))) (s.port p).width → m ≠ 0 →
    Runs (.codewordReceive p lane rs hdr) s (fun t =>
      t.fget Fd.portFec_CORRECTED p = (if rs = .good then s.fget Fd.portFec_CORRECTED p else
        satAdd Fd.portFec_CORRECTED.max (s.fget Fd.portFec_CORRECTED p) 1) ∧
      (t.port p).lanes.getD lane {} = ((s.port p).lanes.getD lane {}).codeword true (bits hdr 19 12) s.elapsed ∧
      t.fget Fd.portStatus_RX_LANE_MAP p = bits hdr 9 6 ∧ t.fget Fd.portStatus_PEER_RX_GOOD p = bits hdr 5 2 ∧
      t.fget Fd.portStatus_TX_LANE_MAP p = m ∧ t.portState p = s.portState p ∧ t.mem = s.mem)) ∧
  (∀ (p : PortId) (lane : Fin 4) (rs : CodewordResult) (hdr : Nat) (flits : List Bytes) (s : State), s.portState p = 2 →
    (s.port p).lanes.length = 4 → Runs (.codewordReceive p lane rs hdr flits) s (fun t =>
      (t.port p).lanes.getD lane {} = ((s.port p).lanes.getD lane {}).codeword (rs != .uncorrectable) (bits hdr 19 12) s.elapsed ∧
      t = { s with regs := t.regs, ports := t.ports } ∧ SameRegs (fun r u => r = .portFec ∧ u = p.val) s t ∧ OtherPorts p s t)) ∧
  (∀ (p : PortId) (lane : Fin 4) (hdr : Nat) (rs : CodewordResult) (flits : List Bytes) (s : State),
    (s.portState p = 0 ∨ s.portState p = 1 ∨ s.portState p = 3) → Runs (.codewordReceive p lane rs hdr flits) s (Same s)) ∧
  (∀ (p : PortId) (lane : Fin 4) (hdr : Nat) (flits : List Bytes) (s : State), s.portUp p = true → (s.port p).lanes.length = 4 →
    (s.port p).round = none → flits = [] → Runs (.codewordReceive p lane .uncorrectable hdr flits) s (fun t =>
      t.fget Fd.portFec_UNCORRECTABLE p = satAdd Fd.portFec_UNCORRECTABLE.max (s.fget Fd.portFec_UNCORRECTABLE p) 1 ∧
      (t.port p).lanes.getD lane {} = ((s.port p).lanes.getD lane {}).codeword false (bits hdr 19 12) s.elapsed ∧
      t = { s with regs := t.regs, ports := t.ports } ∧ SameRegs (fun r u => r = .portFec ∧ u = p.val) s t ∧ OtherPorts p s t)) ∧
  (∀ (p : PortId) (lane : Fin 4) (rs : CodewordResult) (hdr : Nat) (flits : List Bytes) (s : State), s.portUp p = true →
    rs ≠ .uncorrectable → bits hdr 1 0 ≠ 0 ∨ bits hdr 11 10 ≠ lane.val → Runs (.codewordReceive p lane rs hdr flits) s (fun t =>
      t.portState p = 2 ∧ t.fget Fd.portEvents_PROTO_ERRORS p = satAdd Fd.portEvents_PROTO_ERRORS.max
        (s.fget Fd.portEvents_PROTO_ERRORS p) 1 ∧ (t.port p).txSeq = 0 ∧ (t.port p).rxSeq = 0)) ∧
  (∀ (p : PortId) (lane : Fin 4) (hdr : Nat) (s : State), s.portUp p = true → bits hdr 1 0 = 0 → bits hdr 11 10 = lane.val →
    (bits hdr 5 2).land (15 - (s.lanesOutOf p).lor (s.fget Fd.portStatus_LANES_FAILED p)) = 0 → Quiet (portDie p) 0x14 s → s.colls = [] →
    Runs (.codewordReceive p lane .good hdr) s (fun t => t.portState p = 2 ∧ Detected (portDie p) ⟨0x14, 2, p.val, 0⟩ s t ∧
      t.fget Fd.portEvents_RETRAINS p = satAdd Fd.portEvents_RETRAINS.max (s.fget Fd.portEvents_RETRAINS p) 1)) ∧
  (∀ (p : PortId) (lane : Fin 4) (hdr m : Nat) (flits : List Bytes) (s : State), s.portUp p = true → bits hdr 1 0 = 0 →
    bits hdr 11 10 = lane.val → m = chooseLanes ((bits hdr 5 2).land (15 - (s.lanesOutOf p).lor (s.fget Fd.portStatus_LANES_FAILED p)))
      (s.port p).width → m ≠ 0 → flits ≠ [] → (s.port p).rounds = [] → (s.port p).round = none →
    (∃ i : Fin 4, i ≠ lane ∧ (bits hdr 9 6).testBit i = true) → Runs (.codewordReceive p lane .good hdr flits) s (fun t =>
      (t.port p).rounds = [⟨bits hdr 19 12, lane, bits hdr 9 6, flits⟩] ∧ (t.port p).round = some (bits hdr 19 12) ∧
      (t.port p).rxSeq = (s.port p).rxSeq ∧ (t.port p).stream = (s.port p).stream)) ∧
  (∀ (p : PortId) (a b : Fin 4) (hdr m n ack : Nat) (l : List Bytes) (s : State), s.portUp p = true → s.colls = [] → bits hdr 1 0 = 0 →
    a < b → bits hdr 11 10 = b.val → bits hdr 9 6 = 2 ^ a.val + 2 ^ b.val → bits hdr 19 12 = n → ack < 4096 →
    m = chooseLanes ((bits hdr 5 2).land (15 - (s.lanesOutOf p).lor (s.fget Fd.portStatus_LANES_FAILED p))) (s.port p).width → m ≠ 0 →
    (s.port p).round = some n → (s.port p).stream = [] → (s.port p).unacked = [] → (s.port p).rxSeq < 4096 →
    l = ((List.range 10).map fun j => flitBytes 1 (((s.port p).rxSeq + j) % 4096) ack []) →
    (s.port p).rounds = [⟨n, a, bits hdr 9 6, (List.range 5).map fun k => l.getD (2 * k) []⟩] →
    Runs (.codewordReceive p b .good hdr ((List.range 5).map fun k => l.getD (2 * k + 1) [])) s (fun t =>
      (t.port p).rxSeq = ((s.port p).rxSeq + 10) % 4096 ∧ (t.port p).rounds = [] ∧ (t.port p).round = some ((n + 1) % 256) ∧
      t.out = ((List.range 10).map fun j => Out.flit p (flitBytes 0 0 (((s.port p).rxSeq + j + 1) % 4096) [])).reverse ++ s.out)) ∧
  (∀ (l : LaneRx) (seq now : Nat), l.lock = true →
    (2 ≤ l.fails → (l.codeword false seq now).lock = false ∧ (l.codeword false seq now).lost = true) ∧
    (15 ≤ (l.badAt.filter fun t => decide (now < t + 100000)).length → (l.codeword false seq now).lost = true) ∧
    (l.lost = false → l.fails < 2 → (l.badAt.filter fun t => decide (now < t + 100000)).length < 15 →
      (l.codeword false seq now).lost = false ∧ (l.codeword false seq now).lock = true)) ∧
  (∀ (l : LaneRx) (seq now : Nat), l.lock = false →
    ((l.codeword true seq now).lock = true ↔ (2 ≤ l.good ∧ seq = (l.seq + 1) % 256))) ∧
  (∀ (p : PortId) (lane : Fin 4) (m : Nat) (s : State), ((s.port p).lanes.getD lane {}).lost = true →
    (s.lanesOutOf p).testBit lane = false → s.responseOf 0x13 ≤ 1 → bit (s.reg .fcActive (portDie p)) 63 = false →
    bit (s.reg .fcPending (portDie p)) 63 = false → s.colls = [] → s.portUp p = true →
    m = chooseLanes ((s.fget Fd.portStatus_PEER_RX_GOOD p).land (15 - ((s.lanesOutOf p).lor
      (s.fget Fd.portStatus_LANES_FAILED p)).lor (2 ^ lane.val))) (s.port p).width → m ≠ 0 → Runs (.laneBad p lane) s (fun t =>
      t.lanesOutOf p = (s.lanesOutOf p).lor (2 ^ lane.val) ∧
      t.fget Fd.portStatus_LANES_FAILED p = (s.fget Fd.portStatus_LANES_FAILED p).lor (2 ^ lane.val) ∧
      t.fget Fd.portStatus_TX_LANE_MAP p = m ∧ (t.rxGood p).testBit lane = false ∧
      t.fget Fd.portEvents_DEGRADES p = satAdd Fd.portEvents_DEGRADES.max (s.fget Fd.portEvents_DEGRADES p) 1 ∧
      t.fget Fd.fcCounts_DETECTIONS (portDie p) = satAdd Fd.fcCounts_DETECTIONS.max (s.fget Fd.fcCounts_DETECTIONS (portDie p)) 1 ∧
      t.reg .fcActive (portDie p) = slotTake ⟨0x13, 2, p.val, lane.val⟩ (s.responseOf 0x13) ∧
      t.reg .fcActiveDetail (portDie p) = lane.val ∧ t.mem = s.mem)) ∧
  (∀ (p : PortId) (lane : Fin 4) (s : State), ((s.port p).lanes.getD lane {}).lost = false ∨ (s.lanesOutOf p).testBit lane = true →
    Runs (.laneBad p lane) s (Same s)) ∧
  (∀ (p : PortId) (rx tx : Fin 16) (fb : Bool) (now m r : Nat) (s : State), s.portState p = 2 →
    r = (rx.val.lor (s.lockedLanes p)).land (15 - s.lanesOutOf p) → r ≠ 0 →
    m = chooseLanes (tx.val.land (15 - (s.lanesOutOf p).lor (s.fget Fd.portStatus_LANES_FAILED p))) (s.port p).width → m ≠ 0 →
    Runs (.trainingLock p rx tx fb now) s (fun t => t.portState p = 4 ∧ t.fget Fd.portStatus_RX_LANE_MAP p = r ∧
      t.fget Fd.portStatus_TX_LANE_MAP p = m ∧ t.fget Fd.portStatus_PEER_RX_GOOD p = tx.val ∧
      t.fget Fd.portStatus_SPEED p = (if s.fget Fd.portCtl_SPEED_SEL p = 0 then 1 + b2n fb else s.fget Fd.portCtl_SPEED_SEL p) ∧
      (∀ i : Fin 4, i.val < (s.port p).lanes.length → r.testBit i = true → ((t.port p).lanes.getD i {}).lock = true) ∧
      SameRegs (fun r u => r = .portStatus ∧ u = p.val) s t ∧ t.mem = s.mem ∧ OtherPorts p s t)) ∧
  (∀ (p : PortId) (rx tx : Fin 16) (fb : Bool) (now : Nat) (s : State), s.portState p = 2 →
    (rx.val.lor (s.lockedLanes p)).land (15 - s.lanesOutOf p) = 0 ∨
      tx.val.land (15 - (s.lanesOutOf p).lor (s.fget Fd.portStatus_LANES_FAILED p)) = 0 →
    Runs (.trainingLock p rx tx fb now) s (fun t => t.portState p = 2 ∧ t.fget Fd.portStatus_PEER_RX_GOOD p = tx.val ∧ t.mem = s.mem ∧
      SameRegs (fun r u => r = .portStatus ∧ u = p.val) s t ∧ OtherPorts p s t)) ∧
  (∀ (p : PortId) (rx tx : Fin 16) (fb : Bool) (now : Nat) (s : State), s.portState p ≠ 2 →
    Runs (.trainingLock p rx tx fb now) s (Same (s.advance now))) ∧
  (∀ (p : PortId) (now : Nat) (s : State), s.portState p = 2 → (s.port p).since + 500000000 ≤ (s.advance now).elapsed → Runs
    (.trainingTimeout p now) s (fun t => t.portState p = 3 ∧ SameRegs (fun r u => r = .portStatus ∧ u = p.val) s t ∧ t.mem = s.mem ∧
    OtherPorts p s t)) ∧
  (∀ (p : PortId) (now : Nat) (s : State), s.portState p ≠ 2 ∨ (s.advance now).elapsed < (s.port p).since + 500000000 →
    Runs (.trainingTimeout p now) s (Same (s.advance now))) ∧
  (∀ (p : PortId) (now : Nat) (s : State), s.portState p = 3 → (s.port p).since + 1000000000 ≤ (s.advance now).elapsed → Runs
    (.downRetry p now) s (fun t => t.portState p = 2 ∧ t.fget Fd.portEvents_RETRAINS p = satAdd Fd.portEvents_RETRAINS.max (s.fget
    Fd.portEvents_RETRAINS p) 1 ∧ (t.port p).txSeq = 0 ∧ (t.port p).rxSeq = 0 ∧ (t.port p).txCred = [1024, 2048, 2048, 128] ∧ t.mem =
    s.mem)) ∧
  (∀ (p : PortId) (now : Nat) (s : State), s.portState p ≠ 3 ∨ (s.advance now).elapsed < (s.port p).since + 1000000000 →
    Runs (.downRetry p now) s (Same (s.advance now))) ∧
  (∀ (src : Source) (p : PortId) (now : Nat) (s : State), s.shut src = false → 2 ≤ s.portState p → Runs (.retrain src p now) s (fun t
    => t.portState p = 2 ∧ t.fget Fd.portEvents_RETRAINS p = satAdd Fd.portEvents_RETRAINS.max (s.fget Fd.portEvents_RETRAINS p) 1 ∧
    t.fget Fd.portStatus_TX_LANE_MAP p = 0 ∧ t.fget Fd.portStatus_RX_LANE_MAP p = 0 ∧ t.fget Fd.portStatus_GEN p = (if s.portState p =
    5 then (s.fget Fd.portStatus_GEN p + 1) % 256 else s.fget Fd.portStatus_GEN p) ∧ t.mem = s.mem)) ∧
  (∀ (src : Source) (p : PortId) (now : Nat) (s : State), s.shut src = false → s.portState p < 2 → Runs (.retrain src p now) s (Same
    (s.advance now))) ∧
  (∀ (src : Source) (p : PortId) (now : Nat) (s : State), s.shut src = false → Runs (.restoreLanes src p now) s
    (fun t => t.portState p = min 2 (s.portState p) ∧ t.lanesOutOf p = s.devSec.lanesOut.getD p 0 % 16 ∧
    t.fget Fd.portStatus_LANES_FAILED p = 0 ∧ t.mem = s.mem))

/-- A flit in order is taken and acknowledged and its packets act, others are answered with NAK; NAK and the timer replay; a replay buffer of
512 holds the next flit back; credits, responses and timeouts act as their rules say. R515, R516, R517, R518, R519, R523, R531, R539, R540,
R545, R546, R701. -/
def Obligations.FlitsCreditsAndResponses : Prop :=
  (∀ (p : PortId) (fseq ack n : Nat) (s : State), n ≤ 15 → s.portUp p = true → fseq % 4096 = (s.port p).rxSeq → (s.port p).txq = [] →
    (s.port p).stream = [] → Runs (.flitReceive p true fseq ack (List.replicate n 0)) s (fun t =>
      (t.port p).rxSeq = ((s.port p).rxSeq + 1) % 4096 ∧ (t.port p).stream = [] ∧
      t.out = .flit p (flitBytes 0 0 (((s.port p).rxSeq + 1) % 4096) []) :: s.out ∧
      (t.port p).unacked = (s.port p).unacked.filter (fun u => !fseqBefore u.1 (ack % 4096)) ∧ PortOnly p s t)) ∧
  (∀ (p : PortId) (fseq ack typ : Nat) (l pkt : List Word) (c : Instr) (s u : State), s.portUp p = true → fseq % 4096 = (s.port p).rxSeq →
    (s.port p).stream ++ l = pkt → l ≠ [] → packetLen (pkt.headD 0).toNat = some pkt.length → slotBits pkt 0 7 0 = typ →
    (typ, c) ∈ [(0x01, Instr.creditReceive p (pkt.headD 0)), (0x10, .loadRequest p pkt), (0x11, .storeRequest p pkt),
      (0x12, .storeMaskedRequest p pkt), (0x13, .signalRequest p pkt), (0x14, .atomicRequest p pkt), (0x20, .rspReceive p pkt)] →
        exec c ((s.flitHead p true 1 fseq ack).1.modPort p fun q => { q with stream := [] }) = .next u → (u.port p).stream = [] →
    Runs (.flitReceive p true fseq ack l) s (fun t => t = u)) ∧
  (∀ (p : PortId) (fseq ack : Nat) (k : Fin 4) (l : List Word) (s : State), s.portUp p = true → (∀ x, (s.port p).nakAt = some x →
    x.1 ≠ (s.port p).rxSeq ∨ x.2 + 1000 ≤ s.elapsed) → Runs (.flitReceive p false fseq ack l k) s (fun t =>
      t.out = .flit p (flitBytes 2 0 (s.port p).rxSeq []) :: s.out ∧ (t.port p).rxSeq = (s.port p).rxSeq ∧
      (t.port p).stream = (s.port p).stream ∧
      t.fget Fd.portRetry_CRC_ERRORS p = satAdd Fd.portRetry_CRC_ERRORS.max (s.fget Fd.portRetry_CRC_ERRORS p) 1 ∧
      (t.port p).nakAt = some ((s.port p).rxSeq, s.elapsed) ∧ t.mem = s.mem ∧
      SameRegs (fun r u => r = .portRetry ∧ u = p.val) s t ∧ OtherPorts p s t)) ∧
  (∀ (p : PortId) (fseq ack : Nat) (l : List Word) (s : State), s.portUp p = true → fseq % 4096 ≠ (s.port p).rxSeq →
    (s.port p).txq = [] → (∀ x, (s.port p).nakAt = some x → x.1 ≠ (s.port p).rxSeq ∨ x.2 + 1000 ≤ s.elapsed) →
    Runs (.flitReceive p true fseq ack l) s (fun t => t.out = .flit p (flitBytes 2 0 (s.port p).rxSeq []) :: s.out ∧
      (t.port p).rxSeq = (s.port p).rxSeq ∧ (t.port p).stream = (s.port p).stream ∧ PortOnly p s t)) ∧
  (∀ (p : PortId) (fseq ack k : Nat) (l : List Word) (s : State), s.portUp p = true → fseq % 4096 ≠ (s.port p).rxSeq →
    (s.port p).txq = [] → (s.port p).nakAt = some ((s.port p).rxSeq, k) → s.elapsed < k + 1000 →
    Runs (.flitReceive p true fseq ack l) s (fun t => t.out = s.out ∧ (t.port p).rxSeq = (s.port p).rxSeq ∧
      (t.port p).stream = (s.port p).stream ∧ PortOnly p s t)) ∧
  (∀ (p : PortId) (fseq ack : Nat) (l : List Word) (s : State), s.portUp p = true → (s.port p).txq = [] →
    Runs (.flitReceive p true fseq ack l 0) s (fun t => t.out = s.out ∧ (t.port p).rxSeq = (s.port p).rxSeq ∧
      (t.port p).unacked = (s.port p).unacked.filter (fun u => !fseqBefore u.1 (ack % 4096)) ∧ PortOnly p s t)) ∧
  (∀ (p : PortId) (fseq ack : Nat) (l f : List Word) (rest : List (Nat × List Word)) (s : State), s.portUp p = true →
    (s.port p).txq = [f] → f.length = 15 → rest = (s.port p).unacked.filter (fun u => !fseqBefore u.1 (ack % 4096)) →
    rest.length < (s.port p).unacked.length → rest.length < 512 → Runs (.flitReceive p true fseq ack l 0) s (fun t =>
      t.out = .flit p (flitBytes 1 ((s.port p).txSeq % 4096) (s.port p).rxSeq f) :: s.out ∧
      (t.port p).unacked = rest ++ [((s.port p).txSeq % 4096, f)] ∧ (t.port p).txSeq = ((s.port p).txSeq + 1) % 4096 ∧ PortOnly p s t)) ∧
  (∀ (p : PortId) (fseq ack : Nat) (l : List Word) (s : State), s.portUp p = true →
    Runs (.flitReceive p true fseq ack l 2) s (fun t => exec (.nakReceive p ack) s = .next t)) ∧
  (∀ (p : PortId) (fseq ack : Nat) (l : List Word) (s : State), s.portUp p = true →
    Runs (.flitReceive p true fseq ack l 3) s (fun t => t.portState p = 2 ∧ t.fget Fd.portEvents_PROTO_ERRORS p =
      satAdd Fd.portEvents_PROTO_ERRORS.max (s.fget Fd.portEvents_PROTO_ERRORS p) 1)) ∧
  (∀ (p : PortId) (ok : Bool) (fseq ack : Nat) (k : Fin 4) (l : List Word) (s : State), s.portState p < 4 →
    Runs (.flitReceive p ok fseq ack l k) s (Same s) ∧ Runs (.nakReceive p fseq) s (Same s)) ∧
  (∀ (p : PortId) (fseq : Nat) (l : List Word) (rest : List (Nat × List Word)) (s : State), s.portUp p = true →
    (s.port p).unacked = (fseq % 4096, l) :: rest → (∀ u ∈ (s.port p).unacked, u.2.length = 15 ∧ fseqBefore u.1 fseq = false) →
    (s.port p).replays < 16 → Runs (.nakReceive p fseq) s (fun t =>
      t.out = ((s.port p).unacked.map fun u => Out.flit p (flitBytes 1 u.1 (s.port p).rxSeq u.2)).reverse ++ s.out ∧
      (t.port p).replays = (s.port p).replays + 1 ∧ (t.port p).unacked = (s.port p).unacked ∧
      t.fget Fd.portRetry_REPLAYS p = satAdd Fd.portRetry_REPLAYS.max (s.fget Fd.portRetry_REPLAYS p) 1 ∧
      SameRegs (fun r u => r = .portRetry ∧ u = p.val) s t ∧ t.mem = s.mem ∧ OtherPorts p s t)) ∧
  (∀ (p : PortId) (fseq : Nat) (s : State), s.portUp p = true → (s.port p).txq = [] →
    (∀ u ∈ (s.port p).unacked, fseqBefore u.1 (fseq % 4096) = true) → Runs (.nakReceive p fseq) s (fun t =>
      t.out = s.out ∧ (t.port p).unacked = [] ∧ PortOnly p s t)) ∧
  (∀ (p : PortId) (fseq : Nat) (l : List Word) (s : State), s.portUp p = true → (s.port p).unacked = [(fseq %
    4096, l)] → 16 ≤ (s.port p).replays → Quiet (portDie p) 0x14 s → s.colls = [] → Runs (.nakReceive p fseq) s (fun t =>
      t.portState p = 2 ∧ Detected (portDie p) ⟨0x14, 2, p.val, 0⟩ s t ∧ (t.port p).unacked = [] ∧ t.mem = s.mem)) ∧
  (∀ (p : PortId) (now : Nat) (u : Nat × List Word) (rest : List (Nat × List Word)) (s : State), s.portUp p = true →
    (s.port p).unacked = u :: rest → (∀ x ∈ u :: rest, x.2.length = 15) → (s.port p).replays < 16 →
    (s.port p).oldest + 4000 ≤ (s.advance now).elapsed → Runs (.replayTimer p now) s (fun t =>
      t.out = ((u :: rest).map fun x => Out.flit p (flitBytes 1 x.1 (s.port p).rxSeq x.2)).reverse ++ s.out ∧
      (t.port p).replays = (s.port p).replays + 1 ∧
      t.fget Fd.portRetry_REPLAYS p = satAdd Fd.portRetry_REPLAYS.max (s.fget Fd.portRetry_REPLAYS p) 1 ∧
      SameRegs (fun r i => r = .portRetry ∧ i = p.val) s t ∧ t.mem = s.mem ∧ OtherPorts p s t)) ∧
  (∀ (p : PortId) (now : Nat) (s : State), (s.port p).unacked = [] ∨ s.portState p < 4 ∨
    (s.advance now).elapsed < (s.port p).oldest + 4000 → Runs (.replayTimer p now) s (Same (s.advance now))) ∧
  (∀ (p : PortId) (w : Word) (s : State), s.portUp p = true → bits w.toNat 15 0 = 1 → (s.port p).wait = [] → Runs (.creditReceive p w)
    s (fun t => (t.port p).txCred = [(s.port p).txCred.getD 0 0 + bits w.toNat 27 16, (s.port p).txCred.getD 1 0 + bits w.toNat 39 28,
    (s.port p).txCred.getD 2 0 + bits w.toNat 51 40, (s.port p).txCred.getD 3 0 + bits w.toNat 63 52] ∧ t =
    { s with ports := t.ports } ∧ OtherPorts p s t)) ∧
  (∀ (p : PortId) (w : Word) (v : Nat) (slots : List Word) (s : State), s.portUp p = true → bits w.toNat 15 0 = 1 → (s.port p).wait =
    [(v, slots)] → packetVc ((slots.headD 0).toNat % 256) = some v → slotBits slots 0 7 0 ≠ 0x41 →
    slots.length ≤ (s.port p).txCred.getD v 0 + bits w.toNat (27 + 12 * v) (16 + 12 * v) → SendsNow p (slots.length / 15 + 1) s →
    Runs (.creditReceive p w) s (fun t => Sent p [slots] s t ∧ (t.port p).wait = [] ∧ (t.port p).txCred.getD v 0 =
      (s.port p).txCred.getD v 0 + bits w.toNat (27 + 12 * v) (16 + 12 * v) - slots.length ∧ PortOnly p s t)) ∧
  (∀ (p : PortId) (w : Word) (v : Nat) (slots : List Word) (s : State), s.portUp p = true → bits w.toNat 15 0 = 1 →
    (s.port p).wait = [(v, slots)] → packetVc ((slots.headD 0).toNat % 256) = some v → slotBits slots 0 7 0 ≠ 0x41 →
    slots.length ≤ (s.port p).txCred.getD v 0 + bits w.toNat (27 + 12 * v) (16 + 12 * v) → 512 ≤ (s.port p).unacked.length →
    Runs (.creditReceive p w) s (fun t => t.out = s.out ∧ (t.port p).wait = [] ∧
      (t.port p).txq = (s.port p).txq ++ flitsOf slots.length slots ∧ PortOnly p s t)) ∧
  (∀ (p : PortId) (w : Word) (v : Nat) (slots : List Word) (s : State), s.portUp p = true → bits w.toNat 15 0 = 1 →
    (s.port p).wait = [(v, slots)] → packetVc ((slots.headD 0).toNat % 256) = some v →
    (s.port p).txCred.getD v 0 + bits w.toNat (27 + 12 * v) (16 + 12 * v) < slots.length →
    Runs (.creditReceive p w) s (fun t => t.out = s.out ∧ (t.port p).wait = (s.port p).wait ∧ PortOnly p s t)) ∧
  (∀ (p : PortId) (w : Word) (s : State), s.portUp p = true → bits w.toNat 7 0 = 1 → bits w.toNat 15 8 ≠ 0 →
    Runs (.creditReceive p w) s (fun t => t.portState p = 2 ∧ t.fget Fd.portEvents_PROTO_ERRORS p =
      satAdd Fd.portEvents_PROTO_ERRORS.max (s.fget Fd.portEvents_PROTO_ERRORS p) 1)) ∧
  (∀ (p : PortId) (w : Word) (s : State), s.portUp p = false ∨ bits w.toNat 7 0 ≠ 1 → Runs (.creditReceive p w) s (Same s)) ∧
  (∀ (p : PortId) (l : List Word) (o : OutReq) (c : CoreId) (b : Requester) (n : Nat) (s : State), s.portUp p = true →
    slotBits l 0 7 0 = 0x20 → l.length = 1 + slotBits l 0 15 8 → slotBits l 0 15 8 ≤ 16 → slotBits l 0 43 40 ≤ 3 →
    slotBits l 0 23 16 = 0 → slotBits l 0 47 44 = 0 → slotBits l 0 63 56 = 0 → l.length ≤ (s.port p).rxCred.getD 1 0 →
    nfind (s.port p).outst (slotBits l 0 39 24) = some o → slotBits l 0 55 48 = s.fget Fd.portStatus_GEN p →
    o.gen = s.fget Fd.portStatus_GEN p → o.by' = b → (b = .twin c ∨ b = .engine c 1 n) → (∀ e ∈ s.ports, e.2.fwd = []) → SendsNow p 1 s →
    Runs (.rspReceive p l) s (fun t => t.replies = s.replies ++ [⟨b, answerOf (slotBits l 0 43 40),
        if o.typ = 0x14 then slotBytes l.tail else padTo o.bytes (slotBytes l.tail)⟩] ∧
      Sent p [[BitVec.ofNat 64 (1 + l.length * 2 ^ 28)]] s t ∧ nfind (t.port p).outst (slotBits l 0 39 24) = none ∧ t.mem = s.mem ∧
      SameRegs (fun r u => r = .portReq ∧ u = p.val) s t ∧ OtherPorts p s t)) ∧
  (∀ (p : PortId) (l : List Word) (o : OutReq) (s : State), s.portUp p = true → slotBits l 0 7 0 = 0x20 → l.length = 1 + slotBits l 0
    15 8 → slotBits l 0 15 8 ≤ 16 → slotBits l 0 43 40 ≤ 3 → slotBits l 0 23 16 = 0 → slotBits l 0 47 44 = 0 → slotBits l 0 63 56 = 0
    → l.length ≤ (s.port p).rxCred.getD 1 0 → nfind (s.port p).outst (slotBits l 0 39 24) = some o →
    slotBits l 0 55 48 ≠ s.fget Fd.portStatus_GEN p ∨ o.gen ≠ s.fget Fd.portStatus_GEN p → Runs (.rspReceive p l) s (fun t =>
      t.replies = s.replies ∧ (t.port p).outst = (s.port p).outst ∧ t.mem = s.mem ∧
      t.fget Fd.portReq_LATE_DROPS p = satAdd Fd.portReq_LATE_DROPS.max (s.fget Fd.portReq_LATE_DROPS p) 1)) ∧
  (∀ (p : PortId) (l : List Word) (k : Nat) (s : State), s.portUp p = true → slotBits l 0 7 0 = 0x20 → l.length = 1 + slotBits l 0
    15 8 → slotBits l 0 15 8 ≤ 16 → slotBits l 0 43 40 ≤ 3 → slotBits l 0 23 16 = 0 → slotBits l 0 47 44 = 0 → slotBits l 0 63 56 = 0
    → l.length ≤ (s.port p).rxCred.getD 1 0 → nfind (s.port p).outst (slotBits l 0 39 24) = none →
    nfind (s.port p).retired (slotBits l 0 39 24) = some k → slotBits l 0 55 48 = s.fget Fd.portStatus_GEN p → Runs (.rspReceive p l) s
    (fun t => t.replies = s.replies ∧ t.mem = s.mem ∧ nhas (t.port p).retired (slotBits l 0 39 24) = decide (2 ^ 64 ≤ k) ∧
      t.fget Fd.portReq_LATE_DROPS p = satAdd Fd.portReq_LATE_DROPS.max (s.fget Fd.portReq_LATE_DROPS p) 1)) ∧
  (∀ (p : PortId) (l : List Word) (s : State), s.portUp p = true → slotBits l 0 7 0 = 0x20 → (l.length ≠ 1 + slotBits l 0 15 8 ∨
      16 < slotBits l 0 15 8 ∨ 3 < slotBits l 0 43 40 ∨ slotBits l 0 23 16 ≠ 0 ∨ slotBits l 0 47 44 ≠ 0 ∨ slotBits l 0 63 56 ≠ 0 ∨
      (s.port p).rxCred.getD 1 0 < l.length) → Runs (.rspReceive p l) s (fun t => t.portState p = 2 ∧ t.fget Fd.portEvents_PROTO_ERRORS p =
      satAdd Fd.portEvents_PROTO_ERRORS.max (s.fget Fd.portEvents_PROTO_ERRORS p) 1)) ∧
  (∀ (p : PortId) (l : List Word) (s : State), s.portUp p = false ∨ slotBits l 0 7 0 ≠ 0x20 → Runs (.rspReceive p l) s (Same s)) ∧
  (∀ (p : PortId) (tag now : Nat) (o : OutReq) (c : CoreId) (b : Requester) (n : Nat) (s : State), nfind (s.port p).outst tag = some o →
    o.by' = b → (b = .twin c ∨ b = .engine c 1 n) → (∀ e ∈ s.ports, e.2.fwd = []) → o.since + 10000000 ≤ (s.advance now).elapsed →
    Quiet (portDie p) 0x16 s → Runs (.portTimeout p tag now) s (fun t =>
      t.replies = s.replies ++ [⟨b, .fenced, List.replicate o.bytes 0⟩] ∧ nfind (t.port p).outst tag = none ∧
      nfind (t.port p).retired tag = some (2 ^ 64) ∧
      t.fget Fd.portEvents_TIMEOUTS p = satAdd Fd.portEvents_TIMEOUTS.max (s.fget Fd.portEvents_TIMEOUTS p) 1 ∧ Detected (portDie
      p) ⟨0x16, 2, p.val, tag % 1024⟩ s t ∧ t.mem = s.mem ∧ OtherPorts p s t)) ∧
  (∀ (p : PortId) (tag now : Nat) (s : State), (∀ o, nfind (s.port p).outst tag = some o → (s.advance now).elapsed < o.since + 10000000) →
    Runs (.portTimeout p tag now) s (Same (s.advance now))) ∧
  (∀ (p : PortId) (tag now k : Nat) (s : State), nfind (s.port p).retired tag = some k → k + 20000000 ≤ (s.advance now).elapsed → Runs
    (.tagRetirementExpiry (.port p) tag now) s (fun t => nfind (t.port p).retired tag = none ∧ (t.port p).outst = (s.port p).outst ∧ t
    = { s.advance now with ports := t.ports } ∧ OtherPorts p s t)) ∧
  (∀ (p : PortId) (tag now : Nat) (s : State), (∀ k, nfind (s.port p).retired tag = some k → (s.advance now).elapsed < k + 20000000) →
    Runs (.tagRetirementExpiry (.port p) tag now) s (Same (s.advance now))) ∧
  (∀ (d : Domain) (tag now n : Nat) (o : HostOp) (c : CoreId) (f : FoldId) (s : State),
    (d = .core c ∧ n = c.val ∨ d = .fold f ∧ n = 288 + f.val) → nfind s.hostOps tag = some o → o.by' = .late n →
    Runs (.tagRetirementExpiry d tag now) s (fun t =>
      t = { s.advance now with hostOps := (if o.since + 20000000 ≤ (s.advance now).elapsed then ndel s.hostOps tag else s.hostOps) })) ∧
  (∀ (d : Domain) (tag now n : Nat) (c : CoreId) (f : FoldId) (s : State),
    (d = .core c ∧ n = c.val ∨ d = .fold f ∧ n = 288 + f.val) → (∀ o, nfind s.hostOps tag = some o → o.by' ≠ .late n) →
    Runs (.tagRetirementExpiry d tag now) s (Same (s.advance now)))

/-- A request of another member that is admitted is performed on this member's Pantry or forwarded, and one RSP goes back with its tag and
generation; one to a fenced or held place is answered FENCED, a strange address is a violation, a malformed packet a protocol error.
R521, R522, R523, R524, R525, R541, R544, R545, Table 14.5, Table 14.6. -/
def Obligations.RequestsOfMembersArePerformed : Prop :=
  (∀ (p : PortId) (l : List Word) (f c off : Nat) (s : State), RemoteAccess p 0x10 l 0 f c off s →
    Runs (.loadRequest p l) s (fun t => Answered p l (if s.pantryPoison c off (slotBits l 0 14 8) then 3 else 0)
      (s.pantryBytes c off (slotBits l 0 14 8)) s t ∧ PortOnly p s t)) ∧
  (∀ (p : PortId) (l : List Word) (f c off n : Nat) (s : State), RemoteAccess p 0x11 l 1 f c off s → slotBits l 0 46 40 = 0x7F → n =
    slotBits l 0 14 8 → isCtrOff off = false → isRescueOff off = false → s.isPoison (pantryKey c off / 64) = false → Runs
    (.storeRequest p l) s (fun t => Answered p l 0 [] s t ∧ mreads t.mem (pantryKey c off) n = (slotBytes (l.drop 2)).take n ∧ MemBut
    (pantryKey c off) n s t ∧ t.regs = s.regs ∧ t.arr = s.arr ∧ OtherPorts p s t)) ∧
  (∀ (p : PortId) (l : List Word) (f c off n k : Nat) (s : State), RemoteAccess p 0x11 l 1 f c off s → slotBits l 0 46 40 = k → k < 64 →
    n = slotBits l 0 14 8 → isCtrOff off = false → isRescueOff off = false → s.isPoison (pantryKey c off / 64) = false →
    nhas s.ctrPoison (ctrKey c k) = false → Runs (.storeRequest p l) s (fun t => Answered p l 0 [] s t ∧
      mreads t.mem (pantryKey c off) n = (slotBytes (l.drop 2)).take n ∧ MemBut (pantryKey c off) n s t ∧
      t.ctr (ctrKey c k) = satAdd (2 ^ 64 - 1) (s.ctr (ctrKey c k)) 1 ∧ SameCtrs (fun x => x = ctrKey c k) s t ∧ t.regs = s.regs ∧
      OtherPorts p s t)) ∧
  (∀ (p : PortId) (l : List Word) (f c off : Nat) (s : State), RemoteAccess p 0x12 l 1 f c off s → slotBits l 0 46 40 = 0x7F → off %
    64 = 0 → isCtrOff off = false → isRescueOff off = false → s.isPoison (pantryKey c off / 64) = false → Runs (.storeMaskedRequest p
    l) s (fun t => Answered p l 0 [] s t ∧ mreads t.mem (pantryKey c off) 64 = (List.range 64).map (fun i => if (slotBits l 2 63
    0).testBit i then (slotBytes (l.drop 3)).getD i 0 else mread s.mem (pantryKey c off + i)) ∧ MemBut (pantryKey c off) 64 s t ∧
    t.regs = s.regs ∧ t.arr = s.arr ∧ OtherPorts p s t)) ∧
  (∀ (p : PortId) (l : List Word) (f c off n : Nat) (s : State), RemoteAccess p 0x13 l 2 f c off s → ctrOfOff off = some n → nhas
    s.ctrPoison (ctrKey c n) = false → Runs (.signalRequest p l) s (fun t => Answered p l 0 [] s t ∧ t.ctr (ctrKey c n) = satAdd (2 ^
    64 - 1) (s.ctr (ctrKey c n)) (slotBits l 2 63 0) ∧ SameCtrs (fun k => k = ctrKey c n) s t ∧ t.mem = s.mem ∧ t.regs = s.regs ∧
    OtherPorts p s t)) ∧
  (∀ (p : PortId) (l : List Word) (f c off n : Nat) (s : State), RemoteAccess p 0x14 l 3 f c off s → slotBits l 0 59 56 ≠ 9 → n =
    slotBits l 0 14 8 → isCtrOff off = false → isRescueOff off = false → s.pantryPoison c off n = false → Runs (.atomicRequest p l) s
    (fun t => Answered p l 0 (leBytes n (leNat (s.pantryBytes c off n))) s t ∧ mreads t.mem (pantryKey c off) n = leBytes n (atomicOp
    (slotBits l 0 59 56) n (leNat (s.pantryBytes c off n)) (slotBits l 2 63 0 % 2 ^ (8 * n)) 0) ∧ MemBut (pantryKey c off) n s t ∧
    t.regs = s.regs ∧ OtherPorts p s t)) ∧
  (∀ (p : PortId) (l : List Word) (f c off old : Nat) (s : State), RemoteAccess p 0x14 l 3 f c off s → slotBits l 0 59 56 = 9 →
    slotBits l 0 14 8 = 8 → isCtrOff off = false → isRescueOff off = false → s.pantryPoison c off 8 = false →
    old = leNat (s.pantryBytes c off 8) → Runs (.atomicRequest p l) s (fun t => Answered p l 0 (leBytes 8 old) s t ∧
      leNat (mreads t.mem (pantryKey c off) 8) = (if old = slotBits l 2 63 0 then slotBits l 3 63 0 else old) ∧
      MemBut (pantryKey c off) 8 s t ∧ t.regs = s.regs ∧ OtherPorts p s t)) ∧
  (∀ (p : PortId) (l : List Word) (f c off a b old x : Nat) (s : State), RemoteAccess p 0x14 l 3 f c off s → slotBits l 0 59 56 = 9 →
    slotBits l 0 14 8 = 4 → slotBits l 0 23 19 = 1 → isCtrOff off = false → isRescueOff off = false → s.pantryPoison c off 4 = false →
    old = leNat (s.pantryBytes c off 4) → a = (if old = slotBits l 2 31 0 then slotBits l 2 63 32 else old) → a = b →
    x = (if b = slotBits l 3 31 0 then slotBits l 3 63 32 else b) → Runs (.atomicRequest p l) s (fun t =>
      Answered p l 0 (leBytes 4 old ++ leBytes 4 a) s t ∧ leNat (mreads t.mem (pantryKey c off) 4) = x ∧
      MemBut (pantryKey c off) 4 s t ∧ t.regs = s.regs ∧ OtherPorts p s t)) ∧
  (∀ (p : PortId) (l : List Word) (c : Instr) (typ f : Nat) (s : State), (typ, c) ∈ requestRows p l → s.portUp p = true →
    slotBits l 0 7 0 = typ → requestOk l = true → l.length ≤ (s.port p).rxCred.getD 0 0 → (s.portState p = 4 ∨
      s.portFence p ≠ FencePhase.none ∨ s.foldOfPort p = some f ∧ (s.foldFence f ≠ FencePhase.none ∨ s.foldUpdating f = true)) →
    (s.port p).wait = [] → 1 ≤ (s.port p).txCred.getD 1 0 → SendsNow p 2 s → (∀ e ∈ s.ports, e.2.fwd = []) →
    Runs c s (fun t => Answered p l 1 [] s t ∧ PortOnly p s t)) ∧
  (∀ (p : PortId) (l : List Word) (c : Instr) (typ f k off : Nat) (s : State), (typ, c) ∈ requestRows p l → s.portState p = 5 →
    slotBits l 0 7 0 = typ → requestOk l = true → l.length ≤ (s.port p).rxCred.getD 0 0 → s.portFence p = FencePhase.none →
    s.foldOfPort p = some f → s.foldFence f = FencePhase.none → s.foldUpdating f = false →
    s.member = some (slotBits l 1 63 0 / 2 ^ 48) → s.resolveRemote p (requestAct l).1.perm (slotBits l 1 63 0) = .here f (.pantry k off) →
    isCtrOff off = false → isRescueOff off = false → typ ≠ 0x13 → s.placeFenced f (.pantry k off) = true → (s.port p).wait = [] →
    17 ≤ (s.port p).txCred.getD 1 0 → SendsNow p 3 s → (∀ e ∈ s.ports, e.2.fwd = []) → Runs c s (fun t =>
      Answered p l 1 ((requestAct l).1.zeros (requestAct l).2) s t ∧ PortOnly p s t)) ∧
  (∀ (p : PortId) (l : List Word) (c : Instr) (typ f : Nat) (s : State), (typ, c) ∈ requestRows p l → s.portState p = 5 →
    slotBits l 0 7 0 = typ → requestOk l = true → l.length ≤ (s.port p).rxCred.getD 0 0 → s.portFence p = FencePhase.none →
    s.foldOfPort p = some f → s.foldFence f = FencePhase.none → s.foldUpdating f = false →
    s.member ≠ some (slotBits l 1 63 0 / 2 ^ 48) → (s.port p).wait = [] → 17 ≤ (s.port p).txCred.getD 1 0 → SendsNow p 3 s →
    (∀ e ∈ s.ports, e.2.fwd = []) → Runs c s (fun t => Answered p l 0 ((requestAct l).1.zeros (requestAct l).2) s t ∧
      t.fget Fd.portViol_COUNT p = satAdd Fd.portViol_COUNT.max (s.fget Fd.portViol_COUNT p) 1 ∧
      SameRegs (fun r u => r = .portViol ∧ u = p.val) s t ∧ t.mem = s.mem ∧ t.arr = s.arr ∧ OtherPorts p s t)) ∧
  (∀ (p q : PortId) (l : List Word) (c : Instr) (typ f g a : Nat) (x : List Out) (s : State), (typ, c) ∈ requestRows p l → s.portState p = 5 →
    slotBits l 0 7 0 = typ → requestOk l = true → l.length ≤ (s.port p).rxCred.getD 0 0 → s.portFence p = FencePhase.none →
    s.foldOfPort p = some f → s.foldFence f = FencePhase.none → s.foldUpdating f = false →
    s.member = some (slotBits l 1 63 0 / 2 ^ 48) → s.resolveRemote p (requestAct l).1.perm (slotBits l 1 63 0) = .away g a →
    slotBits l 0 18 16 < 7 → s.groupPorts g (a / 2 ^ 48) = some [q.val] → s.portFence q = FencePhase.none → q ≠ p → (s.port q).outst = [] →
    (∀ e ∈ s.ports, e.2.outst = []) → (s.port q).retired = [] → (s.port q).wait = [] → 34 ≤ (s.port q).txCred.getD 0 0 → SendsNow q 3 s →
    SendsNow p 1 s → (∀ e ∈ s.ports, e.2.fwd = []) → Sent p [[BitVec.ofNat 64 (1 + l.length * 2 ^ 16)]] s { s with out := x } →
    Runs c s (fun t => Sent q [requestSlots (requestAct l).1 a (requestAct l).2 0 (s.fget Fd.portStatus_GEN q)
        (slotBits l 0 18 16 + 1) (slotBits l 0 46 40)] { s with out := x } t ∧ t.mem = s.mem ∧ t.arr = s.arr ∧
      (t.port q).outst = [(0, ⟨.forward p (slotBits l 0 39 24) (slotBits l 0 55 48), typ, a, (requestAct l).2, s.elapsed,
        s.fget Fd.portStatus_GEN q⟩)])) ∧
  (∀ (p q : PortId) (l : List Word) (o : OutReq) (tag gen : Nat) (x : List Out) (s : State), s.portUp q = true → slotBits l 0 7 0 = 0x20 →
    l.length = 1 + slotBits l 0 15 8 → slotBits l 0 15 8 ≤ 16 → slotBits l 0 43 40 ≤ 3 → slotBits l 0 23 16 = 0 →
    slotBits l 0 47 44 = 0 → slotBits l 0 63 56 = 0 → l.length ≤ (s.port q).rxCred.getD 1 0 →
    nfind (s.port q).outst (slotBits l 0 39 24) = some o → slotBits l 0 55 48 = s.fget Fd.portStatus_GEN q →
    o.gen = s.fget Fd.portStatus_GEN q → o.by' = .forward p tag gen → o.typ = 0x10 → o.len = 8 * slotBits l 0 15 8 → o.len ≤ 64 →
    s.portState p = 5 → p ≠ q → (s.port p).wait = [] → 9 ≤ (s.port p).txCred.getD 1 0 → SendsNow p 1 s → SendsNow q 1 s →
    (∀ e ∈ s.ports, e.2.fwd = []) → Sent q [[BitVec.ofNat 64 (1 + l.length * 2 ^ 28)]] s { s with out := x } →
    Runs (.rspReceive q l) s (fun t => Sent p [rspSlots tag gen (slotBits l 0 43 40) (slotBytes l.tail)] { s with out := x } t ∧ t.mem = s.mem ∧ t.replies = s.replies ∧
      nfind (t.port q).outst (slotBits l 0 39 24) = none)) ∧
  (∀ (p : PortId) (l : List Word) (c : Instr) (typ : Nat) (s : State), (typ, c) ∈ requestRows p l → s.portUp p = true →
    knownType (slotBits l 0 7 0) = false ∨ slotBits l 0 7 0 = typ ∧ (requestOk l = false ∨ (s.port p).rxCred.getD 0 0 < l.length) →
    Runs c s (fun t => t.portState p = 2 ∧ t.fget Fd.portEvents_PROTO_ERRORS p =
      satAdd Fd.portEvents_PROTO_ERRORS.max (s.fget Fd.portEvents_PROTO_ERRORS p) 1)) ∧
  (∀ (p : PortId) (l : List Word) (c : Instr) (typ : Nat) (s : State), (typ, c) ∈ requestRows p l → s.portUp p = false ∨
    knownType (slotBits l 0 7 0) = true ∧ slotBits l 0 7 0 ≠ typ → Runs c s (Same s))

/-- A port sends its agreement record when due; a record that agrees makes it ACTIVE, one that does not holds it or returns it to HELD;
silence for 350 ms undoes it. R563, R564, R565, R566, R567, R583, R588, Table 15.1, Table 15.4. -/
def Obligations.MembersAgree : Prop :=
  (∀ (p : PortId) (now : Nat) (s : State), s.portUp p = true → ((s.port p).lastTx ≠ s.agreement ∨ (s.port p).agreeTx + 100000000 ≤
    (s.advance now).elapsed) → (s.port p).wait = [] → 8 ≤ (s.port p).txCred.getD 3 0 → SendsNow p 1 s → Runs (.agreeSend p now) s (fun t =>
    Sent p [s.agreement] s t ∧ (t.port p).lastTx = s.agreement ∧ (t.port p).agreeTx = (s.advance now).elapsed ∧ PortOnly p
    (s.advance now) t)) ∧
  (∀ (p : PortId) (now : Nat) (s : State), s.portUp p = true → ((s.port p).lastTx ≠ s.agreement ∨ (s.port p).agreeTx + 100000000 ≤
    (s.advance now).elapsed) → (s.port p).txCred.getD 3 0 < 8 → Runs (.agreeSend p now) s (fun t => t.out = s.out ∧
    (t.port p).wait = (s.port p).wait ++ [(3, s.agreement)] ∧ (t.port p).lastTx = s.agreement ∧ PortOnly p (s.advance now) t)) ∧
  (∀ (p : PortId) (now : Nat) (s : State), ((s.port p).lastTx = s.agreement ∧ (s.advance now).elapsed < (s.port p).agreeTx + 100000000
    ∨ s.portUp p = false) → Runs (.agreeSend p now) s (Same (s.advance now))) ∧
  (∀ s : State, s.member.getD 0 < 2 ^ 16 → slotBits s.agreement 0 7 0 = 0x40 ∧ agreeOk s.agreement = true ∧
    slotBits s.agreement 0 23 16 = s.fget Fd.fwVersion_PROTO_MAJOR 0 ∧ slotBits s.agreement 0 31 24 = s.fget Fd.fwVersion_PROTO_MINOR 0 ∧
    slotBits s.agreement 0 47 32 = s.member.getD 0 ∧ slotBits s.agreement 0 48 48 = b2n s.hasImage ∧
    slotBits s.agreement 1 63 0 = s.fuse.deviceId % 2 ^ 64 ∧ slotBits s.agreement 6 31 0 = s.fget Fd.quartzStatus_TIME_EPOCH ∧
    slotBits s.agreement 7 31 0 = if s.hasImage then s.fget Fd.groupEpoch_EPOCH else 0) ∧
  (∀ (p : PortId) (l : List Word) (now : Nat) (s : State), s.portState p = 4 → slotBits l 0 7 0 = 0x40 → agreeOk l = true → 8 ≤
    (s.port p).rxCred.getD 3 0 → s.judge p l = 1 → (s.port p).lastTx ≠ [] → s.colls = [] → SendsNow p 1 s →
    Runs (.agreeReceive p l now) s (fun t => t.portState p = 5 ∧ Sent p [[BitVec.ofNat 64 (1 + 8 * 2 ^ 52)]] s t
    ∧ t.fget Fd.agreePort_RESULT p = 1 ∧ t.fget Fd.agreePort_PEER_MEMBER p = slotBits l 0 47 32 ∧ t.fget Fd.agreePort_RECORDS p =
    satAdd Fd.agreePort_RECORDS.max (s.fget Fd.agreePort_RECORDS p) 1 ∧ t.fget Fd.agreePort_NEG_MINOR p = min (slotBits l 0 31 24)
    (s.fget Fd.fwVersion_PROTO_MINOR 0) % 256 ∧ (t.port p).agreeRx = l ∧ (t.port p).agreeAt = some (s.advance now).elapsed ∧
    t.fget Fd.groupStatus_EPOCH_SKEW = b2n ((List.range 36).any fun q => t.portState q == 5 && !(t.port q).agreeRx.isEmpty &&
      slotBits (t.port q).agreeRx 7 31 0 != s.fget Fd.groupEpoch_EPOCH) ∧ t.mem = s.mem)) ∧
  (∀ (p : PortId) (l : List Word) (now r : Nat) (s : State), s.portState p = 4 → slotBits l 0 7 0 = 0x40 → agreeOk l = true → 8 ≤
    (s.port p).rxCred.getD 3 0 → s.judge p l = r → (r ≠ 1 ∨ (s.port p).lastTx = []) → SendsNow p 1 s →
    Runs (.agreeReceive p l now) s (fun t => t.portState p = 4 ∧ Sent p [[BitVec.ofNat 64 (1 + 8 * 2 ^ 52)]] s t ∧
      t.fget Fd.agreePort_RESULT p = r ∧ t.fget Fd.agreePort_MISMATCHES p = (if 3 ≤ r then satAdd Fd.agreePort_MISMATCHES.max (s.fget
      Fd.agreePort_MISMATCHES p) 1 else s.fget Fd.agreePort_MISMATCHES p) ∧
      t.fget Fd.agreePort_RECORDS p = satAdd Fd.agreePort_RECORDS.max (s.fget Fd.agreePort_RECORDS p) 1 ∧
      SameRegs (fun q u => q = .agreePort ∧ u = p.val ∨ q = .groupStatus) s t ∧ t.mem = s.mem ∧ OtherPorts p s t)) ∧
  (∀ (p : PortId) (l : List Word) (now : Nat) (s : State), s.portState p = 5 → slotBits l 0 7 0 = 0x40 → agreeOk l = true → 8 ≤
    (s.port p).rxCred.getD 3 0 → s.judge p l = 1 → SendsNow p 1 s → Runs (.agreeReceive p l now) s (fun t => t.portState p = 5 ∧
      Sent p [[BitVec.ofNat 64 (1 + 8 * 2 ^ 52)]] s t ∧ t.fget Fd.agreePort_RESULT p = 1 ∧ (t.port p).agreeRx = l ∧
      (t.port p).agreeAt = some (s.advance now).elapsed ∧
      t.fget Fd.groupStatus_EPOCH_SKEW = b2n ((List.range 36).any fun q => t.portState q == 5 && !(t.port q).agreeRx.isEmpty &&
        slotBits (t.port q).agreeRx 7 31 0 != s.fget Fd.groupEpoch_EPOCH) ∧
      SameRegs (fun q u => q = .agreePort ∧ u = p.val ∨ q = .groupStatus) s t ∧ t.mem = s.mem ∧ OtherPorts p s t)) ∧
  (∀ (p : PortId) (l : List Word) (now : Nat) (s : State), s.portState p = 5 → slotBits l 0 7 0 = 0x40 → agreeOk l = true → 8 ≤
    (s.port p).rxCred.getD 3 0 → s.judge p l ≠ 1 → s.colls = [] → Quiet (portDie p) 0x14 s → Runs (.agreeReceive p l now) s (fun t =>
      t.portState p = 4 ∧ t.fget Fd.agreePort_RESULT p = s.judge p l ∧ t.fget Fd.portStatus_GEN p = (s.fget Fd.portStatus_GEN p + 1) % 256 ∧
      (t.port p).outst = [] ∧ Detected (portDie p) ⟨0x14, 2, p.val, 0⟩ s t ∧ t.mem = s.mem)) ∧
  (∀ (p : PortId) (l : List Word) (now : Nat) (s : State), s.portUp p = true → slotBits l 0 7 0 = 0x40 →
    agreeOk l = false ∨ (s.port p).rxCred.getD 3 0 < l.length → Runs (.agreeReceive p l now) s (fun t => t.portState p = 2 ∧
      t.fget Fd.portEvents_PROTO_ERRORS p = satAdd Fd.portEvents_PROTO_ERRORS.max (s.fget Fd.portEvents_PROTO_ERRORS p) 1)) ∧
  (∀ (p : PortId) (l : List Word) (now : Nat) (s : State), s.portUp p = false ∨ slotBits l 0 7 0 ≠ 0x40 →
    Runs (.agreeReceive p l now) s (Same (s.advance now))) ∧
  (∀ (p : PortId) (l : List Word) (s : State), s.hasImage = false ∨ slotBits l 0 48 48 = 0 → s.judge p l = 2) ∧
  (∀ (p : PortId) (l : List Word) (f : Nat) (s : State), s.hasImage = true → slotBits l 0 48 48 = 1 →
    ((∃ i : Fin 4, l.getD (2 + i.val) 0 ≠ s.agreement.getD (2 + i.val) 0) → 6 ≤ l.length → s.judge p l = 3) ∧
    ((l.drop 2).take 4 = (s.agreement.drop 2).take 4 → slotBits l 0 23 16 ≠ slotBits s.agreement 0 23 16 → s.judge p l = 4) ∧
    ((l.drop 2).take 4 = (s.agreement.drop 2).take 4 → slotBits l 0 23 16 = slotBits s.agreement 0 23 16 → s.foldOfPort p = some f →
      s.judge p l = match (s.foldSec f).groups.find? (fun g => g.set.testBit p) with
        | some g => if g.peer = slotBits l 0 47 32 then 1 else 5
        | none => if s.member = some (slotBits l 0 47 32) then 6 else 1)) ∧
  (∀ (p : PortId) (now k : Nat) (s : State), s.portState p = 5 → (s.port p).agreeAt = some k → k + 350000000 ≤ (s.advance now).elapsed
    → Quiet (portDie p) 0x14 s → s.colls = [] → Runs (.agreementLost p now) s (fun t => t.portState p = 4 ∧
    t.fget Fd.agreePort_RESULT p = 7 ∧ t.fget
    Fd.portStatus_GEN p = (s.fget Fd.portStatus_GEN p + 1) % 256 ∧ (t.port p).outst = [] ∧ Detected (portDie p) ⟨0x14, 2, p.val, 0⟩ s
    t ∧ t.mem = s.mem)) ∧
  (∀ (p : PortId) (now k : Nat) (s : State), s.portState p ≠ 5 ∨ (s.port p).agreeAt = some k ∧ (s.advance now).elapsed < k + 350000000 →
    Runs (.agreementLost p now) s (Same (s.advance now))) ∧
  (∀ (src : Source) (v : Word32) (s : State), s.shut src = false → Runs (.groupEpochWrite src v) s (fun t => t.fget
    Fd.groupEpoch_EPOCH = v.toNat ∧ t.colls = s.colls ∧ t.fget Fd.groupStatus_OPEN = s.fget Fd.groupStatus_OPEN ∧
    t.fget Fd.groupStatus_EPOCH_SKEW = b2n
    ((List.range 36).any fun p => s.portState p == 5 && !(s.port p).agreeRx.isEmpty && slotBits (s.port p).agreeRx 7 31 0 != v.toNat)
    ∧ RegsOnly (fun q _ => q = .groupEpoch ∨ q = .groupStatus) s t))

/-- OPENs open neighbours or are held; a partial is folded with the member's own input and passed on, or ends at its owner; final values are
written and sent on; strays are counted. R556, R557, R558, R561, R562, R569, R570, R571, R572, R588, Table 15.3. -/
def Obligations.CollectivesExchangeSegments : Prop :=
  (∀ (p : PortId) (l : List Word) (i m : Nat) (x : Coll) (s : State), CollPacket p 2 l s →
    s.collOfId (slotBits l 0 55 40) = some (i, x) → s.coll i = some x → x.mismatch l = none → m = slotBits l 0 39 24 → x.sends = [] →
    x.writes = [] → Runs (.collOpen p l) s (fun t => t.coll i = some { x with lastRx := s.elapsed, opened :=
      (if x.opened.contains m then x.opened else x.opened ++ [m]) } ∧ t = { s with colls := t.colls, ports := t.ports, out := t.out } ∧
      OtherPorts p s t)) ∧
  (∀ (p : PortId) (l : List Word) (h : HeldColl) (s : State), CollPacket p 2 l s → s.collOfId (slotBits l 0 55 40) = none →
    h = ⟨slotBits l 0 55 40, slotBits l 1 31 0, slotBits l 0 39 24, 2, l⟩ →
    s.heldColls.all (fun y => !(y.id == h.id && y.src == h.src && y.kind == h.kind)) = true → s.heldColls.length ≤ 16 →
    Runs (.collOpen p l) s (fun t => t.heldColls = (if s.heldColls.length < 16 then s.heldColls else s.heldColls.tail) ++ [h] ∧
      t = { s with heldColls := t.heldColls, ports := t.ports, out := t.out } ∧ OtherPorts p s t)) ∧
  (∀ (p q : PortId) (l : List Word) (i : Nat) (x : Coll) (m : Nat) (pk : List Word) (y : List Out) (s : State), CollPacket p 2 l s →
    s.collOfId (slotBits l 0 55 40) = some (i, x) → s.coll i = some x → x.mismatch l = none → m = slotBits l 0 39 24 → x.opened = [] →
    x.sends = [(m, 0, pk)] → x.writes = [] → s.collPort x.fold m 0 = some q.val → q ≠ p → (s.port q).wait = [] → slotBits pk 0 7 0 = 0x30 →
    pk.length + 3 ≤ (s.port q).txCred.getD 2 0 → SendsNow p 1 s → SendsNow q 18 s → pk.length ≤ 255 →
    Sent p [[BitVec.ofNat 64 (1 + l.length * 2 ^ 40)]] s { s with out := y } → Runs (.collOpen p l) s (fun t =>
      Sent q [pk] { s with out := y } t ∧ (t.coll i).map (fun z => z.sends) = some [])) ∧
  (∀ (p : PortId) (l : List Word) (i seg : Nat) (v w : List Nat) (x : Coll) (s : State), CollPacket p 0 l s →
    s.collOfId (slotBits l 0 55 40) = some (i, x) → s.coll i = some x → x.mismatch l = none → x.kind ≤ 2 → seg = slotBits l 2 63 0 →
    slotBits l 0 22 20 = 0 → s.devSec.levelCount = 1 →
    2 ≤ s.devSec.ringSize 0 → 2 ≤ s.devSec.place seg 0 (s.member.getD 0) → slotBits l 0 39 24 = s.devSec.step 0 (s.member.getD 0)
    (!segUp seg) → nhas x.inbox (lvlKey seg 0) = false → nhas x.folded (lvlKey seg 0) = false → nhas x.vals (lvlKey seg 1) = false →
    nfind x.vals (lvlKey seg 0) = some v → w = (List.range (x.len seg)).map (fun j => leNat (((slotBytes (l.drop 3)).drop (4 *
    j)).take 4)) → x.opened = [] → x.writes = [] → Runs (.collPartial p l false) s (fun t => (t.coll i).map (fun y => y.sends) = some
    (x.sends ++ [(s.devSec.step 0 (s.member.getD 0) (segUp seg), seg, collSlots 0 0 (s.member.getD 0) x.id x.epoch x.shape (x.len seg)
    0 seg (slotsOf ((((w.zip v).map fun (a, b) => tureenOp x.rop a b).map (fun r => r.bits)).flatMap (leBytes 4))))]) ∧ (t.coll i).map
    (fun y => nhas y.folded (lvlKey seg 0)) = some true ∧ t.mem = s.mem ∧ SameRegs (fun r u => r = .tureenStatus ∧ u = seg % 4) s t)) ∧
  (∀ (p : PortId) (l : List Word) (i seg n f c off : Nat) (v w : List Nat) (b : Bytes) (x : Coll) (s : State), CollPacket p 0 l s →
    s.collOfId (slotBits l 0 55 40) = some (i, x) → s.coll i = some x → x.mismatch l = none → x.kind = 1 → seg = slotBits l 2 63 0 →
    slotBits l 0 22 20 = 0 → s.devSec.levelCount = 1 → 2 ≤ s.devSec.ringSize 0 → s.devSec.place seg 0 (s.member.getD 0) = 0 →
    slotBits l 0 39 24 = s.devSec.step 0 (s.member.getD 0) (!segUp seg) → nhas x.inbox (lvlKey seg 0) = false →
    nhas x.folded (lvlKey seg 0) = false → nhas x.vals (lvlKey seg 1) = false → nhas x.fins seg = false →
    nfind x.vals (lvlKey seg 0) = some v → w = (List.range (x.len seg)).map (fun j => leNat (((slotBytes (l.drop 3)).drop (4 *
    j)).take 4)) → b = ((w.zip v).map fun (a, e) => (tureenOp x.rop a e).bits).flatMap (fun a => leBytes x.outB
      (finish x.outFmt 0 0 [fp32 a] (fp32 a)).bits) → n = b.length → 0 < n → x.opened = [] → x.writes = [] → x.sends = [] → x.arr = 0x7F →
    x.dstAt s.devSec.memberCount seg % 64 + n ≤ 64 → s.resolveFold x.fold 1 (x.dstAt s.devSec.memberCount seg) false (.ring x.ring) = .here f
    (.pantry c off) → s.placeFenced f (.pantry c off) = false → isCtrOff off = false → isRescueOff off = false → s.isPoison (pantryKey
    c off / 64) = false → s.replies = [] → s.inFlight (.coll x.ring i (2 ^ 60 + x.dstAt s.devSec.memberCount seg)) = false →
    Runs (.collPartial p l false) s (fun t => mreads t.mem (pantryKey c off) n = b ∧ MemBut (pantryKey c off) n s t ∧
      (t.coll i).map (fun y => y.sends) = some [(s.devSec.step 0 (s.member.getD 0) (segUp seg), seg,
        collSlots 1 0 (s.member.getD 0) x.id x.epoch x.shape (x.len seg) 0 seg (slotsOf b))] ∧
      (t.coll i).map (fun y => nhas y.fins seg) = some true ∧
      t.fget Fd.tureenStatus_SEGS_DONE (seg % 4) = satAdd Fd.tureenStatus_SEGS_DONE.max (s.fget Fd.tureenStatus_SEGS_DONE (seg % 4)) 1)) ∧
  (∀ (p : PortId) (l : List Word) (k : Nat) (f : Bool) (c : Instr) (s : State), (k, c) ∈ collRows p l f → k ≤ 1 → CollPacket p k l s →
    s.collOfId (slotBits l 0 55 40) = none → Runs c s (fun t =>
    t.fget Fd.tureenCounts_DROPS (slotBits l 2 63 0 % 4) = satAdd Fd.tureenCounts_DROPS.max (s.fget Fd.tureenCounts_DROPS (slotBits l
    2 63 0 % 4)) 1 ∧ t = { s with regs := t.regs, ports := t.ports, out := t.out } ∧ SameRegs (fun r u => r = .tureenCounts ∧ u =
    slotBits l 2 63 0 % 4) s t ∧ OtherPorts p s t)) ∧
  (∀ (p : PortId) (l : List Word) (i seg n f c off : Nat) (x : Coll) (s : State), CollPacket p 1 l s →
    s.collOfId (slotBits l 0 55 40) = some (i, x) → s.coll i = some x → x.mismatch l = none → (x.kind = 1 ∨ x.kind = 3) →
    seg = slotBits l 2 63 0 → slotBits l 0 22 20 = 0 → s.devSec.levelCount = 1 → 2 ≤
    s.devSec.ringSize 0 → s.devSec.place seg 0 (s.member.getD 0) ≠ 0 → slotBits l 0 39 24 = s.devSec.step 0 (s.member.getD 0) (!segUp
    seg) → nhas x.fins seg = false → x.opened = [] → x.writes = [] → x.sends = [] → x.arr = 0x7F → n = x.len seg * x.outB → x.dstAt
    s.devSec.memberCount seg % 64 + n ≤ 64 → s.resolveFold x.fold 1 (x.dstAt s.devSec.memberCount seg) false (.ring x.ring) = .here f
    (.pantry c off) → s.placeFenced f (.pantry c off) = false → isCtrOff off = false → isRescueOff off = false → s.isPoison (pantryKey
    c off / 64) = false → s.replies = [] → s.inFlight (.coll x.ring i (2 ^ 60 + x.dstAt s.devSec.memberCount seg)) = false → Runs
    (.collFinal p l) s (fun t => mreads t.mem (pantryKey c off) n = (slotBytes (l.drop 3)).take n ∧ MemBut (pantryKey c off) n s t ∧
    (t.coll i).map (fun y => nhas y.fins seg) = some true ∧ (t.coll i).map (fun y => y.writes) = some [] ∧
    (t.coll i).map (fun y => y.sends) = some (if s.devSec.place seg 0 (s.member.getD 0) + 1 < s.devSec.ringSize 0 then
      [(s.devSec.step 0 (s.member.getD 0) (segUp seg), seg, collSlots 1 0 (s.member.getD 0) x.id x.epoch x.shape (x.len seg) 0 seg
        (slotsOf ((slotBytes (l.drop 3)).take n)))] else []) ∧ t.fget
    Fd.tureenStatus_SEGS_DONE (seg % 4) = satAdd Fd.tureenStatus_SEGS_DONE.max (s.fget Fd.tureenStatus_SEGS_DONE (seg % 4)) 1)) ∧
  (∀ (p : PortId) (l : List Word) (k : Nat) (f : Bool) (c : Instr) (s : State), (k, c) ∈ collRows p l f → s.portUp p = true →
    slotBits l 0 7 0 = 0x30 → collOk l = true → slotBits l 0 19 16 = k → l.length ≤ (s.port p).rxCred.getD 2 0 → s.foldOfPort p = none →
    Runs c s (fun t => t.fget Fd.tureenCounts_DROPS (portDie p) = satAdd Fd.tureenCounts_DROPS.max (s.fget Fd.tureenCounts_DROPS
      (portDie p)) 1 ∧ t = { s with regs := t.regs, ports := t.ports, out := t.out } ∧ SameRegs (fun r u => r = .tureenCounts ∧
      u = portDie p) s t ∧ OtherPorts p s t)) ∧
  (∀ (p : PortId) (l : List Word) (k : Nat) (f : Bool) (c : Instr) (s : State), (k, c) ∈ collRows p l f → s.portState p = 4 →
    slotBits l 0 7 0 = 0x30 → collOk l = true → slotBits l 0 19 16 = k → l.length ≤ (s.port p).rxCred.getD 2 0 →
    (s.foldOfPort p).isSome = true → SendsNow p 1 s → Runs c s (fun t => Sent p [[BitVec.ofNat 64 (1 + l.length * 2 ^ 40)]] s t ∧
      PortOnly p s t)) ∧
  (∀ (p : PortId) (l : List Word) (k : Nat) (f : Bool) (c : Instr) (s : State), (k, c) ∈ collRows p l f → s.portUp p = true →
    slotBits l 0 7 0 = 0x30 → collOk l = false ∨ slotBits l 0 19 16 = k ∧ (s.port p).rxCred.getD 2 0 < l.length → Runs c s (fun t =>
      t.portState p = 2 ∧ t.fget Fd.portEvents_PROTO_ERRORS p = satAdd Fd.portEvents_PROTO_ERRORS.max
        (s.fget Fd.portEvents_PROTO_ERRORS p) 1)) ∧
  (∀ (p : PortId) (l : List Word) (k : Nat) (f : Bool) (c : Instr) (s : State), (k, c) ∈ collRows p l f → s.portUp p = false ∨
    slotBits l 0 7 0 ≠ 0x30 ∨ collOk l = true ∧ slotBits l 0 19 16 ≠ k → Runs c s (Same s)) ∧
  (∀ (i seg : Nat) (fault : Bool) (v : List Nat) (x : Coll) (s : State), s.coll i = some x → x.kind ≤ 2 → seg < x.segs →
    s.devSec.levelCount = 1 → 2 ≤ s.devSec.ringSize 0 → s.devSec.place seg 0 (s.member.getD 0) = 1 → nhas x.folded (lvlKey seg 0) = false →
    nhas x.vals (lvlKey seg 1) = false → nfind x.vals (lvlKey seg 0) = some v → x.opened = [] → x.writes = [] →
    Runs (.segmentOriginate i seg fault) s
    (fun t => (t.coll i).map (fun y => y.sends) = some (x.sends ++ [(s.devSec.step 0 (s.member.getD 0) (segUp seg), seg, collSlots 0 0
    (s.member.getD 0) x.id x.epoch x.shape (x.len seg) 0 seg (slotsOf (v.flatMap (leBytes 4))))]) ∧ (t.coll i).map (fun y => nhas
    y.folded (lvlKey seg 0)) = some true ∧ t.mem = s.mem ∧ SameRegs (fun r u => x.kind = 2 ∧ r = .tureenStatus ∧ u = seg % 4) s t)) ∧
  (∀ (i seg a n f c off : Nat) (fault : Bool) (x : Coll) (s : State), s.coll i = some x → x.kind ≤ 2 → seg < x.segs →
    s.devSec.levelCount = 1 → 2 ≤ s.devSec.ringSize 0 → s.devSec.place seg 0 (s.member.getD 0) = 1 → nhas x.folded (lvlKey seg 0) = false →
    nhas x.vals (lvlKey seg 1) = false → nhas x.vals (lvlKey seg 0) = false → x.opened = [] → x.writes = [] →
    a = x.srcAt s.devSec.memberCount seg → n = x.len seg * x.inB → a % 64 + n ≤ 64 → nhas x.reads a = false →
    s.resolveFold x.fold 0 a false (.ring x.ring) = .here f (.pantry c off) → s.placeFenced f (.pantry c off) = false →
    s.pantryPoison c off n = false → s.replies = [] → s.inFlight (.coll x.ring i a) = false → Runs (.segmentOriginate i seg fault) s
    (fun t => (t.coll i).map (fun y => y.sends) = some (x.sends ++ [(s.devSec.step 0 (s.member.getD 0) (segUp seg), seg, collSlots 0 0
      (s.member.getD 0) x.id x.epoch x.shape (x.len seg) 0 seg (slotsOf ((List.range (x.len seg)).flatMap fun j => leBytes 4
        (leNat (s.pantryBytes c (off + j * x.inB) x.inB) * if x.inFmt = 2 then 65536 else 1))))]) ∧ t.mem = s.mem)) ∧
  (∀ (i seg a n f c off g k dst : Nat) (fault : Bool) (b : Bytes) (x : Coll) (s : State), s.coll i = some x → x.kind = 3 → seg < x.segs →
    s.devSec.levelCount = 1 → 2 ≤ s.devSec.ringSize 0 → s.member = some (s.devSec.owner seg) → nhas x.fins seg = false → x.opened = [] →
    x.writes = [] → x.sends = [] → x.arr = 0x7F → a = x.srcAt s.devSec.memberCount seg → n = x.len seg → a % 64 + n ≤ 64 → nhas x.reads a = false →
    s.resolveFold x.fold 0 a false (.ring x.ring) = .here f (.pantry c off) → s.placeFenced f (.pantry c off) = false →
    s.pantryPoison c off n = false → b = s.pantryBytes c off n → x.dstAt s.devSec.memberCount seg % 64 + n ≤ 64 →
    s.resolveFold x.fold 1 (x.dstAt s.devSec.memberCount seg) false (.ring x.ring) = .here g (.pantry k dst) →
    s.placeFenced g (.pantry k dst) = false → isCtrOff dst = false → isRescueOff dst = false → s.isPoison (pantryKey k dst / 64) = false →
    s.replies = [] → s.inFlight (.coll x.ring i a) = false → s.inFlight (.coll x.ring i (2 ^ 60 + x.dstAt s.devSec.memberCount seg)) = false →
    Runs (.segmentOriginate i seg fault) s (fun t => mreads t.mem (pantryKey k dst) n = b ∧ MemBut (pantryKey k dst) n s t ∧
      (t.coll i).map (fun y => nhas y.fins seg) = some true ∧
      (t.coll i).map (fun y => y.sends) = some [(s.devSec.step 0 (s.member.getD 0) (segUp seg), seg,
        collSlots 1 0 (s.member.getD 0) x.id x.epoch x.shape n 0 seg (slotsOf b))])) ∧
  (∀ (i seg : Nat) (fault : Bool) (x : Coll) (s : State), s.coll i = none ∨ s.coll i = some x ∧ x.segs ≤ seg →
    Runs (.segmentOriginate i seg fault) s (Same s)) ∧
  (∀ (i now m : Nat) (p : PortId) (x : Coll) (s : State), s.coll i = some x → x.lastOpen + 1000000 ≤ (s.advance now).elapsed →
    (s.devSec.neighbours (s.member.getD 0)).filter (fun k => !x.opened.contains k) = [m] → s.collPort x.fold m 0 = some p.val → (s.port
    p).wait = [] → 6 ≤ (s.port p).txCred.getD 2 0 → SendsNow p 1 s → Runs (.openRepeat 0 i now) s (fun t =>
    Sent p [collSlots 2 0 (s.member.getD 0) x.id x.epoch x.shape 0 0 0 []] s t ∧
    t.coll i = some { x with lastOpen := (s.advance now).elapsed } ∧ t =
    { s.advance now with colls := t.colls, ports := t.ports, out := t.out })) ∧
  (∀ (i now : Nat) (x : Coll) (s : State), s.coll i = some x → x.lastOpen + 1000000 ≤ (s.advance now).elapsed →
    (∀ m ∈ s.devSec.neighbours (s.member.getD 0), x.opened.contains m = true ∨ s.collPort x.fold m 0 = none) →
    Runs (.openRepeat 0 i now) s (fun t => t.coll i = some { x with lastOpen := (s.advance now).elapsed } ∧
      t = { s.advance now with colls := t.colls })) ∧
  (∀ (q : Fin 4) (i now : Nat) (x : Coll) (s : State), q ≠ 0 ∨ s.coll i = none ∨ s.coll i = some x ∧
    (s.advance now).elapsed < x.lastOpen + 1000000 → Runs (.openRepeat q i now) s (Same (s.advance now)))

/-- A collective whose work is done completes its command OK and frees its slot; ABORT, a packet that differs, a residue fault, a poisoned
input and 1 s without a packet end it with their reasons. R562, R570, R573, R576, R579, R580, R586, R587, Table 15.6. -/
def Obligations.CollectivesEnd : Prop :=
  (∀ (i : Fin 8) (x : Coll) (c : RingCmd) (s : State), s.colls = [(i.val, x)] → x.writes = [] → x.sends = [] → ((List.range
    x.segs).all fun g => s.segFinished x g) = true → (s.ring x.ring).cmds = [c] → c.seq = x.seq → c.phase = .running → Runs
    (.collectiveComplete i) s (fun t => t.colls = [] ∧ t.fget Fd.collSlot_BUSY i = 0 ∧ t.fget Fd.groupStatus_OPEN = 0 ∧ (t.ring
    x.ring).cmds = [{ c with phase := .done, status := 0, detail := 0, fin := s.now }] ∧ t.mem = s.mem ∧ t.ports = s.ports ∧
    (∀ q : Fin 4, t.fget Fd.tureenNum_LAST_SAT q = min (x.nums.getD q (0, 0)).1 (2 ^ 32 - 1) ∧
      t.fget Fd.tureenNum_LAST_FLUSH q = min (x.nums.getD q (0, 0)).2 (2 ^ 32 - 1)) ∧
    OtherRings x.ring s t ∧ SameRegs (fun r u => r = .collSlot ∧ u = i.val ∨ r = .groupStatus ∨ r = .tureenNum) s t)) ∧
  (∀ (i : Nat) (x : Coll) (s : State), s.coll i = some x → x.writes = [] → (x.sends ≠ [] ∧ x.opened = [] ∨ x.sends = [] ∧
    ((List.range x.segs).all fun g => s.segFinished x g) = false) → Runs (.collectiveComplete i) s (Same s)) ∧
  (∀ (i : Nat) (s : State), s.coll i = none → Runs (.collectiveComplete i) s (Same s)) ∧
  (∀ (p : PortId) (l : List Word) (i : Fin 8) (x : Coll) (c : RingCmd) (s : State), CollPacket p 3 l s → s.colls = [(i.val, x)] →
    x.id = slotBits l 0 55 40 → (s.ring x.ring).cmds = [c] → c.seq = x.seq → c.phase = .running →
    Runs (.collAbort p l) s (CollAborted i x c (slotBits l 1 62 59) 7 0 s.now s)) ∧
  (∀ (p : PortId) (l : List Word) (h : HeldColl) (s : State), CollPacket p 3 l s → s.collOfId (slotBits l 0 55 40) = none →
    h = ⟨slotBits l 0 55 40, slotBits l 1 31 0, slotBits l 0 39 24, 3, l⟩ →
    s.heldColls.all (fun y => !(y.id == h.id && y.src == h.src && y.kind == h.kind)) = true → s.heldColls.length ≤ 16 →
    Runs (.collAbort p l) s (fun t => t.heldColls = (if s.heldColls.length < 16 then s.heldColls else s.heldColls.tail) ++ [h] ∧
      t = { s with heldColls := t.heldColls, ports := t.ports, out := t.out } ∧ OtherPorts p s t)) ∧
  (∀ (p : PortId) (l : List Word) (k e : Nat) (f : Bool) (a : Instr) (i : Fin 8) (x : Coll) (c : RingCmd) (s : State),
    (k, a) ∈ collRows p l f → k ≤ 2 → CollPacket p k l s → s.colls = [(i.val, x)] → x.id = slotBits l 0 55 40 →
    (slotBits l 1 31 0 ≠ x.epoch ∧ e = 3 ∨ slotBits l 1 31 0 = x.epoch ∧ e = 4 ∧ (slotBits l 1 47 32 ≠ x.shape ∨
      k ≤ 1 ∧ (x.segs ≤ slotBits l 2 63 0 ∨ slotBits l 1 58 48 ≠ x.len (slotBits l 2 63 0)))) →
    (s.ring x.ring).cmds = [c] → c.seq = x.seq → c.phase = .running → Runs a s (CollAborted i x c e 7 0 s.now s)) ∧
  (∀ (p : PortId) (l : List Word) (seg : Nat) (v : List Nat) (i : Fin 8) (x : Coll) (c : RingCmd) (s : State), CollPacket p 0 l s →
    s.colls = [(i.val, x)] → x.id = slotBits l 0 55 40 → x.mismatch l = none → x.kind ≤ 2 → seg = slotBits l 2 63 0 →
    slotBits l 0 22 20 = 0 → s.devSec.levelCount = 1 → 2 ≤ s.devSec.ringSize 0 → s.devSec.place seg 0 (s.member.getD 0) ≠ 1 →
    slotBits l 0 39 24 = s.devSec.step 0 (s.member.getD 0) (!segUp seg) → nhas x.inbox (lvlKey seg 0) = false →
    nhas x.folded (lvlKey seg 0) = false → nhas x.vals (lvlKey seg 1) = false → nfind x.vals (lvlKey seg 0) = some v →
    (s.ring x.ring).cmds = [c] → c.seq = x.seq → c.phase = .running → Quiet (seg % 4) 0x0F s → Runs (.collPartial p l true) s (fun t =>
      CollAborted i x c 7 8 1 s.now s t ∧ t.fget Fd.tureenCounts_RESIDUE_COUNT (seg % 4) =
        satAdd Fd.tureenCounts_RESIDUE_COUNT.max (s.fget Fd.tureenCounts_RESIDUE_COUNT (seg % 4)) 1)) ∧
  (∀ (i : Fin 8) (seg a n f k off : Nat) (fault : Bool) (x : Coll) (c : RingCmd) (s : State), s.colls = [(i.val, x)] → x.kind ≤ 2 →
    seg < x.segs → s.devSec.levelCount = 1 → 2 ≤ s.devSec.ringSize 0 → s.devSec.place seg 0 (s.member.getD 0) = 1 →
    nhas x.folded (lvlKey seg 0) = false → nhas x.vals (lvlKey seg 1) = false → nhas x.vals (lvlKey seg 0) = false →
    a = x.srcAt s.devSec.memberCount seg → n = x.len seg * x.inB → a % 64 + n ≤ 64 → nhas x.reads a = false →
    s.resolveFold x.fold 0 a false (.ring x.ring) = .here f (.pantry k off) → s.placeFenced f (.pantry k off) = false →
    s.pantryPoison k off n = true → s.replies = [] → s.inFlight (.coll x.ring i a) = false → (s.ring x.ring).cmds = [c] →
    c.seq = x.seq → c.phase = .running → Runs (.segmentOriginate i seg fault) s (CollAborted i x c 8 9 3 s.now s)) ∧
  (∀ (i : Fin 8) (now : Nat) (x : Coll) (c : RingCmd) (s : State), s.colls = [(i.val, x)] → x.lastRx + 1000000000 ≤ (s.advance
    now).elapsed → (s.ring x.ring).cmds = [c] → c.seq = x.seq → c.phase = .running →
    Runs (.noProgress i now) s (CollAborted i x c 5 7 0 (s.advance now).now s)) ∧
  (∀ (i : Fin 8) (now m n : Nat) (p q : PortId) (x : Coll) (y : List Out) (s : State), s.colls = [(i.val, x)] →
    x.lastRx + 1000000000 ≤ (s.advance now).elapsed → s.devSec.neighbours (s.member.getD 0) = [m, n] → s.collPort x.fold m 0 = some p.val →
    s.collPort x.fold n 0 = some q.val → p ≠ q → (s.port p).wait = [] → (s.port q).wait = [] → 3 ≤ (s.port p).txCred.getD 2 0 →
    3 ≤ (s.port q).txCred.getD 2 0 → SendsNow p 1 s → SendsNow q 1 s →
    Sent p [collSlots 3 0 (s.member.getD 0) x.id x.epoch x.shape 0 5 0 []] s { s with out := y } → Runs (.noProgress i now) s (fun t =>
      Sent q [collSlots 3 0 (s.member.getD 0) x.id x.epoch x.shape 0 5 0 []] { s with out := y } t)) ∧
  (∀ (i now : Nat) (x : Coll) (s : State), s.coll i = none ∨ s.coll i = some x ∧ (s.advance now).elapsed < x.lastRx + 1000000000 →
    Runs (.noProgress i now) s (Same (s.advance now)))

/-- Time requests are sent, answered and timed out; a measurement sets OFFSET and RATE or steps forward; a follower chooses its leader, holds
over and unlocks in time. R596, R598, R599, R600, R602, R603, R604, R605, R606, R618, Table 16.2. -/
def Obligations.QuartzFollowsItsLeader : Prop :=
  (∀ (p : PortId) (now : Nat) (s : State), s.hasImage = true → s.devSec.timePorts.testBit p = true → s.portState p = 5 →
    (∀ r, nfind s.time.reqs (100 + p.val) = some r → r.getD 0 0 + 1000000 ≤ (s.advance now).elapsed) → (s.port p).wait = [] →
    6 ≤ (s.port p).txCred.getD 3 0 → SendsNow p 1 s → Runs (.timeReqSend p now) s (fun t =>
    t.out = .flit p (flitBytes 1 ((s.port p).txSeq % 4096) (s.port p).rxSeq
      ((s.advance now).timePacket 0 s.time.seq (s.advance now).now (s.advance now).frac 0 0)) :: s.out ∧ nfind
    t.time.reqs p = some [s.time.seq, (s.advance now).now, (s.advance now).frac, (s.advance now).elapsed] ∧ t.time.seq = (s.time.seq +
    1) % 65536 ∧ t.time.q = (s.advance now).time.q ∧ t = { s with time := t.time, ports := t.ports, out := t.out } ∧ OtherPorts p s
    t)) ∧
  (∀ (p : PortId) (now k : Nat) (s : State), s.hasImage = false ∨ s.devSec.timePorts.testBit p = false ∨ s.portState p ≠ 5 ∨
    (nfind s.time.reqs (100 + p.val)).map (fun l => l.getD 0 0) = some k ∧ (s.advance now).elapsed < k + 1000000 →
    Runs (.timeReqSend p now) s (Same (s.advance now))) ∧
  (∀ (p : PortId) (l : List Word) (rx rxf now : Nat) (h s : State), s.portUp p = true → s.hasImage = true → timeOk 0 l = true → 6 ≤
    (s.port p).rxCred.getD 3 0 → (s.port p).wait = [] → 6 ≤ (s.port p).txCred.getD 3 0 → SendsNow p 2 s →
    h = (((s.advance now).acceptPacket p l).1).hear p l → Runs (.timeReq p l rx rxf now) s (fun t =>
      t.out = .flit p (flitBytes 1 (((s.port p).txSeq + 1) % 4096) (s.port p).rxSeq
        (h.timePacket 1 (slotBits l 0 39 24) (s.advance now).now (s.advance now).frac rx rxf)) :: h.out ∧
      t.time.q = (s.advance now).time.q ∧ t.regs = h.regs ∧ t.mem = s.mem)) ∧
  (∀ (p : PortId) (l : List Word) (c : Instr) (k rx rxf now : Nat) (s : State),
    (k, c) ∈ [(0, Instr.timeReq p l rx rxf now), (1, .timeRsp p l rx rxf now)] → s.portUp p = true → s.hasImage = true →
    slotBits l 0 7 0 = 0x41 → timeOk k l = false ∨ (s.port p).rxCred.getD 3 0 < 6 ∧ l.length = 6 → Runs c s (fun t => t.portState p = 2 ∧
      t.fget Fd.portEvents_PROTO_ERRORS p = satAdd Fd.portEvents_PROTO_ERRORS.max (s.fget Fd.portEvents_PROTO_ERRORS p) 1)) ∧
  (∀ (p : PortId) (l : List Word) (rx rxf now : Nat) (s : State), s.portUp p = false ∨ s.hasImage = false →
    Runs (.timeReq p l rx rxf now) s (Same (s.advance now)) ∧ Runs (.timeRsp p l rx rxf now) s (Same (s.advance now))) ∧
  (∀ (p : PortId) (l : List Word) (t1 f1 k rx rxf now : Nat) (off : Int) (h s : State), s.portUp p = true → s.hasImage = true → timeOk
    1 l = true → 6 ≤ (s.port p).rxCred.getD 3 0 → h = (((s.advance now).acceptPacket p l).1).hear p l → nfind h.time.reqs p = some
    [slotBits l 0 39 24, t1, f1, k] → (s.advance now).elapsed ≤ k + 2000000 → h.fget Fd.quartzStatus_PARENT_PORT = p.val → (h.qState =
    3 ∨ h.qState = 4 ∨ h.qState = 5 ∨ h.qState = 6) → off = ((((65536 * slotBits l 4 63 0 + slotBits l 5 31 16 : Nat) : Int) -
    (65536 * t1 + f1 : Nat)) - (((65536 *
    rx + rxf : Nat) : Int) - (65536 * slotBits l 3 63 0 + slotBits l 5 15 0 : Nat))).tdiv 2 → off.natAbs ≤ 65536000 → Runs (.timeRsp p
    l rx rxf now) s (fun t => t.fget Fd.quartzServo_OFFSET_NS = unsext 32 (off.tdiv 65536) ∧ t.fget Fd.quartzServo_RATE_PPB = unsext
    24 (max (-100000) (min 100000 ((15625 * off).tdiv 65536000))) ∧ t.time.good = h.time.good + 1 ∧ t.time.lastMeas = (s.advance
    now).elapsed ∧ nfind t.time.reqs p = none ∧ t.qState = (if 8 ≤ h.time.good + 1 then 4 else h.qState) ∧ t.time.q = (s.advance
    now).time.q ∧ t.mem = s.mem)) ∧
  (∀ (p : PortId) (l : List Word) (t1 f1 k rx rxf now : Nat) (off : Int) (h s : State), s.portUp p = true → s.hasImage = true → timeOk
    1 l = true → 6 ≤ (s.port p).rxCred.getD 3 0 → h = (((s.advance now).acceptPacket p l).1).hear p l → nfind h.time.reqs p = some
    [slotBits l 0 39 24, t1, f1, k] → (s.advance now).elapsed ≤ k + 2000000 → h.fget Fd.quartzStatus_PARENT_PORT = p.val → (h.qState =
    3 ∨ h.qState = 4) → off = ((((65536 * slotBits l 4 63 0 + slotBits l 5 31 16 : Nat) : Int) - (65536 * t1 + f1 : Nat)) -
    (((65536 * rx + rxf : Nat)
    : Int) - (65536 * slotBits l 3 63 0 + slotBits l 5 15 0 : Nat))).tdiv 2 → 65536000 < off → Runs (.timeRsp p l rx rxf now) s (fun t
    => t.time.q = (s.advance now).time.q + tick * off.toNat / 65536 ∧ t.time.el = (s.advance now).time.el ∧ t.fget
    Fd.quartzCounts_STEPS = satAdd Fd.quartzCounts_STEPS.max (h.fget Fd.quartzCounts_STEPS) 1 ∧ t.time.good = 0 ∧
    t.qState = (if h.qState = 3 then 3 else 6) ∧ t.fget Fd.quartzCounts_UNLOCKS = (if h.qState = 3 then h.fget Fd.quartzCounts_UNLOCKS
      else satAdd Fd.quartzCounts_UNLOCKS.max (h.fget Fd.quartzCounts_UNLOCKS) 1) ∧ t.mem = s.mem)) ∧
  (∀ (p : PortId) (l : List Word) (t1 f1 k rx rxf now : Nat) (off : Int) (h s : State), s.portUp p = true → s.hasImage = true → timeOk
    1 l = true → 6 ≤ (s.port p).rxCred.getD 3 0 → h = (((s.advance now).acceptPacket p l).1).hear p l → nfind h.time.reqs p = some
    [slotBits l 0 39 24, t1, f1, k] → (s.advance now).elapsed ≤ k + 2000000 → h.fget Fd.quartzStatus_PARENT_PORT = p.val → (h.qState =
    3 ∨ h.qState = 4) → off = ((((65536 * slotBits l 4 63 0 + slotBits l 5 31 16 : Nat) : Int) - (65536 * t1 + f1 : Nat)) -
    (((65536 * rx + rxf : Nat)
    : Int) - (65536 * slotBits l 3 63 0 + slotBits l 5 15 0 : Nat))).tdiv 2 → off < -65536000 → Runs (.timeRsp p l rx rxf now) s (fun t
    => t.time.q = (s.advance now).time.q ∧ t.fget Fd.quartzServo_RATE_PPB = unsext 24 (-100000) ∧
    t.fget Fd.quartzCounts_STEPS = h.fget Fd.quartzCounts_STEPS ∧ t.time.good = 0 ∧
    t.qState = (if h.qState = 3 then 3 else 6) ∧ t.mem = s.mem)) ∧
  (∀ (p : PortId) (l : List Word) (rx rxf now : Nat) (h s : State), s.portUp p = true → s.hasImage = true → timeOk
    1 l = true → 6 ≤ (s.port p).rxCred.getD 3 0 → h = (((s.advance now).acceptPacket p l).1).hear p l →
    (∀ r, nfind h.time.reqs p = some r → r.getD 0 0 ≠ slotBits l 0 39 24) → Runs (.timeRsp p l rx rxf now) s (Same h)) ∧
  (∀ (p : PortId) (l : List Word) (rx rxf now : Nat) (r : List Nat) (h s : State), s.portUp p = true → s.hasImage = true → timeOk
    1 l = true → 6 ≤ (s.port p).rxCred.getD 3 0 → h = (((s.advance now).acceptPacket p l).1).hear p l → nfind h.time.reqs p = some r →
    r.getD 0 0 = slotBits l 0 39 24 → (r.getD 3 0 + 2000000 < (s.advance now).elapsed ∨ h.fget Fd.quartzStatus_PARENT_PORT ≠ p.val ∨
      h.qState = 1 ∨ h.qState = 2) → Runs (.timeRsp p l rx rxf now) s (fun t => t = { h with time := t.time } ∧
      t.time = { h.time with reqs := ndel h.time.reqs p, delay := t.time.delay })) ∧
  (∀ (p : PortId) (now : Nat) (r : List Nat) (s : State), nfind s.time.reqs p = some r → r.getD 3 0 + 2000000 ≤ (s.advance
    now).elapsed → Runs (.measurementTimeout p now) s (fun t => nfind t.time.reqs p = none ∧ t = { s.advance now with time := t.time }
    ∧ t.time = { (s.advance now).time with reqs := t.time.reqs })) ∧
  (∀ (p : PortId) (now : Nat) (s : State), (∀ r, nfind s.time.reqs p = some r → (s.advance now).elapsed < r.getD 3 0 +
    2000000) → Runs (.measurementTimeout p now) s (Same (s.advance now))) ∧
  (∀ (p : PortId) (now : Nat) (a : List Nat) (s : State), s.hasImage = true → s.devSec.role = 0 → s.time.adverts = [(p.val, a)] →
    a.getD 5 0 + 5000000 ≤ (s.advance now).elapsed → s.qState = 3 → Runs (.advertisementAgeOut p now) s (fun t => t.time.adverts = []
    ∧ t.reg .quartzLeaderId = 2 ^ 64 - 1 ∧ t.fget Fd.quartzServo_HOPS = 0xFF ∧ t.fget Fd.quartzStatus_PARENT_PORT = 0x3F ∧ t.qState =
    6 ∧ t.time.q = (s.advance now).time.q ∧ t.mem = s.mem)) ∧
  (∀ (p q : PortId) (now : Nat) (a b : List Nat) (s : State), s.hasImage = true → s.devSec.role = 0 → p ≠ q →
    s.time.adverts = [(p.val, a), (q.val, b)] → a.getD 5 0 + 5000000 ≤ (s.advance now).elapsed → s.devSec.timePorts.testBit q = true →
    s.portState q = 5 → b.getD 3 0 < 62 → b.getD 0 0 < 2 ^ 64 - 1 → (s.advance now).elapsed ≤ b.getD 5 0 + 5000000 → b.getD 1 0 < 2 ^ 32 →
    b.getD 2 0 < 2 ^ 16 → s.time.lead ≠ [b.getD 0 0, b.getD 1 0] → Runs (.advertisementAgeOut p now) s (fun t =>
      t.time.adverts = [(q.val, b)] ∧ t.reg .quartzLeaderId = b.getD 0 0 ∧ t.fget Fd.quartzServo_HOPS = b.getD 3 0 + 1 ∧
      t.fget Fd.quartzStatus_PARENT_PORT = q.val ∧ t.fget Fd.quartzStatus_TIME_EPOCH = b.getD 1 0 ∧
      t.fget Fd.quartzStatus_LEADER_MEMBER = b.getD 2 0 ∧ t.qState = 3 ∧ t.fget Fd.quartzCounts_UNLOCKS =
        (if s.qState = 4 ∨ s.qState = 5 then satAdd Fd.quartzCounts_UNLOCKS.max (s.fget Fd.quartzCounts_UNLOCKS) 1 else
          s.fget Fd.quartzCounts_UNLOCKS) ∧ t.time.q = (s.advance now).time.q ∧ t.mem = s.mem)) ∧
  (∀ (p : PortId) (now m : Nat) (a : List Nat) (s : State), s.hasImage = true → s.devSec.role = 1 → s.fon Fd.quartzStatus_REF_OK = true →
    s.time.adverts = [(p.val, a)] → a.getD 5 0 + 5000000 ≤ (s.advance now).elapsed → s.qState ≠ 2 →
    m = max (((s.time.epochs.filter fun e => decide ((s.advance now).elapsed ≤ e.2 + 1000000000)).map (·.1)).foldl max 0)
      (s.fget Fd.quartzStatus_TIME_EPOCH) → m + 1 < 2 ^ 32 → s.member.getD 0 < 2 ^ 16 →
    Runs (.advertisementAgeOut p now) s (fun t => t.time.adverts = [] ∧ t.qState = 2 ∧ t.fget Fd.quartzStatus_TIME_LOCKED = 1 ∧
      t.fget Fd.quartzStatus_TIME_EPOCH = m + 1 ∧ t.reg .quartzLeaderId = s.fuse.deviceId % 2 ^ 64 ∧
      t.fget Fd.quartzStatus_LEADER_MEMBER = s.member.getD 0 ∧ t.fget Fd.quartzServo_HOPS = 0 ∧
      t.fget Fd.quartzServo_RATE_PPB = 0 ∧ t.mem = s.mem)) ∧
  (∀ (p : PortId) (now : Nat) (s : State), (∀ a, nfind s.time.adverts p = some a → (s.advance now).elapsed < a.getD 5 0 + 5000000) →
    Runs (.advertisementAgeOut p now) s (Same (s.advance now))) ∧
  (∀ (now : Nat) (s : State), s.qState = 4 → s.time.lastMeas + 5000000 ≤ (s.advance now).elapsed → s.fon Fd.quartzStatus_REF_OK = true
    → s.fon Fd.quartzStatus_TIME_LOCKED = true → Runs (.holdoverEntry now) s (fun t => t.qState = 5 ∧ t.time =
    { (s.advance now).time with holdStart := (s.advance now).elapsed, good := 0 } ∧ RegsOnly (fun r _ => r = .quartzStatus)
    { s with time := t.time } t)) ∧
  (∀ (now : Nat) (s : State), s.qState ≠ 4 ∨ (s.advance now).elapsed < s.time.lastMeas + 5000000 →
    Runs (.holdoverEntry now) s (Same (s.advance now))) ∧
  (∀ (now : Nat) (s : State), s.qState = 5 → s.time.holdStart + 100000000 ≤ (s.advance now).elapsed → s.fon
    Fd.quartzStatus_TIME_LOCKED = true → Runs (.holdoverExpiry now) s (fun t => t.qState = 6 ∧ t.fget Fd.quartzStatus_TIME_LOCKED = 0
    ∧ t.fget Fd.quartzCounts_UNLOCKS = satAdd Fd.quartzCounts_UNLOCKS.max (s.fget Fd.quartzCounts_UNLOCKS) 1 ∧ t.reg .garnetSeq =
    (s.reg .garnetSeq + 1) % 2 ^ 64 ∧ Raised 100 s t ∧ t.time.good = 0 ∧ t.mem = s.mem ∧ t.cores = s.cores ∧ t.procs = s.procs)) ∧
  (∀ (now : Nat) (s : State), s.qState ≠ 5 ∨ (s.advance now).elapsed < s.time.holdStart + 100000000 →
    Runs (.holdoverExpiry now) s (Same (s.advance now)))

/-- STEP_FORWARD sets time forward only, and what it passes falls due; PTM dialogs, PPS and TOD go out when enabled; a lost reference and a
counter mismatch are counted and reported. R594, R607, R610, R611, R612, R615, R621, R622, R625, Table 16.3, Table 16.7. -/
def Obligations.QuartzStepsAndReferences : Prop :=
  (∀ (src : Source) (now old new : Nat) (s : State), s.shut src = false → (s.qState = 1 ∨ s.qState = 2) → (s.advance now).now = old →
    s.reg .quartzStepTo = new → old < new → Runs (.stepForward src now) s (fun t => t.time.q = tick * new ∧ t.time.el = (s.advance
    now).time.el ∧ t.fget Fd.quartzCounts_STEPS = satAdd Fd.quartzCounts_STEPS.max (s.fget Fd.quartzCounts_STEPS) 1 ∧ t.fget
    Fd.quartzStatus_TIME_EPOCH = (if s.qState = 2 then (s.fget Fd.quartzStatus_TIME_EPOCH + 1) % 2 ^ 32 else s.fget
    Fd.quartzStatus_TIME_EPOCH) ∧
    (∀ r : RingId, (t.ring r).segs = (s.ring r).segs.map fun g => if g.held ∧ old < g.start ∧ g.start < new then { g with late := true } else g) ∧
    (∀ c : CoreId, (s.twin c).tcmpArmed = true → old < (s.twin c).tcmp.toNat → (s.twin c).tcmp.toNat ≤ new →
      (t.twin c).tcmpArmed = false ∧ (t.twin c).events = (s.twin c).events ||| 1) ∧
    SameRegs (fun r _ => r = .quartzCounts ∨ r = .quartzStatus ∧ s.qState = 2) s t ∧ t.mem = s.mem)) ∧
  (∀ (src : Source) (now : Nat) (s : State), s.shut src = false → (s.qState ≠ 1 ∧ s.qState ≠ 2 ∨ s.reg .quartzStepTo ≤ (s.advance
    now).now) → Runs (.stepForward src now) s (fun t => t.fget Fd.quartzStatus_CMD_REASON = (if s.qState ≠ 1 ∧ s.qState ≠ 2 then 1
    else 2) ∧ RegsOnly (fun r _ => r = .quartzStatus) (s.advance now) t)) ∧
  (∀ (src : Source) (now : Nat) (s : State), s.shut src = false → s.ptmEnabled = true → s.mayMaster = true → Runs (.ptmSample src now)
    s (fun t => t.out = .ptmRequest :: s.out ∧ t.time = { (s.advance now).time with ptmBusy := true } ∧ t =
    { s with time := t.time, out := t.out })) ∧
  (∀ (src : Source) (now : Nat) (s : State), s.shut src = false → s.ptmEnabled = true → s.mayMaster = false → Runs (.ptmSample src now)
    s (fun t => t.host = { s.host with held := s.host.held ++ [.ptmRequest] } ∧
    t = { s with time := { (s.advance now).time with ptmBusy := true }, host := t.host })) ∧
  (∀ (src : Source) (now : Nat) (s : State), s.shut src = false → s.ptmEnabled = false → Runs (.ptmSample src now) s (fun t => t.fget
    Fd.quartzStatus_CMD_REASON = 3 ∧ RegsOnly (fun r _ => r = .quartzStatus) (s.advance now) t)) ∧
  (∀ (now : Nat) (s : State), s.ptmEnabled = true → s.mayMaster = true → (∀ k, s.time.ptmAt = some k → k + 100000000 ≤
    (s.advance now).elapsed) → Runs (.ptmPeriodic now) s (fun t => t.out = .ptmRequest ::
    s.out ∧ t.time = { (s.advance now).time with ptmBusy := true, ptmAt := some (s.advance now).elapsed } ∧
    t = { s with time := t.time, out := t.out })) ∧
  (∀ (now k : Nat) (s : State), s.ptmEnabled = false ∨ s.time.ptmAt = some k ∧ (s.advance now).elapsed < k + 100000000 →
    Runs (.ptmPeriodic now) s (Same (s.advance now))) ∧
  (∀ (a b m : Word) (d : Nat) (s : State), s.time.ptmBusy = true → Runs (.ptmDialogDone a b m d) s (fun t => t.reg .ptmT1 = a.toNat ∧
    t.reg .ptmT4 = b.toNat ∧ t.reg .ptmMaster = m.toNat ∧ t.fget Fd.ptmStatus_PROP_DELAY_NS = d % 2 ^ 16 ∧ t.fget Fd.ptmStatus_SEQ =
    (s.fget Fd.ptmStatus_SEQ + 1) % 2 ^ 16 ∧ t.time = { s.time with ptmBusy := false } ∧ RegsOnly (fun r _ => r = .ptmT1 ∨ r = .ptmT4
    ∨ r = .ptmMaster ∨ r = .ptmStatus) { s with time := t.time } t)) ∧
  (∀ (a b m : Word) (d : Nat) (s : State), s.time.ptmBusy = false → Runs (.ptmDialogDone a b m d) s (Same s)) ∧
  (∀ (now e : Nat) (s : State), e = (s.advance now).now / 1000000000 → s.time.edge < e → Runs (.ppsCrossing now) s (fun t =>
    t.time.edge = e ∧ (t.out = if s.devSec.timeOutputs.testBit 0 then .pps :: s.out else s.out) ∧ (∀ c : CoreId, (s.foldOfCore
    c).isSome = true → s.corePresent c = true → (t.twin c).events = (s.twin c).events ||| 8) ∧ (∀ n : Fin 5, (t.proc n).events =
    (s.proc n).events.lor (2 ^ 19)) ∧ (s.devSec.timeOutputs.testBit 0 = true → t.ppsHigh = true) ∧
    t.time.todDue = (if s.devSec.timeOutputs % 4 = 3 then some (s.todBytes e) else s.time.todDue) ∧ t.regs =
    s.regs ∧ t.mem = s.mem)) ∧
  (∀ (now : Nat) (s : State), (s.advance now).now / 1000000000 ≤ s.time.edge → Runs (.ppsCrossing now) s (Same (s.advance now))) ∧
  (∀ (k : Nat) (s : State), s.time.ppsAt = some k → (s.ppsHigh = true ↔ s.elapsed < k + 100000000)) ∧
  (∀ (sec : Nat) (s : State), sec < 2 ^ 48 → (s.todBytes sec).length = 16 ∧ (s.todBytes sec).take 3 = [0x51, 0xA5, 1] ∧
    leNat (((s.todBytes sec).drop 4).take 6) = sec ∧ leNat (((s.todBytes sec).drop 10).take 2) = s.fget Fd.quartzStatus_LEADER_MEMBER ∧
    leNat (((s.todBytes sec).drop 12).take 2) = s.fget Fd.quartzStatus_TIME_EPOCH % 2 ^ 16) ∧
  (∀ (now k : Nat) (b : Bytes) (s : State), s.time.todDue = some b → s.time.ppsAt = some k → k + 10000000 ≤ (s.advance now).elapsed →
    Runs (.todMessage now) s (fun t => t.out = .tod b :: s.out ∧ t.time = { (s.advance now).time with todDue := none } ∧ t =
    { s with time := t.time, out := t.out })) ∧
  (∀ (now k : Nat) (s : State), s.time.todDue = none ∨ s.time.ppsAt = some k ∧ (s.advance now).elapsed < k + 10000000 →
    Runs (.todMessage now) s (Same (s.advance now))) ∧
  (∀ (now : Nat) (s : State), s.fon Fd.quartzStatus_REF_OK = true → Quiet 4 0x17 s → Runs (.refTLoss now) s (fun t => t.fget
    Fd.quartzStatus_REF_OK = 0 ∧ t.fget Fd.quartzStatus_TIME_LOCKED = 0 ∧ t.fget Fd.quartzCounts_REF_LOSSES = satAdd
    Fd.quartzCounts_REF_LOSSES.max (s.fget Fd.quartzCounts_REF_LOSSES) 1 ∧ ((s.qState = 4 ∨ s.qState = 5) → t.qState = 6) ∧ (s.qState
    = 1 → t.qState = 1) ∧ (s.qState = 2 → s.devSec.role ≠ 2 → t.qState ≠ 2) ∧ Detected 4 ⟨0x17, 4, 4, 0⟩ s t ∧ t.time.q = (s.advance now).time.q ∧
    t.mem = s.mem)) ∧
  (∀ (now : Nat) (s : State), s.fon Fd.quartzStatus_REF_OK = false → Runs (.refTLoss now) s (Same (s.advance now))) ∧
  (∀ (now : Nat) (s : State), s.life.aonUp = true → s.fon Fd.quartzStatus_REF_OK = false → Runs (.refTAccept now) s (fun t => t.fget
    Fd.quartzStatus_REF_OK = 1 ∧ (s.qState = 1 → s.devSec.role = 2 → t.fget Fd.quartzStatus_TIME_LOCKED = 1) ∧ t.time.q = (s.advance
    now).time.q ∧ t.mem = s.mem)) ∧
  (∀ (now : Nat) (s : State), s.life.aonUp = false ∨ s.fon Fd.quartzStatus_REF_OK = true →
    Runs (.refTAccept now) s (Same (s.advance now))) ∧
  (∀ (a b : Word) (s : State), a ≠ b → (a.toNat = s.now ∨ b.toNat = s.now) → Quiet 4 0x18 s → Runs (.quartzCounter a b) s (fun t =>
    t.fget Fd.quartzCounts_COUNTER_FIXES = satAdd Fd.quartzCounts_COUNTER_FIXES.max (s.fget Fd.quartzCounts_COUNTER_FIXES) 1 ∧
    t.qState = s.qState ∧ Detected 4 ⟨0x18, 4, 4, 0⟩ s t ∧ EventFrame (fun r _ => r = .quartzCounts) s t)) ∧
  (∀ (a b : Word) (s : State), a ≠ b → a.toNat ≠ s.now → b.toNat ≠ s.now → Quiet 4 0x18 s → Runs (.quartzCounter a b) s (fun t =>
    t.fget Fd.quartzCounts_COUNTER_FIXES = s.fget Fd.quartzCounts_COUNTER_FIXES ∧ t.qState = (if lockedState s.qState then 6 else
    s.qState) ∧ Detected 4 ⟨0x18, 4, 4, 0⟩ s t ∧ t.time.q = s.time.q ∧ t.mem = s.mem)) ∧
  (∀ (a : Word) (s : State), Runs (.quartzCounter a a) s (Same s)) ∧
  (∀ (src : Source) (s : State), s.dark src = false → Runs (.quartzNowRead src) s (fun t => t.out = .regRead (BitVec.ofNat 64 s.now)
    :: s.out ∧ t.fget Fd.quartzSnap_STATE = s.qState ∧ t.fget Fd.quartzSnap_FRAC = s.frac % 2 ^ 16 ∧ RegsAndOut (fun r _ => r =
    .quartzSnap) s t))

/-- The power block checks a command in the order of Table 17.4, begins it and shows its end; FENCE, UNFENCE, SET_STATE, SET_OP and the
HBM moves do what their rules say, and a DOMAIN command of a ring does what the same POWER_CMD does. R20, R422, R423, R426, R630, R631, R632,
R633, R635, R638, R640, R645, Table 17.4. That an UNFENCE of an INVALID fold ends UPDATING is the model's choice (log 65). -/
def Obligations.PowerCommandsBeginAndEnd : Prop :=
  (∀ (src : Source) (n : CoreId) (s : State), PowerClear src 1 n 1 0 s → s.coreFence n = FencePhase.none → Runs (.fence
    (.cmd src 1 n 0)) s (fun t => t.coreFence n = .fencing ∧ OtherFences n s t ∧ t.fget Fd.powerStatus_BUSY = 1 ∧ t.power = some
    ⟨none, 1, n.val, 1, 0, none, false, false⟩ ∧ nget 0 t.fenceSince n = s.elapsed ∧ ((s.twin n).waiting = true → (t.twin n).waiting = false ∧
    (t.twin n).epc = (s.twin n).pc) ∧ t.mem = s.mem)) ∧
  (∀ (src : Source) (p : PortId) (s : State), PowerClear src 3 p 1 0 s → s.portFence p = FencePhase.none → Runs (.fence
    (.cmd src 3 p 0)) s (fun t => t.portFence p = .fencing ∧ OtherFences (304 + p.val) s t ∧ nget 0 t.fenceSince (304 + p.val) = s.elapsed ∧
    t.power = some ⟨none, 3, p.val, 1, 0, none, false, false⟩ ∧ t.fget Fd.powerStatus_BUSY = 1 ∧ t =
    { s with regs := t.regs, fences := t.fences, fenceSince := t.fenceSince, power := t.power } ∧ SameRegs (fun r u => r = .powerStatus ∨
    r = .portPwr ∧ u = p.val) s t)) ∧
  (∀ (src : Source) (f : FoldId) (s : State), PowerClear src 2 f 1 0 s → Runs (.fence (.cmd src 2 f 0)) s (fun t =>
    (∀ k : Fin 340, t.fenceAt k = if (k.val = 288 + f.val ∨ k.val ∈ s.foldCores f ∨ 304 ≤ k.val ∧ k.val - 304 ∈ s.foldPorts f) ∧
      s.fenceAt k = FencePhase.none then .fencing else s.fenceAt k) ∧
    t.power = some ⟨none, 2, f.val, 1, 0, (if s.foldFence f = .fenced then some 0 else none), false, false⟩ ∧
    t.fget Fd.powerStatus_BUSY = 1 ∧ t.mem = s.mem)) ∧
  (∀ (src : Source) (dk id k : Nat) (s : State), PowerClear src dk id 1 0 s → (dk = 1 ∧ k = id ∨ dk = 3 ∧ k = 304 + id) → s.fenceAt k ≠
    FencePhase.none → Runs (.fence (.cmd src dk id 0)) s (fun t => t.power = some ⟨none, dk, id, 1, 0,
    (if s.fenceAt k = .fenced then some 0 else none), false, false⟩ ∧ t.fget Fd.powerStatus_BUSY = 1 ∧
    RegsOnly (fun r _ => r = .powerStatus) { s with power := t.power } t)) ∧
  (∀ (src : Source) (a dk id arg e : Nat) (s : State), 1 ≤ a ∧ a ≤ 4 → PowerFree src s → reservedPower dk a arg = false →
    s.powerCheck none dk id a arg = some e → Runs (powerInstr a (.cmd src dk id arg)) s (fun t => t.power = some ⟨none, dk, id, a,
    arg, some e, false, false⟩ ∧ t.fget Fd.powerStatus_BUSY = 1 ∧ RegsOnly (fun r _ => r = .powerStatus) { s with power := t.power } t)) ∧
  (∀ (a dk id arg e : Nat) (s : State), 1 ≤ a ∧ a ≤ 4 → PowerFree .host s → reservedPower dk a arg = true →
    s.powerCheck none dk id a arg = some e → Runs (powerInstr a (.cmd .host dk id arg)) s (fun t => t.power = some ⟨none, dk, id, a,
    arg, some e, false, false⟩ ∧ t.fget Fd.powerStatus_BUSY = 1 ∧ t.fget Fd.hostViol_COUNT = satAdd Fd.hostViol_COUNT.max (s.fget
    Fd.hostViol_COUNT) 1 ∧ RegsOnly (fun r _ => r = .powerStatus ∨ r = .hostViol) { s with power := t.power } t)) ∧
  (∀ (dk id a arg : Nat) (s : State), 1 ≤ a ∧ a ≤ 4 → s.hasImage = false → s.powerCheck none dk id a arg = if dk = 5 ∧ a = 4 ∧ arg = 5
    then (if id < 5 then none else some 2) else some 10) ∧
  (∀ (dk id a arg : Nat) (s : State), s.hasImage = true → (dk = 1 ∧ (s.corePresent id = false ∨ s.coreOut id = true) ∨ dk = 2 ∧
    s.foldSecs.length ≤ id ∨ dk = 3 ∧ (36 ≤ id ∨ s.lanesOutOf id = 15) ∨ dk = 4 ∧ 8 ≤ id ∨ dk = 5 ∧ 5 ≤ id ∨ dk = 0 ∨ 5 < dk) →
    s.powerCheck none dk id a arg = some 2) ∧
  (∀ (dk id a arg : Nat) (s : State), s.hasImage = true → s.domainOk dk id = true → (a = 1 ∧ (dk = 4 ∨ dk = 5 ∨ arg ≠ 0) ∨ a = 2 ∧
    (dk = 4 ∨ dk = 5 ∨ arg ≠ 0 ∨ dk = 1 ∧ s.fget Fd.corePwr_STATE id ≠ 0) ∨ a = 3 ∧ (dk = 2 ∨ dk = 5 ∨ dk = 1 ∧ 3 < arg ∨ dk = 3 ∧ 4 < arg ∨
    dk = 4 ∧ 1 < arg) ∨ a = 4 ∧ (dk ≠ 5 ∨ 7 < arg) ∨ a = 0 ∨ 4 < a) → s.powerCheck none dk id a arg = some 3) ∧
  (∀ (id arg : Nat) (s : State), s.hasImage = true → id < 5 → arg ≤ 7 → s.powerCheck none 5 id 4 arg =
    if arg < (s.devSec.limits.getD id (0, 7)).1 ∨ (s.devSec.limits.getD id (0, 7)).2 < arg then some 4
    else if arg = 0 ∧ (∃ c : CoreId, c.val / 72 = id ∧ s.corePresent c = true ∧ s.fget Fd.corePwr_STATE c ≤ 1) then some 8 else none) ∧
  (∀ (dk id f : Nat) (s : State), s.hasImage = true → s.domainOk dk id = true → s.foldOfDomain dk id = some f → dk ≤ 3 → (dk = 1 → s.fget
    Fd.corePwr_STATE id = 0) → s.powerCheck none dk id 2 0 = if s.life.updating = some f ∨ s.fget Fd.foldStatus_IMAGE_STATE f = 2 then
    some 5 else if (∃ d : Fin 5, (nget 0 s.hotFolds f).testBit d = true ∧ (s.fget Fd.thermal_TRIP d = 1 ∨ 105 < s.fget
    Fd.thermal_TJ_MAX_C d)) then some 6 else none) ∧
  (∀ (id arg : Nat) (s : State), s.hasImage = true → s.domainOk 1 id = true → arg ≤ 3 → s.powerCheck none 1 id 3 arg =
    if arg ≠ 0 ∧ s.coreFence id = FencePhase.none then some 1 else if arg ≤ 1 ∧ s.fget Fd.railStatus_OP_NOW (coreDie id) = 0 then some 7
    else none) ∧
  (∀ (id arg : Nat) (s : State), s.hasImage = true → s.domainOk 3 id = true → arg ≤ 4 → s.powerCheck none 3 id 3 arg =
    if 3 ≤ arg ∧ s.portFence id = FencePhase.none then some 1 else none) ∧
  (∀ (a dk id arg : Nat) (p : PowerRun) (s : State), 1 ≤ a ∧ a ≤ 4 → s.shut .host = false → s.power = some p → Runs (powerInstr a
    (.cmd .host dk id arg)) s (fun t => t.fget Fd.hostViol_COUNT = satAdd Fd.hostViol_COUNT.max (s.fget Fd.hostViol_COUNT) 1 ∧
    RegsOnly (fun r _ => r = .hostViol) s t)) ∧
  (∀ (src : Source) (a dk id arg : Nat) (s : State), 1 ≤ a ∧ a ≤ 4 → PowerFree src s → s.powerCheck none dk id a arg = none →
    ((∃ w, s.reset' = some w ∧ w.dkind = dk ∧ w.id = id) ∨ s.underTest dk id = true) → Runs (powerInstr a (.cmd src dk id arg)) s (fun t => t.power =
    some ⟨none, dk, id, a, arg, none, true, false⟩ ∧ t.fget Fd.powerStatus_BUSY = 1 ∧ RegsOnly (fun r _ => r = .powerStatus)
    { s with power := t.power } t)) ∧
  (∀ (src : Source) (n : CoreId) (s : State), PowerClear src 1 n 2 0 s → s.coreFence n ≠ FencePhase.none → (s.core n).wasReset =
    true → Runs (.unfence (.cmd src 1 n 0)) s (fun t => t.coreFence n = FencePhase.none ∧ OtherFences n s t ∧ t.fget Fd.corePwr_FENCED
    n = 0 ∧ t.power = some ⟨none, 1, n.val, 2, 0, some 0, false, false⟩ ∧ t.fget Fd.powerStatus_BUSY = 1 ∧ t =
    { s with regs := t.regs, fences := t.fences, power := t.power } ∧ SameRegs (fun r u => r = .powerStatus ∨ r = .corePwr ∧ u =
    n.val) s t)) ∧
  (∀ (src : Source) (n : CoreId) (s : State), PowerClear src 1 n 2 0 s → s.coreFence n ≠ FencePhase.none → (s.core n).wasReset =
    false → Runs (.unfence (.cmd src 1 n 0)) s (fun t => t.coreFence n = FencePhase.none ∧ OtherFences n s t ∧ t.fget Fd.corePwr_FENCED
    n = 0 ∧ t.core n = { wasReset := true } ∧ (t.twin n).mode = .resetHold ∧ (∀ k : Fin 64, t.ctr (ctrKey n k) = 0) ∧ t.mem = s.mem ∧
    t.power = some ⟨none, 1, n.val, 2, 0, some 0, false, false⟩ ∧ t.fget Fd.powerStatus_BUSY = 1)) ∧
  (∀ (src : Source) (p : PortId) (s : State), PowerClear src 3 p 2 0 s → s.portFence p ≠ FencePhase.none → Runs (.unfence
    (.cmd src 3 p 0)) s (fun t => t.portFence p = FencePhase.none ∧ OtherFences (304 + p.val) s t ∧ t.fget Fd.portPwr_FENCED
    p = 0 ∧ t.power = some ⟨none, 3, p.val, 2, 0, some 0, false, false⟩ ∧ t.fget Fd.powerStatus_BUSY = 1 ∧ t =
    { s with regs := t.regs, fences := t.fences, power := t.power } ∧ SameRegs (fun r u => r = .powerStatus ∨ r = .portPwr ∧ u =
    p.val) s t)) ∧
  (∀ (src : Source) (dk id k : Nat) (s : State), PowerClear src dk id 2 0 s → (dk = 1 ∧ k = id ∨ dk = 3 ∧ k = 304 + id) → s.fenceAt k =
    FencePhase.none → Runs (.unfence (.cmd src dk id 0)) s (fun t => t.power = some ⟨none, dk, id, 2, 0, some 0, false, false⟩ ∧
    t.fget Fd.powerStatus_BUSY = 1 ∧ RegsOnly (fun r _ => r = .powerStatus) { s with power := t.power } t)) ∧
  (∀ (src : Source) (f : FoldId) (s : State), PowerClear src 2 f 2 0 s → Runs (.unfence (.cmd src 2 f 0)) s (fun t =>
    (∀ k : Fin 340, t.fenceAt k = if k.val = 288 + f.val ∨ (k.val ∈ s.foldCores f ∧ s.coreOut k = false) ∨ 304 ≤ k.val ∧ k.val - 304 ∈
      s.foldPorts f then FencePhase.none else s.fenceAt k) ∧
    (∀ c : CoreId, c.val ∈ s.foldCores f → s.coreOut c = false → s.coreFence c ≠ FencePhase.none → (s.core c).wasReset = false →
      (if s.fget Fd.corePwr_STATE c = 0 then (t.twin c).mode = .resetHold ∧ (t.core c).wasReset = true else t.fget
      Fd.corePwr_RESET_PENDING c = 1)) ∧
    t.power = some ⟨none, 2, f.val, 2, 0, some 0, false, false⟩ ∧ t.fget Fd.powerStatus_BUSY = 1 ∧ t.mem = s.mem)) ∧
  (∀ (src : Source) (n : CoreId) (arg : Nat) (s : State), PowerClear src 1 n 3 arg s → Runs (.setState (.cmd src 1 n arg)) s (fun t =>
    t.power = some ⟨none, 1, n.val, 3, arg, (if s.fget Fd.corePwr_STATE n = arg then some 0 else none), false, false⟩ ∧ t.fget
    Fd.powerStatus_BUSY = 1 ∧ RegsOnly (fun r _ => r = .powerStatus) { s with power := t.power } t)) ∧
  (∀ (src : Source) (p : PortId) (arg : Nat) (s : State), PowerClear src 3 p 3 arg s → 3 ≤ arg → s.fget Fd.portPwr_HOST_STATE p ≠ arg →
    Runs (.setState (.cmd src 3 p arg)) s (fun t => t.portState p = (if arg = 3 then 1 else 0) ∧ t.fget Fd.portPwr_HOST_STATE p = arg ∧
    t.fget Fd.portStatus_GEN p = (s.fget Fd.portStatus_GEN p + 1) % 256 ∧ t.fget Fd.portStatus_TX_LANE_MAP p = 0 ∧ t.fget
    Fd.portStatus_IN_USE p = 0 ∧ t.power = some ⟨none, 3, p.val, 3, arg, some 0, false, false⟩ ∧ t.fget Fd.powerStatus_BUSY = 1 ∧
    (∀ q : PortId, q ≠ p → t.portState q =
    s.portState q) ∧ t.mem = s.mem)) ∧
  (∀ (src : Source) (p : PortId) (arg : Nat) (s : State), PowerClear src 3 p 3 arg s → arg ≤ 2 → s.portState p ≤ 1 → s.fget
    Fd.portPwr_HOST_STATE p ≠ arg → Runs (.setState (.cmd src 3 p arg)) s (fun t => t.portState p = 2 ∧ t.fget Fd.portPwr_HOST_STATE p =
    arg ∧ (t.port p).width = [4, 2, 1].getD arg 4 ∧ t.power = some ⟨none, 3, p.val, 3, arg, some 0, false, false⟩ ∧ t.fget
    Fd.powerStatus_BUSY = 1 ∧ t.mem = s.mem)) ∧
  (∀ (src : Source) (p : PortId) (arg : Nat) (s : State), PowerClear src 3 p 3 arg s → arg ≤ 2 → 1 < s.portState p → s.fget
    Fd.portPwr_HOST_STATE p ≠ arg → chooseLanes (s.goodLanes p) ([4, 2, 1].getD arg 4) ≠ 0 → Runs (.setState (.cmd src 3 p arg)) s (fun
    t => t.portState p = s.portState p ∧ t.fget Fd.portStatus_GEN p = s.fget Fd.portStatus_GEN p ∧ t.fget Fd.portPwr_HOST_STATE p = arg ∧
    (t.port p).width = [4, 2, 1].getD arg 4 ∧ (s.colls = [] → t.port p =
    { s.port p with width := [4, 2, 1].getD arg 4 } ∧ OtherPorts p s t) ∧ t.fget Fd.portStatus_TX_LANE_MAP p = (if s.portUp p =
    true then chooseLanes (s.goodLanes p) ([4, 2, 1].getD arg 4) else s.fget Fd.portStatus_TX_LANE_MAP p) ∧ t.power = some ⟨none, 3,
    p.val, 3, arg, some 0, false, false⟩ ∧ t.fget Fd.powerStatus_BUSY = 1 ∧ t.mem = s.mem)) ∧
  (∀ (src : Source) (p : PortId) (arg : Nat) (s : State), PowerClear src 3 p 3 arg s → s.fget Fd.portPwr_HOST_STATE p = arg →
    Runs (.setState (.cmd src 3 p arg)) s (fun t => t.power = some ⟨none, 3, p.val, 3, arg, some 0, false, false⟩ ∧ t.fget
    Fd.powerStatus_BUSY = 1 ∧ RegsOnly (fun r _ => r = .powerStatus) { s with power := t.power } t)) ∧
  (∀ (src : Source) (st : Fin 8) (arg : Nat) (s : State), PowerClear src 4 st 3 arg s → Runs (.setState (.cmd src 4 st arg)) s (fun t =>
    t.stackState st = (if s.stackState st = 2 * arg then 2 * arg else if arg = 1 then 1 else 3) ∧ t.power = some ⟨none, 4, st.val, 3, arg,
    (if s.stackState st = 2 * arg then some 0 else none), false, false⟩ ∧ t.fget Fd.powerStatus_BUSY = 1 ∧ t.cores = s.cores ∧
    SameRegs (fun r u => r = .powerStatus ∨ r = .hbmPwrStatus ∧ u = st.val) s t)) ∧
  (∀ (src : Source) (k : Fin 5) (arg : Nat) (s : State), PowerClear src 5 k 4 arg s → (s.fget Fd.paceStatus_OP_NOW k ≠ arg ∨ s.fget
    Fd.paceStatus_OP_TARGET k ≠ arg ∨ s.fget Fd.paceStatus_SLEWING k ≠ 0) → Runs
    (.setOp (.cmd src 5 k arg)) s (fun t => t.fget Fd.paceStatus_OP_TARGET k = arg ∧ t.fget Fd.paceStatus_SLEWING k = 1 ∧ nfind
    t.opTarget k = some arg ∧ t.fget Fd.paceStatus_OP_NOW k = s.fget Fd.paceStatus_OP_NOW k ∧ t.fget Fd.railStatus_OUTSIDE_LIMITS k = 0 ∧
    t.out = .avs k (opMv arg) :: s.out ∧ t.power = some ⟨none, 5, k.val, 4, arg, none, false, false⟩ ∧ t.fget Fd.powerStatus_BUSY = 1 ∧ t =
    { s with regs := t.regs, out := t.out, opTarget := t.opTarget, power := t.power } ∧ SameRegs (fun r u => r = .powerStatus ∨ (r =
    .paceStatus ∨ r = .railStatus) ∧ u = k.val) s t)) ∧
  (∀ (src : Source) (k : Fin 5) (arg : Nat) (s : State), PowerClear src 5 k 4 arg s → s.fget Fd.paceStatus_OP_NOW k = arg → s.fget
    Fd.paceStatus_OP_TARGET k = arg → s.fget Fd.paceStatus_SLEWING k = 0 → Runs (.setOp (.cmd src 5 k arg)) s (fun t => t.power = some
    ⟨none, 5, k.val, 4, arg, some 0, false, false⟩ ∧ t.fget Fd.powerStatus_BUSY = 1 ∧ t.fget Fd.railStatus_OUTSIDE_LIMITS k = 0 ∧
    RegsOnly (fun r u => r = .powerStatus ∨ r = .railStatus ∧ u = k.val) { s with power := t.power } t)) ∧
  (∀ (src : Source) (st : Fin 8) (s : State), s.shut src = false → s.power = none → s.powerWait = [] → s.stackState st = 0 →
    s.hbmFenceOk st = true → s.underTest 4 st = false → Runs (.hbmSelfRefresh src st) s (fun t => t.stackState st = 1 ∧ t.fget
    Fd.powerStatus_BUSY = 1 ∧ t.power = some ⟨none, 4, st.val, 3, 1, none, false, true⟩ ∧ (∀ (ch : ChanId) (i : Fin 256), ch.val / 32
    = st.val → ((nfind t.l2 (256 * ch.val + i.val)).getD []).all (fun w => w.dirty == 0) = true) ∧ SameRegs (fun r u => r =
    .powerStatus ∨ r = .hbmPwrStatus ∧ u = st.val) s t)) ∧
  (∀ (src : Source) (st : Fin 8) (s : State), s.shut src = false → s.power = none → s.powerWait = [] → s.stackState st = 0 →
    s.hbmFenceOk st = false → Runs (.hbmSelfRefresh src st) s (fun t => t.power = some ⟨none, 4, st.val, 3, 1, some 1, false, true⟩ ∧
    t.fget Fd.powerStatus_BUSY = 1 ∧ RegsOnly (fun r _ => r = .powerStatus) { s with power := t.power } t)) ∧
  (∀ (src : Source) (st : Fin 8) (s : State), s.shut src = false → s.power = none → s.powerWait = [] → s.stackState st = 2 → s.underTest
    4 st = false → Runs (.hbmActive src st) s (fun t => t.stackState st = 3 ∧ t.power = some ⟨none, 4, st.val, 3, 0, none, false,
    true⟩ ∧ t.fget Fd.powerStatus_BUSY = 1 ∧ RegsOnly (fun r u => r = .powerStatus ∨ r = .hbmPwrStatus ∧ u = st.val)
    { s with power := t.power } t)) ∧
  (∀ (src : Source) (st : Fin 8) (self : Bool) (s : State), s.shut src = false → s.power = none → s.powerWait = [] → s.stackState st =
    (if self then 2 else 0) → s.underTest 4 st = false → Runs (if self then .hbmSelfRefresh src st else .hbmActive src st) s (fun t =>
    t.power = some ⟨none, 4, st.val, 3, b2n self, some 0, false, true⟩ ∧ t.fget Fd.powerStatus_BUSY = 1 ∧
    RegsOnly (fun r _ => r = .powerStatus) { s with power := t.power } t)) ∧
  (∀ (src : Source) (st : Fin 8) (self : Bool) (p : PowerRun) (s : State), s.shut src = false → s.power = some p → (s.stackState st = 0 ∨
    s.stackState st = 2) → (∀ q ∈ s.powerWait, q.hbm = true → q.id ≠ st.val) → Runs (if self then .hbmSelfRefresh src st else .hbmActive
    src st) s (fun t => t = { s with powerWait := s.powerWait ++ [⟨none, 4, st.val, 3, b2n self, none, false, true⟩] })) ∧
  (∀ (st : Fin 8) (self : Bool) (s : State), s.shut .host = false → (s.stackState st = 1 ∨ s.stackState st = 3 ∨
    (∃ q ∈ s.powerWait, q.hbm = true ∧ q.id = st.val)) → Runs (if self then .hbmSelfRefresh .host st else .hbmActive
    .host st) s (fun t => t.fget Fd.hostViol_COUNT = satAdd Fd.hostViol_COUNT.max (s.fget Fd.hostViol_COUNT) 1 ∧
    RegsOnly (fun r _ => r = .hostViol) s t)) ∧
  (∀ (st : Fin 8) (p : PowerRun) (s : State), s.power = some p → p.hbm = true → p.waitReset = false → p.result = none →
    p.id = st.val → s.powerWait = [] → Runs .hbmPowerDone s (fun t => t.stackState st = (if s.stackState st = 1 then 2 else 0) ∧
    (∀ ch : ChanId, t.chanState ch = if ch.val / 32 = st.val ∧ (s.chanState ch = 1 ∨ s.chanState ch = 2) then (if s.stackState st = 1
    then 2 else 1) else s.chanState ch) ∧ t.fget Fd.hbmPwrStatus_DONE st = 1 ∧ t.fget
    Fd.hbmPwrStatus_RESULT st = 0 ∧ t.fget Fd.powerStatus_BUSY = 0 ∧ t.power = none ∧ Raised 120 s t ∧ t.mem = s.mem ∧ t.cores =
    s.cores ∧ SameRegs (fun r u => r = .powerStatus ∨ r = .msixPba ∨ r = .hbmPwrStatus ∧ u = st.val ∨ r = .hbmStatus ∧ u / 32 = st.val)
    s t)) ∧
  (∀ (st : Fin 8) (p : PowerRun) (r : Nat) (s : State), s.power = some p → p.hbm = true → p.result = some r → p.id = st.val →
    s.powerWait = [] → Runs .hbmPowerDone s (fun t => t.fget Fd.hbmPwrStatus_DONE st = 1 ∧ t.fget Fd.hbmPwrStatus_RESULT st = r % 256 ∧
    t.stackState st = s.stackState st ∧ t.fget Fd.powerStatus_BUSY = 0 ∧ t.power = none ∧ Raised 120 s t ∧ t.mem = s.mem ∧ t.cores =
    s.cores ∧ SameRegs (fun r u => r = .powerStatus ∨ r = .msixPba ∨ r = .hbmPwrStatus ∧ u = st.val) s t)) ∧
  (∀ s : State, (∀ p, s.power = some p → p.hbm = false ∨ p.waitReset = true ∧ p.result = none) → Runs .hbmPowerDone s (Same s)) ∧
  (∀ (p : PowerRun) (r : Nat) (s : State), s.power = some p → p.hbm = false → p.ring = none → p.result = some r → s.powerWait = [] →
    s.reset' = none → Runs .powerCommandDone s (fun t => t.power = none ∧ t.fget Fd.powerStatus_BUSY = 0 ∧ t.fget Fd.powerStatus_DONE
    = 1 ∧ t.fget Fd.powerStatus_RESULT = r % 256 ∧ Raised 98 s t ∧ t.mem = s.mem ∧ t.cores = s.cores ∧ SameRegs (fun q _ => q =
    .powerStatus ∨ q = .msixPba) s t)) ∧
  (∀ (st : Fin 8) (p : PowerRun) (s : State), s.power = some p → p.hbm = false → p.ring = none → p.dkind = 4 → p.id = st.val → p.result =
    none → p.waitReset = false → s.powerWait = [] → s.reset' = none → Runs .powerCommandDone s (fun t => t.power = none ∧ t.fget
    Fd.powerStatus_BUSY = 0 ∧ t.fget Fd.powerStatus_DONE = 1 ∧ t.fget Fd.powerStatus_RESULT = 0 ∧ t.stackState st =
    (if s.stackState st = 1 then 2 else 0) ∧ Raised 98 s t ∧ t.mem = s.mem)) ∧
  (∀ (p : PowerRun) (r : Nat) (ring : RingId) (c : RingCmd) (s : State), s.power = some p → p.hbm = false → p.dkind ≠ 4 → p.ring =
    some ring.val → p.result = some r → s.powerWait = [] → s.reset' = none → (s.ring ring).cmds = [c] → c.phase = .running → c.opc = 6 →
    Runs .powerCommandDone s (fun t => t.power = none ∧ t.fget Fd.powerStatus_BUSY = 0 ∧ t.fget Fd.powerStatus_DONE = s.fget
    Fd.powerStatus_DONE ∧ (t.ring ring).cmds =
    [{ c with phase := .done, status := (domainStatus r).1, detail := (domainStatus r).2, fin := s.now }] ∧ t.mem = s.mem ∧ OtherRings
    ring s t)) ∧
  ((List.range 12).map domainStatus = [(0, 0), (5, 0), (3, 0x20), (3, 0x21), (3, 0x22), (3, 0x23), (3, 0x24), (3, 0x25), (3, 0x26),
    (8, 4), (3, 0x20), (3, 0x20)]) ∧
  (∀ s : State, (∀ p, s.power = some p → p.hbm = true ∨ p.result = none ∧ (p.dkind = 4 → p.waitReset = true)) → Runs .powerCommandDone s
    (Same s)) ∧
  (∀ (r : RingId) (c : RingCmd) (named : Bool) (s u : State), (s.ring r).cmds = [c] → c.phase = .started → c.opc = 6 → s.power = none →
    (∀ q ∈ s.powerWait, q.ring ≠ some r.val) → 1 ≤ bits (c.word 1) 15 8 ∧ bits (c.word 1) 15 8 ≤ 4 → bits (c.word 1) 7 0 ≤ 3 →
    (s.foldOfRing r).isSome = true → s.foldOfDomain (bits (c.word 1) 7 0) (bits (c.word 1) 47 32) = s.foldOfRing r →
    exec (powerInstr (bits (c.word 1) 15 8) (.cmd .smbus (bits (c.word 1) 7 0) (bits (c.word 1) 47 32) (bits (c.word 1) 23 16)))
    { s with rings := nset s.rings r { s.ring r with cmds := [{ c with phase := .running, left := 0 }] } } = .next u →
    Runs (if named then powerInstr (bits (c.word 1) 15 8) (.ring r) else .domain r) s (fun t => t.power.map (fun p => (p.ring, p.dkind,
    p.id, p.action, p.arg)) = some (some r.val, bits (c.word 1) 7 0, bits (c.word 1) 47 32, bits (c.word 1) 15 8, bits (c.word 1) 23 16) ∧
    t = { u with power := u.power.map fun p => { p with ring := some r.val } })) ∧
  (∀ (r : RingId) (c : RingCmd) (named : Bool) (s : State), (s.ring r).cmds = [c] → c.phase = .started → c.opc = 6 → s.power = none →
    (∀ q ∈ s.powerWait, q.ring ≠ some r.val) → 1 ≤ bits (c.word 1) 15 8 ∧ bits (c.word 1) 15 8 ≤ 4 → s.hasImage = true → s.foldOfDomain
    (bits (c.word 1) 7 0) (bits (c.word 1) 47 32) ≠ some ((s.foldOfRing r).getD 16) → Runs (if named then powerInstr
    (bits (c.word 1) 15 8) (.ring r) else .domain r) s (fun t => t.power = some ⟨some r.val, bits (c.word 1) 7 0, bits (c.word 1) 47 32,
    bits (c.word 1) 15 8, bits (c.word 1) 23 16, some 2, false, false⟩ ∧ t.fget Fd.powerStatus_BUSY = 1 ∧ t.fences = s.fences ∧ t.mem =
    s.mem ∧ SameRegs (fun r _ => r = .powerStatus) s t)) ∧
  (∀ (r : RingId) (c : RingCmd) (p : PowerRun) (named : Bool) (s : State), (s.ring r).cmds = [c] → c.phase = .started → c.opc = 6 →
    s.power = some p → (∀ q ∈ s.powerWait, q.ring ≠ some r.val) → 1 ≤ bits (c.word 1) 15 8 ∧ bits (c.word 1) 15 8 ≤ 4 → Runs (if named
    then powerInstr (bits (c.word 1) 15 8) (.ring r) else .domain r) s (fun t => t = { s with powerWait := s.powerWait ++ [⟨some r.val,
    bits (c.word 1) 7 0, bits (c.word 1) 47 32, bits (c.word 1) 15 8, bits (c.word 1) 23 16, none, false, false⟩] })) ∧
  (∀ (r : RingId) (a : Nat) (s : State), 1 ≤ a ∧ a ≤ 4 → (∀ c ∈ (s.ring r).cmds, c.opc = 6 → c.phase ≠ .started) → Runs (powerInstr a
    (.ring r)) s (Same s) ∧ Runs (.domain r) s (Same s))

/-- A drain that ends or times out makes its domain FENCED, and a FENCE or a reset that waited for it goes on; a core, a rail and a die's
temperature reach what was commanded or read. R508, R628, R629, R633, R634, R639, R641, R642, R643, R650, R652. -/
def Obligations.DrainsStatesRailsAndHeat : Prop :=
  (∀ (n : CoreId) (p : PowerRun) (s : State), s.coreFence n = .fencing → s.openRequests (.core n) = false → s.power = some p →
    p.action = 1 → p.dkind = 1 → p.id = n.val → p.waitReset = false → p.result = none → s.reset' = none → Runs (.fenceComplete (.core
    n)) s (fun t => t.coreFence n = .fenced ∧ t.fget Fd.corePwr_FENCED n = 1 ∧ t.power = some { p with result := some 0 } ∧ (t.core
    n).parts = [] ∧ OtherFences n s t ∧ t.mem = s.mem)) ∧
  (∀ (d : Domain) (k : Nat) (s : State), k = domKey d → s.fenceAt k = .fencing → s.openRequests d = false → s.power = none → s.reset' =
    none → Runs (.fenceComplete d) s (fun t => (∀ j : Fin 340, t.fenceAt j = if (j.val = k ∨ 288 ≤ k ∧ k < 304 ∧ (j.val ∈ s.foldCores
    (k - 288) ∨ 304 ≤ j.val ∧ j.val - 304 ∈ s.foldPorts (k - 288))) ∧ s.fenceAt j = .fencing then .fenced else s.fenceAt j) ∧
    (∀ f : FoldId, k = 288 + f.val → t.fget Fd.foldStatus_FENCED f = 1) ∧ (∀ p : PortId, k = 304 + p.val → t.fget Fd.portPwr_FENCED p = 1)
    ∧ t.power = none ∧ t.mem = s.mem)) ∧
  (∀ (d : Domain) (p : PowerRun) (s : State), s.fenceAt (domKey d) = .fencing → s.openRequests d = false → s.power = some p → p.action =
    1 → domainKey p.dkind p.id = some (domKey d) → p.waitReset = false → p.result = none → s.reset' = none → Runs (.fenceComplete d) s
    (fun t => t.fenceAt (domKey d) = .fenced ∧ t.power = some { p with result := some 0 })) ∧
  (∀ (d : Domain) (s : State), (s.fenceAt (domKey d) ≠ .fencing ∨ s.openRequests d = true) → Runs (.fenceComplete d) s (Same s)) ∧
  (∀ (n : CoreId) (s : State), s.coreFence n = .fencing → s.openRequests (.core n) = false → s.power = none → s.reset' = some ⟨1, n.val,
    false, none⟩ → s.fget Fd.corePwr_STATE n = 0 → Runs (.fenceComplete (.core n)) s (fun t => t.coreFence n = .fenced ∧ t.core n =
    { wasReset := true } ∧ t.reset' = some ⟨1, n.val, false, some 0⟩ ∧ OtherFences n s t ∧ t.mem = s.mem)) ∧
  (∀ (n : CoreId) (r : RingId) (c : RingCmd) (p : Part) (w : ResetRun) (s : State), s.coreFence n = .fencing → s.openRequests (.core n) =
    false → s.power = none → s.reset' = some w → w.result = none → (s.core n).parts = [p] → p.ring = r.val → p.seq = c.seq → p.mark = 0 →
    (s.ring r).cmds = [c] → c.phase = .running → c.left = 1 → c.status = 0 → Runs (.fenceComplete (.core n)) s (fun t => (t.ring r).cmds =
    [{ c with phase := .done, left := 0, status := (if w.dkind = 1 ∧ w.id = n.val ∧ w.waitPower = false then 8 else 4), detail :=
    (if w.dkind = 1 ∧ w.id = n.val ∧ w.waitPower = false then 3 else 0), fin := s.now }])) ∧
  (∀ (n : CoreId) (now : Nat) (s : State), s.coreFence n = .fencing → nget 0 s.fenceSince n + 1000 * s.devSec.drainUs ≤ (s.advance
    now).elapsed → s.reset' = none → Runs (.drainLimitExpiry (.core n) now) s (fun t => t.coreFence n = .fenced ∧ t.fget
    Fd.corePwr_FENCED n = 1 ∧ t.openRequests (.core n) = false ∧ OtherFences n s t ∧ t.mem = s.mem)) ∧
  (∀ (f : FoldId) (now : Nat) (s : State), s.foldFence f = .fencing → nget 0 s.fenceSince (288 + f.val) + 1000 * s.devSec.drainUs ≤
    (s.advance now).elapsed → s.power = none → s.reset' = none → Runs (.drainLimitExpiry (.fold f) now) s (fun t => (∀ j : Fin 340,
    t.fenceAt j = if (j.val = 288 + f.val ∨ j.val ∈ s.foldCores f ∨ 304 ≤ j.val ∧ j.val - 304 ∈ s.foldPorts f) ∧ s.fenceAt j = .fencing
    then .fenced else s.fenceAt j) ∧ t.fget Fd.foldStatus_FENCED f = 1 ∧ t.openRequests (.fold f) = false ∧ t.mem = s.mem)) ∧
  (∀ (p : PortId) (now : Nat) (s : State), s.portFence p = .fencing → nget 0 s.fenceSince (304 + p.val) + 1000 * s.devSec.drainUs ≤
    (s.advance now).elapsed → s.power = none → s.reset' = none → Runs (.drainLimitExpiry (.port p) now) s (fun t => t.portFence p = .fenced
    ∧ t.fget Fd.portPwr_FENCED p = 1 ∧ OtherFences (304 + p.val) s t ∧ t =
    { (s.advance now) with fences := t.fences, regs := t.regs } ∧ SameRegs (fun r u => r = .portPwr ∧ u = p.val ∨ r = .portReq) s t)) ∧
  (∀ (d : Domain) (now : Nat) (s : State), (s.fenceAt (domKey d) ≠ .fencing ∨ (s.advance now).elapsed < nget 0 s.fenceSince (domKey d) +
    1000 * s.devSec.drainUs) → Runs (.drainLimitExpiry d now) s (Same (s.advance now))) ∧
  (∀ (n : CoreId) (p : PowerRun) (s : State), s.power = some p → p.dkind = 1 → p.id = n.val → p.action = 3 → p.arg = 1 → p.result =
    none → Runs (.coreStateReached n) s (fun t => t.fget Fd.corePwr_STATE n = 1 ∧ t.power = some { p with result := some 0 } ∧
    RegsOnly (fun r u => r = .corePwr ∧ u = n.val) { s with power := t.power } t)) ∧
  (∀ (n : CoreId) (p : PowerRun) (s : State), s.power = some p → p.dkind = 1 → p.id = n.val → p.action = 3 → p.arg = 2 → p.result =
    none → s.coreFence n = .fenced → Runs (.coreStateReached n) s (fun t => t.fget Fd.corePwr_STATE n = 2 ∧ t.fget
    Fd.corePwr_RESET_PENDING n = 1 ∧ t.power = some { p with result := some 0 } ∧ (∀ k : Fin 64, t.ctr (ctrKey n k) = 0) ∧ SameCtrs
    (fun k => k / 64 = n.val) s t ∧ t.mem = s.mem ∧ SameRegs (fun r u => r = .corePwr ∧ u = n.val) s t)) ∧
  (∀ (n : CoreId) (p : PowerRun) (s : State), s.power = some p → p.dkind = 1 → p.id = n.val → p.action = 3 → p.arg = 3 → p.result =
    none → s.coreFence n = .fenced → Runs (.coreStateReached n) s (fun t => t.fget Fd.corePwr_STATE n = 3 ∧ t.fget
    Fd.corePwr_RESET_PENDING n = 1 ∧ t.power = some { p with result := some 0 } ∧ (∀ k : Fin 64, t.ctr (ctrKey n k) = 0) ∧ SameCtrs
    (fun k => k / 64 = n.val) s t ∧ Cleared (pantryKey n 0) Config.pantryBytes t ∧ MemBut (pantryKey n 0) Config.pantryBytes s t ∧
    SameRegs (fun r u => r = .corePwr ∧ u = n.val) s t)) ∧
  (∀ (n : CoreId) (p : PowerRun) (s : State), s.power = some p → p.dkind = 1 → p.id = n.val → p.action = 3 → p.arg = 0 → p.result =
    none → s.fget Fd.corePwr_STATE n ≤ 1 → s.fget Fd.corePwr_RESET_PENDING n = 0 → Runs (.coreStateReached n) s (fun t => t.fget
    Fd.corePwr_STATE n = 0 ∧ t.power = some { p with result := some 0 } ∧ RegsOnly (fun r u => r = .corePwr ∧ u = n.val)
    { s with power := t.power } t)) ∧
  (∀ (n : CoreId) (p : PowerRun) (s : State), s.power = some p → p.dkind = 1 → p.id = n.val → p.action = 3 → p.arg = 0 → p.result =
    none → (2 ≤ s.fget Fd.corePwr_STATE n ∨ s.fget Fd.corePwr_RESET_PENDING n = 1) → Runs (.coreStateReached n) s (fun t => t.fget
    Fd.corePwr_STATE n = 0 ∧ t.fget Fd.corePwr_RESET_PENDING n = 0 ∧ t.core n = { wasReset := true } ∧ t.power = some
    { p with result := some 0 } ∧ (∀ k : Fin 64, t.ctr (ctrKey n k) = 0) ∧ (s.fget Fd.corePwr_STATE n = 3 → Cleared (pantryKey n 0)
    Config.pantryBytes t ∧ MemBut (pantryKey n 0) Config.pantryBytes s t) ∧ (s.fget Fd.corePwr_STATE n ≠ 3 → t.mem = s.mem) ∧
    (∀ k : Fin 340, t.fenceAt k = s.fenceAt k))) ∧
  (∀ (n : CoreId) (s : State), (∀ p, s.power = some p → p.dkind ≠ 1 ∨ p.id ≠ n.val ∨ p.action ≠ 3 ∨ p.result ≠ none ∨ 2 ≤ p.arg ∧
    s.coreFence n ≠ .fenced) → Runs (.coreStateReached n) s (Same s)) ∧
  (∀ (k : Fin 5) (mv pace op : Nat) (s : State), nfind s.opTarget k = some op → op < 8 → opMv op ≤ mv + 5 → mv ≤ opMv op + 5 →
    ([0, 780, 900, 1020, 1130, 1240, 1360, 1470].getD op 0) ≤ pace → 100 * pace ≤ 108 * ([0, 820, 950, 1070, 1190, 1300, 1430,
    1550].getD op 0) → Runs (.setOpComplete k mv pace) s (fun t => t.fget Fd.paceStatus_OP_NOW k = op ∧ t.fget Fd.railStatus_OP_NOW k = op
    ∧ t.fget Fd.paceStatus_SLEWING k = 0 ∧ t.fget Fd.railStatus_VOUT_MV k = mv ∧ nfind t.opTarget k = none ∧ t.power = s.power.map
    (fun p => if p.dkind = 5 ∧ p.id = k.val ∧ p.action = 4 ∧ p.result = none then { p with result := some 0 } else p) ∧
    RegsOnly (fun r u => (r = .paceStatus ∨ r = .railStatus) ∧ u = k.val) { s with opTarget := t.opTarget, power := t.power } t)) ∧
  (∀ (k : Fin 5) (mv pace : Nat) (s : State), (∀ op, nfind s.opTarget k = some op → mv + 5 < opMv op ∨ opMv op + 5 < mv ∨ pace < [0, 780,
    900, 1020, 1130, 1240, 1360, 1470].getD op 0 ∨ 108 * ([0, 820, 950, 1070, 1190, 1300, 1430, 1550].getD op 0) < 100 * pace) → Runs
    (.setOpComplete k mv pace) s (Same s)) ∧
  (∀ (k : Fin 5) (op : Nat) (s : State), nfind s.opTarget k = some op → Quiet k 0x1A s → Runs (.railFault k) s (fun t => t.fget
    Fd.railStatus_FAULT k = 1 ∧ t.fget Fd.paceStatus_SLEWING k = 0 ∧ t.fget Fd.railStatus_OP_NOW k = s.fget Fd.railStatus_OP_NOW k ∧
    t.power = s.power.map (fun p => if p.dkind = 5 ∧ p.id = k.val ∧ p.action = 4 ∧ p.result = none then { p with result := some 9 } else
    p) ∧ Detected k ⟨0x1A, 4, k.val, k.val⟩ s t ∧ nfind t.opTarget k = none ∧ EventFrame (fun r u => (r =
    .paceStatus ∨ r = .railStatus) ∧ u = k.val) { s with opTarget := t.opTarget, power := t.power } t)) ∧
  (∀ (k : Fin 5) (s : State), nfind s.opTarget k = none → Runs (.railFault k) s (Same s)) ∧
  (∀ (k : Fin 5) (mv da uj : Nat) (s : State), Runs (.railTelemetry k mv da uj) s (fun t => t.fget Fd.railStatus_VOUT_MV k = mv %
    65536 ∧ t.fget Fd.railStatus_IOUT_DA k = da % 65536 ∧ t.fget Fd.railEnergy_ENERGY_UJ k = satAdd Fd.railEnergy_ENERGY_UJ.max
    (s.fget Fd.railEnergy_ENERGY_UJ k) uj ∧ RegsOnly (fun r u => (r = .railStatus ∨ r = .railEnergy) ∧ u = k.val) s t)) ∧
  (∀ (die : Fin 5) (temp w : Nat) (s : State), (temp < 115 ∨ s.fget Fd.thermal_TRIP die = 1) → w = s.fget Fd.thermCtl_WARN_C → Runs
    (.thermalSample die temp) s (fun t => t.fget Fd.thermal_TJ_MAX_C die = min temp 255 ∧
    (∀ d : Fin 5, t.fget Fd.thermal_TRIP d = s.fget Fd.thermal_TRIP d ∧ (d ≠ die → t.fget Fd.thermal_TJ_MAX_C d = s.fget
      Fd.thermal_TJ_MAX_C d) ∧ t.fget Fd.thermal_WARN d = if w ≤ t.fget Fd.thermal_TJ_MAX_C d then 1 else if t.fget Fd.thermal_TJ_MAX_C d +
      5 ≤ w then 0 else s.fget Fd.thermal_WARN d) ∧
    t.thermLow = (if (∃ d : Fin 5, w ≤ t.fget Fd.thermal_TJ_MAX_C d) then true else if (∀ d : Fin 5, t.fget Fd.thermal_TJ_MAX_C d + 5 ≤ w)
      then false else s.thermLow) ∧
    (∀ n : Fin 5, (t.proc n).events = if s.thermLow = false ∧ t.thermLow = true then (s.proc n).events.lor (2 ^ 21) else
      (s.proc n).events) ∧
    t = { s with regs := t.regs, thermLow := t.thermLow, procs := t.procs } ∧ SameRegs (fun r _ => r = .thermal) s t)) ∧
  (∀ (die : Fin 5) (temp : Nat) (s : State), 115 ≤ temp → s.fget Fd.thermal_TRIP die = 0 → Quiet die 0x19 s → Runs (.thermalSample
    die temp) s (fun t => t.fget Fd.thermal_TRIP die = 1 ∧ t.fget Fd.thermal_TJ_AT_TRIP_C die = min temp 255 ∧ t.fget
    Fd.thermal_TJ_MAX_C die = min temp 255 ∧ (∀ f ∈ s.foldsOnDie die, t.foldFence f ≠ FencePhase.none ∧ bit (nget 0 t.hotFolds f) die
    = true ∧ (∀ c ∈ s.foldCores f, t.coreFence c ≠ FencePhase.none) ∧ ∀ p ∈ s.foldPorts f, t.portFence p ≠ FencePhase.none) ∧
    Detected die ⟨0x19, 4, die.val, min temp 255⟩ s t ∧ (∀ c : CoreId, t.fget Fd.corePwr_STATE c = s.fget Fd.corePwr_STATE c) ∧
    (∀ p : PortId, t.portState p = s.portState p) ∧ (∀ k : Fin 5, t.fget Fd.railStatus_OP_NOW k = s.fget Fd.railStatus_OP_NOW k) ∧
    (∀ k : Fin 8, t.stackState k = s.stackState k) ∧ t.mem = s.mem)) ∧
  (∀ (die : Fin 5) (s : State), ∀ f ∈ List.range s.foldSecs.length, f ∈ s.foldsOnDie die ↔ die.val = 4 ∨ (∃ c : CoreId, (s.foldSec
    f).cores.testBit c = true ∧ c.val / 72 = die.val) ∨ ∃ p : PortId, (s.foldSec f).ports.testBit p = true ∧ p.val / 9 = die.val) ∧
  (∀ (src : Source) (v : Word32) (s : State), s.shut src = false → 60 ≤ v.toNat % 128 → v.toNat % 128 ≤ 110 → Runs (.thermCtlWrite src
    v) s (fun t => t.fget Fd.thermCtl_WARN_C = v.toNat % 128 ∧ (∀ d : Fin 5, t.fget Fd.thermal_WARN d = if v.toNat % 128 ≤ s.fget
    Fd.thermal_TJ_MAX_C d then 1 else if s.fget Fd.thermal_TJ_MAX_C d + 5 ≤ v.toNat % 128 then 0 else s.fget Fd.thermal_WARN d) ∧
    t = { s with regs := t.regs, thermLow := t.thermLow, procs := t.procs } ∧ SameRegs (fun r _ => r = .thermCtl ∨ r = .thermal) s t)) ∧
  (∀ (v : Word32) (s : State), s.shut .host = false → (v.toNat % 128 < 60 ∨ 110 < v.toNat % 128) → Runs (.thermCtlWrite .host v) s
    (fun t => t.fget Fd.thermCtl_WARN_C = s.fget Fd.thermCtl_WARN_C ∧ t.fget Fd.hostViol_COUNT = satAdd Fd.hostViol_COUNT.max (s.fget
    Fd.hostViol_COUNT) 1 ∧ RegsOnly (fun r _ => r = .hostViol) s t))

/-- A commanded reset is checked, fences its core or fold first and then resets it, a port or processor at once; the result is shown and the
vector raised. R20, R404, R508, R548, R694, R695, R696, R697, R698, R717, R718, R724. That a port keeps PEER_RX_GOOD and SPEED through its
reset is the model's choice (log 66). -/
def Obligations.ResetCommandsActOnTheirUnit : Prop :=
  (∀ (src : Source) (n : CoreId) (s : State), s.shut src = false → s.reset' = none → s.power = none → s.resetCheck 1 n = none →
    s.coreFence n = .fenced → s.fget Fd.corePwr_STATE n = 0 → Runs (.coreReset src n) s (fun t => t.core n = { wasReset := true } ∧
    (t.twin n).mode = .resetHold ∧ t.coreFence n = .fenced ∧ (∀ k : Fin 64, t.ctr (ctrKey n k) = 0) ∧ t.coreGen n = (if (s.core n).advanced
    then s.coreGen n else (s.coreGen n + 1) % 256) ∧ t.mem = s.mem ∧ t.fences = s.fences ∧ (∀ r ∈ t.replies, r.by'.ofCore n = false) ∧
    t.reset' = some ⟨1, n.val, false, some 0⟩ ∧ t.fget Fd.resetStatus_BUSY = 1 ∧ SameCtrs (fun k => k / 64 = n.val) s t)) ∧
  (∀ (src : Source) (n : CoreId) (s : State), s.shut src = false → s.reset' = none → s.power = none → s.resetCheck 1 n = none →
    s.coreFence n = .fenced → s.fget Fd.corePwr_STATE n ≠ 0 → Runs (.coreReset src n) s (fun t => t.core n =
    { s.core n with advanced := true } ∧ t.fget Fd.corePwr_RESET_PENDING n = 1 ∧ t.coreGen n = (s.coreGen n + 1) % 256 ∧ t.fences =
    s.fences ∧ t.mem = s.mem ∧ t.reset' = some ⟨1, n.val, false, some 0⟩ ∧ t.fget Fd.resetStatus_BUSY = 1 ∧ SameRegs (fun r u => r =
    .resetStatus ∨ (r = .domainGen ∨ r = .corePwr) ∧ u = n.val) s t)) ∧
  (∀ (src : Source) (n : CoreId) (s : State), s.shut src = false → s.reset' = none → s.power = none → s.resetCheck 1 n = none →
    s.coreFence n ≠ .fenced → Runs (.coreReset src n) s (fun t => t.coreFence n = .fencing ∧ OtherFences n s t ∧ t.reset' =
    some ⟨1, n.val, false, none⟩ ∧ t.fget Fd.resetStatus_BUSY = 1 ∧ t.mem = s.mem)) ∧
  (∀ (src : Source) (f : FoldId) (s : State), s.shut src = false → s.reset' = none → s.power = none → s.resetCheck 2 f = none →
    s.foldFence f ≠ .fenced → Runs (.foldReset src f) s (fun t => (∀ k : Fin 340, t.fenceAt k = if (k.val = 288 + f.val ∨ k.val ∈
    s.foldCores f ∨ 304 ≤ k.val ∧ k.val - 304 ∈ s.foldPorts f) ∧ s.fenceAt k = FencePhase.none then .fencing else s.fenceAt k) ∧ t.reset' =
    some ⟨2, f.val, false, none⟩ ∧ t.fget Fd.resetStatus_BUSY = 1 ∧ t.mem = s.mem)) ∧
  (∀ (src : Source) (dk id e : Nat) (s : State), s.shut src = false → s.reset' = none → ResetNames dk id → s.resetCheck dk id = some e →
    Runs (resetInstr src dk id) s (fun t => t.reset' = some ⟨dk, id, false, some e⟩ ∧ t.fget Fd.resetStatus_BUSY = 1 ∧ RegsOnly (fun r _ =>
    r = .resetStatus) { s with reset' := t.reset' } t)) ∧
  (∀ (dk id : Nat) (s : State), s.resetCheck dk id = if dk = 0 ∨ dk = 4 ∨ dk = 5 ∨ 6 < dk then some 3 else if dk ≠ 6 ∧ s.hasImage = false
    then some 10 else if dk = 6 ∧ 5 ≤ id ∨ dk = 1 ∧ (s.corePresent id = false ∨ s.coreOut id = true) ∨ dk = 2 ∧ s.foldSecs.length ≤ id ∨
    dk = 3 ∧ (36 ≤ id ∨ s.lanesOutOf id = 15) then some 2 else if dk ≠ 6 ∧ s.life.updating ≠ none ∧ s.foldOfDomain dk id =
    s.life.updating then some 5 else none) ∧
  (∀ (dk id : Nat) (s : State), s.shut .host = false → s.reset' = none → dk < 256 → id < 65536 → (dk = 0 ∨ dk = 4 ∨ dk = 5 ∨ 6 < dk) →
    Runs (.registerWrite .host 0xC000 true (BitVec.ofNat 64 (dk + 2 ^ 32 * id))) s (fun t => t.reset' = some ⟨dk, id, false, some 3⟩ ∧
    t.fget Fd.resetStatus_BUSY = 1 ∧ t.fget Fd.hostViol_COUNT = satAdd Fd.hostViol_COUNT.max (s.fget Fd.hostViol_COUNT) 1 ∧ t.mem =
    s.mem ∧ t.cores = s.cores)) ∧
  (∀ (dk id : Nat) (w : ResetRun) (s : State), s.shut .host = false → s.reset' = some w → ResetNames dk id → Runs (resetInstr .host dk id)
    s (fun t => t.fget Fd.hostViol_COUNT = satAdd Fd.hostViol_COUNT.max (s.fget Fd.hostViol_COUNT) 1 ∧ RegsOnly (fun r _ => r = .hostViol)
    s t)) ∧
  (∀ (src : Source) (dk id : Nat) (p : PowerRun) (s : State), s.shut src = false → s.reset' = none → ResetNames dk id → s.resetCheck dk id
    = none → s.power = some p → p.dkind = dk → p.id = id → Runs (resetInstr src dk id) s (fun t => t.reset' = some ⟨dk, id, true, none⟩ ∧
    t.fget Fd.resetStatus_BUSY = 1 ∧ RegsOnly (fun r _ => r = .resetStatus) { s with reset' := t.reset' } t)) ∧
  (∀ (src : Source) (f : FoldId) (s : State), s.shut src = false → s.reset' = none → s.power = none → s.resetCheck 2 f = none →
    s.foldFence f = .fenced → Runs (.foldReset src f) s (fun t => (∀ k : Fin 340, t.fenceAt k = if (k.val ∈ s.foldCores f ∨
    304 ≤ k.val ∧ k.val - 304 ∈ s.foldPorts f) ∧ s.fenceAt k = FencePhase.none then .fencing else s.fenceAt k) ∧ t.fget Fd.foldStatus_FENCED f = 1 ∧ (∀ r : RingId,
    (s.foldSec f).ringSet.testBit r = true → t.ring r = {}) ∧ (∀ c ∈ s.foldCores f, if s.fget Fd.corePwr_STATE c = 0 then t.core c =
    { wasReset := true, twin := { events := (t.twin c).events } } else t.fget Fd.corePwr_RESET_PENDING c = 1 ∧ (t.core c).advanced = true) ∧ (∀ p : PortId, p.val ∈ s.foldPorts f →
    (t.port p).outst = [] ∧ t.fget Fd.portEvents_TIMEOUTS p = 0 ∧ t.portState p = if s.portState p = 5 then 4 else s.portState p) ∧
    t.fget Fd.domainGen_GEN (288 + f.val) = (s.fget Fd.domainGen_GEN (288 + f.val) + 1) % 256 ∧ (∀ e ∈ t.mapCopies, (s.foldSec
    f).ctxSet.testBit (e.1 / 2 ^ 21) = false) ∧ nfind t.pins f = none ∧ (∀ e ∈ t.colls, e.2.fold ≠ f.val) ∧ t.mem = s.mem ∧ t.reset' =
    some ⟨2, f.val, false, some 0⟩ ∧ t.fget Fd.resetStatus_BUSY = 1)) ∧
  (∀ (src : Source) (p : PortId) (s : State), s.shut src = false → s.reset' = none → s.power = none → s.resetCheck 3 p = none →
    Runs (.portReset src p) s (fun t => t.portState p = (if s.portState p = 5 then 4 else s.portState p) ∧ t.fget Fd.portStatus_GEN p =
    (s.fget Fd.portStatus_GEN p + 1) % 256 ∧ (t.port p).outst = [] ∧ (t.port p).fwd = [] ∧ (∀ r ∈ (s.port p).outst, ∀ c ∈ List.range 288,
    r.2.by' = .twin c → ⟨.twin c, .fenced, []⟩ ∈ t.replies) ∧ t.fget Fd.portEvents_TIMEOUTS p = 0 ∧ t.fget Fd.portFec_CORRECTED p = 0
    ∧ (t.port p).agreeRx = [] ∧ (t.port p).txSeq = (s.port p).txSeq ∧ (t.port p).rxSeq = (s.port p).rxSeq ∧ (t.port p).rxCred = (s.port
    p).rxCred ∧ t.fget Fd.portStatus_TX_LANE_MAP p = s.fget Fd.portStatus_TX_LANE_MAP p ∧ t.fget Fd.portStatus_RX_LANE_MAP p = s.fget
    Fd.portStatus_RX_LANE_MAP p ∧ t.fget Fd.portStatus_PEER_RX_GOOD p = s.fget Fd.portStatus_PEER_RX_GOOD p ∧ t.fget Fd.portStatus_SPEED p =
    s.fget Fd.portStatus_SPEED p ∧ t.fences = s.fences ∧ t.reset' = some ⟨3, p.val, false, some 0⟩ ∧ t.fget Fd.resetStatus_BUSY = 1 ∧ t.mem
    = s.mem)) ∧
  (∀ (src : Source) (n : Fin 5) (s : State), s.shut src = false → s.reset' = none → s.power = none → (s.proc n).starts = false → Runs
    (.processorReset src n) s (fun t => (t.proc n).running = false ∧ (t.proc n).cause = 3 ∧ (t.proc n).starts = true ∧ (t.proc n).submit =
    [] ∧ (t.proc n).events = (s.proc n).events ∧ (∀ k : Fin 5, k ≠ n → t.proc k = s.proc k) ∧ t.reset' = some ⟨6, n.val, false, none⟩ ∧
    t.fget Fd.resetStatus_BUSY = 1 ∧ t.fget Fd.resetCounts_PROCESSOR_RESETS = satAdd Fd.resetCounts_PROCESSOR_RESETS.max (s.fget
    Fd.resetCounts_PROCESSOR_RESETS) 1 ∧ t.fget Fd.domainGen_GEN (304 + n.val) = (s.fget Fd.domainGen_GEN (304 + n.val) + 1) % 256 ∧ t.mem =
    s.mem ∧ t.cores = s.cores ∧ t.fences = s.fences)) ∧
  (∀ (src : Source) (n : Fin 5) (s : State), s.shut src = false → s.reset' = none → s.power = none → (s.proc n).starts = true → Runs
    (.processorReset src n) s (fun t => t.reset' = some ⟨6, n.val, false, none⟩ ∧ t.fget Fd.resetStatus_BUSY = 1 ∧ RegsOnly (fun r _ => r =
    .resetStatus) { s with reset' := t.reset' } t)) ∧
  (∀ (q : ResetRun) (r : Nat) (s : State), s.reset' = some q → q.result = some r → (∀ p, s.power = some p → p.waitReset = false) → Runs
    (.resetDone none) s (fun t => t.reset' = none ∧ t.fget Fd.resetStatus_BUSY = 0 ∧ t.fget Fd.resetStatus_DONE = 1 ∧ t.fget
    Fd.resetStatus_RESULT = r % 256 ∧ Raised 98 s t ∧ SameRegs (fun g _ => g = .resetStatus ∨ g = .msixPba) s t ∧ t.mem = s.mem ∧ t.cores =
    s.cores ∧ t.power = s.power)) ∧
  (∀ (q : ResetRun) (r : Nat) (p : PowerRun) (s : State), s.reset' = some q → q.result = some r → s.power = some p → p.waitReset = true →
    p.dkind = 1 → p.action = 3 → s.fget Fd.corePwr_STATE p.id ≠ p.arg → Runs (.resetDone none) s (fun t => t.reset' = none ∧ t.power =
    some { p with waitReset := false, result := none } ∧ t.fget Fd.resetStatus_DONE = 1 ∧ t.fget Fd.resetStatus_RESULT = r % 256 ∧ t.mem =
    s.mem ∧ t.cores = s.cores)) ∧
  (∀ (q : ResetRun) (p : PowerRun) (r : Nat) (s : State), s.power = some p → p.hbm = false → p.ring = none → p.result = some r →
    s.powerWait = [] → s.reset' = some q → q.waitPower = true → q.dkind = 6 → q.result = none → (s.proc q.id).starts = true → Runs
    .powerCommandDone s (fun t => t.power = none ∧ t.reset' = some { q with waitPower := false } ∧ t.fget Fd.powerStatus_DONE = 1 ∧ t.mem =
    s.mem)) ∧
  (∀ (q : ResetRun) (p : PowerRun) (r : Nat) (n : CoreId) (s : State), s.power = some p → p.hbm = false → p.ring = none → p.result = some
    r → s.powerWait = [] → s.reset' = some q → q.waitPower = true → q.dkind = 1 → q.id = n.val → q.result = none → s.coreFence n ≠ .fenced →
    Runs .powerCommandDone s (fun t => t.power = none ∧ t.coreFence n = .fencing ∧ t.reset' = some { q with waitPower := false } ∧ t.fget
    Fd.powerStatus_DONE = 1 ∧ t.mem = s.mem)) ∧
  (∀ s : State, (∀ q, s.reset' = some q → q.result = none) → Runs (.resetDone none) s (Same s)) ∧
  (∀ (ch : Nat) (s : State), s.reset' = none → Runs (.resetDone (some ch)) s (Same s)) ∧
  (∀ (q : ResetRun) (ch die : Nat) (d : Det) (s : State), s.reset' = some q → s.power = none → die = (if q.dkind = 1 then q.id / 72 else if
    q.dkind = 3 then q.id / 9 else 4) → stallDets die ch = [d] → s.responseOf d.cls = 0 → bit (s.reg .fcActive die) 63 = false → Runs
    (.resetDone (some ch)) s (fun t => t.reset' = none ∧ t.fget Fd.resetStatus_BUSY = 0 ∧ t.fget Fd.resetStatus_DONE = 1 ∧ t.fget
    Fd.resetStatus_RESULT = 11 ∧ t.fget Fd.stallCount_COUNT die = satAdd Fd.stallCount_COUNT.max (s.fget Fd.stallCount_COUNT die) 1 ∧
    t.fget Fd.fcCounts_DETECTIONS die = satAdd Fd.fcCounts_DETECTIONS.max (s.fget Fd.fcCounts_DETECTIONS die) 1 ∧ t.fences = s.fences ∧
    t.mem = s.mem))

/-- Only a collector's own handler may write FC_ACK; the host, a twin or another processor that writes it is counted and changes nothing
else. R671. -/
def Obligations.OnlyTheHandlerAcknowledges : Prop :=
  (∀ (n : Fin 5) (die : Fin 5) (s : State), n.val = s.handlerOf die → bit (s.reg .fcActive die) 63 = true → Runs (.fcAck (.proc n)
    die) s (fun t => t.reg .fcActive die = s.reg .fcPending die ∧ t.reg .fcActiveTime die = s.reg .fcPendingTime die ∧ t.reg
    .fcActiveDetail die = s.reg .fcPendingDetail die ∧ t.reg .fcPending die = 0 ∧ t.reg .fcPendingTime die = 0 ∧ t.reg .fcPendingDetail die = 0 ∧ t.reg
    .garnetSeq = (if s.life.begun.contains die.val = true ∧ bit (s.reg .fcActive die) 61 = false then s.reg .garnetSeq else (s.reg
    .garnetSeq + 1) % 2 ^ 64) ∧ t.fences = s.fences ∧ t.mem = s.mem ∧ t.cores = s.cores)) ∧
  (∀ (n : Fin 5) (die : Fin 5) (s : State), n.val = s.handlerOf die → bit (s.reg .fcActive die) 63 = false → Runs (.fcAck (.proc n)
    die) s (Same s)) ∧
  (∀ (die : Fin 5) (s : State), s.shut .host = false → Runs (.fcAck .host die) s (fun t => t.fget Fd.hostViol_COUNT = satAdd
    Fd.hostViol_COUNT.max (s.fget Fd.hostViol_COUNT) 1 ∧ RegsOnly (fun r _ => r = .hostViol) s t)) ∧
  (∀ (c : CoreId) (die : Fin 5) (s : State), Runs (.fcAck (.twin c) die) s (fun t => t.fget Fd.coreViol_COUNT c = satAdd
    Fd.coreViol_COUNT.max (s.fget Fd.coreViol_COUNT c) 1 ∧ RegsOnly (fun r u => r = .coreViol ∧ u = c.val) s t)) ∧
  (∀ (n : Fin 5) (die : Fin 5) (s : State), n.val ≠ s.handlerOf die → Runs (.fcAck (.proc n) die) s (fun t => t.fget Fd.procViol_COUNT
    n = satAdd Fd.procViol_COUNT.max (s.fget Fd.procViol_COUNT n) 1 ∧ RegsOnly (fun r u => r = .procViol ∧ u = n.val) s t))

/-- A failed hub path is reported while the other stands, and with both down the quarter counts; a restored one delivers held counts; scrub
and packet CRC errors poison, answer and report. R403, R658, R659, R660, R661, R664, R687, R688, R869. -/
def Obligations.PathsScrubAndPacketErrors : Prop :=
  (∀ (q : Fin 4) (p : Fin 2) (s : State), s.pathDown q p = false → s.pathDown q (1 - p.val) = false → Quiet 4 1 s → Runs
    (.hubPathFailure q p) s (fun t => t.pathDown q p = true ∧ Detected 4 ⟨1, 4, 4, pathChannel q p⟩ s t ∧ EventFrame (fun _ _ =>
    False) { s with hubPaths := t.hubPaths } t)) ∧
  (∀ (q : Fin 4) (p : Fin 2) (s : State), s.pathDown q p = false → s.pathDown q (1 - p.val) = true → Runs (.hubPathFailure q p) s (fun
    t => t.pathDown q p = true ∧ nhas t.hubPaths (100 + 2 * q.val + p.val) = true ∧ t = { s with hubPaths := t.hubPaths })) ∧
  (∀ (q : Fin 4) (p : Fin 2) (s : State), s.pathDown q p = true → Runs (.hubPathFailure q p) s (Same s)) ∧
  (∀ (q : Fin 4) (p : Fin 2), pathChannel q p = 0x5020 + 4 * q.val + p.val) ∧
  (∀ (q : Fin 4) (p : Fin 2) (cls n : Nat) (act : Bool) (s : State), s.pathDown q p = true → nhas s.hubPaths (100 + 2 * q.val + (1 -
    p.val)) = false → cls < 32 → s.hubHeld = [(1024 * q.val + 2 * cls + b2n act, n)] → Runs (.hubPathRestore q p) s (fun t => t.pathDown q
    p = false ∧ t.hubHeld = [] ∧ t.fget Fd.faultClassCount_COUNT cls = satAdd Fd.faultClassCount_COUNT.max (s.fget
    Fd.faultClassCount_COUNT cls) n ∧ (t.reg .faultSummary).testBit q = true ∧ (act = true → t.fget Fd.faultSummary_RESPONSE_TAKEN = 1) ∧
    EventFrame (fun _ _ => False) { s with hubPaths := t.hubPaths, hubHeld := t.hubHeld } t)) ∧
  (∀ (q : Fin 4) (p : Fin 2) (s : State), s.pathDown q p = true → nhas s.hubPaths (100 + 2 * q.val + (1 - p.val)) = true → s.hubHeld = []
    → Quiet 4 1 s → Runs (.hubPathRestore q p) s (fun t => t.pathDown q p = false ∧ nhas t.hubPaths (100 + 2 * q.val + (1 - p.val)) =
    false ∧ Detected 4 ⟨1, 4, 4, pathChannel q (1 - p.val)⟩ s t ∧ EventFrame (fun _ _ => False) { s with hubPaths := t.hubPaths } t)) ∧
  (∀ (q : Fin 4) (p : Fin 2) (s : State), s.pathDown q p = false → Runs (.hubPathRestore q p) s (Same s)) ∧
  (∀ (c : CoreId) (off : Nat) (s : State), s.hasImage = true → s.devSec.policyFlags.testBit 0 = true → off < Config.pantryBytes →
    isCtrOff off = false → Quiet (coreDie c) 0x0A s → s.pathDown (coreDie c) 0 = true → s.pathDown (coreDie c) 1 = true → s.hubHeld = [] →
    Runs (.pantryScrubRead c (.pantry off) .double) s (fun t => t.hubHeld = [(1024 * coreDie c + 2 * 0x0A, 1)] ∧ (∀ k : Fin 32, t.fget
    Fd.faultClassCount_COUNT k = s.fget Fd.faultClassCount_COUNT k) ∧ t.reg .faultSummary = s.reg .faultSummary ∧ Detected (coreDie c)
    ⟨0x0A, 1, c.val, off / 64 * 64⟩ s t)) ∧
  (∀ (c : CoreId) (x : ScrubTarget) (e : Ecc) (s : State), (s.hasImage = false ∨ s.devSec.policyFlags.testBit 0 = false ∨ e ≠ .double) →
    Runs (.pantryScrubRead c x e) s (Same s)) ∧
  (∀ (c : CoreId) (off : Nat) (s : State), s.hasImage = true → s.devSec.policyFlags.testBit 0 = true → off < Config.pantryBytes →
    isCtrOff off = false → Quiet (coreDie c) 0x0A s → Runs (.pantryScrubRead c (.pantry off) .double) s (fun t => t.isPoison
    (pantryKey c off / 64) = true ∧ Detected (coreDie c) ⟨0x0A, 1, c.val, off / 64 * 64⟩ s t ∧ t.mem = s.mem ∧ EventFrame (fun _ _ =>
    False) { s with poison := t.poison } t)) ∧
  (∀ (c : CoreId) (n : Fin 64) (s : State), s.hasImage = true → s.devSec.policyFlags.testBit 0 = true → Quiet (coreDie c) 0x0A s →
    Runs (.pantryScrubRead c (.pantry (0xFC00 + 8 * n.val)) .double) s (fun t => nhas t.ctrPoison (ctrKey c n) = true ∧ t.arr = s.arr
    ∧ Detected (coreDie c) ⟨0x0A, 1, c.val, (0xFC00 + 8 * n.val) / 64 * 64⟩ s t ∧ EventFrame (fun _ _ => False)
    { s with ctrPoison := t.ctrPoison } t)) ∧
  (∀ (c : CoreId) (e : Fin 5) (i : Nat) (w : EWord) (s : State), s.hasImage = true → s.devSec.policyFlags.testBit 0 = true → (e = 0 ∨ e =
    3 ∨ e = 4) → ((s.core c).queue e)[i]? = some w → Quiet (coreDie c) 0x0B s → Runs (.pantryScrubRead c (.queue e i) .double) s (fun t =>
    (t.core c).queue e = ((s.core c).queue e).set i { w with bad := true } ∧ Detected (coreDie c) ⟨0x0B, 1, c.val, e.val⟩ s t ∧ EventFrame
    (fun _ _ => False) { s with cores := t.cores } t)) ∧
  (∀ (c : CoreId) (tree f : Nat) (n : Nat) (e : PourEntry) (y : PourTile) (ys : List PourTile) (x : StreamSt) (s : State), s.hasImage =
    true → s.devSec.policyFlags.testBit 0 = true → s.pourEntry c tree = some (n, e) → e.tiles = y :: ys → (s.foldOfCore c).getD 16 = f →
    s.streamsOn f tree = [x] → x.orphan = false → x.ended = false → s.coreFence x.core = FencePhase.none → Quiet (coreDie c) 0x0B s → Runs
    (.pantryScrubRead c (.tile tree) .double) s (fun t => Detected (coreDie c) ⟨0x0B, 1, c.val, 0x84⟩ s t ∧ t.streamsOn f tree = [] ∧
    t.engState x.core 4 = 2 ∧ t.fget Fd.pourStatus_REASON x.core = 0x30 ∧ t.mem = s.mem)) ∧
  (∀ (c : CoreId) (tree : Nat) (s : State), s.hasImage = true → s.devSec.policyFlags.testBit 0 = true → s.pourEntry c tree = none → Runs
    (.pantryScrubRead c (.tile tree) .double) s (Same s)) ∧
  (∀ (c : CoreId) (p : PortId) (rx : Bool) (s : State), s.hasImage = true → s.devSec.policyFlags.testBit 0 = true → s.portUp p = false →
    Quiet (portDie p) 0x0B s → Runs (.pantryScrubRead c (.port p rx) .double) s (fun t => Detected (portDie p) ⟨0x0B, 2, p.val, b2n rx⟩ s t
    ∧ EventFrame (fun _ _ => False) s t)) ∧
  (∀ (c : CoreId) (p : PortId) (rx : Bool) (s : State), s.hasImage = true → s.devSec.policyFlags.testBit 0 = true → s.portUp p = true →
    s.responseOf 0x0B = 0 → Quiet (portDie p) 0x14 s → Runs (.pantryScrubRead c (.port p rx)
    .double) s (fun t => t.portState p = 2 ∧ t.fget Fd.portEvents_RETRAINS p = satAdd Fd.portEvents_RETRAINS.max (s.fget
    Fd.portEvents_RETRAINS p) 1 ∧ t.reg .fcActive (portDie p) = slotMerge (slotTake ⟨0x14, 2, p.val, 0⟩ 0) ⟨0x0B, 2, p.val, b2n rx⟩ 0 ∧
    t.mem = s.mem)) ∧
  (∀ (c : CoreId) (f : Option FoldId) (s : State), s.hasImage = true → s.devSec.policyFlags.testBit 0 = true → Quiet 4 0x1B s → Runs
    (.pantryScrubRead c (.image f) .double) s (fun t => Detected 4 ⟨0x1B, 4, 4, 1⟩ s t ∧ (∀ g : FoldId, g.val < s.foldSecs.length → if f =
    none ∨ f = some g then t.fget Fd.foldStatus_IMAGE_STATE g = 2 ∧ t.foldFence g ≠ FencePhase.none ∧ (∀ n ∈ s.foldCores g, t.coreFence n ≠
    FencePhase.none) ∧ ∀ p ∈ s.foldPorts g, t.portFence p ≠ FencePhase.none else t.fget Fd.foldStatus_IMAGE_STATE g = s.fget
    Fd.foldStatus_IMAGE_STATE g ∧ t.foldFence g = s.foldFence g) ∧ t.mem = s.mem)) ∧
  (∀ (c : CoreId) (die : Fin 5) (pending : Bool) (s : State), s.hasImage = true → s.devSec.policyFlags.testBit 0 = true → Quiet
    4 0x1B s → die.val ≠ 4 → Runs (.pantryScrubRead c (.collector die pending) .double) s (fun t =>
    Detected 4 ⟨0x1B, 4, 4, 2⟩ s t ∧ (bit (s.reg (if pending then .fcPending else .fcActive) die) 63 = true → bit (t.reg (if pending
    then .fcPending else .fcActive) die) 63 = true ∧ bits (t.reg (if pending then .fcPending else .fcActive) die) 55 44 = 0x1B4 ∧ bits (t.reg
    (if pending then .fcPending else .fcActive) die) 43 32 = 4) ∧ EventFrame (fun _ _ => False) s t)) ∧
  (∀ (c : CoreId) (r : RingId) (k : RingCmd) (i : Nat) (held : Bool) (s : State), s.hasImage = true → s.devSec.policyFlags.testBit 0 =
    true → (s.ring r).cmds = [k] → k.idx = i → (k.phase = .checking ∨ k.phase = .ready) → Quiet 4 0x0B s → Runs (.pantryScrubRead c
    (.fetched r i held) .double) s (fun t => (t.ring r).cmds = [k.fails s.now 9 1] ∧ OtherRings r s t ∧ Detected 4 ⟨0x0B, 4, 4, r.val + 2 ^
    16 * (i % 65536) + 2 ^ 32 * b2n held⟩ s t ∧ EventFrame (fun _ _ => False) { s with rings := t.rings } t)) ∧
  (∀ (c : CoreId) (r : RingId) (s : State), s.hasImage = true → s.devSec.policyFlags.testBit 0 = true → Quiet 4 0x1B s → Runs
    (.pantryScrubRead c (.frontEnd r) .double) s (fun t => Detected 4 ⟨0x1B, 4, 4, 3⟩ s t ∧ EventFrame (fun _ _ => False) s t)) ∧
  (∀ (die : Fin 5) (n : CoreId) (x : PacketTarget) (d : Det) (ch req : Nat) (s : State), (x = .core n ∧ d = ⟨0x0C, 1, n.val, ch % 65536⟩ ∨
    x = .die ∧ d = ⟨0x0C, 4, die.val, ch % 65536⟩) → nfind s.hostOps req = none → Quiet d.die 0x0C s → Runs (.packetCrc die x ch req none) s (fun t
    => Detected d.die d s t ∧ EventFrame (fun _ _ => False) s t)) ∧
  (∀ (die : Fin 5) (ch req : Nat) (c : CoreId) (p : Part) (ps : List Part) (s : State), nfind s.hostOps req = none → (s.core c).parts = p
    :: ps → Quiet die 0x0C s → Runs (.packetCrc die .die ch req (some c)) s (fun t => (t.core c).parts = { p with mark := p.mark.lor 2 } ::
    ps ∧ Detected die ⟨0x0C, 4, die.val, ch % 65536⟩ s t ∧ EventFrame (fun _ _ => False) { s with cores := t.cores } t)) ∧
  (∀ (die : Fin 5) (ch req : Nat) (o : HostOp) (c : CoreId) (s : State), nfind s.hostOps req = some o → o.by' = .twin c → Quiet die
    0x0C s → Runs (.packetCrc die .die ch req none) s (fun t => t.replies = s.replies ++ [⟨.twin c, .error, List.replicate o.len 0⟩] ∧
    nfind t.hostOps req = none ∧ Detected die ⟨0x0C, 4, die.val, ch % 65536⟩ s t ∧ EventFrame (fun _ _ => False)
    { s with replies := t.replies, hostOps := t.hostOps } t))

/-- COLD reset keeps fuses and flash; step 1 senses fuses and straps; a DEVICE reset keeps memory and the log and commands OP5; step 2 trains the
stacks, keeps what self-test found, and starts a bundle that verifies. R436, R437, R438, R654, R692, R723, R726, R727, R734, R760, R789,
Table 19.2. -/
def Obligations.StartUpAndDeviceReset : Prop :=
  (∀ (s : State), ∀ i ∈ ([.coldReset, .pwrOkLow] : List Instr), Runs i s (fun t => t =
    { State.reset with fused := t.fused, log := { flash := s.log.flash }, life := { perst := s.life.perst }, freeCtr := t.freeCtr, out := s.out, pending := s.pending } ∧
    (s.life.fuseReq = none → t.fused = s.fused ∧ t.freeCtr = s.freeCtr) ∧
    (∀ q, s.life.fuseReq = some q → t.fused = s.fused.failed q true ∨ t.fused = s.fused.failed q false))) ∧
  (∀ (straps : Fin 4) (ok : Bool) (s : State), s.life.aonUp = false → s.life.devPend = none → Runs (.alwaysOnStart straps ok []) s
    (fun t => t.life.aonUp = true ∧ t.fuse = { s.fused with bad := false } ∧ t.fget Fd.sbStatus_ADDRESS = 0x60 + straps ∧ t.fget
    Fd.pinStraps_ADDR_STRAP = straps ∧ t.fget Fd.quartzStatus_REF_OK = b2n ok ∧ t.fget Fd.bootStatus_STAGE = 1 ∧ t =
    { s with regs := t.regs, life := t.life, fuse := t.fuse, freeCtr := t.freeCtr } ∧ SameRegs (fun r _ => r ∈ [.fuseNonce, .sbStatus,
    .pinStraps, .quartzStatus, .bootStatus]) s t)) ∧
  (∀ (straps : Fin 4) (s : State), s.life.aonUp = false → s.life.devPend = none → Runs (.refTNotAccepted straps []) s (fun t =>
    t.life.aonUp = true ∧ t.fuse = { s.fused with bad := false } ∧ t.fget Fd.quartzStatus_REF_OK = 0 ∧ t.fget Fd.sbStatus_ADDRESS = 0x60 +
    straps ∧ t.fget Fd.pinStraps_ADDR_STRAP = straps ∧ t.fget Fd.bootStatus_STAGE = 1 ∧ t =
    { s with regs := t.regs, life := t.life, fuse := t.fuse, freeCtr := t.freeCtr } ∧ SameRegs (fun r _ => r ∈ [.fuseNonce, .sbStatus,
    .pinStraps, .quartzStatus, .bootStatus]) s t)) ∧
  (∀ (straps : Nat) (ok : Bool) (l : List FuseSense) (s : State), s.life.aonUp = false → s.life.devPend = none → ∀ i ∈ ([.alwaysOnStart
    straps ok l, .refTNotAccepted straps l] : List Instr), Runs i s (fun t => t.life.aonUp = true ∧ t.fuse = l.foldl sensed { s.fused with bad := false } ∧ t.fget Fd.fuseStatus_COPY_FIXES = satAdd
    Fd.fuseStatus_COPY_FIXES.max (s.fget Fd.fuseStatus_COPY_FIXES) (l.filter isSecond).length ∧ t.fused = s.fused ∧ t.mem = s.mem)) ∧
  (∀ (x : FuseSt) (k : Fin 4), (x.lose .deviceId).deviceId = 0 ∧ (x.lose .part).orderCode = 0 ∧ (x.lose .part).stepping = 0 ∧ (x.lose
    .present).present = 0 ∧ (x.lose .imageFloor).imageFloor = 0 ∧ (x.lose .fwFloor).fwFloor = 0 ∧ (x.lose .testLock).testLock = 0 ∧ (x.lose
    .sessions).sessions = 0 ∧ (x.slots.length = 4 → (x.lose (.slotState k)).slots.getD k {} = {} ∧ ∀ b, ((x.lose (.keyHash k)).slots.getD k
    {}).hash = some b → ∀ y ∈ b, y = 0)) ∧
  (∀ (straps : Nat) (ok : Bool) (cause : DeviceCause) (s : State), s.life.aonUp = false → s.life.devPend = some cause → Runs (.alwaysOnStart
    straps ok []) s (fun t => t.life.aonUp = true ∧ t.life.devPend = none ∧ t.life.inReset = true ∧ t.fuse = { s.fused with bad := false } ∧
    t.fget Fd.bootStatus_LAST_CAUSE = (if cause = .flr then 2 else 1) ∧ t.cores = [] ∧ t.rings = [])) ∧
  (∀ (straps : Nat) (ok : Bool) (l : List FuseSense) (s : State), s.life.aonUp = true → Runs (.alwaysOnStart straps ok l) s (Same s) ∧ Runs
    (.refTNotAccepted straps l) s (Same s)) ∧
  (∀ (cause : DeviceCause) (s : State), s.life.aonUp = false → Runs (.deviceReset cause) s (fun t => t =
    { s with life := { s.life with devPend := some cause, perst := s.life.perst || cause == .perst } })) ∧
  (∀ (cause : DeviceCause) (s : State), s.life.aonUp = true → Runs (.deviceReset cause) s (fun t => t.cores = [] ∧ t.rings = [] ∧
    t.colls = [] ∧ t.streams = [] ∧ t.fences = [] ∧ t.procs = [] ∧ t.arr = [] ∧ t.ctrPoison = [] ∧ t.l2 = [] ∧ t.pins = [] ∧ t.power = none ∧
    t.reset' = none ∧ (s.life.fuseReq = none → t.fused = s.fused ∧ t.fuse = s.fuse) ∧ (∀ q, s.life.fuseReq = some q → t.fused =
    s.fused.failed q true ∨ t.fused = s.fused.failed q false) ∧ t.log.bank0 = s.log.bank0 ∧ t.log.bank1 = s.log.bank1 ∧ t.log.flash =
    s.log.flash ∧ t.tap = s.tap ∧ t.life.inReset = true ∧ t.life.booted = false ∧ t.life.image = none ∧ t.life.fuseReq = none ∧ t.life.bist =
    none ∧ t.life.perst = (s.life.perst || cause == .perst) ∧ t.pending = s.pending)) ∧
  (∀ (cause : DeviceCause) (s : State), s.life.aonUp = true → s.life.bist = none → (∀ c : CoreId, s.fget Fd.corePwr_STATE c ≠ 3) → Runs
    (.deviceReset cause) s (fun t => t.mem = s.mem ∧ t.poison = s.poison)) ∧
  (∀ (cause : DeviceCause) (n : CoreId) (s : State), s.life.aonUp = true → (s.fget Fd.corePwr_STATE n = 3 ∨ s.life.bist = some ⟨false,
    n.val⟩) → Runs (.deviceReset cause) s (fun t => Cleared (pantryKey n 0) Config.pantryBytes t)) ∧
  (∀ (cause : DeviceCause) (st : Fin 8) (s : State), s.life.aonUp = true → s.life.bist = some ⟨true, st.val⟩ → (∀ c : CoreId, s.fget
    Fd.corePwr_STATE c ≠ 3) → Runs (.deviceReset cause) s (fun t => Cleared (hbmKey (32 * st.val) 0) (hbmKey (32 * st.val + 32) 0 - hbmKey
    (32 * st.val) 0) t ∧ MemBut (hbmKey (32 * st.val) 0) (hbmKey (32 * st.val + 32) 0 - hbmKey (32 * st.val) 0) s t)) ∧
  (∀ (cause : DeviceCause) (s : State), s.life.aonUp = true → Runs (.deviceReset cause) s (fun t => (∀ p : PortId, t.portState p =
    (if s.scanOn then 0 else 2) ∧ t.fget Fd.portStatus_GEN p = (s.fget Fd.portStatus_GEN p + 1) % 256 ∧ (t.port p).outst = []) ∧ (∀ i : Fin
    8, t.stackState i = 2) ∧ (∀ c : CoreId, t.fget Fd.corePwr_STATE c = 0 ∧ t.coreGen c = (s.coreGen c + 1) % 256) ∧ (∀ r : RingId,
    t.ringState r = 0) ∧ t.fget Fd.imageStatus_STATE = 0 ∧ t.fget Fd.fwStatus_STATE = 0 ∧ t.fget Fd.bootStatus_STAGE = 1 ∧ t.fget
    Fd.bootStatus_LAST_CAUSE = (if cause = .flr then 2 else 1) ∧ t.fget Fd.resetCounts_DEVICE_RESETS = satAdd
    Fd.resetCounts_DEVICE_RESETS.max (s.fget Fd.resetCounts_DEVICE_RESETS) 1 ∧ (∀ k : Fin 5, .avs k 720 ∈ t.out ∧ (s.fget
    Fd.railStatus_OP_NOW k ≠ 5 → nfind t.opTarget k = some 5 ∧ t.fget Fd.paceStatus_SLEWING k = 1)) ∧ t.fget Fd.thermCtl_WARN_C = 105 ∧
    t.qState = if s.qState = 4 then 5 else s.qState)) ∧
  (∀ (now : Nat) (s : State), Runs (.perstNRise now) s (fun t => t.life = { s.life with perst := false, inReset := false } ∧ t.tap =
    (if s.tap.ir = 0 ∨ 3 ≤ s.tap.ir ∧ s.tap.ir ≤ 6 then { s.tap with bypass := true } else s.tap) ∧ t.fget Fd.pcieStatus_LINK_UP =
    (if s.life.aonUp then 1 else s.fget Fd.pcieStatus_LINK_UP) ∧ t = { s.advance now with regs := t.regs, life := t.life, tap := t.tap } ∧
    SameRegs (fun r _ => r = .pcieStatus) s t)) ∧
  (∀ (sel : Fin 4) (w slot gen old : Nat) (dirs : List (Option Bytes)) (a c x : Option Bytes) (b : Bytes) (s : State), s.life.aonUp = true →
    s.life.perst = false → s.life.inReset = false → s.life.booted = false → s.fon Fd.testStatus_BOOT_HUB_FAIL = false → bootDirectory dirs =
    (slot, gen, old) → slot ≤ 1 → x = (if slot = 0 then a else c) → s.slotBundle x = (b, none) → Runs (.hubBoot sel w [] dirs a c) s
    (fun t => t.life.booted = true ∧ t.life.bundle = b ∧ t.fget Fd.fwStatus_STATE = 1 ∧ t.fget Fd.fwStatus_REASON
    = 0 ∧ t.fget Fd.fwStatus_FLASH_SLOT = slot ∧ t.fget Fd.bootStatus_STAGE = 2 ∧ t.fget Fd.pinStraps_BOOT_SEL = sel ∧ t.life.cold =
    false ∧ t.life.dirGen = gen ∧ t.life.flashWidth = (if sel.val / 2 = 1 then 1 else if w = 4 ∨ w = 2 then w else 1) ∧ (∀ n : Fin 5, (t.proc
    n).running = true ∧ (t.proc n).copy = b ∧ t.fget Fd.fwVersion_FW_SERIAL n = imgN b 0x10 4) ∧ (∀ i : Fin 8, t.stackState i = if
    s.life.selfRefresh.testBit i then 2 else 0) ∧ (∀ ch : ChanId, t.chanState ch = if s.life.bootSlices.testBit ch then 4 else if
    s.life.selfRefresh.testBit (ch.val / 32) then 2 else 1) ∧ (∀ p : PortId, s.scanOn = false → t.portState p = 2) ∧ t.mem = s.mem)) ∧
  (∀ (sel : Fin 4) (w slot gen old e : Nat) (dirs : List (Option Bytes)) (a c x y : Option Bytes) (b : Bytes) (s : State), s.life.aonUp =
    true → s.life.perst = false → s.life.inReset = false → s.life.booted = false → s.fon Fd.testStatus_BOOT_HUB_FAIL = false →
    bootDirectory dirs = (slot, gen, old) → slot ≤ 1 → x = (if slot = 0 then a else c) → y = (if slot = 0 then c else a) → (s.slotBundle
    x).2 = some e → s.slotBundle y = (b, none) → Runs (.hubBoot sel w [] dirs a c) s (fun t => t.life.booted = true ∧ t.life.bundle = b ∧
    t.fget Fd.fwStatus_STATE = 1 ∧ t.fget Fd.fwStatus_FLASH_SLOT = 1 - slot ∧ (∀ n : Fin 5, (t.proc n).running = true ∧ (t.proc n).copy =
    b) ∧ t.mem = s.mem)) ∧
  (∀ (sel : Fin 4) (w e f : Nat) (dirs : List (Option Bytes)) (a c : Option Bytes) (s : State), s.life.aonUp = true → s.life.perst = false →
    s.life.inReset = false → s.life.booted = false → s.fon Fd.testStatus_BOOT_HUB_FAIL = false → (s.slotBundle a).2 = some e →
    (s.slotBundle c).2 = some f → Runs (.hubBoot sel w [] dirs a c) s (fun t => t.life.booted = true ∧ t.fget Fd.fwStatus_STATE = 0 ∧ t.fget
    Fd.fwStatus_REASON = (if (bootDirectory dirs).1 = 0 then f else e) % 256 ∧ (∀ n : Fin 5, (t.proc n).running = (s.proc n).running) ∧
    t.mem = s.mem)) ∧
  (∀ (sel : Fin 4) (w : Nat) (d : List (Option Bytes)) (a c : Option Bytes) (x : BootFinding) (n : CoreId) (ch : ChanId) (i : Fin 8) (g : Fin 2) (fs :
    Nat) (arrays : Word) (s : State), s.life.aonUp = true → s.life.perst = false → s.life.inReset = false → s.life.booted = false → (x =
    .core n fs arrays ∧ s.corePresent n = true ∧ s.life.cold = true ∧ s.hasImage = false ∨ x = .slice ch ∧ s.life.cold = true ∨ x = .stack i
    ∨ x = .bank g ∧ s.life.cold = true ∨ x = .hubSram ∧ s.life.cold = true) → Runs (.hubBoot sel w [x] d a c) s (fun t => (x = .core n fs arrays → t.coreOut n = (s.coreOut n ||
    fs.land 0x1EF != 0) ∧ t.reg .arrayOut n = (s.reg .arrayOut n).lor arrays.toNat) ∧ (x = .slice ch → t.chanOut ch = true ∧ t.chanState ch
    = 4) ∧ (x = .stack i → ∀ k : Fin 32, t.chanOut (32 * i.val + k.val) = true ∧ t.chanState (32 * i.val + k.val) = 4) ∧ (x = .bank g → bit (t.fget Fd.garnetStatus_RETIRED) g =
    true) ∧ (x = .hubSram → t.fget Fd.testStatus_BOOT_HUB_FAIL = 1 ∧ t.fget Fd.fwStatus_STATE = s.fget Fd.fwStatus_STATE ∧ ∀ n : Fin 5, (t.proc n).running = (s.proc
    n).running))) ∧
  (∀ (sel : Fin 4) (w : Nat) (l : List BootFinding) (d : List (Option Bytes)) (a c : Option Bytes) (s : State), (s.life.aonUp = false
    ∨ s.life.perst = true ∨ s.life.inReset = true ∨ s.life.booted = true) → Runs (.hubBoot sel w l d a c) s (Same s))

/-- A fuse request is checked in the order of Table 21.7; an accepted one is programmed and verified, a failed one fuses nothing and shows its
reason; SCAN_UNLOCK clears every secret. R761, R771, R772, R773, R774, R782, R787, R788, R799, R810, Table 21.3, Table 21.7. -/
def Obligations.FuseRequestsAreCheckedAndProgrammed : Prop :=
  (∀ (src : Source) (op : Nat) (b : Bytes) (s : State), 1 ≤ op ∧ op ≤ 5 → FuseTakes src s → s.mayMaster = true → imgN b 4 1 = op →
    s.fuseCheck false (some b) = none → Runs (fuseInstr src op (.ok b)) s (fun t => t.life.fuseReq = some ⟨op, imgN b 5 1, imgN b 0x18 4,
    (b.drop 0x20).take 48⟩ ∧ t.fget Fd.fuseStatus_BUSY = 1 ∧ t.out = .hostRead 0 (s.reg .fuseReqAddr) 384 :: s.out ∧ t =
    { s with regs := t.regs, life := t.life, freeCtr := t.freeCtr, out := t.out } ∧ SameRegs (fun r _ => r = .fuseStatus ∨ r = .fuseNonce)
    s t)) ∧
  (∀ (src : Source) (op : Nat) (r : HostRead) (s : State), 1 ≤ op ∧ op ≤ 5 → FuseTakes src s → s.mayMaster = false → s.fuseBusy = false →
    (readBytes r = none ∨ ∃ b, readBytes r = some b ∧ imgN b 4 1 = op) → Runs (fuseInstr src op r) s (fun t => t.life =
    { s.life with fuseDue := true } ∧ t.fget Fd.fuseStatus_BUSY = 1 ∧ RegsOnly (fun r _ => r = .fuseStatus) { s with life := t.life } t)) ∧
  (∀ (src : Source) (op : Nat) (b : Bytes) (s : State), 1 ≤ op ∧ op ≤ 5 → s.shut src = false → (s.proc 0).running = true → s.life.fuseDue =
    true → s.mayMaster = true → imgN b 4 1 = op → s.fuseCheck false (some b) = none → Runs (fuseInstr src op (.ok b)) s (fun t =>
    t.life.fuseDue = false ∧ t.life.fuseReq = some ⟨op, imgN b 5 1, imgN b 0x18 4, (b.drop 0x20).take 48⟩ ∧ t.fget Fd.fuseStatus_BUSY = 1 ∧
    t.out = .hostRead 0 (s.reg .fuseReqAddr) 384 :: s.out ∧ t = { s with regs := t.regs, life := t.life, freeCtr := t.freeCtr, out := t.out }))
    ∧
  (∀ (src : Source) (op e : Nat) (b : Bytes) (s : State), 1 ≤ op ∧ op ≤ 5 → FuseTakes src s → s.mayMaster = true → (imgN b 4 1 = op ∨ imgN b
    4 1 = 0 ∨ 5 < imgN b 4 1) → s.fuseCheck false (some b) = some e → Runs (fuseInstr src op (.ok b)) s (fun t => t.fget
    Fd.fuseStatus_REASON = e % 256 ∧ t.fget Fd.fuseStatus_DONE = 1 ∧ t.fget Fd.fuseStatus_BUSY = s.fget Fd.fuseStatus_BUSY ∧ Raised 120 s t
    ∧ (s.fuseBusy = false → .hostRead 0 (s.reg .fuseReqAddr) 384 ∈ t.out) ∧ t = { s with regs := t.regs, out := t.out, freeCtr := t.freeCtr }
    ∧ SameRegs (fun r _ => r = .fuseStatus ∨ r = .fuseNonce ∨ r = .msixPba) s t)) ∧
  (∀ (src : Source) (op : Nat) (r : HostRead) (s : State), 1 ≤ op ∧ op ≤ 5 → FuseTakes src s → s.mayMaster = true → s.fuseBusy = false → (r =
    .timeout ∨ r = .refused) → Quiet 4 0x1C s → Runs (fuseInstr src op r) s (fun t => t.fget Fd.fuseStatus_REASON = 3 ∧ t.fget
    Fd.fuseStatus_DONE = 1 ∧ Raised 120 s t ∧ Detected 4 ⟨0x1C, 4, 4, (if r = .timeout then 1 else 2)⟩ s t ∧ t.fused = s.fused ∧ t.fuse =
    s.fuse ∧ t.life = s.life ∧ t.mem = s.mem)) ∧
  (∀ (tap : Bool) (b : Bytes) (s : State), s.fuseCheck tap (some b) = if s.life.fuseReq.isSome = true ∨ s.life.cmd.isSome = true ∨ 2 ≤ s.fget
    Fd.fwStatus_STATE then some 1 else if s.scanOn then some 2 else if b.length ≠ 384 then some 3 else if imgN b 0 4 ≠ 0x53554658 ∨ imgN b 128
    4 ≠ 0x47495358 then some 4 else if imgN b 4 1 = 0 ∨ 6 < imgN b 4 1 ∨ imgN b 6 2 ≠ 0 ∨ imgN b 0x1C 4 ≠ 0 ∨ imgN b 0x50 48 ≠ 0 ∨ imgN b 134
    10 ≠ 0 ∨ imgN b 336 48 ≠ 0 then some 5 else if tap = true ∧ imgN b 4 1 ≠ 6 ∨ tap = false ∧ imgN b 4 1 = 6 then some 6 else if imgN b 8 8
    ≠ s.fuse.deviceId then some 7 else if imgN b 0x10 8 ≠ s.reg .fuseNonce then some 8 else if s.fuse.unsigned (imgN b 4 1) = false ∧
    (authFail s.keySlots b).isSome = true then some (8 + (authFail s.keySlots b).getD 0) else if s.fuse.slotState (imgN b 4 1) (imgN b 5 1)
    then some 12 else if imgN b 4 1 = 2 ∧ (s.fuse.slots.filter fun k => k.hash.isSome && !k.revoked).length ≤ 1 then some 13 else if
    s.fuse.notRaised (imgN b 4 1) (imgN b 0x18 4) then some 14 else if s.fuse.exhausted (imgN b 4 1) then some 15 else if imgN b 4 1 = 6 ∧
    s.fuse.testLock = 2 then some 16 else if s.fget Fd.railStatus_OP_NOW 4 < 5 ∨ 85 < s.fget Fd.thermal_TJ_MAX_C 4 then some 17 else none) ∧
  (∀ (x : FuseSt) (op v : Nat), x.unsigned op = decide (op = 1 ∧ (∀ k ∈ x.slots, k.hash = none ∧ k.revoked = false) ∨ op = 6 ∧ x.testLock =
    0) ∧ x.notRaised op v = decide (op = 3 ∧ v ≤ x.imageFloor ∨ op = 4 ∧ v ≤ x.fwFloor ∨ op = 5 ∧ (v ≤ x.testLock ∨ 2 < v)) ∧ x.exhausted op =
    decide (op = 3 ∧ 63 ≤ x.imageRows ∨ op = 4 ∧ 63 ≤ x.fwRows ∨ op = 5 ∧ 2 ≤ x.lockRows ∨ op = 6 ∧ 15 ≤ x.sessions)) ∧
  (∀ (op : Nat) (r : HostRead) (s : State), 1 ≤ op ∧ op ≤ 5 → s.shut .host = false → s.fget Fd.fwStatus_STATE = 0 → s.life.fuseDue = false →
    Runs (fuseInstr .host op r) s (fun t => t.fget Fd.hostViol_COUNT = satAdd Fd.hostViol_COUNT.max (s.fget Fd.hostViol_COUNT) 1 ∧ RegsOnly
    (fun r _ => r = .hostViol) s t)) ∧
  (∀ (src : Source) (op : Nat) (r : HostRead) (s : State), 1 ≤ op ∧ op ≤ 5 → s.shut src = false → (src ≠ .host ∨ s.fget Fd.fwStatus_STATE ≠
    0) → (s.proc 0).running = false → Runs (fuseInstr src op r) s (Same s)) ∧
  (∀ (src : Source) (op : Nat) (b : Bytes) (s : State), 1 ≤ op ∧ op ≤ 5 → s.shut src = false → (src ≠ .host ∨ s.fget Fd.fwStatus_STATE ≠
    0) → imgN b 4 1 ≠ op → 1 ≤ imgN b 4 1 → imgN b 4 1 ≤ 5 → Runs (fuseInstr src op (.ok b)) s (Same s)) ∧
  (∀ (q : FuseRun) (s : State), s.life.fuseReq = some q → s.life.scanWait = none → Runs (.fuseProgramDone true) s (fun t => t.fused =
    s.fused.programmed q ∧ t.fuse = s.fuse.programmed q ∧ t.life.fuseReq = none ∧ t.fget Fd.fuseStatus_BUSY = 0 ∧ t.fget
    Fd.fuseStatus_DONE = 1 ∧ t.fget Fd.fuseStatus_REASON = 0 ∧ Raised 120 s t ∧ t =
    { s with regs := t.regs, out := t.out, fused := t.fused, fuse := t.fuse, life := t.life } ∧ SameRegs (fun r _ => r = .fuseStatus ∨
    r = .msixPba) s t)) ∧
  (∀ (q : FuseRun) (x : FuseSt), (q.op = 1 → x.programmed q = { x with slots := x.slots.set q.slot ⟨some q.hash, false⟩ }) ∧ (q.op = 2 →
    x.programmed q = { x with slots := x.slots.set q.slot { x.slots.getD q.slot {} with revoked := true } }) ∧ (q.op = 3 → x.programmed q =
    { x with imageFloor := q.value, imageRows := x.imageRows + 1 }) ∧ (q.op = 4 → x.programmed q =
    { x with fwFloor := q.value, fwRows := x.fwRows + 1 }) ∧ (q.op = 5 → x.programmed q =
    { x with testLock := q.value, lockRows := x.lockRows + 1 })) ∧
  (∀ (q : FuseRun) (s : State), s.life.fuseReq = some q → s.life.scanWait = none → Runs (.fuseProgramDone false) s (fun t => (t.fused =
    s.fused.failed q true ∧ t.fuse = s.fuse.failed q true ∨ t.fused = s.fused.failed q false ∧ t.fuse = s.fuse.failed q false) ∧ t.fget
    Fd.fuseStatus_BUSY = 0 ∧ t.fget Fd.fuseStatus_DONE = 1 ∧ t.fget Fd.fuseStatus_REASON = 0x12 ∧ Raised 120 s t ∧ t.life =
    { s.life with fuseReq := none } ∧ t.mem = s.mem)) ∧
  (∀ (q : FuseRun) (new : Bool) (x : FuseSt), (q.op = 1 → x.failed q new = { x with slots := x.slots.set q.slot ⟨some q.hash, true⟩ }) ∧
    (q.op = 2 → x.failed q new = { x with slots := x.slots.set q.slot { x.slots.getD q.slot {} with revoked := true } }) ∧ (q.op = 3 →
    x.failed q new = { x with imageFloor := (if new then q.value else x.imageFloor), imageRows := x.imageRows + 1 }) ∧ (q.op = 4 → x.failed q
    new = { x with fwFloor := (if new then q.value else x.fwFloor), fwRows := x.fwRows + 1 }) ∧ (q.op = 5 → x.failed q new =
    { x with testLock := (if new then q.value else x.testLock), lockRows := x.lockRows + 1 })) ∧
  (∀ (q : FuseRun) (b : Bytes) (ok : Bool) (s : State), s.life.fuseReq = some q → s.life.scanWait = some (b, ok) → s.life.cmd = none → s.fget
    Fd.fwStatus_STATE < 2 → s.scanOn = false → b.length = 384 → imgN b 0 4 ≠ 0x53554658 → Runs (.fuseProgramDone true) s (fun t =>
    t.life.scanWait = none ∧ t.life.fuseReq = none ∧ t.fused = s.fused.programmed q ∧ t.fget Fd.fuseStatus_REASON = 4 ∧ t.fget
    Fd.fuseStatus_DONE = 1 ∧ t.fget Fd.testStatus_SCAN_OPEN = s.fget Fd.testStatus_SCAN_OPEN ∧ t.mem = s.mem)) ∧
  (∀ (ok : Bool) (s : State), s.life.fuseReq = none → Runs (.fuseProgramDone ok) s (Same s)) ∧
  (∀ (b : Bytes) (ok : Bool) (s : State), b.length = 384 → (s.proc 0).running = true → s.life.fuseReq = none →
    s.fuseCheck true (some b) = none → Runs (.scanUnlock b ok) s (fun t => t.mem = [] ∧ t.poison = [] ∧ t.arr = [] ∧ t.ctrPoison = [] ∧ t.cores
    = [] ∧ t.rings = [] ∧ t.l2 = [] ∧ t.colls = [] ∧ t.streams = [] ∧ t.procs = [] ∧ t.life.image = none ∧ t.life.store = [] ∧ t.life.bundle =
    [] ∧ t.life.staged = [] ∧ (∀ p : PortId, t.portState p = 0 ∧ (t.port p).wait = [] ∧ (t.port p).unacked = [] ∧ (t.port p).txq = [] ∧ (t.port
    p).rounds = [] ∧ (t.port p).stream = []) ∧ t.fused = { s.fused with sessions := s.fused.sessions + 1 } ∧ t.fget Fd.testStatus_SCAN_OPEN =
    (if ok then 1 else s.fget Fd.testStatus_SCAN_OPEN) ∧ t.fget Fd.testStatus_SECRETS_CLEARED = (if ok then 1 else s.fget
    Fd.testStatus_SECRETS_CLEARED) ∧ t.fget Fd.testStatus_CLEAR_FAILED = (if ok then s.fget Fd.testStatus_CLEAR_FAILED else 1) ∧ t.fget
    Fd.fuseStatus_REASON = 0 ∧ t.fget Fd.fuseStatus_DONE = 1 ∧ t.tap.ir = 0x30)) ∧
  (∀ (b : Bytes) (ok : Bool) (e : Nat) (s : State), b.length = 384 → (s.proc 0).running = true → s.life.fuseReq = none → s.fuseCheck true
    (some b) = some e → Runs (.scanUnlock b ok) s (fun t => t.fget Fd.fuseStatus_REASON = e % 256 ∧ t.fget Fd.fuseStatus_DONE = 1 ∧ Raised 120
    s t ∧ t.tap = { s.tap with ir := 0x30, bypass := false } ∧ t =
    { s with regs := t.regs, out := t.out, freeCtr := t.freeCtr, tap := t.tap } ∧ SameRegs (fun r _ => r = .fuseStatus ∨ r = .fuseNonce ∨ r =
    .msixPba) s t)) ∧
  (∀ (b : Bytes) (ok : Bool) (s : State), b.length = 384 → (s.proc 0).running = true → s.life.fuseReq.isSome = true → Runs
    (.scanUnlock b ok) s (fun t => t.life = { s.life with scanWait := some (b, ok) } ∧ t.tap = { s.tap with ir := 0x30, bypass := false } ∧
    Captured (s.fget Fd.fuseStatus_REASON) s t ∧ t = { s with tap := t.tap, life := t.life, out := t.out, freeCtr := t.freeCtr })) ∧
  (∀ (b : Bytes) (ok : Bool) (s : State), (b.length ≠ 384 ∨ (s.proc 0).running = false) → Runs (.scanUnlock b ok) s (fun t => t.tap =
    { s.tap with ir := 0x30, bypass := false } ∧ Captured (s.fget Fd.fuseStatus_REASON) s t ∧ t =
    { s with tap := t.tap, out := t.out, freeCtr := t.freeCtr }))

/-- BIST_CMD tests a fenced core or stack, or is refused; its end leaves the storage zero, records the failures, raises vector 120, and a power
command that waited for it begins. R766, R777, R783, Table 21.4. -/
def Obligations.OfflineTestsOfCoresAndStacks : Prop :=
  (∀ (src : Source) (c : CoreId) (s : State), s.shut src = false → s.life.bist = none → s.bistCheck false c = none → Runs
    (.coreOffline src c) s (fun t => t.life = { s.life with bist := some ⟨false, c.val⟩ } ∧ t.fget Fd.testBistStatus_BUSY = 1 ∧ RegsOnly
    (fun r _ => r = .testBistStatus) { s with life := t.life } t)) ∧
  (∀ (src : Source) (i : Fin 8) (s : State), s.shut src = false → s.life.bist = none → s.bistCheck true i = none → Runs (.stackOffline
    src i) s (fun t => t.life = { s.life with bist := some ⟨true, i.val⟩ } ∧ t.fget Fd.testBistStatus_BUSY = 1 ∧ RegsOnly (fun r _ => r =
    .testBistStatus) { s with life := t.life } t)) ∧
  (∀ (src : Source) (c : CoreId) (e : Nat) (s : State), s.shut src = false → s.life.bist = none → s.bistCheck false c = some e → Runs
    (.coreOffline src c) s (fun t => t.fget Fd.testBistStatus_RESULT = e % 4 ∧ RegsOnly (fun r _ => r = .testBistStatus) s t)) ∧
  (∀ (src : Source) (i : Fin 8) (f : Nat) (s : State), s.shut src = false → s.life.bist = none → s.bistCheck true i = some f → Runs
    (.stackOffline src i) s (fun t => t.fget Fd.testBistStatus_RESULT = f % 4 ∧ RegsOnly (fun r _ => r = .testBistStatus) s t)) ∧
  (∀ (c : CoreId) (i : Fin 8) (s : State), s.bistCheck false c = (if s.hasImage = false then some 1 else if s.corePresent c = false ∨ s.coreOut
    c = true then some 2 else if s.coreFence c ≠ .fenced ∨ s.fget Fd.corePwr_STATE c ≠ 0 then some 3 else none) ∧ s.bistCheck true i =
    (if s.hasImage = false then some 1 else if (∀ k : Fin 32, s.chanOut (32 * i.val + k.val) = true) then some 2 else if s.stackState i ≠ 0 ∨
    (∃ f ∈ List.range s.foldSecs.length, s.foldFence f ≠ .fenced ∧ (s.devSec.hashMode = 0 ∨ ∃ k : Fin 32, (s.foldSec f).channels.testBit
    (32 * i.val + k.val) = true)) then some 3 else none)) ∧
  (∀ (c : CoreId) (i : Fin 8) (s : State), s.shut .host = false → s.life.bist.isSome = true → Runs (.coreOffline .host c) s (fun t =>
    t.fget Fd.hostViol_COUNT = satAdd Fd.hostViol_COUNT.max (s.fget Fd.hostViol_COUNT) 1 ∧ RegsOnly (fun r _ => r = .hostViol) s t) ∧
    Runs (.stackOffline .host i) s (fun t => t.fget Fd.hostViol_COUNT = satAdd Fd.hostViol_COUNT.max (s.fget Fd.hostViol_COUNT) 1 ∧
    RegsOnly (fun r _ => r = .hostViol) s t)) ∧
  (∀ (c : CoreId) (l : List Nat) (passed : Bool) (s : State), s.life.bist = some ⟨false, c.val⟩ → (∀ p, s.power = some p → p.waitReset =
    false) → Runs (.offlineTestDone passed l) s (fun t => t.life = { s.life with bist := none } ∧ Cleared (pantryKey c 0) Config.pantryBytes t
    ∧ MemBut (pantryKey c 0) Config.pantryBytes s t ∧ (∀ n : Fin 64, t.ctr (ctrKey c n) = 0) ∧ t.core c = { wasReset := true } ∧ t.fences =
    s.fences ∧ t.fget Fd.testBistStatus_DONE = 1 ∧ t.fget Fd.testBistStatus_BUSY = 0 ∧ t.fget Fd.testBistStatus_RESULT = 0 ∧ t.fget
    Fd.testBistStatus_CHANNELS = 0 ∧ (∀ k : Fin 9, bit (t.fget Fd.testBistStatus_FAILED) k = (!passed && (l.contains k.val || k.val == 4 &&
    l.any fun a => 64 ≤ a && a < 128))) ∧ (∀ a : Fin 64, bit (t.reg .bistArrays) a = (!passed && l.contains (64 + a.val))) ∧ Raised 120 s t))
    ∧
  (∀ (i : Fin 8) (l : List Nat) (passed : Bool) (s : State), s.life.bist = some ⟨true, i.val⟩ → (∀ p, s.power = some p → p.waitReset =
    false) → Runs (.offlineTestDone passed l) s (fun t => t.life = { s.life with bist := none } ∧ Cleared (hbmKey (32 * i) 0) (32 *
    Config.channelBytes) t ∧ MemBut (hbmKey (32 * i) 0) (32 * Config.channelBytes) s t ∧ (∀ e ∈ t.l2, e.1 / 256 / 32 ≠ i.val) ∧ t.cores =
    s.cores ∧ t.fences = s.fences ∧ t.fget Fd.testBistStatus_DONE = 1 ∧ t.fget Fd.testBistStatus_BUSY = 0 ∧ t.fget Fd.testBistStatus_RESULT =
    0 ∧ (∀ k : Fin 32, bit (t.fget Fd.testBistStatus_CHANNELS) k = (!passed && l.contains k.val)) ∧ t.fget Fd.testBistStatus_FAILED = 0 ∧
    t.reg .bistArrays = 0 ∧ Raised 120 s t)) ∧
  (∀ (c : CoreId) (l : List Nat) (passed : Bool) (q : PowerRun) (s : State), s.life.bist = some ⟨false, c.val⟩ → s.power = some q →
    q.waitReset = true → q.dkind = 1 → q.id = c.val → q.action = 3 → s.fget Fd.corePwr_STATE c ≠ q.arg → Runs (.offlineTestDone passed l) s
    (fun t => t.life.bist = none ∧ t.power = some { q with waitReset := false, result := none } ∧ t.fget Fd.testBistStatus_DONE = 1)) ∧
  (∀ (p : Bool) (l : List Nat) (s : State), s.life.bist = none → Runs (.offlineTestDone p l) s (Same s))

/-- EXTEST, EXTEST_PULSE, EXTEST_TRAIN, CLAMP and HIGHZ take effect only while PERST_N is low; the others at any time; IDCODE reads the
identity. R769, R776. -/
def Obligations.TestPortInstructionsNeedPerst : Prop :=
  (∀ (s : State), s.life.perst = true → Runs .extest s (fun t => t = { s with tap := { s.tap with ir := 0, bypass := false } }) ∧ Runs
    .extestPulse s (fun t => t = { s with tap := { s.tap with ir := 3, bypass := false } }) ∧ Runs .extestTrain s (fun t => t =
    { s with tap := { s.tap with ir := 4, bypass := false } }) ∧ Runs .clamp s (fun t => t =
    { s with tap := { s.tap with ir := 5, bypass := false } }) ∧ Runs .highz s (fun t => t =
    { s with tap := { s.tap with ir := 6, bypass := false } })) ∧
  (∀ (s : State), s.life.perst = false → Runs .extest s (fun t => t.tap.bypass = true ∧ t.fget Fd.testStatus_EXTEST_REFUSED = 1 ∧
    RegsOnly (fun r _ => r = .testStatus) { s with tap := t.tap } t) ∧ Runs .extestPulse s (fun t => t.tap.bypass = true ∧ t.fget
    Fd.testStatus_EXTEST_REFUSED = 1 ∧ RegsOnly (fun r _ => r = .testStatus) { s with tap := t.tap } t) ∧ Runs .extestTrain s (fun t
    => t.tap.bypass = true ∧ t.fget Fd.testStatus_EXTEST_REFUSED = 1 ∧ RegsOnly (fun r _ => r = .testStatus) { s with tap := t.tap }
    t) ∧ Runs .clamp s (fun t => t.tap.bypass = true ∧ t.fget Fd.testStatus_EXTEST_REFUSED = 1 ∧ RegsOnly (fun r _ => r = .testStatus)
    { s with tap := t.tap } t) ∧ Runs .highz s (fun t => t.tap.bypass = true ∧ t.fget Fd.testStatus_EXTEST_REFUSED = 1 ∧ RegsOnly (fun
    r _ => r = .testStatus) { s with tap := t.tap } t)) ∧
  (∀ (s : State), Runs .idcode s (fun t => ∃ v, t.out = .tdo v :: s.out ∧ bits v 31 28 = 1 ∧ bits v 27 12 = s.fuse.orderCode % 2 ^ 16
    ∧ bits v 11 1 = 0x3A7 ∧ bit v 0 = true ∧ t = { s with tap := { s.tap with ir := 1, bypass := false }, out := t.out })) ∧
  (∀ (b : Bytes) (s : State), Runs (.samplePreload b) s (fun t => t.tap = { s.tap with ir := 2, bypass := false, boundary := b } ∧ t =
    { s with tap := t.tap, out := t.out, freeCtr := s.freeCtr + 1 })) ∧
  (∀ (s : State), Runs .bypass s (fun t => t = { s with tap := { s.tap with ir := 0xFF, bypass := true } })) ∧
  (∀ (dr : Nat) (s : State), s.life.aonUp = true → s.tap.access = none → Runs (.debugAccess dr) s (fun t => t.tap.ir = 0x20 ∧
    t.tap.bypass = false ∧ t.tap.access.isSome = true))

/-- A debug access reads or writes 8 bytes of registers as PORT_LEVEL allows, and its data waits for the next capture. R743, R770, R778, R779,
R786, R790, Table 21.5, Table 21.6. -/
def Obligations.DebugAccessesThroughTheTestPort : Prop :=
  (∀ (dr d : Nat) (u : State) (s : State), s.life.aonUp = true → s.tap.access = none → bit dr 87 = false → s.portDenied false (bits dr
    86 64 * 8) (bits dr 63 0) = false → (s.setIr 0x20 false).readReg (bits dr 86 64 * 8) 8 = (d, u) → Runs (.debugAccess dr) s (fun t
    => t = { u with tap := { u.tap with access := some (0, d) } })) ∧
  (∀ (dr : Nat) (s : State), s.life.aonUp = true → s.tap.access = none → s.portDenied (bit dr 87) (bits dr 86 64 * 8) (bits dr 63 0) = true
    → Runs (.debugAccess dr) s (fun t => t.tap.access.any (fun a => a.1 == 1) = true ∧ t.tap =
    { s.tap with ir := 0x20, bypass := false, access := t.tap.access } ∧ t = { s with tap := t.tap, freeCtr := s.freeCtr + 1 })) ∧
  (∀ (dr : Nat) (a : Nat × Nat) (s : State), s.life.aonUp = true → s.tap.access = some a → Runs (.debugAccess dr) s (fun t => CapturedBusy s
    t ∧ t = { s with tap := { s.tap with ir := 0x20, bypass := false }, out := t.out, freeCtr := s.freeCtr + 1 })) ∧
  (∀ (st d : Nat) (s : State), s.tap.access = some (st, d) → Runs .debugAccessDone s (fun t => t.tap =
    { s.tap with access := none, status := st, data := d } ∧ t.out = .tdo (2 ^ 88 * st + d % 2 ^ 64) :: s.out ∧ t =
    { s with tap := t.tap, out := t.out })) ∧
  (∀ (s : State), s.tap.access = none → Runs .debugAccessDone s (Same s)) ∧
  (∀ (s : State), Runs .scanChain s (fun t => t =
    { s with tap := { s.tap with ir := 0x31, bypass := !s.fon Fd.testStatus_SCAN_OPEN } })) ∧
  (∀ (s : State), Runs .testLogicReset s (fun t => t = { s with tap := { s.tap with ir := 1, bypass := false } })) ∧
  (∀ (dr : Nat) (s : State), s.life.aonUp = true → s.tap.access = none → bit dr 87 = true → s.portDenied true (bits dr 86 64 * 8) (bits dr 63
    0) = false → Runs (.registerWrite .tap (bits dr 86 64 * 8) true (BitVec.ofNat 64 (bits dr 63 0))) (s.setIr 0x20 false) (fun u => Runs
    (.debugAccess dr) s (fun t => t.tap.access.any (fun a => a.1 == 0) = true ∧ t =
    { u with tap := { u.tap with access := t.tap.access }, freeCtr := u.freeCtr + 1 }))) ∧
  (∀ (dr : Nat) (s : State), s.life.aonUp = false → Runs (.debugAccess dr) s (fun t => t =
    { s with tap := { s.tap with ir := 0x20, bypass := false } })) ∧
  (∀ (w : Bool) (off v : Nat) (s : State), s.scanOn = false → s.fget Fd.debugCtl_PORT_LEVEL = 0 → s.portDenied w off v = true) ∧
  (∀ (off v : Nat) (s : State), s.scanOn = false → s.fget Fd.debugCtl_PORT_LEVEL = 1 → s.portDenied true off v = true ∧ (s.portDenied false
    off v = true ↔ ∃ a, regAt off = some a ∧ (a.reg = .dbgData ∨ a.reg = .tdbgData))) ∧
  (∀ (off v : Nat) (s : State), (s.scanOn = true ∨ s.fget Fd.debugCtl_PORT_LEVEL = 2) → s.portDenied false off v = false) ∧
  (∀ (off v : Nat) (a : RegAt) (s : State), (s.scanOn = true ∨ s.fget Fd.debugCtl_PORT_LEVEL = 2) → inSubmit off = false → regAt off = some a →
    (a.reg = .tdbgCmd ∨ a.reg = .tdbgData ∨ a.reg = .dbgData ∨ a.reg = .groupCmd ∧ (bits v 11 8 = 4 ∨ bits v 11 8 = 5)) → s.portDenied true
    off v = !s.mayDebug .tap a.u) ∧
  (∀ (off v : Nat) (s : State), (s.scanOn = true ∨ s.fget Fd.debugCtl_PORT_LEVEL = 2) → inSubmit off = true → s.portDenied true off v = true) ∧
  (∀ (off v : Nat) (s : State), (s.scanOn = true ∨ s.fget Fd.debugCtl_PORT_LEVEL = 2) → inSubmit off = false → (∀ a, regAt off = some a →
    a.reg ≠ .tdbgCmd ∧ a.reg ≠ .tdbgData ∧ a.reg ≠ .dbgData ∧ (a.reg = .groupCmd → bits v 11 8 ≠ 4 ∧ bits v 11 8 ≠ 5)) → s.portDenied true
    off v = false) ∧
  (∀ (s : State), Runs .bypass s (fun t => t = { s with tap := { s.tap with ir := 0xFF, bypass := true } }))

/-- HALT, RESUME, STEP and TDBG_DATA act on the twin from an admitted source in the right state; else they are violations and change nothing
else. A fetch from TDBG_BREAK halts before the instruction. R198, R202, R203, R779, R780, Table 5.1, Table 21.10. -/
def Obligations.TwinDebugCommands : Prop :=
  (∀ (src : Source) (c : CoreId) (s : State), s.shut src = false → s.mayDebug src c = true → (s.twin c).mode = .running → (s.twin
    c).began = false → (s.twin c).rel = [] → Runs (.twinHalt src c) s (fun t => t.twin c =
    { s.twin c with mode := .halted, began := false, waiting := false, haltAt := none } ∧ t.fget Fd.tdbgStatus_HALT_CAUSE c = 1 ∧ t =
    { s with cores := t.cores, regs := t.regs, waiters := ndel s.waiters c } ∧ (∀ d : CoreId, d ≠ c → t.core d = s.core d) ∧ SameRegs
    (fun r u => r = .tdbgStatus ∧ u = c.val) s t)) ∧
  (∀ (src : Source) (c : CoreId) (s : State), s.shut src = false → s.mayDebug src c = true → (s.twin c).mode = .running → (s.twin
    c).began = true → Runs (.twinHalt src c) s (fun t => t.twin c = { s.twin c with haltAt := some 1 } ∧ TwinOnly c s t)) ∧
  (∀ (src : Source) (c : CoreId) (s : State), s.shut src = false → s.mayDebug src c = true → (s.twin c).mode = .halted → Runs
    (.twinResume src c) s (fun t => (t.twin c).mode = .running ∧ (t.twin c).kettle.start = s.elapsed ∧ (t.twin c).pc = (s.twin c).pc ∧
    SameGr c 32 s t ∧ SameSpecials c s t ∧ t.fget Fd.tdbgStatus_HALT_CAUSE c = 0 ∧ t = { s with cores := t.cores, regs := t.regs } ∧
    SameRegs (fun r u => r = .tdbgStatus ∧ u = c.val) s t)) ∧
  (∀ (src : Source) (c : CoreId) (l : Nat × Bytes) (w : Word32) (s : State), s.shut src = false → s.mayDebug src c = true → (s.twin
    c).mode = .halted → s.coreLive c = true → (s.twin c).began = false → (s.twin c).rel = [] → (s.twin c).excs = [] → s.eventDue c = false
    → (s.twin c).pc.toNat % 4 = 0 → (s.twin c).icache.find? (fun e => e.1 == (s.twin c).pc.toNat / 64) = some l → w.toNat = leNat ((l.2.drop
    ((s.twin c).pc.toNat % 64)).take 4) → tClass w.toNat = .alu → Runs (.twinStep src c) s (fun t => (t.twin c).mode = .halted ∧
    Retires c ((s.twin c).pc + 4) s t ∧ (t.twin c).gr (tRd w.toNat) = (if tRd w.toNat = 0 then 0 else tAlu (tFn w.toNat) ((s.twin
    c).gr (tRa w.toNat)) ((s.twin c).gr (tRb w.toNat))) ∧ SameGr c (tRd w.toNat) s t ∧ SameSpecials c s t ∧ (t.twin c).kettle.start =
    s.elapsed ∧ t.fget Fd.tdbgStatus_HALT_CAUSE c = 3 ∧ t = { s with cores := t.cores, regs := t.regs, waiters := ndel s.waiters c } ∧
    SameRegs (fun r u => r = .tdbgStatus ∧ u = c.val) s t)) ∧
  (∀ (src : Source) (c : CoreId) (v : Word) (s : State), s.shut src = false → s.mayDebug src c = true → (s.twin c).mode = .halted →
    s.fon Fd.tdbgSel_SPECIAL c = false → s.fget Fd.tdbgSel_REG c ≠ 0 → Runs (.tdbgDataWrite src c v) s (fun t => (t.twin c).gr (s.fget
    Fd.tdbgSel_REG c) = v ∧ SameGr c (s.fget Fd.tdbgSel_REG c) s t ∧ SameSpecials c s t ∧ (t.twin c).pc = (s.twin c).pc ∧ TwinOnly c s
    t)) ∧
  (∀ (src : Source) (c : CoreId) (v : Word) (s : State), s.shut src = false → s.mayDebug src c = true → (s.twin c).mode = .halted →
    s.fon Fd.tdbgSel_SPECIAL c = false → s.fget Fd.tdbgSel_REG c = 0 → Runs (.tdbgDataWrite src c v) s (fun t => (t.twin c).gr 0 = 0 ∧
    SameGr c 0 s t ∧ SameSpecials c s t ∧ TwinOnly c s t)) ∧
  (∀ (src : Source) (c : CoreId) (v : Word) (s : State), s.shut src = false → s.mayDebug src c = true → (s.twin c).mode = .halted →
    s.fon Fd.tdbgSel_SPECIAL c = true → Runs (.tdbgDataWrite src c v) s (fun t => t.twin c = (s.twin c).setSpecial (s.fget
    Fd.tdbgSel_REG c) v ∧ TwinOnly c s t)) ∧
  (∀ (c : CoreId) (v : Word) (s : State), s.shut .host = false → (s.mayDebug .host c = false ∨ (s.twin c).mode ≠ .halted) → Runs
    (.twinResume .host c) s (fun t => t.fget Fd.hostViol_COUNT = satAdd Fd.hostViol_COUNT.max (s.fget Fd.hostViol_COUNT) 1 ∧ RegsOnly
    (fun r _ => r = .hostViol) s t) ∧ Runs (.twinStep .host c) s (fun t => t.fget Fd.hostViol_COUNT = satAdd Fd.hostViol_COUNT.max
    (s.fget Fd.hostViol_COUNT) 1 ∧ RegsOnly (fun r _ => r = .hostViol) s t) ∧ Runs (.tdbgDataWrite .host c v) s (fun t => t.fget
    Fd.hostViol_COUNT = satAdd Fd.hostViol_COUNT.max (s.fget Fd.hostViol_COUNT) 1 ∧ RegsOnly (fun r _ => r = .hostViol) s t)) ∧
  (∀ (c : CoreId) (s : State), s.shut .host = false → (s.mayDebug .host c = false ∨ (s.twin c).mode ≠ .running) → Runs
    (.twinHalt .host c) s (fun t => t.fget Fd.hostViol_COUNT = satAdd Fd.hostViol_COUNT.max (s.fget Fd.hostViol_COUNT) 1 ∧ RegsOnly
    (fun r _ => r = .hostViol) s t)) ∧
  (∀ (n c : CoreId) (v : Word) (s : State), (n ≠ c ∨ (s.twin c).mode ≠ .halted) → Runs (.twinResume (.twin n) c) s (fun t => t.fget Fd.coreViol_COUNT n = satAdd Fd.coreViol_COUNT.max (s.fget Fd.coreViol_COUNT
    n) 1 ∧ RegsOnly (fun r u => r = .coreViol ∧ u = n.val) s t) ∧
    Runs (.twinStep (.twin n) c) s (fun t => t.fget Fd.coreViol_COUNT n = satAdd Fd.coreViol_COUNT.max (s.fget Fd.coreViol_COUNT
    n) 1 ∧ RegsOnly (fun r u => r = .coreViol ∧ u = n.val) s t) ∧
    Runs (.tdbgDataWrite (.twin n) c v) s (fun t => t.fget Fd.coreViol_COUNT n = satAdd Fd.coreViol_COUNT.max (s.fget Fd.coreViol_COUNT
    n) 1 ∧ RegsOnly (fun r u => r = .coreViol ∧ u = n.val) s t)) ∧
  (∀ (n c : CoreId) (s : State), (n ≠ c ∨ (s.twin c).mode ≠ .running) → Runs (.twinHalt (.twin n) c) s (fun t => t.fget Fd.coreViol_COUNT n
    = satAdd Fd.coreViol_COUNT.max (s.fget Fd.coreViol_COUNT n) 1 ∧ RegsOnly (fun r u => r = .coreViol ∧ u = n.val) s t)) ∧
  (∀ (c : CoreId) (v : Word) (s : State), s.mayDebug .tap c = false → Runs (.twinHalt .tap c) s (Same s) ∧ Runs (.twinResume .tap c) s (Same
    s) ∧ Runs (.twinStep .tap c) s (Same s) ∧ Runs (.tdbgDataWrite .tap c v) s (Same s)) ∧
  (∀ (src : Source) (c : CoreId) (s : State), s.shut src = false → s.mayDebug src c = true → (s.twin c).mode = .halted → s.coreLive c =
    false → Runs (.twinStep src c) s (Same s)) ∧
  (∀ (src : Source) (c : CoreId) (l : Nat × Bytes) (w : Word32) (s : State), s.shut src = false → s.mayDebug src c = true → (s.twin
    c).mode = .halted → s.coreLive c = true → (s.twin c).began = false → (s.twin c).rel = [] → (s.twin c).excs = [] → s.eventDue c = false
    → (s.twin c).pc.toNat % 4 = 0 → (s.twin c).icache.find? (fun e => e.1 == (s.twin c).pc.toNat / 64) = some l → w.toNat = leNat ((l.2.drop
    ((s.twin c).pc.toNat % 64)).take 4) → tClass w.toNat = .ecall → s.stackFails c = 0 → Runs (.twinStep src c) s (fun t => (t.twin c).mode
    = .halted ∧ (t.twin c).epc = (s.twin c).pc ∧ (t.twin c).cause = 3 ∧ (t.twin c).pc = (s.twin c).vbase ∧ (t.twin c).gr 30 = (s.twin
    c).gr 30 - 64 ∧ SameGr c 30 s t ∧ t.fget Fd.tdbgStatus_HALT_CAUSE c = 3 ∧ MemBut (pantryKey c (s.norm ((s.twin c).gr 30).toNat -
    pantryP c - 64)) 64 s t)) ∧
  (∀ (src : Source) (c : CoreId) (x : Nat × Nat) (s : State), s.shut src = false → s.mayDebug src c = true → (s.twin c).mode = .halted →
    s.coreLive c = true → (s.twin c).began = false → (s.twin c).rel = [] → (s.twin c).excs = [x] → s.stackFails c = 0 → Runs (.twinStep
    src c) s (fun t => (t.twin c).mode = .halted ∧ (t.twin c).excs = [] ∧ (t.twin c).epc = (s.twin c).pc ∧ (t.twin c).cause =
    BitVec.ofNat 64 x.1 ∧ (t.twin c).evalue = BitVec.ofNat 64 x.2 ∧ (t.twin c).pc = (s.twin c).vbase ∧ SameGr c 30 s t ∧ t.fget
    Fd.tdbgStatus_HALT_CAUSE c = 3)) ∧
  (∀ (src : Source) (c : CoreId) (l : Nat × Bytes) (w : Word32) (k : Nat) (s : State), s.shut src = false → s.mayDebug src c = true →
    (s.twin c).mode = .halted → s.coreLive c = true → (s.twin c).began = false → (s.twin c).rel = [] → (s.twin c).excs = [] → s.eventDue c
    = false → (s.twin c).pc.toNat % 4 = 0 → (s.twin c).icache.find? (fun e => e.1 == (s.twin c).pc.toNat / 64) = some l → w.toNat = leNat
    ((l.2.drop ((s.twin c).pc.toNat % 64)).take 4) → tClass w.toNat = .waitAcq → s.ownCounter c ((s.twin c).gr (tRa w.toNat)).toNat = some k
    → nhas s.ctrPoison k = false → nfind s.waiters c = none → s.ctr k < ((s.twin c).gr (tRb w.toNat)).toNat → Runs (.twinStep src c) s
    (fun t => (t.twin c).mode = .halted ∧ (t.twin c).pc = (s.twin c).pc ∧ nfind t.waiters c = none ∧ (t.twin c).waiting = false ∧ SameGr c
    0 s t ∧ SameSpecials c s t ∧ t.fget Fd.tdbgStatus_HALT_CAUSE c = 3 ∧ t.arr = s.arr ∧ t.mem = s.mem ∧ SameRegs (fun r u => r =
    .tdbgStatus ∧ u = c.val) s t)) ∧
  (∀ (c : CoreId) (f : Option Word32) (s : State), s.twinRuns c = true → (s.twin c).began = false → (s.twin c).excs = [] → (s.twin c).rel =
    [] → s.breakHere c = true → Runs (.chedalAlu c f false) s (fun t => t.twin c =
    { s.twin c with mode := .halted, began := false, waiting := false, haltAt := none } ∧ t.fget Fd.tdbgStatus_HALT_CAUSE c = 2 ∧ t =
    { s with cores := t.cores, regs := t.regs, waiters := ndel s.waiters c } ∧ (∀ d : CoreId, d ≠ c → t.core d = s.core d) ∧ SameRegs
    (fun r u => r = .tdbgStatus ∧ u = c.val) s t))

/-- A BAR 4 request within a granule is performed at its target; an illegal BAR 0 access is a violation; a request to no BAR is unsupported.
R166, R775, R795, R797, R798, R802, R808, Table 22.4. -/
def Obligations.HostRequestsAtTheBars : Prop :=
  (∀ (off n f c o : Nat) (s : State), s.barUp = true → s.scanOn = false → 0 < n → off % 64 + n ≤ 64 → off + n ≤ 2 ^ s.host.bar4 →
    s.resolveHost 0 off = .here f (.pantry c o) → s.placeFenced f (.pantry c o) = false → s.pantryPoison c o n = false → Runs
    (.bar4Request false off n [] false) s (fun t => t = { s with out := .cpl (padTo n (s.pantryBytes c o n)) false :: s.out })) ∧
  (∀ (off n f c o : Nat) (s : State), s.barUp = true → s.scanOn = false → 0 < n → off % 64 + n ≤ 64 → off + n ≤ 2 ^ s.host.bar4 →
    s.resolveHost 0 off = .here f (.pantry c o) → s.placeFenced f (.pantry c o) = false → s.pantryPoison c o n = true → Runs
    (.bar4Request false off n [] false) s (fun t => t = { s with out := .cpl (List.replicate n 0) true :: s.out })) ∧
  (∀ (off f c o : Nat) (b : Bytes) (s : State), s.barUp = true → s.scanOn = false → 0 < b.length → off % 64 + b.length ≤ 64 → off +
    b.length ≤ 2 ^ s.host.bar4 → s.resolveHost 1 off = .here f (.pantry c o) → s.placeFenced f (.pantry c o) = false → isCtrOff o =
    false → isRescueOff o = false → s.isPoison (pantryKey c o / 64) = false → Runs (.bar4Request true off b.length b false) s (fun t
    => mreads t.mem (pantryKey c o) b.length = b ∧ MemBut (pantryKey c o) b.length s t ∧ t.regs = s.regs ∧ t.arr = s.arr ∧ t.out =
    s.out ∧ t.cores = s.cores)) ∧
  (∀ (off f c o : Nat) (b : Bytes) (s : State), s.barUp = true → s.scanOn = false → 0 < b.length → off % 64 + b.length ≤ 64 → off +
    b.length ≤ 2 ^ s.host.bar4 → s.resolveHost 1 off = .here f (.pantry c o) → s.placeFenced f (.pantry c o) = false → isCtrOff o =
    false → isRescueOff o = false → Runs (.bar4Request true off b.length b true) s (fun t => mreads t.mem (pantryKey c o) b.length = b
    ∧ MemBut (pantryKey c o) b.length s t ∧ t.isPoison (pantryKey c o / 64) = true ∧ t.fget Fd.pcieCounts_POISON_RX = satAdd
    Fd.pcieCounts_POISON_RX.max (s.fget Fd.pcieCounts_POISON_RX) 1 ∧ SameRegs (fun r _ => r = .pcieCounts) s t ∧ t.arr = s.arr ∧
    t.cores = s.cores)) ∧
  (∀ (off n : Nat) (s : State), s.barUp = true → s.scanOn = false → 0 < n → off % 64 + n ≤ 64 → off + n ≤ 2 ^ s.host.bar4 →
    s.resolveHost 0 off = .viol .host → Runs (.bar4Request false off n [] false) s (fun t => t.fget Fd.hostViol_COUNT = satAdd
    Fd.hostViol_COUNT.max (s.fget Fd.hostViol_COUNT) 1 ∧ t.out = .cpl (List.replicate n 0) false :: s.out ∧ RegsAndOut (fun r _ => r =
    .hostViol) s t)) ∧
  (∀ (off n : Nat) (s : State), (s.barUp = false ∨ 2 ^ s.host.bar4 < off + n) → Runs (.bar4Request false off n [] false) s (fun t => t
    = unsupported s)) ∧
  (∀ (off size : Nat) (s : State), s.barUp = true → off + size ≤ Config.regBytes → (off % size ≠ 0 ∨ size ≠ 4 ∧ size ≠ 8 ∧ (size ≠ 16 ∧
    size ≠ 32 ∧ size ≠ 64 ∨ off < 0x90000 ∨ 0xD0000 < off + size)) → Runs (.bar0AccessIllegal false off size) s (fun t => t.fget Fd.hostViol_COUNT = satAdd Fd.hostViol_COUNT.max (s.fget Fd.hostViol_COUNT)
    1 ∧ t.out = .cpl (List.replicate size 0) false :: s.out ∧ RegsAndOut (fun r _ => r = .hostViol) s t)) ∧
  (∀ (off size : Nat) (s : State), s.barUp = true → off + size ≤ Config.regBytes → (off % size ≠ 0 ∨ (size ≠ 4 ∧ size ≠ 8)) → Runs
    (.bar0AccessIllegal true off size) s (fun t => t.fget Fd.hostViol_COUNT = satAdd Fd.hostViol_COUNT.max (s.fget Fd.hostViol_COUNT)
    1 ∧ RegsOnly (fun r _ => r = .hostViol) s t)) ∧
  (∀ (s : State), s.configUp = true → Runs .unsupportedRequest s (fun t => t = { s with out := .aer "Unsupported Request" :: s.out })) ∧
  (∀ (s : State), s.configUp = false → Runs .unsupportedRequest s (Same s) ∧ Runs (.malformedTlp .malformed) s (Same s)) ∧
  (∀ (s : State), s.configUp = true → Quiet 4 0x1C s → Runs (.malformedTlp .malformed) s (fun t => .aer "Malformed TLP" ∈ t.out ∧
    Detected 4 ⟨0x1C, 4, 4, 4⟩ s t ∧ EventFrame (fun _ _ => False) s t)) ∧
  (∀ (s : State), s.configUp = true → Runs (.malformedTlp .unexpectedCompletion) s (fun t => t =
    { s with out := .aer "Unexpected Completion" :: s.out }) ∧ Runs (.malformedTlp .receiverOverflow) s (fun t => t =
    { s with out := .aer "Receiver Overflow" :: s.out }) ∧ Runs (.malformedTlp .flowControl) s (fun t => t =
    { s with out := .aer "Flow Control Protocol Error" :: s.out })) ∧
  (∀ (off n f c o : Nat) (s : State), s.barUp = true → s.scanOn = false → 0 < n → off % 64 + n ≤ 64 → off + n ≤ 2 ^ s.host.bar4 →
    s.resolveHost 0 off = .here f (.pantry c o) → s.placeFenced f (.pantry c o) = true → Runs (.bar4Request false off n [] false) s (fun t =>
    t.out = .cpl (List.replicate n 0) false :: s.out ∧ t.fget Fd.pcieCounts_FENCED_HOST = satAdd Fd.pcieCounts_FENCED_HOST.max (s.fget
    Fd.pcieCounts_FENCED_HOST) 1 ∧ RegsAndOut (fun r _ => r = .pcieCounts) s t)) ∧
  (∀ (off f c o : Nat) (b : Bytes) (s : State), s.barUp = true → s.scanOn = false → 0 < b.length → off % 64 + b.length ≤ 64 → off +
    b.length ≤ 2 ^ s.host.bar4 → s.resolveHost 1 off = .here f (.pantry c o) → s.placeFenced f (.pantry c o) = true → Runs (.bar4Request
    true off b.length b false) s (fun t => t.fget Fd.pcieCounts_FENCED_HOST = satAdd Fd.pcieCounts_FENCED_HOST.max (s.fget
    Fd.pcieCounts_FENCED_HOST) 1 ∧ RegsOnly (fun r _ => r = .pcieCounts) s t)) ∧
  (∀ (off : Nat) (b : Bytes) (s : State), s.barUp = true → s.scanOn = false → 0 < b.length → off % 64 + b.length ≤ 64 → off + b.length ≤ 2 ^
    s.host.bar4 → s.resolveHost 1 off = .viol .host → Runs (.bar4Request true off b.length b false) s (fun t => t.fget Fd.hostViol_COUNT =
    satAdd Fd.hostViol_COUNT.max (s.fget Fd.hostViol_COUNT) 1 ∧ RegsOnly (fun r _ => r = .hostViol) s t)) ∧
  (∀ (off n1 n2 f c o : Nat) (s : State), s.barUp = true → s.scanOn = false → 0 < n1 → 0 < n2 → n1 ≤ 64 → n2 ≤ 64 → (off + n1) % 64 = 0 →
    off + n1 + n2 ≤ 2 ^ s.host.bar4 → s.resolveHost 0 off = .here f (.pantry c o) → s.resolveHost 0 (off + n1) = .here f (.pantry c (o +
    n1)) → s.placeFenced f (.pantry c o) = false → s.placeFenced f (.pantry c (o + n1)) = false → Runs (.bar4Request false off (n1 + n2) []
    false) s (fun t => t.out = .cpl ((if s.pantryPoison c o n1 = true then List.replicate n1 0 else padTo n1 (s.pantryBytes c
    o n1)) ++ (if s.pantryPoison c (o + n1) n2 = true then List.replicate n2 0 else padTo n2 (s.pantryBytes c (o + n1) n2)))
    (s.pantryPoison c o n1 || s.pantryPoison c (o + n1) n2) :: s.out ∧ t = { s with out := t.out })) ∧
  (∀ (off n : Nat) (b : Bytes) (s : State), s.barUp = true → s.scanOn = true → 0 < n → b.length = n → off % 64 + n ≤ 64 → off + n ≤ 2 ^
    s.host.bar4 → Runs (.bar4Request false off n [] false) s (fun t => t.fget Fd.hostViol_COUNT = satAdd Fd.hostViol_COUNT.max (s.fget
    Fd.hostViol_COUNT) 1 ∧ t.out = .cpl (List.replicate n 0) false :: s.out ∧ RegsAndOut (fun r _ => r = .hostViol) s t) ∧ Runs (.bar4Request
    true off n b false) s (fun t => t.fget Fd.hostViol_COUNT = satAdd Fd.hostViol_COUNT.max (s.fget Fd.hostViol_COUNT) 1 ∧ RegsOnly (fun r
    _ => r = .hostViol) s t)) ∧
  (∀ (off : Nat) (b : Bytes) (p : Bool) (s : State), (s.barUp = false ∨ 2 ^ s.host.bar4 < off + b.length) → Runs (.bar4Request true off
    b.length b p) s (fun t => t = unsupported s)) ∧
  (∀ (w : Bool) (off size : Nat) (s : State), (s.barUp = false ∨ Config.regBytes < off + size) → Runs (.bar0AccessIllegal w off size) s (fun
    t => t = unsupported s)) ∧
  (∀ (w : Bool) (off size : Nat) (s : State), s.barUp = true → off + size ≤ Config.regBytes → off % size = 0 → (size = 4 ∨ size = 8 ∨ w =
    false ∧ 0x90000 ≤ off ∧ off + size ≤ 0xD0000 ∧ (size = 16 ∨ size = 32 ∨ size = 64)) → Runs (.bar0AccessIllegal w off size) s (Same s))

/-- A completion answers its request; a failed one answers poisoned and is reported; the configuration masks, holds and releases what the
device sends. R160, R169, R792, R794, R796a, R799, R800, R803, R806, R807, R808, R866. -/
def Obligations.ThePcieFunction : Prop :=
  (∀ (tag : Nat) (b : Bytes) (o : HostOp) (c : CoreId) (s : State), nfind s.hostOps tag = some o → o.stage ≠ 0 → o.by' = .twin c →
    o.pairs = [] → (∀ f, s.foldOfCtx o.ctx = some f → s.foldFence f ≠ .fenced) → Runs (.deviceReadCompletion tag .sc b) s (fun t =>
    t.replies = s.replies ++ [⟨.twin c, .done, o.acc ++ padTo o.len b⟩] ∧ nfind t.hostOps tag = none ∧ t =
    { s with replies := t.replies, hostOps := ndel s.hostOps tag })) ∧
  (∀ (tag : Nat) (b : Bytes) (o : HostOp) (c : CoreId) (s : State), nfind s.hostOps tag = some o → o.by' = .twin c → Quiet 4 0x1C s →
    Runs (.deviceReadCompletion tag .ur b) s (fun t => t.replies = s.replies ++ [⟨.twin c, .poisoned, List.replicate o.len 0⟩] ∧
    .aer "Unsupported Request" ∈ t.out ∧ Detected 4 ⟨0x1C, 4, 4, 2⟩ s t ∧ EventFrame (fun _ _ => False)
    { s with replies := t.replies, hostOps := ndel s.hostOps tag } t) ∧ Runs (.deviceReadCompletion tag .ca b) s (fun t => t.replies =
    s.replies ++ [⟨.twin c, .poisoned, List.replicate o.len 0⟩] ∧ .aer "Completer Abort" ∈ t.out ∧
    Detected 4 ⟨0x1C, 4, 4, 2⟩ s t ∧ EventFrame (fun _ _ => False) { s with replies := t.replies, hostOps := ndel s.hostOps tag } t)) ∧
  (∀ (tag : Nat) (o : HostOp) (c : CoreId) (s : State), nfind s.hostOps tag = some o → o.by' = .twin c → Quiet 4 0x1C s → Runs
    (.completionTimeout tag) s (fun t => t.replies = s.replies ++ [⟨.twin c, .poisoned, List.replicate o.len 0⟩] ∧ .aer "Completion Timeout"
    ∈ t.out ∧ t.fget Fd.pcieCounts_CPL_TIMEOUTS = satAdd Fd.pcieCounts_CPL_TIMEOUTS.max (s.fget Fd.pcieCounts_CPL_TIMEOUTS) 1 ∧
    Detected 4 ⟨0x1C, 4, 4, 1⟩ s t ∧ EventFrame (fun r _ => r = .pcieCounts)
    { s with replies := t.replies, hostOps := ndel s.hostOps tag } t)) ∧
  (∀ (tag : Nat) (st : CplStatus) (b : Bytes) (s : State), nfind s.hostOps tag = none → Runs (.deviceReadCompletion tag st b) s (Same
    s) ∧ Runs (.completionTimeout tag) s (Same s)) ∧
  (∀ (on : Bool) (n : Nat) (s : State), s.configUp = true → s.host.held = [] → 30 ≤ n → n ≤ 45 → Runs (.configurationSpaceWrite
    (.memorySpace on)) s (fun t => t = { s with host := { s.host with memSpace := on } }) ∧ Runs (.configurationSpaceWrite
    (.resizeBar4 n)) s (fun t => t = { s with host := { s.host with bar4 := n } }) ∧ Runs (.configurationSpaceWrite (.msixFunctionMask
    true)) s (fun t => t = { s with host := { s.host with fnMask := true } })) ∧
  (∀ (s : State), s.configUp = true → Runs (.configurationSpaceWrite (.busMaster false)) s (fun t => t.fget Fd.pcieStatus_BME = 0 ∧
    RegsOnly (fun r _ => r = .pcieStatus) s t) ∧ Runs (.configurationSpaceWrite (.powerState true)) s (fun t => t.fget
    Fd.pcieStatus_D3HOT = 1 ∧ RegsOnly (fun r _ => r = .pcieStatus) s t)) ∧
  (∀ (a : Nat) (b : Bytes) (s : State), s.configUp = true → s.fon Fd.pcieStatus_BME = true → s.fon Fd.pcieStatus_LINK_UP = true →
    s.host.held = [.hostWrite a b] → Runs .d3hotToD0 s (fun t => t.fget Fd.pcieStatus_D3HOT = 0 ∧ t.host.held = [] ∧ .hostWrite a b ∈
    t.out ∧ t = { s with regs := t.regs, host := t.host, out := t.out } ∧ SameRegs (fun r _ => r = .pcieStatus ∨ r = .msixPba) s t) ∧ Runs
    (.configurationSpaceWrite (.powerState false)) s (fun t => t.fget Fd.pcieStatus_D3HOT = 0 ∧ t.host.held = [] ∧ .hostWrite a b ∈ t.out)) ∧
  (∀ (a : Nat) (b : Bytes) (s : State), s.configUp = true → s.fon Fd.pcieStatus_D3HOT = false → s.fon Fd.pcieStatus_LINK_UP = true →
    s.host.held = [.hostWrite a b] → Runs (.configurationSpaceWrite (.busMaster true)) s (fun t => t.fget Fd.pcieStatus_BME = 1 ∧
    t.host.held = [] ∧ .hostWrite a b ∈ t.out ∧ t = { s with regs := t.regs, host := t.host, out := t.out } ∧ SameRegs (fun r _ => r =
    .pcieStatus ∨ r = .msixPba) s t)) ∧
  (∀ (w sp : Nat) (fl : Bool) (s : State), s.configUp = true → Runs (.pcieRetrain w sp fl) s (fun t => t.fget Fd.pcieStatus_WIDTH = w
    % 32 ∧ t.fget Fd.pcieStatus_SPEED = sp % 16 ∧ t.fget Fd.pcieStatus_FLIT = b2n fl ∧ t.fget Fd.pcieStatus_LINK_UP = 1 ∧ t.time =
    { s.time with ptmBusy := false } ∧ RegsOnly (fun r _ => r = .pcieStatus) { s with time := t.time } t)) ∧
  (∀ (w : ConfigWrite) (s : State), s.configUp = false → Runs (.configurationSpaceWrite w) s (Same s) ∧ Runs .d3hotToD0 s (Same s) ∧ Runs
    (.pcieRetrain 0 0 false) s (Same s)) ∧
  (∀ (tag : Nat) (b : Bytes) (o : HostOp) (c : CoreId) (f : Nat) (s : State), nfind s.hostOps tag = some o → o.stage ≠ 0 → o.by' = .twin c →
    s.foldOfCtx o.ctx = some f → s.foldFence f = .fenced → Runs (.deviceReadCompletion tag .sc b) s (fun t => t.replies = s.replies ++
    [⟨.twin c, .fenced, List.replicate o.len 0⟩] ∧ t = { s with replies := t.replies, hostOps := ndel s.hostOps tag })) ∧
  (∀ (tag x w : Nat) (l : List (Nat × Nat)) (b : Bytes) (o : HostOp) (c : CoreId) (s : State), nfind s.hostOps tag = some o → o.stage ≠ 0 →
    o.by' = .twin c → o.pairs = (x, w) :: l → (∀ f, s.foldOfCtx o.ctx = some f → s.foldFence f ≠ .fenced) → s.mayMaster = true → Runs
    (.deviceReadCompletion tag .sc b) s (fun t => t.out = .hostAtomic tag o.bus o.aop w x o.len :: s.out ∧ nfind t.hostOps tag =
    some { o with data := leBytes 4 w, expect := x, pairs := l, acc := o.acc ++ padTo o.len b } ∧ t =
    { s with out := t.out, hostOps := t.hostOps })) ∧
  (∀ (tag : Nat) (st : CplStatus) (b : Bytes) (o : HostOp) (s : State), nfind s.hostOps tag = some o → o.by' = .late 304 → Runs
    (.deviceReadCompletion tag st b) s (fun t => t.fget Fd.domainGen_LATE_REPLIES 304 = satAdd Fd.domainGen_LATE_REPLIES.max (s.fget
    Fd.domainGen_LATE_REPLIES 304) 1 ∧ t = { s with regs := t.regs, hostOps := ndel s.hostOps tag } ∧ SameRegs (fun r u => r = .domainGen ∧
    u = 304) s t) ∧ Runs (.completionTimeout tag) s (fun t => t = { s with hostOps := ndel s.hostOps tag })) ∧
  (∀ (on : Bool) (n : Nat) (s : State), s.configUp = true → (n < 30 ∨ 45 < n) → Runs (.configurationSpaceWrite (.resizeBar4 n)) s (Same s) ∧
    Runs (.configurationSpaceWrite (.atomicRequester on)) s (fun t => t = { s with host := { s.host with atomicReq := on } }) ∧ Runs
    (.configurationSpaceWrite (.ptmEnable on)) s (fun t => t = { s with host := { s.host with ptmOn := on } })) ∧
  (∀ (v : Fin 128) (s : State), s.configUp = true → s.mayMaster = true → s.host.held = [] → s.fon Fd.msixVectorCtl_MASK v = false → (∀ i : Fin
    2, s.reg .msixPba i = if i.val = v.val / 64 then 2 ^ (v.val % 64) else 0) → Runs (.configurationSpaceWrite (.msixFunctionMask false)) s
    (fun t => t.out = .msix v (s.reg .msixAddr v) (s.reg .msixData v) :: s.out ∧ (∀ i : Fin 2, t.reg .msixPba i = 0) ∧ t =
    { s with regs := t.regs, host := { s.host with fnMask := false }, out := t.out } ∧ SameRegs (fun r _ => r = .msixPba) s t)) ∧
  (∀ (s : State), s.configUp = true → s.mayMaster = false → Runs (.configurationSpaceWrite (.msixFunctionMask false)) s (fun t => t =
    { s with host := { s.host with fnMask := false } })) ∧
  (∀ (a : Nat) (b : Bytes) (s : State), s.configUp = true → s.fon Fd.pcieStatus_BME = true → s.fon Fd.pcieStatus_LINK_UP = false →
    s.host.held = [.hostWrite a b] → Quiet 4 0x1C s → Runs .d3hotToD0 s (fun t => t.fget Fd.pcieStatus_D3HOT = 0 ∧ t.host.held = [] ∧ t.fget
    Fd.pcieCounts_WRITES_LOST = satAdd Fd.pcieCounts_WRITES_LOST.max (s.fget Fd.pcieCounts_WRITES_LOST) 1 ∧ .hostWrite a b ∉ t.out.take
    (t.out.length - s.out.length) ∧ Detected 4 ⟨0x1C, 4, 4, 3⟩ s t))

/-- A bad PEC is counted; MCTP and PLDM commands are answered while they are served; the window reads registers and writes only THERM_CTL.
R643, R811, R812, R813, R814, R815, Table 22.7. The numbers of records and states, and the completion codes of a request the manual gives no
answer for, are the model's (assumption log 31). -/
def Obligations.TheSidebandEndpoint : Prop :=
  (∀ (b : Bytes) (s : State), s.life.aonUp = true → Runs (.smbusTransaction b false) s (fun t => t.fget Fd.sbStatus_PEC_ERRORS =
    satAdd Fd.sbStatus_PEC_ERRORS.max (s.fget Fd.sbStatus_PEC_ERRORS) 1 ∧ RegsOnly (fun r _ => r = .sbStatus) s t) ∧ Runs
    (.smbusTransaction b true) s (Same s)) ∧
  (∀ (e : Byte) (s : State), s.mctpOn = true → e ≠ 0 → e ≠ 255 → Runs (.setEndpointId e) s (fun t => t.fget Fd.sbStatus_EID = e.toNat
    ∧ t.out = .smbus [0, e] :: s.out ∧ RegsAndOut (fun r _ => r = .sbStatus) s t)) ∧
  (∀ (e : Byte) (s : State), s.mctpOn = true → Runs .getEndpointId s (fun t => t =
    { s with out := .smbus [0, BitVec.ofNat 8 (s.fget Fd.sbStatus_EID)] :: s.out }) ∧ Runs .getMessageTypeSupport s (fun t => t =
    { s with out := .smbus [0, 2, 0, 1] :: s.out }) ∧ Runs .gettid s (fun t => Responded [0] 1 s t ∧ t =
    { s with out := t.out, freeCtr := s.freeCtr + 1 }) ∧ Runs .getpldmtypes s (fun t
    => t = { s with out := .smbus (0 :: leBytes 8 5) :: s.out }) ∧ Runs (.getpldmcommands 0) s (fun t => t =
    { s with out := .smbus (0 :: leBytes 32 (2 ^ 2 + 2 ^ 3 + 2 ^ 4 + 2 ^ 5)) :: s.out }) ∧ Runs (.getpldmcommands 2) s (fun t => t =
    { s with out := .smbus (0 :: leBytes 32 (2 ^ 0x11 + 2 ^ 0x21 + 2 ^ 0x50 + 2 ^ 0x51)) :: s.out }) ∧ Runs .getpdrrepositoryinfo s
    (fun t => t = { s with out := .smbus (0 :: leBytes 4 27) :: s.out }) ∧ Runs (.unsupportedPldmCmd 4 e) s (fun t => t =
    { s with out := .smbus [5] :: s.out })) ∧
  (∀ (n : Nat) (s : State), s.mctpOn = true → 1 ≤ n → n ≤ 24 → Runs (.getsensorreading n) s (fun t => t =
    { s with out := .smbus (0 :: leBytes 4 (s.reading n)) :: s.out }) ∧ Runs (.getpdr n) s (fun t => t =
    { s with out := .smbus (0 :: leBytes 2 n ++ [0]) :: s.out })) ∧
  (∀ (n : Nat) (s : State), s.mctpOn = true → 32 ≤ n → n ≤ 34 → Runs (.getstatesensorreadings n) s (fun t => t =
    { s with out := .smbus [0, BitVec.ofNat 8 (s.reading n)] :: s.out }) ∧ Runs (.getpdr (n - 7)) s (fun t => t =
    { s with out := .smbus (0 :: leBytes 2 n ++ [1]) :: s.out })) ∧
  (∀ (e : Byte) (n : Nat) (s : State), s.mctpOn = false → Runs (.setEndpointId e) s (Same s) ∧ Runs .getEndpointId s (Same s) ∧ Runs
    (.getMctpVersionSupport e) s (Same s) ∧ Runs .getMessageTypeSupport s (Same s) ∧ Runs .gettid s (Same s) ∧ Runs (.getpldmversion
    e) s (Same s) ∧ Runs .getpldmtypes s (Same s) ∧ Runs (.getpldmcommands e) s (Same s) ∧ Runs .getpdrrepositoryinfo s (Same s) ∧
    Runs (.getpdr n) s (Same s) ∧ Runs (.getsensorreading n) s (Same s) ∧ Runs (.getstatesensorreadings n) s (Same s) ∧ Runs
    (.unsupportedPldmCmd e e) s (Same s)) ∧
  (∀ (now : Nat) (s : State), (s.proc 0).running = true → Runs (.pldmSensorRefresh now) s (fun t => (∀ q : Fin 5, t.reading (1 + q) =
    s.fget Fd.thermal_TJ_MAX_C q ∧ t.reading (6 + q) = s.fget Fd.railStatus_VOUT_MV q ∧ t.reading (11 + q) = s.fget
    Fd.railStatus_IOUT_DA q) ∧ t.reading 16 = (s.fget Fd.railStatus_VOUT_MV 0 * s.fget Fd.railStatus_IOUT_DA 0 + s.fget
    Fd.railStatus_VOUT_MV 1 * s.fget Fd.railStatus_IOUT_DA 1 + s.fget Fd.railStatus_VOUT_MV 2 * s.fget Fd.railStatus_IOUT_DA 2 + s.fget
    Fd.railStatus_VOUT_MV 3 * s.fget Fd.railStatus_IOUT_DA 3 + s.fget Fd.railStatus_VOUT_MV 4 * s.fget Fd.railStatus_IOUT_DA 4) / 10000 ∧
    (∀ i : Fin 8, t.reading (17 + i) = s.fget Fd.hbmStatus_STACK_TEMP (32 * i)) ∧ t.reading 32 = (if s.reg .faultSummary = 0 then 1
    else if s.fget Fd.faultSummary_RESPONSE_TAKEN = 0 ∧ s.fget Fd.faultSummary_OVERFLOW = 0 then 2 else 3) ∧ t.reading 33 = (if s.fon
    Fd.quartzStatus_TIME_LOCKED then 1 else 2) ∧ t.reading 34 = s.fget Fd.bootStatus_STAGE ∧ t = { s.advance now with host := t.host } ∧
    t.host = { s.host with readings := t.host.readings })) ∧
  (∀ (a : Word32) (s : State), s.life.aonUp = true → Runs (.winAddr a) s (fun t => t =
    { s with host := { s.host with winAddr := a.toNat } })) ∧
  (∀ (v : Nat) (u : State) (s : State), s.life.aonUp = true → s.host.winAddr % 8 = 0 → s.host.winAddr < Config.regBytes →
    (s.life.inReset = false ∨ aonReg s.host.winAddr = true) → ({ s with host := { s.host with winAddr := (s.host.winAddr + 8) % 2 ^ 32 } } :
    State).readReg s.host.winAddr 8 = (v, u) → Runs .winRead s (fun t => t = { u with out := .smbus (0 :: leBytes 8 v) :: u.out })) ∧
  (∀ (s : State), s.life.aonUp = true → (s.host.winAddr % 8 ≠ 0 ∨ Config.regBytes ≤ s.host.winAddr) → Runs .winRead s (fun t =>
    t.host = { s.host with winAddr := (s.host.winAddr + 8) % 2 ^ 32 } ∧ Responded [1] 8 s t ∧ t =
    { s with host := t.host, out := t.out, freeCtr := s.freeCtr + 1 })) ∧
  (∀ (v : Word) (a : RegAt) (s : State), s.life.aonUp = true → s.fon Fd.sbCtl_WINDOW_WRITE = true → regAt s.host.winAddr = some a →
    a.reg = .thermCtl → a.o = 0 → 60 ≤ v.toNat % 128 → v.toNat % 128 ≤ 110 → Runs (.winWrite v) s (fun t => t.fget Fd.thermCtl_WARN_C
    = v.toNat % 128 ∧ t.out = .smbus [0] :: s.out ∧ t =
    { s with regs := t.regs, out := t.out, procs := t.procs, thermLow := t.thermLow } ∧ SameRegs (fun r _ => r = .thermCtl ∨ r =
    .thermal) s t)) ∧
  (∀ (v : Word) (s : State), s.life.aonUp = true → (s.fon Fd.sbCtl_WINDOW_WRITE = false ∨ ((regAt s.host.winAddr).any fun a => a.reg
    == .thermCtl && a.o == 0) = false) → Runs (.winWrite v) s (fun t => t.fget Fd.sbStatus_REFUSED = satAdd Fd.sbStatus_REFUSED.max
    (s.fget Fd.sbStatus_REFUSED) 1 ∧ t.out = .smbus [2] :: s.out ∧ RegsAndOut (fun r _ => r = .sbStatus) s t)) ∧
  (∀ (e : Byte) (s : State), s.mctpOn = true → (e = 0 ∨ e = 255) → Runs (.setEndpointId e) s (fun t => t =
    { s with out := .smbus [2] :: s.out })) ∧
  (∀ (y : Byte) (s : State), s.mctpOn = true → Runs (.getMctpVersionSupport y) s (fun t => if y = 0 ∨ y = 1 ∨ y = 255 then Responded [0, 1] 4
    s t ∧ t = { s with out := t.out, freeCtr := s.freeCtr + 1 } else t = { s with out := .smbus [0x80] :: s.out }) ∧ Runs (.getpldmversion
    y) s (fun t => if y = 0 ∨ y = 2 then Responded [0] 4 s t ∧ t = { s with out := t.out, freeCtr := s.freeCtr + 1 } else t =
    { s with out := .smbus [0x83] :: s.out })) ∧
  (∀ (y cmd : Byte) (s : State), s.mctpOn = true → (y = 0 ∧ (cmd = 2 ∨ cmd = 3 ∨ cmd = 4 ∨ cmd = 5) ∨ y = 2 ∧ (cmd = 0x11 ∨ cmd = 0x21 ∨ cmd
    = 0x50 ∨ cmd = 0x51)) → Runs (.unsupportedPldmCmd y cmd) s (Same s)) ∧
  (∀ (y cmd : Byte) (s : State), s.mctpOn = true → ¬ (y = 0 ∧ (cmd = 2 ∨ cmd = 3 ∨ cmd = 4 ∨ cmd = 5) ∨ y = 2 ∧ (cmd = 0x11 ∨ cmd = 0x21 ∨
    cmd = 0x50 ∨ cmd = 0x51)) → Runs (.unsupportedPldmCmd y cmd) s (fun t => t = { s with out := .smbus [5] :: s.out })) ∧
  (∀ (y : Byte) (n : Nat) (s : State), s.mctpOn = true → y ≠ 0 → y ≠ 2 → (n = 0 ∨ 24 < n) → Runs (.getpldmcommands y) s (fun t => t =
    { s with out := .smbus [0x83] :: s.out }) ∧ Runs (.getsensorreading n) s (fun t => t = { s with out := .smbus [0x80] :: s.out })) ∧
  (∀ (n : Nat) (s : State), s.mctpOn = true → (n < 32 ∨ 34 < n) → Runs (.getstatesensorreadings n) s (fun t => t =
    { s with out := .smbus [0x80] :: s.out })) ∧
  (∀ (n : Nat) (s : State), s.mctpOn = true → 27 < n → Runs (.getpdr n) s (fun t => t = { s with out := .smbus [0x82] :: s.out }) ∧ Runs
    (.getpdr 0) s (fun t => t = { s with out := .smbus [0, 1, 0, 0] :: s.out })) ∧
  (∀ (now : Nat) (s : State), (s.proc 0).running = false → Runs (.pldmSensorRefresh now) s (fun t => t = s.advance now)) ∧
  (∀ (s : State), s.life.aonUp = true → s.host.winAddr % 8 = 0 → s.host.winAddr < Config.regBytes → s.life.inReset = true → aonReg
    s.host.winAddr = false → Runs .winRead s (fun t => t.host = { s.host with winAddr := (s.host.winAddr + 8) % 2 ^ 32 } ∧ Responded [3] 8 s
    t ∧ t = { s with host := t.host, out := t.out, freeCtr := s.freeCtr + 1 })) ∧
  (∀ (v : Word) (a : RegAt) (s : State), s.life.aonUp = true → s.fon Fd.sbCtl_WINDOW_WRITE = true → regAt s.host.winAddr = some a →
    a.reg = .thermCtl → a.o = 0 → (v.toNat % 128 < 60 ∨ 110 < v.toNat % 128) → Runs (.winWrite v) s (fun t => t =
    { s with out := .smbus [0] :: s.out })) ∧
  (∀ (a : Word32) (v : Word) (b : Bytes) (s : State), s.life.aonUp = false → Runs (.winAddr a) s (Same s) ∧ Runs .winRead s (Same s) ∧ Runs
    (.winWrite v) s (Same s) ∧ Runs (.smbusTransaction b false) s (Same s))

end
end

