-- ==== Sys2Proof/Laws/Maps.lean ====
section
/-!
SUPPORT. Sparse maps and the memory: a read after a write, and that every operation on the memory keeps its canonical form.
-/
namespace Sys2Proof.Machine

variable {α : Type}

theorem nfind_nset (m : NMap α) (a : Nat) (v : α) (b : Nat) : nfind (nset m a v) b = if a = b then some v else nfind m b := by
  induction m with
  | nil => simp [nset, nfind]
  | cons h t ih =>
    obtain ⟨k, w⟩ := h
    unfold nset
    split
    · next h => subst h; by_cases hb : a = b <;> simp [nfind, hb]
    · split
      · simp [nfind]
      · next h1 h2 =>
        simp only [nfind, ih]
        by_cases hk : k = b
        · subst hk; simp [h1]
        · simp [hk]

@[simp] theorem nfind_nset_self (m : NMap α) (a : Nat) (v : α) : nfind (nset m a v) a = some v := by simp [nfind_nset]

theorem nfind_nset_ne (m : NMap α) {a b : Nat} (v : α) (h : a ≠ b) : nfind (nset m a v) b = nfind m b := by simp [nfind_nset, h]

theorem nget_nset (d : α) (m : NMap α) (a : Nat) (v : α) (b : Nat) : nget d (nset m a v) b = if a = b then v else nget d m b := by
  unfold nget; rw [nfind_nset]; split <;> rfl

@[simp] theorem nget_nset_self (d : α) (m : NMap α) (a : Nat) (v : α) : nget d (nset m a v) a = v := by simp [nget_nset]

theorem nget_nset_ne (d : α) (m : NMap α) {a b : Nat} (v : α) (h : a ≠ b) : nget d (nset m a v) b = nget d m b := by
  simp [nget_nset, h]

theorem nfind_ndel (m : NMap α) (a b : Nat) : nfind (ndel m a) b = if a = b then none else nfind m b := by
  induction m with
  | nil => simp [ndel, nfind]
  | cons h t ih =>
    obtain ⟨k, w⟩ := h
    by_cases hk : k = a
    · subst hk
      simp only [ndel, if_true, ih, nfind]
      split <;> simp_all
    · by_cases hb : a = b
      · subst hb; simp [ndel, nfind, ih, hk]
      · simp [ndel, nfind, ih, hk, hb]

@[simp] theorem nfind_ndel_self (m : NMap α) (a : Nat) : nfind (ndel m a) a = none := by simp [nfind_ndel]

theorem nsortedFrom_mono {m : NMap α} {a b : Nat} (h : a ≤ b) (hs : nsortedFrom b m = true) : nsortedFrom a m = true := by
  cases m with
  | nil => rfl
  | cons c t => obtain ⟨k, w⟩ := c; simp only [nsortedFrom, Bool.and_eq_true, decide_eq_true_eq] at *; exact ⟨by omega, hs.2⟩

theorem nsortedFrom_nset {m : NMap α} {b a : Nat} (v : α) (h : b ≤ a) (hs : nsortedFrom b m = true) :
    nsortedFrom b (nset m a v) = true := by
  induction m generalizing b with
  | nil => simp [nset, nsortedFrom, h]
  | cons c t ih =>
    obtain ⟨k, w⟩ := c
    simp only [nsortedFrom, Bool.and_eq_true, decide_eq_true_eq] at hs
    unfold nset
    split
    · next e => subst e; simp [nsortedFrom, h, hs.2]
    · split
      · next e => simp only [nsortedFrom, Bool.and_eq_true, decide_eq_true_eq]; exact ⟨h, by omega, hs.2⟩
      · simp only [nsortedFrom, Bool.and_eq_true, decide_eq_true_eq]; exact ⟨hs.1, ih (by omega) hs.2⟩

theorem nsortedFrom_filter {m : NMap α} {b : Nat} (p : Nat × α → Bool) (hs : nsortedFrom b m = true) :
    nsortedFrom b (m.filter p) = true := by
  induction m generalizing b with
  | nil => rfl
  | cons c t ih =>
    obtain ⟨k, w⟩ := c
    simp only [nsortedFrom, Bool.and_eq_true, decide_eq_true_eq] at hs
    rw [List.filter_cons]
    split
    · simp only [nsortedFrom, Bool.and_eq_true, decide_eq_true_eq]; exact ⟨hs.1, ih hs.2⟩
    · exact ih (nsortedFrom_mono (by omega) hs.2)

theorem ndel_eq_filter (m : NMap α) (a : Nat) : ndel m a = m.filter fun c => !(c.1 == a) := by
  induction m with
  | nil => rfl
  | cons c t ih =>
    obtain ⟨k, w⟩ := c
    by_cases h : k = a <;> simp [ndel, ih, h]

theorem mem_nset {m : NMap α} {a : Nat} {v : α} {c : Nat × α} (h : c ∈ nset m a v) : c = (a, v) ∨ c ∈ m := by
  induction m with
  | nil => simpa [nset] using h
  | cons d t ih =>
    obtain ⟨k, w⟩ := d
    unfold nset at h
    split at h
    · rcases List.mem_cons.1 h with h | h
      · exact .inl h
      · exact .inr (List.mem_cons_of_mem _ h)
    · split at h
      · rcases List.mem_cons.1 h with h | h
        · exact .inl h
        · exact .inr h
      · rcases List.mem_cons.1 h with h | h
        · exact .inr (h ▸ List.mem_cons_self)
        · rcases ih h with h | h
          · exact .inl h
          · exact .inr (List.mem_cons_of_mem _ h)

/-! The memory. -/

theorem mread_mwrite (m : Memory) (a : Nat) (b : Byte) (x : Nat) : mread (mwrite m a b) x = if a = x then b else mread m x := by
  unfold mwrite mread mdrop
  split
  · next h => subst h; unfold nget; rw [nfind_ndel]; split <;> rfl
  · exact nget_nset ..

/-- A write of a byte string: inside, its bytes; outside, what was there. -/
theorem mread_mwrites (m : Memory) (a : Nat) (d : Bytes) (x : Nat) :
    mread (mwrites m a d) x = if a ≤ x ∧ x < a + d.length then d.getD (x - a) 0 else mread m x := by
  induction d generalizing m a with
  | nil => rw [mwrites, if_neg (by rw [List.length_nil]; omega)]
  | cons b t ih =>
    rw [mwrites, ih, mread_mwrite]
    by_cases h : a = x
    · subst h; rw [if_neg (by omega), if_pos rfl, if_pos (by simp)]; simp
    · by_cases h2 : a + 1 ≤ x ∧ x < a + 1 + t.length
      · have : x - a = (x - (a + 1)) + 1 := by omega
        rw [if_pos h2, if_pos (by simp; omega), this, List.getD_cons_succ]
      · rw [if_neg h2, if_neg h, if_neg (by simp; omega)]

theorem mread_mwrites_out {m : Memory} {a : Nat} {d : Bytes} {x : Nat} (h : x < a ∨ a + d.length ≤ x) :
    mread (mwrites m a d) x = mread m x := by rw [mread_mwrites, if_neg (by omega)]

/-- What was written is read back. -/
theorem mreads_mwrites (m : Memory) (a : Nat) (d : Bytes) : mreads (mwrites m a d) a d.length = d := by
  induction d generalizing m a with
  | nil => rfl
  | cons b t ih =>
    simp only [List.length_cons, mreads, mwrites]
    rw [ih, mread_mwrites_out (by omega), mread_mwrite, if_pos rfl]

theorem nfind_filter (m : NMap α) (p : Nat → Bool) (x : Nat) :
    nfind (m.filter fun c => p c.1) x = if p x then nfind m x else none := by
  induction m with
  | nil => simp [nfind]
  | cons c t ih =>
    obtain ⟨k, w⟩ := c
    rw [List.filter_cons]
    by_cases hk : k = x
    · subst hk; by_cases hp : p k <;> simp [nfind, ih, hp]
    · by_cases hp : p k <;> simp [nfind, ih, hp, hk]

theorem mread_mclear (m : Memory) (lo hi x : Nat) : mread (mclear m lo hi) x = if lo ≤ x ∧ x < hi then 0 else mread m x := by
  unfold mread mclear nget
  rw [nfind_filter m (fun y => !(decide (lo ≤ y) && decide (y < hi)))]
  by_cases h : lo ≤ x ∧ x < hi
  · simp [h]
  · have : (!(decide (lo ≤ x) && decide (x < hi))) = true := by simp; omega
    rw [if_pos this, if_neg h]

@[simp] theorem wf_nil : Memory.wf [] = true := rfl

theorem wf_mwrite {m : Memory} (a : Nat) (b : Byte) (h : m.wf = true) : (mwrite m a b).wf = true := by
  simp only [Memory.wf, nsorted, Bool.and_eq_true, List.all_eq_true, decide_eq_true_eq] at *
  unfold mwrite
  split
  · rw [mdrop, ndel_eq_filter]
    exact ⟨nsortedFrom_filter _ h.1, fun c hc => h.2 c (List.mem_filter.1 hc).1⟩
  · next hb =>
    refine ⟨nsortedFrom_nset _ (Nat.zero_le _) h.1, fun c hc => ?_⟩
    rcases mem_nset hc with e | e
    · subst e; exact hb
    · exact h.2 c e

@[simp] theorem wf_mwrites {m : Memory} (a : Nat) (d : Bytes) (h : m.wf = true) : (mwrites m a d).wf = true := by
  induction d generalizing m a with
  | nil => exact h
  | cons b t ih => exact ih _ (wf_mwrite _ _ h)

@[simp] theorem wf_mclear {m : Memory} (lo hi : Nat) (h : m.wf = true) : (mclear m lo hi).wf = true := by
  simp only [Memory.wf, nsorted, Bool.and_eq_true, List.all_eq_true, decide_eq_true_eq] at *
  exact ⟨nsortedFrom_filter _ h.1, fun c hc => h.2 c (List.mem_filter.1 hc).1⟩

end Sys2Proof.Machine
end

