-- ==== Sys2Proof/Laws/Regs.lean ====
section
/-!
SUPPORT. Registers: reading a register or a field after a write.
-/
namespace Sys2Proof.Machine

/-! Bit fields. -/

theorem bits_lt (v hi lo : Nat) : bits v hi lo < 2 ^ (hi + 1 - lo) := Nat.mod_lt _ (Nat.two_pow_pos _)

/-- A value cut at a field: what lies above, the field, what lies below. -/
theorem bits_split (v : Nat) {hi lo : Nat} (h : lo ≤ hi) :
    v = v / 2 ^ (hi + 1) * 2 ^ (hi + 1) + bits v hi lo * 2 ^ lo + v % 2 ^ lo := by
  have e : 2 ^ (hi + 1) = 2 ^ lo * 2 ^ (hi + 1 - lo) := by rw [← Nat.pow_add]; congr 1; omega
  have h1 := Nat.div_add_mod v (2 ^ lo)
  have h2 := Nat.div_add_mod (v / 2 ^ lo) (2 ^ (hi + 1 - lo))
  rw [Nat.div_div_eq_div_mul, ← e] at h2
  unfold bits
  calc v = 2 ^ lo * (v / 2 ^ lo) + v % 2 ^ lo := h1.symm
    _ = 2 ^ lo * (2 ^ (hi + 1 - lo) * (v / 2 ^ (hi + 1)) + v / 2 ^ lo % 2 ^ (hi + 1 - lo)) + v % 2 ^ lo := by rw [h2]
    _ = _ := by rw [e, Nat.mul_add, ← Nat.mul_assoc, Nat.mul_comm (v / _), Nat.mul_comm (2 ^ lo) (v / 2 ^ lo % _)]

theorem putBits_eq (v : Nat) {hi lo : Nat} (x : Nat) (h : lo ≤ hi) :
    putBits v hi lo x = v / 2 ^ (hi + 1) * 2 ^ (hi + 1) + x % 2 ^ (hi + 1 - lo) * 2 ^ lo + v % 2 ^ lo := by
  have := bits_split v h
  unfold putBits
  generalize bits v hi lo * 2 ^ lo = B at *
  generalize v / 2 ^ (hi + 1) * 2 ^ (hi + 1) = A at *
  generalize v % 2 ^ lo = C at *
  generalize x % 2 ^ (hi + 1 - lo) * 2 ^ lo = X at *
  omega

theorem testBit_bits (v hi lo i : Nat) : (bits v hi lo).testBit i = (decide (i < hi + 1 - lo) && v.testBit (lo + i)) := by
  unfold bits
  rw [Nat.testBit_mod_two_pow, Nat.testBit_div_two_pow]
  rw [Nat.add_comm i lo]

theorem testBit_three {a m b n c i : Nat} (hb : b < 2 ^ m) (hc : c < 2 ^ n) :
    (a * 2 ^ (n + m) + b * 2 ^ n + c).testBit i =
      if i < n then c.testBit i else if i < n + m then b.testBit (i - n) else a.testBit (i - (n + m)) := by
  have e : a * 2 ^ (n + m) + b * 2 ^ n + c = 2 ^ n * (2 ^ m * a + b) + c := by
    rw [Nat.pow_add, Nat.mul_add, Nat.mul_comm b, Nat.mul_left_comm a, Nat.mul_comm a]
  rw [e, Nat.testBit_two_pow_mul_add _ hc]
  split
  · rfl
  · rw [Nat.testBit_two_pow_mul_add _ hb]
    by_cases h : i < n + m
    · rw [if_pos (by omega), if_pos h]
    · rw [if_neg (by omega), if_neg h, Nat.sub_sub]

theorem testBit_putBits (v : Nat) {hi lo : Nat} (x i : Nat) (h : lo ≤ hi) :
    (putBits v hi lo x).testBit i = if lo ≤ i ∧ i ≤ hi then x.testBit (i - lo) else v.testBit i := by
  rw [putBits_eq v x h]
  have e : hi + 1 = lo + (hi + 1 - lo) := by omega
  have := testBit_three (a := v / 2 ^ (hi + 1)) (m := hi + 1 - lo) (b := x % 2 ^ (hi + 1 - lo)) (n := lo) (c := v % 2 ^ lo) (i := i)
    (Nat.mod_lt _ (Nat.two_pow_pos _)) (Nat.mod_lt _ (Nat.two_pow_pos _))
  rw [← e] at this
  rw [this]
  simp only [Nat.testBit_mod_two_pow, Nat.testBit_div_two_pow]
  by_cases h1 : i < lo
  · simp [h1, show ¬ lo ≤ i by omega]
  · by_cases h2 : i < hi + 1
    · simp only [h1, if_false, h2, if_true]
      rw [if_pos (by omega)]
      simp [show i - lo < hi + 1 - lo by omega]
    · simp only [h1, if_false, h2]
      rw [if_neg (by omega)]
      congr 1; omega

/-- A field read after it is written. -/
theorem bits_putBits (v : Nat) {hi lo : Nat} (x : Nat) (h : lo ≤ hi) : bits (putBits v hi lo x) hi lo = x % 2 ^ (hi + 1 - lo) := by
  apply Nat.eq_of_testBit_eq; intro i
  rw [testBit_bits, testBit_putBits _ _ _ h, Nat.testBit_mod_two_pow]
  by_cases hi' : i < hi + 1 - lo
  · rw [if_pos (by omega)]; simp
  · simp [hi']

/-- Another field is not changed. -/
theorem bits_putBits_ne (v : Nat) {hi lo hi' lo' : Nat} (x : Nat) (h : lo ≤ hi) (hd : hi < lo' ∨ hi' < lo) :
    bits (putBits v hi lo x) hi' lo' = bits v hi' lo' := by
  apply Nat.eq_of_testBit_eq; intro i
  rw [testBit_bits, testBit_bits, testBit_putBits _ _ _ h]
  by_cases hi2 : i < hi' + 1 - lo'
  · rw [if_neg (by omega)]
  · simp [hi2]

theorem bits_mod (v : Nat) {hi lo n : Nat} (h : hi < n) : bits (v % 2 ^ n) hi lo = bits v hi lo := by
  apply Nat.eq_of_testBit_eq; intro i
  rw [testBit_bits, testBit_bits, Nat.testBit_mod_two_pow]
  by_cases h2 : i < hi + 1 - lo
  · simp [show lo + i < n by omega]
  · simp [h2]

/-! Registers. -/

theorem ctorIdx_inj {r r' : RegName} (h : r.ctorIdx = r'.ctorIdx) : r = r' := by
  rw [← RegName.ofNat_ctorIdx r, h, RegName.ofNat_ctorIdx]

theorem regKey_eq {r r' : RegName} {u k u' k' : Nat} :
    regKey r u k = regKey r' u' k' ↔ r = r' ∧ u % 2 ^ 32 = u' % 2 ^ 32 ∧ k % 2 ^ 32 = k' % 2 ^ 32 := by
  unfold regKey
  constructor
  · intro h
    have := Nat.mod_lt u (Nat.two_pow_pos 32)
    have := Nat.mod_lt u' (Nat.two_pow_pos 32)
    have := Nat.mod_lt k (Nat.two_pow_pos 32)
    have := Nat.mod_lt k' (Nat.two_pow_pos 32)
    generalize u % 2 ^ 32 = a at *
    generalize u' % 2 ^ 32 = a' at *
    generalize k % 2 ^ 32 = b at *
    generalize k' % 2 ^ 32 = b' at *
    have : r.ctorIdx = r'.ctorIdx := by omega
    exact ⟨ctorIdx_inj this, by omega, by omega⟩
  · rintro ⟨rfl, h1, h2⟩; rw [h1, h2]

/-- A register read after a register is written. -/
theorem reg_setReg (s : State) (r : RegName) (v u k : Nat) (r' : RegName) (u' k' : Nat) :
    (s.setReg r v u k).reg r' u' k' =
      if r = r' ∧ u % 2 ^ 32 = u' % 2 ^ 32 ∧ k % 2 ^ 32 = k' % 2 ^ 32 then v % 2 ^ 64 else s.reg r' u' k' := by
  unfold State.reg State.setReg
  simp only
  rw [nfind_nset]
  by_cases h : regKey r u k = regKey r' u' k'
  · rw [if_pos h, if_pos (regKey_eq.1 h)]; simp
  · rw [if_neg h, if_neg (fun e => h (regKey_eq.2 e))]

@[simp] theorem reg_setReg_self (s : State) (r : RegName) (v u k : Nat) : (s.setReg r v u k).reg r u k = v % 2 ^ 64 := by
  simp [reg_setReg]

theorem reg_setReg_ne (s : State) {r r' : RegName} (v u k u' k' : Nat) (h : r ≠ r') :
    (s.setReg r v u k).reg r' u' k' = s.reg r' u' k' := by simp [reg_setReg, h]

/-- A field read after a register is written whole. -/
theorem fget_setReg_self (s : State) (f : FieldRef) (v u k : Nat) (h : f.hi < 64) :
    (s.setReg f.reg v u k).fget f u k = bits v f.hi f.lo := by
  unfold State.fget; rw [reg_setReg_self, bits_mod _ h]

/-- A field read after it is written. -/
theorem fget_fset_self (s : State) (f : FieldRef) (v u k : Nat) (h : f.hi < 64) (h' : f.lo ≤ f.hi) :
    (s.fset f v u k).fget f u k = v % 2 ^ (f.hi + 1 - f.lo) := by
  unfold State.fset; rw [fget_setReg_self _ _ _ _ _ h, bits_putBits _ _ h']

/-- Another field of the same register. -/
theorem fget_fset_field (s : State) {f g : FieldRef} (v u k : Nat) (hr : g.reg = f.reg) (h : g.hi < 64) (h' : f.lo ≤ f.hi)
    (hd : f.hi < g.lo ∨ g.hi < f.lo) : (s.fset f v u k).fget g u k = s.fget g u k := by
  unfold State.fset State.fget; rw [hr, reg_setReg_self, bits_mod _ h, bits_putBits_ne _ _ h' hd]

/-- A field of another register. -/
theorem fget_fset_reg (s : State) {f g : FieldRef} (v u k u' k' : Nat) (hr : f.reg ≠ g.reg) :
    (s.fset f v u k).fget g u' k' = s.fget g u' k' := by
  unfold State.fset State.fget; rw [reg_setReg_ne _ _ _ _ _ _ hr]

/-- A field of the same register of another unit. -/
theorem fget_fset_unit (s : State) {f g : FieldRef} (v u k u' k' : Nat) (h : u % 2 ^ 32 ≠ u' % 2 ^ 32 ∨ k % 2 ^ 32 ≠ k' % 2 ^ 32) :
    (s.fset f v u k).fget g u' k' = s.fget g u' k' := by
  unfold State.fset State.fget; rw [reg_setReg, if_neg]; rintro ⟨_, h1, h2⟩; rcases h with h | h <;> contradiction

/-- What a field reads after any field is written, in one equation. -/
theorem fget_fset (s : State) (f g : FieldRef) (v u k u' k' : Nat) (hf : f.lo ≤ f.hi) (hg : g.hi < 64)
    (hd : f = g ∨ f.reg ≠ g.reg ∨ f.hi < g.lo ∨ g.hi < f.lo) :
    (s.fset f v u k).fget g u' k' =
      if f = g ∧ u % 2 ^ 32 = u' % 2 ^ 32 ∧ k % 2 ^ 32 = k' % 2 ^ 32 then v % 2 ^ (f.hi + 1 - f.lo) else s.fget g u' k' := by
  by_cases hu : u % 2 ^ 32 = u' % 2 ^ 32 ∧ k % 2 ^ 32 = k' % 2 ^ 32
  · have e : ∀ (t : State) (r : RegName), t.reg r u' k' = t.reg r u k := by
      intro t r; unfold State.reg regKey; rw [hu.1, hu.2]
    have e2 : ∀ (t : State), t.fget g u' k' = t.fget g u k := fun t => by unfold State.fget; rw [e]
    rw [e2, e2]
    by_cases hfg : f = g
    · subst hfg; rw [if_pos ⟨rfl, hu⟩, fget_fset_self _ _ _ _ _ hg hf]
    · rw [if_neg (fun h => hfg h.1)]
      by_cases hr : f.reg = g.reg
      · rcases hd with hd | hd | hd
        · exact absurd hd hfg
        · exact absurd hr hd
        · exact fget_fset_field _ _ _ _ hr.symm hg hf hd
      · exact fget_fset_reg _ _ _ _ _ _ hr
  · rw [if_neg (fun h => hu h.2), fget_fset_unit]
    by_cases h1 : u % 2 ^ 32 = u' % 2 ^ 32
    · exact .inr fun h2 => hu ⟨h1, h2⟩
    · exact .inl h1

/-- A wrapping count. -/
theorem fget_wrapInc_self (s : State) (f : FieldRef) (u k : Nat) (h : f.hi < 64) (h' : f.lo ≤ f.hi) :
    (s.wrapInc f u k).fget f u k = (s.fget f u k + 1) % 2 ^ (f.hi + 1 - f.lo) := fget_fset_self _ _ _ _ _ h h'

/-- A saturating count. -/
theorem fget_incBy_self (s : State) (f : FieldRef) (n u k : Nat) (h : f.hi < 64) (h' : f.lo ≤ f.hi) :
    (s.incBy f n u k).fget f u k = satAdd f.max (s.fget f u k) n := by
  unfold State.incBy; rw [fget_fset_self _ _ _ _ _ h h', Nat.mod_eq_of_lt]
  have := Nat.two_pow_pos (f.hi + 1 - f.lo)
  unfold satAdd FieldRef.max; omega

theorem fget_lt (s : State) (f : FieldRef) (u k : Nat) : s.fget f u k < 2 ^ (f.hi + 1 - f.lo) := bits_lt _ _ _

end Sys2Proof.Machine
end

