-- ==== Sys2Proof/Laws/State.lean ====
section
/-!
SUPPORT. What each basic update of the state leaves as it was: one lemma per field per update, and what it sets.
-/
namespace Sys2Proof.Machine

/-! setReg. -/

@[simp] theorem State.setReg_mem (s : State) (r : RegName) (v u k : Nat) : (s.setReg r v u k).mem = s.mem := rfl
@[simp] theorem State.setReg_poison (s : State) (r : RegName) (v u k : Nat) : (s.setReg r v u k).poison = s.poison := rfl
@[simp] theorem State.setReg_cores (s : State) (r : RegName) (v u k : Nat) : (s.setReg r v u k).cores = s.cores := rfl
@[simp] theorem State.setReg_fences (s : State) (r : RegName) (v u k : Nat) : (s.setReg r v u k).fences = s.fences := rfl
@[simp] theorem State.setReg_fenceSince (s : State) (r : RegName) (v u k : Nat) : (s.setReg r v u k).fenceSince = s.fenceSince := rfl
@[simp] theorem State.setReg_hotFolds (s : State) (r : RegName) (v u k : Nat) : (s.setReg r v u k).hotFolds = s.hotFolds := rfl
@[simp] theorem State.setReg_stallTick (s : State) (r : RegName) (v u k : Nat) : (s.setReg r v u k).stallTick = s.stallTick := rfl
@[simp] theorem State.setReg_thermLow (s : State) (r : RegName) (v u k : Nat) : (s.setReg r v u k).thermLow = s.thermLow := rfl
@[simp] theorem State.setReg_time (s : State) (r : RegName) (v u k : Nat) : (s.setReg r v u k).time = s.time := rfl
@[simp] theorem State.setReg_life (s : State) (r : RegName) (v u k : Nat) : (s.setReg r v u k).life = s.life := rfl
@[simp] theorem State.setReg_fused (s : State) (r : RegName) (v u k : Nat) : (s.setReg r v u k).fused = s.fused := rfl
@[simp] theorem State.setReg_fuse (s : State) (r : RegName) (v u k : Nat) : (s.setReg r v u k).fuse = s.fuse := rfl
@[simp] theorem State.setReg_procs (s : State) (r : RegName) (v u k : Nat) : (s.setReg r v u k).procs = s.procs := rfl
@[simp] theorem State.setReg_power (s : State) (r : RegName) (v u k : Nat) : (s.setReg r v u k).power = s.power := rfl
@[simp] theorem State.setReg_reset' (s : State) (r : RegName) (v u k : Nat) : (s.setReg r v u k).reset' = s.reset' := rfl
@[simp] theorem State.setReg_opTarget (s : State) (r : RegName) (v u k : Nat) : (s.setReg r v u k).opTarget = s.opTarget := rfl
@[simp] theorem State.setReg_log (s : State) (r : RegName) (v u k : Nat) : (s.setReg r v u k).log = s.log := rfl
@[simp] theorem State.setReg_host (s : State) (r : RegName) (v u k : Nat) : (s.setReg r v u k).host = s.host := rfl
@[simp] theorem State.setReg_tap (s : State) (r : RegName) (v u k : Nat) : (s.setReg r v u k).tap = s.tap := rfl
@[simp] theorem State.setReg_hubPaths (s : State) (r : RegName) (v u k : Nat) : (s.setReg r v u k).hubPaths = s.hubPaths := rfl
@[simp] theorem State.setReg_hubHeld (s : State) (r : RegName) (v u k : Nat) : (s.setReg r v u k).hubHeld = s.hubHeld := rfl
@[simp] theorem State.setReg_ports (s : State) (r : RegName) (v u k : Nat) : (s.setReg r v u k).ports = s.ports := rfl
@[simp] theorem State.setReg_replies (s : State) (r : RegName) (v u k : Nat) : (s.setReg r v u k).replies = s.replies := rfl
@[simp] theorem State.setReg_hostOps (s : State) (r : RegName) (v u k : Nat) : (s.setReg r v u k).hostOps = s.hostOps := rfl
@[simp] theorem State.setReg_l2 (s : State) (r : RegName) (v u k : Nat) : (s.setReg r v u k).l2 = s.l2 := rfl
@[simp] theorem State.setReg_patrol (s : State) (r : RegName) (v u k : Nat) : (s.setReg r v u k).patrol = s.patrol := rfl
@[simp] theorem State.setReg_pins (s : State) (r : RegName) (v u k : Nat) : (s.setReg r v u k).pins = s.pins := rfl
@[simp] theorem State.setReg_powerWait (s : State) (r : RegName) (v u k : Nat) : (s.setReg r v u k).powerWait = s.powerWait := rfl
@[simp] theorem State.setReg_arr (s : State) (r : RegName) (v u k : Nat) : (s.setReg r v u k).arr = s.arr := rfl
@[simp] theorem State.setReg_ctrPoison (s : State) (r : RegName) (v u k : Nat) : (s.setReg r v u k).ctrPoison = s.ctrPoison := rfl
@[simp] theorem State.setReg_waiters (s : State) (r : RegName) (v u k : Nat) : (s.setReg r v u k).waiters = s.waiters := rfl
@[simp] theorem State.setReg_mapCopies (s : State) (r : RegName) (v u k : Nat) : (s.setReg r v u k).mapCopies = s.mapCopies := rfl
@[simp] theorem State.setReg_tests (s : State) (r : RegName) (v u k : Nat) : (s.setReg r v u k).tests = s.tests := rfl
@[simp] theorem State.setReg_streams (s : State) (r : RegName) (v u k : Nat) : (s.setReg r v u k).streams = s.streams := rfl
@[simp] theorem State.setReg_rings (s : State) (r : RegName) (v u k : Nat) : (s.setReg r v u k).rings = s.rings := rfl
@[simp] theorem State.setReg_htCopies (s : State) (r : RegName) (v u k : Nat) : (s.setReg r v u k).htCopies = s.htCopies := rfl
@[simp] theorem State.setReg_lastRing (s : State) (r : RegName) (v u k : Nat) : (s.setReg r v u k).lastRing = s.lastRing := rfl
@[simp] theorem State.setReg_dispatch (s : State) (r : RegName) (v u k : Nat) : (s.setReg r v u k).dispatch = s.dispatch := rfl
@[simp] theorem State.setReg_colls (s : State) (r : RegName) (v u k : Nat) : (s.setReg r v u k).colls = s.colls := rfl
@[simp] theorem State.setReg_heldColls (s : State) (r : RegName) (v u k : Nat) : (s.setReg r v u k).heldColls = s.heldColls := rfl
@[simp] theorem State.setReg_freeCtr (s : State) (r : RegName) (v u k : Nat) : (s.setReg r v u k).freeCtr = s.freeCtr := rfl
@[simp] theorem State.setReg_out (s : State) (r : RegName) (v u k : Nat) : (s.setReg r v u k).out = s.out := rfl
@[simp] theorem State.setReg_pending (s : State) (r : RegName) (v u k : Nat) : (s.setReg r v u k).pending = s.pending := rfl

/-! fset. -/

@[simp] theorem State.fset_mem (s : State) (f : FieldRef) (v u k : Nat) : (s.fset f v u k).mem = s.mem := rfl
@[simp] theorem State.fset_poison (s : State) (f : FieldRef) (v u k : Nat) : (s.fset f v u k).poison = s.poison := rfl
@[simp] theorem State.fset_cores (s : State) (f : FieldRef) (v u k : Nat) : (s.fset f v u k).cores = s.cores := rfl
@[simp] theorem State.fset_fences (s : State) (f : FieldRef) (v u k : Nat) : (s.fset f v u k).fences = s.fences := rfl
@[simp] theorem State.fset_fenceSince (s : State) (f : FieldRef) (v u k : Nat) : (s.fset f v u k).fenceSince = s.fenceSince := rfl
@[simp] theorem State.fset_hotFolds (s : State) (f : FieldRef) (v u k : Nat) : (s.fset f v u k).hotFolds = s.hotFolds := rfl
@[simp] theorem State.fset_stallTick (s : State) (f : FieldRef) (v u k : Nat) : (s.fset f v u k).stallTick = s.stallTick := rfl
@[simp] theorem State.fset_thermLow (s : State) (f : FieldRef) (v u k : Nat) : (s.fset f v u k).thermLow = s.thermLow := rfl
@[simp] theorem State.fset_time (s : State) (f : FieldRef) (v u k : Nat) : (s.fset f v u k).time = s.time := rfl
@[simp] theorem State.fset_life (s : State) (f : FieldRef) (v u k : Nat) : (s.fset f v u k).life = s.life := rfl
@[simp] theorem State.fset_fused (s : State) (f : FieldRef) (v u k : Nat) : (s.fset f v u k).fused = s.fused := rfl
@[simp] theorem State.fset_fuse (s : State) (f : FieldRef) (v u k : Nat) : (s.fset f v u k).fuse = s.fuse := rfl
@[simp] theorem State.fset_procs (s : State) (f : FieldRef) (v u k : Nat) : (s.fset f v u k).procs = s.procs := rfl
@[simp] theorem State.fset_power (s : State) (f : FieldRef) (v u k : Nat) : (s.fset f v u k).power = s.power := rfl
@[simp] theorem State.fset_reset' (s : State) (f : FieldRef) (v u k : Nat) : (s.fset f v u k).reset' = s.reset' := rfl
@[simp] theorem State.fset_opTarget (s : State) (f : FieldRef) (v u k : Nat) : (s.fset f v u k).opTarget = s.opTarget := rfl
@[simp] theorem State.fset_log (s : State) (f : FieldRef) (v u k : Nat) : (s.fset f v u k).log = s.log := rfl
@[simp] theorem State.fset_host (s : State) (f : FieldRef) (v u k : Nat) : (s.fset f v u k).host = s.host := rfl
@[simp] theorem State.fset_tap (s : State) (f : FieldRef) (v u k : Nat) : (s.fset f v u k).tap = s.tap := rfl
@[simp] theorem State.fset_hubPaths (s : State) (f : FieldRef) (v u k : Nat) : (s.fset f v u k).hubPaths = s.hubPaths := rfl
@[simp] theorem State.fset_hubHeld (s : State) (f : FieldRef) (v u k : Nat) : (s.fset f v u k).hubHeld = s.hubHeld := rfl
@[simp] theorem State.fset_ports (s : State) (f : FieldRef) (v u k : Nat) : (s.fset f v u k).ports = s.ports := rfl
@[simp] theorem State.fset_replies (s : State) (f : FieldRef) (v u k : Nat) : (s.fset f v u k).replies = s.replies := rfl
@[simp] theorem State.fset_hostOps (s : State) (f : FieldRef) (v u k : Nat) : (s.fset f v u k).hostOps = s.hostOps := rfl
@[simp] theorem State.fset_l2 (s : State) (f : FieldRef) (v u k : Nat) : (s.fset f v u k).l2 = s.l2 := rfl
@[simp] theorem State.fset_patrol (s : State) (f : FieldRef) (v u k : Nat) : (s.fset f v u k).patrol = s.patrol := rfl
@[simp] theorem State.fset_pins (s : State) (f : FieldRef) (v u k : Nat) : (s.fset f v u k).pins = s.pins := rfl
@[simp] theorem State.fset_powerWait (s : State) (f : FieldRef) (v u k : Nat) : (s.fset f v u k).powerWait = s.powerWait := rfl
@[simp] theorem State.fset_arr (s : State) (f : FieldRef) (v u k : Nat) : (s.fset f v u k).arr = s.arr := rfl
@[simp] theorem State.fset_ctrPoison (s : State) (f : FieldRef) (v u k : Nat) : (s.fset f v u k).ctrPoison = s.ctrPoison := rfl
@[simp] theorem State.fset_waiters (s : State) (f : FieldRef) (v u k : Nat) : (s.fset f v u k).waiters = s.waiters := rfl
@[simp] theorem State.fset_mapCopies (s : State) (f : FieldRef) (v u k : Nat) : (s.fset f v u k).mapCopies = s.mapCopies := rfl
@[simp] theorem State.fset_tests (s : State) (f : FieldRef) (v u k : Nat) : (s.fset f v u k).tests = s.tests := rfl
@[simp] theorem State.fset_streams (s : State) (f : FieldRef) (v u k : Nat) : (s.fset f v u k).streams = s.streams := rfl
@[simp] theorem State.fset_rings (s : State) (f : FieldRef) (v u k : Nat) : (s.fset f v u k).rings = s.rings := rfl
@[simp] theorem State.fset_htCopies (s : State) (f : FieldRef) (v u k : Nat) : (s.fset f v u k).htCopies = s.htCopies := rfl
@[simp] theorem State.fset_lastRing (s : State) (f : FieldRef) (v u k : Nat) : (s.fset f v u k).lastRing = s.lastRing := rfl
@[simp] theorem State.fset_dispatch (s : State) (f : FieldRef) (v u k : Nat) : (s.fset f v u k).dispatch = s.dispatch := rfl
@[simp] theorem State.fset_colls (s : State) (f : FieldRef) (v u k : Nat) : (s.fset f v u k).colls = s.colls := rfl
@[simp] theorem State.fset_heldColls (s : State) (f : FieldRef) (v u k : Nat) : (s.fset f v u k).heldColls = s.heldColls := rfl
@[simp] theorem State.fset_freeCtr (s : State) (f : FieldRef) (v u k : Nat) : (s.fset f v u k).freeCtr = s.freeCtr := rfl
@[simp] theorem State.fset_out (s : State) (f : FieldRef) (v u k : Nat) : (s.fset f v u k).out = s.out := rfl
@[simp] theorem State.fset_pending (s : State) (f : FieldRef) (v u k : Nat) : (s.fset f v u k).pending = s.pending := rfl

/-! incBy. -/

@[simp] theorem State.incBy_mem (s : State) (f : FieldRef) (n u k : Nat) : (s.incBy f n u k).mem = s.mem := rfl
@[simp] theorem State.incBy_poison (s : State) (f : FieldRef) (n u k : Nat) : (s.incBy f n u k).poison = s.poison := rfl
@[simp] theorem State.incBy_cores (s : State) (f : FieldRef) (n u k : Nat) : (s.incBy f n u k).cores = s.cores := rfl
@[simp] theorem State.incBy_fences (s : State) (f : FieldRef) (n u k : Nat) : (s.incBy f n u k).fences = s.fences := rfl
@[simp] theorem State.incBy_fenceSince (s : State) (f : FieldRef) (n u k : Nat) : (s.incBy f n u k).fenceSince = s.fenceSince := rfl
@[simp] theorem State.incBy_hotFolds (s : State) (f : FieldRef) (n u k : Nat) : (s.incBy f n u k).hotFolds = s.hotFolds := rfl
@[simp] theorem State.incBy_stallTick (s : State) (f : FieldRef) (n u k : Nat) : (s.incBy f n u k).stallTick = s.stallTick := rfl
@[simp] theorem State.incBy_thermLow (s : State) (f : FieldRef) (n u k : Nat) : (s.incBy f n u k).thermLow = s.thermLow := rfl
@[simp] theorem State.incBy_time (s : State) (f : FieldRef) (n u k : Nat) : (s.incBy f n u k).time = s.time := rfl
@[simp] theorem State.incBy_life (s : State) (f : FieldRef) (n u k : Nat) : (s.incBy f n u k).life = s.life := rfl
@[simp] theorem State.incBy_fused (s : State) (f : FieldRef) (n u k : Nat) : (s.incBy f n u k).fused = s.fused := rfl
@[simp] theorem State.incBy_fuse (s : State) (f : FieldRef) (n u k : Nat) : (s.incBy f n u k).fuse = s.fuse := rfl
@[simp] theorem State.incBy_procs (s : State) (f : FieldRef) (n u k : Nat) : (s.incBy f n u k).procs = s.procs := rfl
@[simp] theorem State.incBy_power (s : State) (f : FieldRef) (n u k : Nat) : (s.incBy f n u k).power = s.power := rfl
@[simp] theorem State.incBy_reset' (s : State) (f : FieldRef) (n u k : Nat) : (s.incBy f n u k).reset' = s.reset' := rfl
@[simp] theorem State.incBy_opTarget (s : State) (f : FieldRef) (n u k : Nat) : (s.incBy f n u k).opTarget = s.opTarget := rfl
@[simp] theorem State.incBy_log (s : State) (f : FieldRef) (n u k : Nat) : (s.incBy f n u k).log = s.log := rfl
@[simp] theorem State.incBy_host (s : State) (f : FieldRef) (n u k : Nat) : (s.incBy f n u k).host = s.host := rfl
@[simp] theorem State.incBy_tap (s : State) (f : FieldRef) (n u k : Nat) : (s.incBy f n u k).tap = s.tap := rfl
@[simp] theorem State.incBy_hubPaths (s : State) (f : FieldRef) (n u k : Nat) : (s.incBy f n u k).hubPaths = s.hubPaths := rfl
@[simp] theorem State.incBy_hubHeld (s : State) (f : FieldRef) (n u k : Nat) : (s.incBy f n u k).hubHeld = s.hubHeld := rfl
@[simp] theorem State.incBy_ports (s : State) (f : FieldRef) (n u k : Nat) : (s.incBy f n u k).ports = s.ports := rfl
@[simp] theorem State.incBy_replies (s : State) (f : FieldRef) (n u k : Nat) : (s.incBy f n u k).replies = s.replies := rfl
@[simp] theorem State.incBy_hostOps (s : State) (f : FieldRef) (n u k : Nat) : (s.incBy f n u k).hostOps = s.hostOps := rfl
@[simp] theorem State.incBy_l2 (s : State) (f : FieldRef) (n u k : Nat) : (s.incBy f n u k).l2 = s.l2 := rfl
@[simp] theorem State.incBy_patrol (s : State) (f : FieldRef) (n u k : Nat) : (s.incBy f n u k).patrol = s.patrol := rfl
@[simp] theorem State.incBy_pins (s : State) (f : FieldRef) (n u k : Nat) : (s.incBy f n u k).pins = s.pins := rfl
@[simp] theorem State.incBy_powerWait (s : State) (f : FieldRef) (n u k : Nat) : (s.incBy f n u k).powerWait = s.powerWait := rfl
@[simp] theorem State.incBy_arr (s : State) (f : FieldRef) (n u k : Nat) : (s.incBy f n u k).arr = s.arr := rfl
@[simp] theorem State.incBy_ctrPoison (s : State) (f : FieldRef) (n u k : Nat) : (s.incBy f n u k).ctrPoison = s.ctrPoison := rfl
@[simp] theorem State.incBy_waiters (s : State) (f : FieldRef) (n u k : Nat) : (s.incBy f n u k).waiters = s.waiters := rfl
@[simp] theorem State.incBy_mapCopies (s : State) (f : FieldRef) (n u k : Nat) : (s.incBy f n u k).mapCopies = s.mapCopies := rfl
@[simp] theorem State.incBy_tests (s : State) (f : FieldRef) (n u k : Nat) : (s.incBy f n u k).tests = s.tests := rfl
@[simp] theorem State.incBy_streams (s : State) (f : FieldRef) (n u k : Nat) : (s.incBy f n u k).streams = s.streams := rfl
@[simp] theorem State.incBy_rings (s : State) (f : FieldRef) (n u k : Nat) : (s.incBy f n u k).rings = s.rings := rfl
@[simp] theorem State.incBy_htCopies (s : State) (f : FieldRef) (n u k : Nat) : (s.incBy f n u k).htCopies = s.htCopies := rfl
@[simp] theorem State.incBy_lastRing (s : State) (f : FieldRef) (n u k : Nat) : (s.incBy f n u k).lastRing = s.lastRing := rfl
@[simp] theorem State.incBy_dispatch (s : State) (f : FieldRef) (n u k : Nat) : (s.incBy f n u k).dispatch = s.dispatch := rfl
@[simp] theorem State.incBy_colls (s : State) (f : FieldRef) (n u k : Nat) : (s.incBy f n u k).colls = s.colls := rfl
@[simp] theorem State.incBy_heldColls (s : State) (f : FieldRef) (n u k : Nat) : (s.incBy f n u k).heldColls = s.heldColls := rfl
@[simp] theorem State.incBy_freeCtr (s : State) (f : FieldRef) (n u k : Nat) : (s.incBy f n u k).freeCtr = s.freeCtr := rfl
@[simp] theorem State.incBy_out (s : State) (f : FieldRef) (n u k : Nat) : (s.incBy f n u k).out = s.out := rfl
@[simp] theorem State.incBy_pending (s : State) (f : FieldRef) (n u k : Nat) : (s.incBy f n u k).pending = s.pending := rfl

/-! inc. -/

@[simp] theorem State.inc_mem (s : State) (f : FieldRef) (u k : Nat) : (s.inc f u k).mem = s.mem := rfl
@[simp] theorem State.inc_poison (s : State) (f : FieldRef) (u k : Nat) : (s.inc f u k).poison = s.poison := rfl
@[simp] theorem State.inc_cores (s : State) (f : FieldRef) (u k : Nat) : (s.inc f u k).cores = s.cores := rfl
@[simp] theorem State.inc_fences (s : State) (f : FieldRef) (u k : Nat) : (s.inc f u k).fences = s.fences := rfl
@[simp] theorem State.inc_fenceSince (s : State) (f : FieldRef) (u k : Nat) : (s.inc f u k).fenceSince = s.fenceSince := rfl
@[simp] theorem State.inc_hotFolds (s : State) (f : FieldRef) (u k : Nat) : (s.inc f u k).hotFolds = s.hotFolds := rfl
@[simp] theorem State.inc_stallTick (s : State) (f : FieldRef) (u k : Nat) : (s.inc f u k).stallTick = s.stallTick := rfl
@[simp] theorem State.inc_thermLow (s : State) (f : FieldRef) (u k : Nat) : (s.inc f u k).thermLow = s.thermLow := rfl
@[simp] theorem State.inc_time (s : State) (f : FieldRef) (u k : Nat) : (s.inc f u k).time = s.time := rfl
@[simp] theorem State.inc_life (s : State) (f : FieldRef) (u k : Nat) : (s.inc f u k).life = s.life := rfl
@[simp] theorem State.inc_fused (s : State) (f : FieldRef) (u k : Nat) : (s.inc f u k).fused = s.fused := rfl
@[simp] theorem State.inc_fuse (s : State) (f : FieldRef) (u k : Nat) : (s.inc f u k).fuse = s.fuse := rfl
@[simp] theorem State.inc_procs (s : State) (f : FieldRef) (u k : Nat) : (s.inc f u k).procs = s.procs := rfl
@[simp] theorem State.inc_power (s : State) (f : FieldRef) (u k : Nat) : (s.inc f u k).power = s.power := rfl
@[simp] theorem State.inc_reset' (s : State) (f : FieldRef) (u k : Nat) : (s.inc f u k).reset' = s.reset' := rfl
@[simp] theorem State.inc_opTarget (s : State) (f : FieldRef) (u k : Nat) : (s.inc f u k).opTarget = s.opTarget := rfl
@[simp] theorem State.inc_log (s : State) (f : FieldRef) (u k : Nat) : (s.inc f u k).log = s.log := rfl
@[simp] theorem State.inc_host (s : State) (f : FieldRef) (u k : Nat) : (s.inc f u k).host = s.host := rfl
@[simp] theorem State.inc_tap (s : State) (f : FieldRef) (u k : Nat) : (s.inc f u k).tap = s.tap := rfl
@[simp] theorem State.inc_hubPaths (s : State) (f : FieldRef) (u k : Nat) : (s.inc f u k).hubPaths = s.hubPaths := rfl
@[simp] theorem State.inc_hubHeld (s : State) (f : FieldRef) (u k : Nat) : (s.inc f u k).hubHeld = s.hubHeld := rfl
@[simp] theorem State.inc_ports (s : State) (f : FieldRef) (u k : Nat) : (s.inc f u k).ports = s.ports := rfl
@[simp] theorem State.inc_replies (s : State) (f : FieldRef) (u k : Nat) : (s.inc f u k).replies = s.replies := rfl
@[simp] theorem State.inc_hostOps (s : State) (f : FieldRef) (u k : Nat) : (s.inc f u k).hostOps = s.hostOps := rfl
@[simp] theorem State.inc_l2 (s : State) (f : FieldRef) (u k : Nat) : (s.inc f u k).l2 = s.l2 := rfl
@[simp] theorem State.inc_patrol (s : State) (f : FieldRef) (u k : Nat) : (s.inc f u k).patrol = s.patrol := rfl
@[simp] theorem State.inc_pins (s : State) (f : FieldRef) (u k : Nat) : (s.inc f u k).pins = s.pins := rfl
@[simp] theorem State.inc_powerWait (s : State) (f : FieldRef) (u k : Nat) : (s.inc f u k).powerWait = s.powerWait := rfl
@[simp] theorem State.inc_arr (s : State) (f : FieldRef) (u k : Nat) : (s.inc f u k).arr = s.arr := rfl
@[simp] theorem State.inc_ctrPoison (s : State) (f : FieldRef) (u k : Nat) : (s.inc f u k).ctrPoison = s.ctrPoison := rfl
@[simp] theorem State.inc_waiters (s : State) (f : FieldRef) (u k : Nat) : (s.inc f u k).waiters = s.waiters := rfl
@[simp] theorem State.inc_mapCopies (s : State) (f : FieldRef) (u k : Nat) : (s.inc f u k).mapCopies = s.mapCopies := rfl
@[simp] theorem State.inc_tests (s : State) (f : FieldRef) (u k : Nat) : (s.inc f u k).tests = s.tests := rfl
@[simp] theorem State.inc_streams (s : State) (f : FieldRef) (u k : Nat) : (s.inc f u k).streams = s.streams := rfl
@[simp] theorem State.inc_rings (s : State) (f : FieldRef) (u k : Nat) : (s.inc f u k).rings = s.rings := rfl
@[simp] theorem State.inc_htCopies (s : State) (f : FieldRef) (u k : Nat) : (s.inc f u k).htCopies = s.htCopies := rfl
@[simp] theorem State.inc_lastRing (s : State) (f : FieldRef) (u k : Nat) : (s.inc f u k).lastRing = s.lastRing := rfl
@[simp] theorem State.inc_dispatch (s : State) (f : FieldRef) (u k : Nat) : (s.inc f u k).dispatch = s.dispatch := rfl
@[simp] theorem State.inc_colls (s : State) (f : FieldRef) (u k : Nat) : (s.inc f u k).colls = s.colls := rfl
@[simp] theorem State.inc_heldColls (s : State) (f : FieldRef) (u k : Nat) : (s.inc f u k).heldColls = s.heldColls := rfl
@[simp] theorem State.inc_freeCtr (s : State) (f : FieldRef) (u k : Nat) : (s.inc f u k).freeCtr = s.freeCtr := rfl
@[simp] theorem State.inc_out (s : State) (f : FieldRef) (u k : Nat) : (s.inc f u k).out = s.out := rfl
@[simp] theorem State.inc_pending (s : State) (f : FieldRef) (u k : Nat) : (s.inc f u k).pending = s.pending := rfl

/-! wrapInc. -/

@[simp] theorem State.wrapInc_mem (s : State) (f : FieldRef) (u k : Nat) : (s.wrapInc f u k).mem = s.mem := rfl
@[simp] theorem State.wrapInc_poison (s : State) (f : FieldRef) (u k : Nat) : (s.wrapInc f u k).poison = s.poison := rfl
@[simp] theorem State.wrapInc_cores (s : State) (f : FieldRef) (u k : Nat) : (s.wrapInc f u k).cores = s.cores := rfl
@[simp] theorem State.wrapInc_fences (s : State) (f : FieldRef) (u k : Nat) : (s.wrapInc f u k).fences = s.fences := rfl
@[simp] theorem State.wrapInc_fenceSince (s : State) (f : FieldRef) (u k : Nat) : (s.wrapInc f u k).fenceSince = s.fenceSince := rfl
@[simp] theorem State.wrapInc_hotFolds (s : State) (f : FieldRef) (u k : Nat) : (s.wrapInc f u k).hotFolds = s.hotFolds := rfl
@[simp] theorem State.wrapInc_stallTick (s : State) (f : FieldRef) (u k : Nat) : (s.wrapInc f u k).stallTick = s.stallTick := rfl
@[simp] theorem State.wrapInc_thermLow (s : State) (f : FieldRef) (u k : Nat) : (s.wrapInc f u k).thermLow = s.thermLow := rfl
@[simp] theorem State.wrapInc_time (s : State) (f : FieldRef) (u k : Nat) : (s.wrapInc f u k).time = s.time := rfl
@[simp] theorem State.wrapInc_life (s : State) (f : FieldRef) (u k : Nat) : (s.wrapInc f u k).life = s.life := rfl
@[simp] theorem State.wrapInc_fused (s : State) (f : FieldRef) (u k : Nat) : (s.wrapInc f u k).fused = s.fused := rfl
@[simp] theorem State.wrapInc_fuse (s : State) (f : FieldRef) (u k : Nat) : (s.wrapInc f u k).fuse = s.fuse := rfl
@[simp] theorem State.wrapInc_procs (s : State) (f : FieldRef) (u k : Nat) : (s.wrapInc f u k).procs = s.procs := rfl
@[simp] theorem State.wrapInc_power (s : State) (f : FieldRef) (u k : Nat) : (s.wrapInc f u k).power = s.power := rfl
@[simp] theorem State.wrapInc_reset' (s : State) (f : FieldRef) (u k : Nat) : (s.wrapInc f u k).reset' = s.reset' := rfl
@[simp] theorem State.wrapInc_opTarget (s : State) (f : FieldRef) (u k : Nat) : (s.wrapInc f u k).opTarget = s.opTarget := rfl
@[simp] theorem State.wrapInc_log (s : State) (f : FieldRef) (u k : Nat) : (s.wrapInc f u k).log = s.log := rfl
@[simp] theorem State.wrapInc_host (s : State) (f : FieldRef) (u k : Nat) : (s.wrapInc f u k).host = s.host := rfl
@[simp] theorem State.wrapInc_tap (s : State) (f : FieldRef) (u k : Nat) : (s.wrapInc f u k).tap = s.tap := rfl
@[simp] theorem State.wrapInc_hubPaths (s : State) (f : FieldRef) (u k : Nat) : (s.wrapInc f u k).hubPaths = s.hubPaths := rfl
@[simp] theorem State.wrapInc_hubHeld (s : State) (f : FieldRef) (u k : Nat) : (s.wrapInc f u k).hubHeld = s.hubHeld := rfl
@[simp] theorem State.wrapInc_ports (s : State) (f : FieldRef) (u k : Nat) : (s.wrapInc f u k).ports = s.ports := rfl
@[simp] theorem State.wrapInc_replies (s : State) (f : FieldRef) (u k : Nat) : (s.wrapInc f u k).replies = s.replies := rfl
@[simp] theorem State.wrapInc_hostOps (s : State) (f : FieldRef) (u k : Nat) : (s.wrapInc f u k).hostOps = s.hostOps := rfl
@[simp] theorem State.wrapInc_l2 (s : State) (f : FieldRef) (u k : Nat) : (s.wrapInc f u k).l2 = s.l2 := rfl
@[simp] theorem State.wrapInc_patrol (s : State) (f : FieldRef) (u k : Nat) : (s.wrapInc f u k).patrol = s.patrol := rfl
@[simp] theorem State.wrapInc_pins (s : State) (f : FieldRef) (u k : Nat) : (s.wrapInc f u k).pins = s.pins := rfl
@[simp] theorem State.wrapInc_powerWait (s : State) (f : FieldRef) (u k : Nat) : (s.wrapInc f u k).powerWait = s.powerWait := rfl
@[simp] theorem State.wrapInc_arr (s : State) (f : FieldRef) (u k : Nat) : (s.wrapInc f u k).arr = s.arr := rfl
@[simp] theorem State.wrapInc_ctrPoison (s : State) (f : FieldRef) (u k : Nat) : (s.wrapInc f u k).ctrPoison = s.ctrPoison := rfl
@[simp] theorem State.wrapInc_waiters (s : State) (f : FieldRef) (u k : Nat) : (s.wrapInc f u k).waiters = s.waiters := rfl
@[simp] theorem State.wrapInc_mapCopies (s : State) (f : FieldRef) (u k : Nat) : (s.wrapInc f u k).mapCopies = s.mapCopies := rfl
@[simp] theorem State.wrapInc_tests (s : State) (f : FieldRef) (u k : Nat) : (s.wrapInc f u k).tests = s.tests := rfl
@[simp] theorem State.wrapInc_streams (s : State) (f : FieldRef) (u k : Nat) : (s.wrapInc f u k).streams = s.streams := rfl
@[simp] theorem State.wrapInc_rings (s : State) (f : FieldRef) (u k : Nat) : (s.wrapInc f u k).rings = s.rings := rfl
@[simp] theorem State.wrapInc_htCopies (s : State) (f : FieldRef) (u k : Nat) : (s.wrapInc f u k).htCopies = s.htCopies := rfl
@[simp] theorem State.wrapInc_lastRing (s : State) (f : FieldRef) (u k : Nat) : (s.wrapInc f u k).lastRing = s.lastRing := rfl
@[simp] theorem State.wrapInc_dispatch (s : State) (f : FieldRef) (u k : Nat) : (s.wrapInc f u k).dispatch = s.dispatch := rfl
@[simp] theorem State.wrapInc_colls (s : State) (f : FieldRef) (u k : Nat) : (s.wrapInc f u k).colls = s.colls := rfl
@[simp] theorem State.wrapInc_heldColls (s : State) (f : FieldRef) (u k : Nat) : (s.wrapInc f u k).heldColls = s.heldColls := rfl
@[simp] theorem State.wrapInc_freeCtr (s : State) (f : FieldRef) (u k : Nat) : (s.wrapInc f u k).freeCtr = s.freeCtr := rfl
@[simp] theorem State.wrapInc_out (s : State) (f : FieldRef) (u k : Nat) : (s.wrapInc f u k).out = s.out := rfl
@[simp] theorem State.wrapInc_pending (s : State) (f : FieldRef) (u k : Nat) : (s.wrapInc f u k).pending = s.pending := rfl

/-! resetRegs. -/

@[simp] theorem State.resetRegs_mem (s : State) (l : List Known) (p : RegName → Nat → Bool) : (s.resetRegs l p).mem = s.mem := rfl
@[simp] theorem State.resetRegs_poison (s : State) (l : List Known) (p : RegName → Nat → Bool) : (s.resetRegs l p).poison = s.poison := rfl
@[simp] theorem State.resetRegs_cores (s : State) (l : List Known) (p : RegName → Nat → Bool) : (s.resetRegs l p).cores = s.cores := rfl
@[simp] theorem State.resetRegs_fences (s : State) (l : List Known) (p : RegName → Nat → Bool) : (s.resetRegs l p).fences = s.fences := rfl
@[simp] theorem State.resetRegs_fenceSince (s : State) (l : List Known) (p : RegName → Nat → Bool) : (s.resetRegs l p).fenceSince = s.fenceSince := rfl
@[simp] theorem State.resetRegs_hotFolds (s : State) (l : List Known) (p : RegName → Nat → Bool) : (s.resetRegs l p).hotFolds = s.hotFolds := rfl
@[simp] theorem State.resetRegs_stallTick (s : State) (l : List Known) (p : RegName → Nat → Bool) : (s.resetRegs l p).stallTick = s.stallTick := rfl
@[simp] theorem State.resetRegs_thermLow (s : State) (l : List Known) (p : RegName → Nat → Bool) : (s.resetRegs l p).thermLow = s.thermLow := rfl
@[simp] theorem State.resetRegs_time (s : State) (l : List Known) (p : RegName → Nat → Bool) : (s.resetRegs l p).time = s.time := rfl
@[simp] theorem State.resetRegs_life (s : State) (l : List Known) (p : RegName → Nat → Bool) : (s.resetRegs l p).life = s.life := rfl
@[simp] theorem State.resetRegs_fused (s : State) (l : List Known) (p : RegName → Nat → Bool) : (s.resetRegs l p).fused = s.fused := rfl
@[simp] theorem State.resetRegs_fuse (s : State) (l : List Known) (p : RegName → Nat → Bool) : (s.resetRegs l p).fuse = s.fuse := rfl
@[simp] theorem State.resetRegs_procs (s : State) (l : List Known) (p : RegName → Nat → Bool) : (s.resetRegs l p).procs = s.procs := rfl
@[simp] theorem State.resetRegs_power (s : State) (l : List Known) (p : RegName → Nat → Bool) : (s.resetRegs l p).power = s.power := rfl
@[simp] theorem State.resetRegs_reset' (s : State) (l : List Known) (p : RegName → Nat → Bool) : (s.resetRegs l p).reset' = s.reset' := rfl
@[simp] theorem State.resetRegs_opTarget (s : State) (l : List Known) (p : RegName → Nat → Bool) : (s.resetRegs l p).opTarget = s.opTarget := rfl
@[simp] theorem State.resetRegs_log (s : State) (l : List Known) (p : RegName → Nat → Bool) : (s.resetRegs l p).log = s.log := rfl
@[simp] theorem State.resetRegs_host (s : State) (l : List Known) (p : RegName → Nat → Bool) : (s.resetRegs l p).host = s.host := rfl
@[simp] theorem State.resetRegs_tap (s : State) (l : List Known) (p : RegName → Nat → Bool) : (s.resetRegs l p).tap = s.tap := rfl
@[simp] theorem State.resetRegs_hubPaths (s : State) (l : List Known) (p : RegName → Nat → Bool) : (s.resetRegs l p).hubPaths = s.hubPaths := rfl
@[simp] theorem State.resetRegs_hubHeld (s : State) (l : List Known) (p : RegName → Nat → Bool) : (s.resetRegs l p).hubHeld = s.hubHeld := rfl
@[simp] theorem State.resetRegs_ports (s : State) (l : List Known) (p : RegName → Nat → Bool) : (s.resetRegs l p).ports = s.ports := rfl
@[simp] theorem State.resetRegs_replies (s : State) (l : List Known) (p : RegName → Nat → Bool) : (s.resetRegs l p).replies = s.replies := rfl
@[simp] theorem State.resetRegs_hostOps (s : State) (l : List Known) (p : RegName → Nat → Bool) : (s.resetRegs l p).hostOps = s.hostOps := rfl
@[simp] theorem State.resetRegs_l2 (s : State) (l : List Known) (p : RegName → Nat → Bool) : (s.resetRegs l p).l2 = s.l2 := rfl
@[simp] theorem State.resetRegs_patrol (s : State) (l : List Known) (p : RegName → Nat → Bool) : (s.resetRegs l p).patrol = s.patrol := rfl
@[simp] theorem State.resetRegs_pins (s : State) (l : List Known) (p : RegName → Nat → Bool) : (s.resetRegs l p).pins = s.pins := rfl
@[simp] theorem State.resetRegs_powerWait (s : State) (l : List Known) (p : RegName → Nat → Bool) : (s.resetRegs l p).powerWait = s.powerWait := rfl
@[simp] theorem State.resetRegs_arr (s : State) (l : List Known) (p : RegName → Nat → Bool) : (s.resetRegs l p).arr = s.arr := rfl
@[simp] theorem State.resetRegs_ctrPoison (s : State) (l : List Known) (p : RegName → Nat → Bool) : (s.resetRegs l p).ctrPoison = s.ctrPoison := rfl
@[simp] theorem State.resetRegs_waiters (s : State) (l : List Known) (p : RegName → Nat → Bool) : (s.resetRegs l p).waiters = s.waiters := rfl
@[simp] theorem State.resetRegs_mapCopies (s : State) (l : List Known) (p : RegName → Nat → Bool) : (s.resetRegs l p).mapCopies = s.mapCopies := rfl
@[simp] theorem State.resetRegs_tests (s : State) (l : List Known) (p : RegName → Nat → Bool) : (s.resetRegs l p).tests = s.tests := rfl
@[simp] theorem State.resetRegs_streams (s : State) (l : List Known) (p : RegName → Nat → Bool) : (s.resetRegs l p).streams = s.streams := rfl
@[simp] theorem State.resetRegs_rings (s : State) (l : List Known) (p : RegName → Nat → Bool) : (s.resetRegs l p).rings = s.rings := rfl
@[simp] theorem State.resetRegs_htCopies (s : State) (l : List Known) (p : RegName → Nat → Bool) : (s.resetRegs l p).htCopies = s.htCopies := rfl
@[simp] theorem State.resetRegs_lastRing (s : State) (l : List Known) (p : RegName → Nat → Bool) : (s.resetRegs l p).lastRing = s.lastRing := rfl
@[simp] theorem State.resetRegs_dispatch (s : State) (l : List Known) (p : RegName → Nat → Bool) : (s.resetRegs l p).dispatch = s.dispatch := rfl
@[simp] theorem State.resetRegs_colls (s : State) (l : List Known) (p : RegName → Nat → Bool) : (s.resetRegs l p).colls = s.colls := rfl
@[simp] theorem State.resetRegs_heldColls (s : State) (l : List Known) (p : RegName → Nat → Bool) : (s.resetRegs l p).heldColls = s.heldColls := rfl
@[simp] theorem State.resetRegs_freeCtr (s : State) (l : List Known) (p : RegName → Nat → Bool) : (s.resetRegs l p).freeCtr = s.freeCtr := rfl
@[simp] theorem State.resetRegs_out (s : State) (l : List Known) (p : RegName → Nat → Bool) : (s.resetRegs l p).out = s.out := rfl
@[simp] theorem State.resetRegs_pending (s : State) (l : List Known) (p : RegName → Nat → Bool) : (s.resetRegs l p).pending = s.pending := rfl

/-! emit. -/

@[simp] theorem State.emit_regs (s : State) (o : Out) : (s.emit o).regs = s.regs := rfl
@[simp] theorem State.emit_mem (s : State) (o : Out) : (s.emit o).mem = s.mem := rfl
@[simp] theorem State.emit_poison (s : State) (o : Out) : (s.emit o).poison = s.poison := rfl
@[simp] theorem State.emit_cores (s : State) (o : Out) : (s.emit o).cores = s.cores := rfl
@[simp] theorem State.emit_fences (s : State) (o : Out) : (s.emit o).fences = s.fences := rfl
@[simp] theorem State.emit_fenceSince (s : State) (o : Out) : (s.emit o).fenceSince = s.fenceSince := rfl
@[simp] theorem State.emit_hotFolds (s : State) (o : Out) : (s.emit o).hotFolds = s.hotFolds := rfl
@[simp] theorem State.emit_stallTick (s : State) (o : Out) : (s.emit o).stallTick = s.stallTick := rfl
@[simp] theorem State.emit_thermLow (s : State) (o : Out) : (s.emit o).thermLow = s.thermLow := rfl
@[simp] theorem State.emit_time (s : State) (o : Out) : (s.emit o).time = s.time := rfl
@[simp] theorem State.emit_life (s : State) (o : Out) : (s.emit o).life = s.life := rfl
@[simp] theorem State.emit_fused (s : State) (o : Out) : (s.emit o).fused = s.fused := rfl
@[simp] theorem State.emit_fuse (s : State) (o : Out) : (s.emit o).fuse = s.fuse := rfl
@[simp] theorem State.emit_procs (s : State) (o : Out) : (s.emit o).procs = s.procs := rfl
@[simp] theorem State.emit_power (s : State) (o : Out) : (s.emit o).power = s.power := rfl
@[simp] theorem State.emit_reset' (s : State) (o : Out) : (s.emit o).reset' = s.reset' := rfl
@[simp] theorem State.emit_opTarget (s : State) (o : Out) : (s.emit o).opTarget = s.opTarget := rfl
@[simp] theorem State.emit_log (s : State) (o : Out) : (s.emit o).log = s.log := rfl
@[simp] theorem State.emit_host (s : State) (o : Out) : (s.emit o).host = s.host := rfl
@[simp] theorem State.emit_tap (s : State) (o : Out) : (s.emit o).tap = s.tap := rfl
@[simp] theorem State.emit_hubPaths (s : State) (o : Out) : (s.emit o).hubPaths = s.hubPaths := rfl
@[simp] theorem State.emit_hubHeld (s : State) (o : Out) : (s.emit o).hubHeld = s.hubHeld := rfl
@[simp] theorem State.emit_ports (s : State) (o : Out) : (s.emit o).ports = s.ports := rfl
@[simp] theorem State.emit_replies (s : State) (o : Out) : (s.emit o).replies = s.replies := rfl
@[simp] theorem State.emit_hostOps (s : State) (o : Out) : (s.emit o).hostOps = s.hostOps := rfl
@[simp] theorem State.emit_l2 (s : State) (o : Out) : (s.emit o).l2 = s.l2 := rfl
@[simp] theorem State.emit_patrol (s : State) (o : Out) : (s.emit o).patrol = s.patrol := rfl
@[simp] theorem State.emit_pins (s : State) (o : Out) : (s.emit o).pins = s.pins := rfl
@[simp] theorem State.emit_powerWait (s : State) (o : Out) : (s.emit o).powerWait = s.powerWait := rfl
@[simp] theorem State.emit_arr (s : State) (o : Out) : (s.emit o).arr = s.arr := rfl
@[simp] theorem State.emit_ctrPoison (s : State) (o : Out) : (s.emit o).ctrPoison = s.ctrPoison := rfl
@[simp] theorem State.emit_waiters (s : State) (o : Out) : (s.emit o).waiters = s.waiters := rfl
@[simp] theorem State.emit_mapCopies (s : State) (o : Out) : (s.emit o).mapCopies = s.mapCopies := rfl
@[simp] theorem State.emit_tests (s : State) (o : Out) : (s.emit o).tests = s.tests := rfl
@[simp] theorem State.emit_streams (s : State) (o : Out) : (s.emit o).streams = s.streams := rfl
@[simp] theorem State.emit_rings (s : State) (o : Out) : (s.emit o).rings = s.rings := rfl
@[simp] theorem State.emit_htCopies (s : State) (o : Out) : (s.emit o).htCopies = s.htCopies := rfl
@[simp] theorem State.emit_lastRing (s : State) (o : Out) : (s.emit o).lastRing = s.lastRing := rfl
@[simp] theorem State.emit_dispatch (s : State) (o : Out) : (s.emit o).dispatch = s.dispatch := rfl
@[simp] theorem State.emit_colls (s : State) (o : Out) : (s.emit o).colls = s.colls := rfl
@[simp] theorem State.emit_heldColls (s : State) (o : Out) : (s.emit o).heldColls = s.heldColls := rfl
@[simp] theorem State.emit_freeCtr (s : State) (o : Out) : (s.emit o).freeCtr = s.freeCtr := rfl
@[simp] theorem State.emit_pending (s : State) (o : Out) : (s.emit o).pending = s.pending := rfl

/-! reply. -/

@[simp] theorem State.reply_regs (s : State) (r : Reply) : (s.reply r).regs = s.regs := rfl
@[simp] theorem State.reply_mem (s : State) (r : Reply) : (s.reply r).mem = s.mem := rfl
@[simp] theorem State.reply_poison (s : State) (r : Reply) : (s.reply r).poison = s.poison := rfl
@[simp] theorem State.reply_cores (s : State) (r : Reply) : (s.reply r).cores = s.cores := rfl
@[simp] theorem State.reply_fences (s : State) (r : Reply) : (s.reply r).fences = s.fences := rfl
@[simp] theorem State.reply_fenceSince (s : State) (r : Reply) : (s.reply r).fenceSince = s.fenceSince := rfl
@[simp] theorem State.reply_hotFolds (s : State) (r : Reply) : (s.reply r).hotFolds = s.hotFolds := rfl
@[simp] theorem State.reply_stallTick (s : State) (r : Reply) : (s.reply r).stallTick = s.stallTick := rfl
@[simp] theorem State.reply_thermLow (s : State) (r : Reply) : (s.reply r).thermLow = s.thermLow := rfl
@[simp] theorem State.reply_time (s : State) (r : Reply) : (s.reply r).time = s.time := rfl
@[simp] theorem State.reply_life (s : State) (r : Reply) : (s.reply r).life = s.life := rfl
@[simp] theorem State.reply_fused (s : State) (r : Reply) : (s.reply r).fused = s.fused := rfl
@[simp] theorem State.reply_fuse (s : State) (r : Reply) : (s.reply r).fuse = s.fuse := rfl
@[simp] theorem State.reply_procs (s : State) (r : Reply) : (s.reply r).procs = s.procs := rfl
@[simp] theorem State.reply_power (s : State) (r : Reply) : (s.reply r).power = s.power := rfl
@[simp] theorem State.reply_reset' (s : State) (r : Reply) : (s.reply r).reset' = s.reset' := rfl
@[simp] theorem State.reply_opTarget (s : State) (r : Reply) : (s.reply r).opTarget = s.opTarget := rfl
@[simp] theorem State.reply_log (s : State) (r : Reply) : (s.reply r).log = s.log := rfl
@[simp] theorem State.reply_host (s : State) (r : Reply) : (s.reply r).host = s.host := rfl
@[simp] theorem State.reply_tap (s : State) (r : Reply) : (s.reply r).tap = s.tap := rfl
@[simp] theorem State.reply_hubPaths (s : State) (r : Reply) : (s.reply r).hubPaths = s.hubPaths := rfl
@[simp] theorem State.reply_hubHeld (s : State) (r : Reply) : (s.reply r).hubHeld = s.hubHeld := rfl
@[simp] theorem State.reply_ports (s : State) (r : Reply) : (s.reply r).ports = s.ports := rfl
@[simp] theorem State.reply_hostOps (s : State) (r : Reply) : (s.reply r).hostOps = s.hostOps := rfl
@[simp] theorem State.reply_l2 (s : State) (r : Reply) : (s.reply r).l2 = s.l2 := rfl
@[simp] theorem State.reply_patrol (s : State) (r : Reply) : (s.reply r).patrol = s.patrol := rfl
@[simp] theorem State.reply_pins (s : State) (r : Reply) : (s.reply r).pins = s.pins := rfl
@[simp] theorem State.reply_powerWait (s : State) (r : Reply) : (s.reply r).powerWait = s.powerWait := rfl
@[simp] theorem State.reply_arr (s : State) (r : Reply) : (s.reply r).arr = s.arr := rfl
@[simp] theorem State.reply_ctrPoison (s : State) (r : Reply) : (s.reply r).ctrPoison = s.ctrPoison := rfl
@[simp] theorem State.reply_waiters (s : State) (r : Reply) : (s.reply r).waiters = s.waiters := rfl
@[simp] theorem State.reply_mapCopies (s : State) (r : Reply) : (s.reply r).mapCopies = s.mapCopies := rfl
@[simp] theorem State.reply_tests (s : State) (r : Reply) : (s.reply r).tests = s.tests := rfl
@[simp] theorem State.reply_streams (s : State) (r : Reply) : (s.reply r).streams = s.streams := rfl
@[simp] theorem State.reply_rings (s : State) (r : Reply) : (s.reply r).rings = s.rings := rfl
@[simp] theorem State.reply_htCopies (s : State) (r : Reply) : (s.reply r).htCopies = s.htCopies := rfl
@[simp] theorem State.reply_lastRing (s : State) (r : Reply) : (s.reply r).lastRing = s.lastRing := rfl
@[simp] theorem State.reply_dispatch (s : State) (r : Reply) : (s.reply r).dispatch = s.dispatch := rfl
@[simp] theorem State.reply_colls (s : State) (r : Reply) : (s.reply r).colls = s.colls := rfl
@[simp] theorem State.reply_heldColls (s : State) (r : Reply) : (s.reply r).heldColls = s.heldColls := rfl
@[simp] theorem State.reply_freeCtr (s : State) (r : Reply) : (s.reply r).freeCtr = s.freeCtr := rfl
@[simp] theorem State.reply_out (s : State) (r : Reply) : (s.reply r).out = s.out := rfl
@[simp] theorem State.reply_pending (s : State) (r : Reply) : (s.reply r).pending = s.pending := rfl

/-! advance. -/

@[simp] theorem State.advance_regs (s : State) (now : Nat) : (s.advance now).regs = s.regs := by simp only [State.advance]
@[simp] theorem State.advance_mem (s : State) (now : Nat) : (s.advance now).mem = s.mem := by simp only [State.advance]
@[simp] theorem State.advance_poison (s : State) (now : Nat) : (s.advance now).poison = s.poison := by simp only [State.advance]
@[simp] theorem State.advance_cores (s : State) (now : Nat) : (s.advance now).cores = s.cores := by simp only [State.advance]
@[simp] theorem State.advance_fences (s : State) (now : Nat) : (s.advance now).fences = s.fences := by simp only [State.advance]
@[simp] theorem State.advance_fenceSince (s : State) (now : Nat) : (s.advance now).fenceSince = s.fenceSince := by simp only [State.advance]
@[simp] theorem State.advance_hotFolds (s : State) (now : Nat) : (s.advance now).hotFolds = s.hotFolds := by simp only [State.advance]
@[simp] theorem State.advance_stallTick (s : State) (now : Nat) : (s.advance now).stallTick = s.stallTick := by simp only [State.advance]
@[simp] theorem State.advance_thermLow (s : State) (now : Nat) : (s.advance now).thermLow = s.thermLow := by simp only [State.advance]
@[simp] theorem State.advance_life (s : State) (now : Nat) : (s.advance now).life = s.life := by simp only [State.advance]
@[simp] theorem State.advance_fused (s : State) (now : Nat) : (s.advance now).fused = s.fused := by simp only [State.advance]
@[simp] theorem State.advance_fuse (s : State) (now : Nat) : (s.advance now).fuse = s.fuse := by simp only [State.advance]
@[simp] theorem State.advance_procs (s : State) (now : Nat) : (s.advance now).procs = s.procs := by simp only [State.advance]
@[simp] theorem State.advance_power (s : State) (now : Nat) : (s.advance now).power = s.power := by simp only [State.advance]
@[simp] theorem State.advance_reset' (s : State) (now : Nat) : (s.advance now).reset' = s.reset' := by simp only [State.advance]
@[simp] theorem State.advance_opTarget (s : State) (now : Nat) : (s.advance now).opTarget = s.opTarget := by simp only [State.advance]
@[simp] theorem State.advance_log (s : State) (now : Nat) : (s.advance now).log = s.log := by simp only [State.advance]
@[simp] theorem State.advance_host (s : State) (now : Nat) : (s.advance now).host = s.host := by simp only [State.advance]
@[simp] theorem State.advance_tap (s : State) (now : Nat) : (s.advance now).tap = s.tap := by simp only [State.advance]
@[simp] theorem State.advance_hubPaths (s : State) (now : Nat) : (s.advance now).hubPaths = s.hubPaths := by simp only [State.advance]
@[simp] theorem State.advance_hubHeld (s : State) (now : Nat) : (s.advance now).hubHeld = s.hubHeld := by simp only [State.advance]
@[simp] theorem State.advance_ports (s : State) (now : Nat) : (s.advance now).ports = s.ports := by simp only [State.advance]
@[simp] theorem State.advance_replies (s : State) (now : Nat) : (s.advance now).replies = s.replies := by simp only [State.advance]
@[simp] theorem State.advance_hostOps (s : State) (now : Nat) : (s.advance now).hostOps = s.hostOps := by simp only [State.advance]
@[simp] theorem State.advance_l2 (s : State) (now : Nat) : (s.advance now).l2 = s.l2 := by simp only [State.advance]
@[simp] theorem State.advance_patrol (s : State) (now : Nat) : (s.advance now).patrol = s.patrol := by simp only [State.advance]
@[simp] theorem State.advance_pins (s : State) (now : Nat) : (s.advance now).pins = s.pins := by simp only [State.advance]
@[simp] theorem State.advance_powerWait (s : State) (now : Nat) : (s.advance now).powerWait = s.powerWait := by simp only [State.advance]
@[simp] theorem State.advance_arr (s : State) (now : Nat) : (s.advance now).arr = s.arr := by simp only [State.advance]
@[simp] theorem State.advance_ctrPoison (s : State) (now : Nat) : (s.advance now).ctrPoison = s.ctrPoison := by simp only [State.advance]
@[simp] theorem State.advance_waiters (s : State) (now : Nat) : (s.advance now).waiters = s.waiters := by simp only [State.advance]
@[simp] theorem State.advance_mapCopies (s : State) (now : Nat) : (s.advance now).mapCopies = s.mapCopies := by simp only [State.advance]
@[simp] theorem State.advance_tests (s : State) (now : Nat) : (s.advance now).tests = s.tests := by simp only [State.advance]
@[simp] theorem State.advance_streams (s : State) (now : Nat) : (s.advance now).streams = s.streams := by simp only [State.advance]
@[simp] theorem State.advance_rings (s : State) (now : Nat) : (s.advance now).rings = s.rings := by simp only [State.advance]
@[simp] theorem State.advance_htCopies (s : State) (now : Nat) : (s.advance now).htCopies = s.htCopies := by simp only [State.advance]
@[simp] theorem State.advance_lastRing (s : State) (now : Nat) : (s.advance now).lastRing = s.lastRing := by simp only [State.advance]
@[simp] theorem State.advance_dispatch (s : State) (now : Nat) : (s.advance now).dispatch = s.dispatch := by simp only [State.advance]
@[simp] theorem State.advance_colls (s : State) (now : Nat) : (s.advance now).colls = s.colls := by simp only [State.advance]
@[simp] theorem State.advance_heldColls (s : State) (now : Nat) : (s.advance now).heldColls = s.heldColls := by simp only [State.advance]
@[simp] theorem State.advance_freeCtr (s : State) (now : Nat) : (s.advance now).freeCtr = s.freeCtr := by simp only [State.advance]
@[simp] theorem State.advance_out (s : State) (now : Nat) : (s.advance now).out = s.out := by simp only [State.advance]
@[simp] theorem State.advance_pending (s : State) (now : Nat) : (s.advance now).pending = s.pending := by simp only [State.advance]

/-! modTime. -/

@[simp] theorem State.modTime_regs (s : State) (f : TimeSt → TimeSt) : (s.modTime f).regs = s.regs := rfl
@[simp] theorem State.modTime_mem (s : State) (f : TimeSt → TimeSt) : (s.modTime f).mem = s.mem := rfl
@[simp] theorem State.modTime_poison (s : State) (f : TimeSt → TimeSt) : (s.modTime f).poison = s.poison := rfl
@[simp] theorem State.modTime_cores (s : State) (f : TimeSt → TimeSt) : (s.modTime f).cores = s.cores := rfl
@[simp] theorem State.modTime_fences (s : State) (f : TimeSt → TimeSt) : (s.modTime f).fences = s.fences := rfl
@[simp] theorem State.modTime_fenceSince (s : State) (f : TimeSt → TimeSt) : (s.modTime f).fenceSince = s.fenceSince := rfl
@[simp] theorem State.modTime_hotFolds (s : State) (f : TimeSt → TimeSt) : (s.modTime f).hotFolds = s.hotFolds := rfl
@[simp] theorem State.modTime_stallTick (s : State) (f : TimeSt → TimeSt) : (s.modTime f).stallTick = s.stallTick := rfl
@[simp] theorem State.modTime_thermLow (s : State) (f : TimeSt → TimeSt) : (s.modTime f).thermLow = s.thermLow := rfl
@[simp] theorem State.modTime_life (s : State) (f : TimeSt → TimeSt) : (s.modTime f).life = s.life := rfl
@[simp] theorem State.modTime_fused (s : State) (f : TimeSt → TimeSt) : (s.modTime f).fused = s.fused := rfl
@[simp] theorem State.modTime_fuse (s : State) (f : TimeSt → TimeSt) : (s.modTime f).fuse = s.fuse := rfl
@[simp] theorem State.modTime_procs (s : State) (f : TimeSt → TimeSt) : (s.modTime f).procs = s.procs := rfl
@[simp] theorem State.modTime_power (s : State) (f : TimeSt → TimeSt) : (s.modTime f).power = s.power := rfl
@[simp] theorem State.modTime_reset' (s : State) (f : TimeSt → TimeSt) : (s.modTime f).reset' = s.reset' := rfl
@[simp] theorem State.modTime_opTarget (s : State) (f : TimeSt → TimeSt) : (s.modTime f).opTarget = s.opTarget := rfl
@[simp] theorem State.modTime_log (s : State) (f : TimeSt → TimeSt) : (s.modTime f).log = s.log := rfl
@[simp] theorem State.modTime_host (s : State) (f : TimeSt → TimeSt) : (s.modTime f).host = s.host := rfl
@[simp] theorem State.modTime_tap (s : State) (f : TimeSt → TimeSt) : (s.modTime f).tap = s.tap := rfl
@[simp] theorem State.modTime_hubPaths (s : State) (f : TimeSt → TimeSt) : (s.modTime f).hubPaths = s.hubPaths := rfl
@[simp] theorem State.modTime_hubHeld (s : State) (f : TimeSt → TimeSt) : (s.modTime f).hubHeld = s.hubHeld := rfl
@[simp] theorem State.modTime_ports (s : State) (f : TimeSt → TimeSt) : (s.modTime f).ports = s.ports := rfl
@[simp] theorem State.modTime_replies (s : State) (f : TimeSt → TimeSt) : (s.modTime f).replies = s.replies := rfl
@[simp] theorem State.modTime_hostOps (s : State) (f : TimeSt → TimeSt) : (s.modTime f).hostOps = s.hostOps := rfl
@[simp] theorem State.modTime_l2 (s : State) (f : TimeSt → TimeSt) : (s.modTime f).l2 = s.l2 := rfl
@[simp] theorem State.modTime_patrol (s : State) (f : TimeSt → TimeSt) : (s.modTime f).patrol = s.patrol := rfl
@[simp] theorem State.modTime_pins (s : State) (f : TimeSt → TimeSt) : (s.modTime f).pins = s.pins := rfl
@[simp] theorem State.modTime_powerWait (s : State) (f : TimeSt → TimeSt) : (s.modTime f).powerWait = s.powerWait := rfl
@[simp] theorem State.modTime_arr (s : State) (f : TimeSt → TimeSt) : (s.modTime f).arr = s.arr := rfl
@[simp] theorem State.modTime_ctrPoison (s : State) (f : TimeSt → TimeSt) : (s.modTime f).ctrPoison = s.ctrPoison := rfl
@[simp] theorem State.modTime_waiters (s : State) (f : TimeSt → TimeSt) : (s.modTime f).waiters = s.waiters := rfl
@[simp] theorem State.modTime_mapCopies (s : State) (f : TimeSt → TimeSt) : (s.modTime f).mapCopies = s.mapCopies := rfl
@[simp] theorem State.modTime_tests (s : State) (f : TimeSt → TimeSt) : (s.modTime f).tests = s.tests := rfl
@[simp] theorem State.modTime_streams (s : State) (f : TimeSt → TimeSt) : (s.modTime f).streams = s.streams := rfl
@[simp] theorem State.modTime_rings (s : State) (f : TimeSt → TimeSt) : (s.modTime f).rings = s.rings := rfl
@[simp] theorem State.modTime_htCopies (s : State) (f : TimeSt → TimeSt) : (s.modTime f).htCopies = s.htCopies := rfl
@[simp] theorem State.modTime_lastRing (s : State) (f : TimeSt → TimeSt) : (s.modTime f).lastRing = s.lastRing := rfl
@[simp] theorem State.modTime_dispatch (s : State) (f : TimeSt → TimeSt) : (s.modTime f).dispatch = s.dispatch := rfl
@[simp] theorem State.modTime_colls (s : State) (f : TimeSt → TimeSt) : (s.modTime f).colls = s.colls := rfl
@[simp] theorem State.modTime_heldColls (s : State) (f : TimeSt → TimeSt) : (s.modTime f).heldColls = s.heldColls := rfl
@[simp] theorem State.modTime_freeCtr (s : State) (f : TimeSt → TimeSt) : (s.modTime f).freeCtr = s.freeCtr := rfl
@[simp] theorem State.modTime_out (s : State) (f : TimeSt → TimeSt) : (s.modTime f).out = s.out := rfl
@[simp] theorem State.modTime_pending (s : State) (f : TimeSt → TimeSt) : (s.modTime f).pending = s.pending := rfl

/-! setCore. -/

@[simp] theorem State.setCore_regs (s : State) (c : Nat) (v : CoreSt) : (s.setCore c v).regs = s.regs := rfl
@[simp] theorem State.setCore_mem (s : State) (c : Nat) (v : CoreSt) : (s.setCore c v).mem = s.mem := rfl
@[simp] theorem State.setCore_poison (s : State) (c : Nat) (v : CoreSt) : (s.setCore c v).poison = s.poison := rfl
@[simp] theorem State.setCore_fences (s : State) (c : Nat) (v : CoreSt) : (s.setCore c v).fences = s.fences := rfl
@[simp] theorem State.setCore_fenceSince (s : State) (c : Nat) (v : CoreSt) : (s.setCore c v).fenceSince = s.fenceSince := rfl
@[simp] theorem State.setCore_hotFolds (s : State) (c : Nat) (v : CoreSt) : (s.setCore c v).hotFolds = s.hotFolds := rfl
@[simp] theorem State.setCore_stallTick (s : State) (c : Nat) (v : CoreSt) : (s.setCore c v).stallTick = s.stallTick := rfl
@[simp] theorem State.setCore_thermLow (s : State) (c : Nat) (v : CoreSt) : (s.setCore c v).thermLow = s.thermLow := rfl
@[simp] theorem State.setCore_time (s : State) (c : Nat) (v : CoreSt) : (s.setCore c v).time = s.time := rfl
@[simp] theorem State.setCore_life (s : State) (c : Nat) (v : CoreSt) : (s.setCore c v).life = s.life := rfl
@[simp] theorem State.setCore_fused (s : State) (c : Nat) (v : CoreSt) : (s.setCore c v).fused = s.fused := rfl
@[simp] theorem State.setCore_fuse (s : State) (c : Nat) (v : CoreSt) : (s.setCore c v).fuse = s.fuse := rfl
@[simp] theorem State.setCore_procs (s : State) (c : Nat) (v : CoreSt) : (s.setCore c v).procs = s.procs := rfl
@[simp] theorem State.setCore_power (s : State) (c : Nat) (v : CoreSt) : (s.setCore c v).power = s.power := rfl
@[simp] theorem State.setCore_reset' (s : State) (c : Nat) (v : CoreSt) : (s.setCore c v).reset' = s.reset' := rfl
@[simp] theorem State.setCore_opTarget (s : State) (c : Nat) (v : CoreSt) : (s.setCore c v).opTarget = s.opTarget := rfl
@[simp] theorem State.setCore_log (s : State) (c : Nat) (v : CoreSt) : (s.setCore c v).log = s.log := rfl
@[simp] theorem State.setCore_host (s : State) (c : Nat) (v : CoreSt) : (s.setCore c v).host = s.host := rfl
@[simp] theorem State.setCore_tap (s : State) (c : Nat) (v : CoreSt) : (s.setCore c v).tap = s.tap := rfl
@[simp] theorem State.setCore_hubPaths (s : State) (c : Nat) (v : CoreSt) : (s.setCore c v).hubPaths = s.hubPaths := rfl
@[simp] theorem State.setCore_hubHeld (s : State) (c : Nat) (v : CoreSt) : (s.setCore c v).hubHeld = s.hubHeld := rfl
@[simp] theorem State.setCore_ports (s : State) (c : Nat) (v : CoreSt) : (s.setCore c v).ports = s.ports := rfl
@[simp] theorem State.setCore_replies (s : State) (c : Nat) (v : CoreSt) : (s.setCore c v).replies = s.replies := rfl
@[simp] theorem State.setCore_hostOps (s : State) (c : Nat) (v : CoreSt) : (s.setCore c v).hostOps = s.hostOps := rfl
@[simp] theorem State.setCore_l2 (s : State) (c : Nat) (v : CoreSt) : (s.setCore c v).l2 = s.l2 := rfl
@[simp] theorem State.setCore_patrol (s : State) (c : Nat) (v : CoreSt) : (s.setCore c v).patrol = s.patrol := rfl
@[simp] theorem State.setCore_pins (s : State) (c : Nat) (v : CoreSt) : (s.setCore c v).pins = s.pins := rfl
@[simp] theorem State.setCore_powerWait (s : State) (c : Nat) (v : CoreSt) : (s.setCore c v).powerWait = s.powerWait := rfl
@[simp] theorem State.setCore_arr (s : State) (c : Nat) (v : CoreSt) : (s.setCore c v).arr = s.arr := rfl
@[simp] theorem State.setCore_ctrPoison (s : State) (c : Nat) (v : CoreSt) : (s.setCore c v).ctrPoison = s.ctrPoison := rfl
@[simp] theorem State.setCore_waiters (s : State) (c : Nat) (v : CoreSt) : (s.setCore c v).waiters = s.waiters := rfl
@[simp] theorem State.setCore_mapCopies (s : State) (c : Nat) (v : CoreSt) : (s.setCore c v).mapCopies = s.mapCopies := rfl
@[simp] theorem State.setCore_tests (s : State) (c : Nat) (v : CoreSt) : (s.setCore c v).tests = s.tests := rfl
@[simp] theorem State.setCore_streams (s : State) (c : Nat) (v : CoreSt) : (s.setCore c v).streams = s.streams := rfl
@[simp] theorem State.setCore_rings (s : State) (c : Nat) (v : CoreSt) : (s.setCore c v).rings = s.rings := rfl
@[simp] theorem State.setCore_htCopies (s : State) (c : Nat) (v : CoreSt) : (s.setCore c v).htCopies = s.htCopies := rfl
@[simp] theorem State.setCore_lastRing (s : State) (c : Nat) (v : CoreSt) : (s.setCore c v).lastRing = s.lastRing := rfl
@[simp] theorem State.setCore_dispatch (s : State) (c : Nat) (v : CoreSt) : (s.setCore c v).dispatch = s.dispatch := rfl
@[simp] theorem State.setCore_colls (s : State) (c : Nat) (v : CoreSt) : (s.setCore c v).colls = s.colls := rfl
@[simp] theorem State.setCore_heldColls (s : State) (c : Nat) (v : CoreSt) : (s.setCore c v).heldColls = s.heldColls := rfl
@[simp] theorem State.setCore_freeCtr (s : State) (c : Nat) (v : CoreSt) : (s.setCore c v).freeCtr = s.freeCtr := rfl
@[simp] theorem State.setCore_out (s : State) (c : Nat) (v : CoreSt) : (s.setCore c v).out = s.out := rfl
@[simp] theorem State.setCore_pending (s : State) (c : Nat) (v : CoreSt) : (s.setCore c v).pending = s.pending := rfl

/-! modCore. -/

@[simp] theorem State.modCore_regs (s : State) (c : Nat) (f : CoreSt → CoreSt) : (s.modCore c f).regs = s.regs := rfl
@[simp] theorem State.modCore_mem (s : State) (c : Nat) (f : CoreSt → CoreSt) : (s.modCore c f).mem = s.mem := rfl
@[simp] theorem State.modCore_poison (s : State) (c : Nat) (f : CoreSt → CoreSt) : (s.modCore c f).poison = s.poison := rfl
@[simp] theorem State.modCore_fences (s : State) (c : Nat) (f : CoreSt → CoreSt) : (s.modCore c f).fences = s.fences := rfl
@[simp] theorem State.modCore_fenceSince (s : State) (c : Nat) (f : CoreSt → CoreSt) : (s.modCore c f).fenceSince = s.fenceSince := rfl
@[simp] theorem State.modCore_hotFolds (s : State) (c : Nat) (f : CoreSt → CoreSt) : (s.modCore c f).hotFolds = s.hotFolds := rfl
@[simp] theorem State.modCore_stallTick (s : State) (c : Nat) (f : CoreSt → CoreSt) : (s.modCore c f).stallTick = s.stallTick := rfl
@[simp] theorem State.modCore_thermLow (s : State) (c : Nat) (f : CoreSt → CoreSt) : (s.modCore c f).thermLow = s.thermLow := rfl
@[simp] theorem State.modCore_time (s : State) (c : Nat) (f : CoreSt → CoreSt) : (s.modCore c f).time = s.time := rfl
@[simp] theorem State.modCore_life (s : State) (c : Nat) (f : CoreSt → CoreSt) : (s.modCore c f).life = s.life := rfl
@[simp] theorem State.modCore_fused (s : State) (c : Nat) (f : CoreSt → CoreSt) : (s.modCore c f).fused = s.fused := rfl
@[simp] theorem State.modCore_fuse (s : State) (c : Nat) (f : CoreSt → CoreSt) : (s.modCore c f).fuse = s.fuse := rfl
@[simp] theorem State.modCore_procs (s : State) (c : Nat) (f : CoreSt → CoreSt) : (s.modCore c f).procs = s.procs := rfl
@[simp] theorem State.modCore_power (s : State) (c : Nat) (f : CoreSt → CoreSt) : (s.modCore c f).power = s.power := rfl
@[simp] theorem State.modCore_reset' (s : State) (c : Nat) (f : CoreSt → CoreSt) : (s.modCore c f).reset' = s.reset' := rfl
@[simp] theorem State.modCore_opTarget (s : State) (c : Nat) (f : CoreSt → CoreSt) : (s.modCore c f).opTarget = s.opTarget := rfl
@[simp] theorem State.modCore_log (s : State) (c : Nat) (f : CoreSt → CoreSt) : (s.modCore c f).log = s.log := rfl
@[simp] theorem State.modCore_host (s : State) (c : Nat) (f : CoreSt → CoreSt) : (s.modCore c f).host = s.host := rfl
@[simp] theorem State.modCore_tap (s : State) (c : Nat) (f : CoreSt → CoreSt) : (s.modCore c f).tap = s.tap := rfl
@[simp] theorem State.modCore_hubPaths (s : State) (c : Nat) (f : CoreSt → CoreSt) : (s.modCore c f).hubPaths = s.hubPaths := rfl
@[simp] theorem State.modCore_hubHeld (s : State) (c : Nat) (f : CoreSt → CoreSt) : (s.modCore c f).hubHeld = s.hubHeld := rfl
@[simp] theorem State.modCore_ports (s : State) (c : Nat) (f : CoreSt → CoreSt) : (s.modCore c f).ports = s.ports := rfl
@[simp] theorem State.modCore_replies (s : State) (c : Nat) (f : CoreSt → CoreSt) : (s.modCore c f).replies = s.replies := rfl
@[simp] theorem State.modCore_hostOps (s : State) (c : Nat) (f : CoreSt → CoreSt) : (s.modCore c f).hostOps = s.hostOps := rfl
@[simp] theorem State.modCore_l2 (s : State) (c : Nat) (f : CoreSt → CoreSt) : (s.modCore c f).l2 = s.l2 := rfl
@[simp] theorem State.modCore_patrol (s : State) (c : Nat) (f : CoreSt → CoreSt) : (s.modCore c f).patrol = s.patrol := rfl
@[simp] theorem State.modCore_pins (s : State) (c : Nat) (f : CoreSt → CoreSt) : (s.modCore c f).pins = s.pins := rfl
@[simp] theorem State.modCore_powerWait (s : State) (c : Nat) (f : CoreSt → CoreSt) : (s.modCore c f).powerWait = s.powerWait := rfl
@[simp] theorem State.modCore_arr (s : State) (c : Nat) (f : CoreSt → CoreSt) : (s.modCore c f).arr = s.arr := rfl
@[simp] theorem State.modCore_ctrPoison (s : State) (c : Nat) (f : CoreSt → CoreSt) : (s.modCore c f).ctrPoison = s.ctrPoison := rfl
@[simp] theorem State.modCore_waiters (s : State) (c : Nat) (f : CoreSt → CoreSt) : (s.modCore c f).waiters = s.waiters := rfl
@[simp] theorem State.modCore_mapCopies (s : State) (c : Nat) (f : CoreSt → CoreSt) : (s.modCore c f).mapCopies = s.mapCopies := rfl
@[simp] theorem State.modCore_tests (s : State) (c : Nat) (f : CoreSt → CoreSt) : (s.modCore c f).tests = s.tests := rfl
@[simp] theorem State.modCore_streams (s : State) (c : Nat) (f : CoreSt → CoreSt) : (s.modCore c f).streams = s.streams := rfl
@[simp] theorem State.modCore_rings (s : State) (c : Nat) (f : CoreSt → CoreSt) : (s.modCore c f).rings = s.rings := rfl
@[simp] theorem State.modCore_htCopies (s : State) (c : Nat) (f : CoreSt → CoreSt) : (s.modCore c f).htCopies = s.htCopies := rfl
@[simp] theorem State.modCore_lastRing (s : State) (c : Nat) (f : CoreSt → CoreSt) : (s.modCore c f).lastRing = s.lastRing := rfl
@[simp] theorem State.modCore_dispatch (s : State) (c : Nat) (f : CoreSt → CoreSt) : (s.modCore c f).dispatch = s.dispatch := rfl
@[simp] theorem State.modCore_colls (s : State) (c : Nat) (f : CoreSt → CoreSt) : (s.modCore c f).colls = s.colls := rfl
@[simp] theorem State.modCore_heldColls (s : State) (c : Nat) (f : CoreSt → CoreSt) : (s.modCore c f).heldColls = s.heldColls := rfl
@[simp] theorem State.modCore_freeCtr (s : State) (c : Nat) (f : CoreSt → CoreSt) : (s.modCore c f).freeCtr = s.freeCtr := rfl
@[simp] theorem State.modCore_out (s : State) (c : Nat) (f : CoreSt → CoreSt) : (s.modCore c f).out = s.out := rfl
@[simp] theorem State.modCore_pending (s : State) (c : Nat) (f : CoreSt → CoreSt) : (s.modCore c f).pending = s.pending := rfl

/-! modTwin. -/

@[simp] theorem State.modTwin_regs (s : State) (c : Nat) (f : TwinSt → TwinSt) : (s.modTwin c f).regs = s.regs := rfl
@[simp] theorem State.modTwin_mem (s : State) (c : Nat) (f : TwinSt → TwinSt) : (s.modTwin c f).mem = s.mem := rfl
@[simp] theorem State.modTwin_poison (s : State) (c : Nat) (f : TwinSt → TwinSt) : (s.modTwin c f).poison = s.poison := rfl
@[simp] theorem State.modTwin_fences (s : State) (c : Nat) (f : TwinSt → TwinSt) : (s.modTwin c f).fences = s.fences := rfl
@[simp] theorem State.modTwin_fenceSince (s : State) (c : Nat) (f : TwinSt → TwinSt) : (s.modTwin c f).fenceSince = s.fenceSince := rfl
@[simp] theorem State.modTwin_hotFolds (s : State) (c : Nat) (f : TwinSt → TwinSt) : (s.modTwin c f).hotFolds = s.hotFolds := rfl
@[simp] theorem State.modTwin_stallTick (s : State) (c : Nat) (f : TwinSt → TwinSt) : (s.modTwin c f).stallTick = s.stallTick := rfl
@[simp] theorem State.modTwin_thermLow (s : State) (c : Nat) (f : TwinSt → TwinSt) : (s.modTwin c f).thermLow = s.thermLow := rfl
@[simp] theorem State.modTwin_time (s : State) (c : Nat) (f : TwinSt → TwinSt) : (s.modTwin c f).time = s.time := rfl
@[simp] theorem State.modTwin_life (s : State) (c : Nat) (f : TwinSt → TwinSt) : (s.modTwin c f).life = s.life := rfl
@[simp] theorem State.modTwin_fused (s : State) (c : Nat) (f : TwinSt → TwinSt) : (s.modTwin c f).fused = s.fused := rfl
@[simp] theorem State.modTwin_fuse (s : State) (c : Nat) (f : TwinSt → TwinSt) : (s.modTwin c f).fuse = s.fuse := rfl
@[simp] theorem State.modTwin_procs (s : State) (c : Nat) (f : TwinSt → TwinSt) : (s.modTwin c f).procs = s.procs := rfl
@[simp] theorem State.modTwin_power (s : State) (c : Nat) (f : TwinSt → TwinSt) : (s.modTwin c f).power = s.power := rfl
@[simp] theorem State.modTwin_reset' (s : State) (c : Nat) (f : TwinSt → TwinSt) : (s.modTwin c f).reset' = s.reset' := rfl
@[simp] theorem State.modTwin_opTarget (s : State) (c : Nat) (f : TwinSt → TwinSt) : (s.modTwin c f).opTarget = s.opTarget := rfl
@[simp] theorem State.modTwin_log (s : State) (c : Nat) (f : TwinSt → TwinSt) : (s.modTwin c f).log = s.log := rfl
@[simp] theorem State.modTwin_host (s : State) (c : Nat) (f : TwinSt → TwinSt) : (s.modTwin c f).host = s.host := rfl
@[simp] theorem State.modTwin_tap (s : State) (c : Nat) (f : TwinSt → TwinSt) : (s.modTwin c f).tap = s.tap := rfl
@[simp] theorem State.modTwin_hubPaths (s : State) (c : Nat) (f : TwinSt → TwinSt) : (s.modTwin c f).hubPaths = s.hubPaths := rfl
@[simp] theorem State.modTwin_hubHeld (s : State) (c : Nat) (f : TwinSt → TwinSt) : (s.modTwin c f).hubHeld = s.hubHeld := rfl
@[simp] theorem State.modTwin_ports (s : State) (c : Nat) (f : TwinSt → TwinSt) : (s.modTwin c f).ports = s.ports := rfl
@[simp] theorem State.modTwin_replies (s : State) (c : Nat) (f : TwinSt → TwinSt) : (s.modTwin c f).replies = s.replies := rfl
@[simp] theorem State.modTwin_hostOps (s : State) (c : Nat) (f : TwinSt → TwinSt) : (s.modTwin c f).hostOps = s.hostOps := rfl
@[simp] theorem State.modTwin_l2 (s : State) (c : Nat) (f : TwinSt → TwinSt) : (s.modTwin c f).l2 = s.l2 := rfl
@[simp] theorem State.modTwin_patrol (s : State) (c : Nat) (f : TwinSt → TwinSt) : (s.modTwin c f).patrol = s.patrol := rfl
@[simp] theorem State.modTwin_pins (s : State) (c : Nat) (f : TwinSt → TwinSt) : (s.modTwin c f).pins = s.pins := rfl
@[simp] theorem State.modTwin_powerWait (s : State) (c : Nat) (f : TwinSt → TwinSt) : (s.modTwin c f).powerWait = s.powerWait := rfl
@[simp] theorem State.modTwin_arr (s : State) (c : Nat) (f : TwinSt → TwinSt) : (s.modTwin c f).arr = s.arr := rfl
@[simp] theorem State.modTwin_ctrPoison (s : State) (c : Nat) (f : TwinSt → TwinSt) : (s.modTwin c f).ctrPoison = s.ctrPoison := rfl
@[simp] theorem State.modTwin_waiters (s : State) (c : Nat) (f : TwinSt → TwinSt) : (s.modTwin c f).waiters = s.waiters := rfl
@[simp] theorem State.modTwin_mapCopies (s : State) (c : Nat) (f : TwinSt → TwinSt) : (s.modTwin c f).mapCopies = s.mapCopies := rfl
@[simp] theorem State.modTwin_tests (s : State) (c : Nat) (f : TwinSt → TwinSt) : (s.modTwin c f).tests = s.tests := rfl
@[simp] theorem State.modTwin_streams (s : State) (c : Nat) (f : TwinSt → TwinSt) : (s.modTwin c f).streams = s.streams := rfl
@[simp] theorem State.modTwin_rings (s : State) (c : Nat) (f : TwinSt → TwinSt) : (s.modTwin c f).rings = s.rings := rfl
@[simp] theorem State.modTwin_htCopies (s : State) (c : Nat) (f : TwinSt → TwinSt) : (s.modTwin c f).htCopies = s.htCopies := rfl
@[simp] theorem State.modTwin_lastRing (s : State) (c : Nat) (f : TwinSt → TwinSt) : (s.modTwin c f).lastRing = s.lastRing := rfl
@[simp] theorem State.modTwin_dispatch (s : State) (c : Nat) (f : TwinSt → TwinSt) : (s.modTwin c f).dispatch = s.dispatch := rfl
@[simp] theorem State.modTwin_colls (s : State) (c : Nat) (f : TwinSt → TwinSt) : (s.modTwin c f).colls = s.colls := rfl
@[simp] theorem State.modTwin_heldColls (s : State) (c : Nat) (f : TwinSt → TwinSt) : (s.modTwin c f).heldColls = s.heldColls := rfl
@[simp] theorem State.modTwin_freeCtr (s : State) (c : Nat) (f : TwinSt → TwinSt) : (s.modTwin c f).freeCtr = s.freeCtr := rfl
@[simp] theorem State.modTwin_out (s : State) (c : Nat) (f : TwinSt → TwinSt) : (s.modTwin c f).out = s.out := rfl
@[simp] theorem State.modTwin_pending (s : State) (c : Nat) (f : TwinSt → TwinSt) : (s.modTwin c f).pending = s.pending := rfl

/-! setG. -/

@[simp] theorem State.setG_regs (s : State) (c n : Nat) (v : Word) : (s.setG c n v).regs = s.regs := rfl
@[simp] theorem State.setG_mem (s : State) (c n : Nat) (v : Word) : (s.setG c n v).mem = s.mem := rfl
@[simp] theorem State.setG_poison (s : State) (c n : Nat) (v : Word) : (s.setG c n v).poison = s.poison := rfl
@[simp] theorem State.setG_fences (s : State) (c n : Nat) (v : Word) : (s.setG c n v).fences = s.fences := rfl
@[simp] theorem State.setG_fenceSince (s : State) (c n : Nat) (v : Word) : (s.setG c n v).fenceSince = s.fenceSince := rfl
@[simp] theorem State.setG_hotFolds (s : State) (c n : Nat) (v : Word) : (s.setG c n v).hotFolds = s.hotFolds := rfl
@[simp] theorem State.setG_stallTick (s : State) (c n : Nat) (v : Word) : (s.setG c n v).stallTick = s.stallTick := rfl
@[simp] theorem State.setG_thermLow (s : State) (c n : Nat) (v : Word) : (s.setG c n v).thermLow = s.thermLow := rfl
@[simp] theorem State.setG_time (s : State) (c n : Nat) (v : Word) : (s.setG c n v).time = s.time := rfl
@[simp] theorem State.setG_life (s : State) (c n : Nat) (v : Word) : (s.setG c n v).life = s.life := rfl
@[simp] theorem State.setG_fused (s : State) (c n : Nat) (v : Word) : (s.setG c n v).fused = s.fused := rfl
@[simp] theorem State.setG_fuse (s : State) (c n : Nat) (v : Word) : (s.setG c n v).fuse = s.fuse := rfl
@[simp] theorem State.setG_procs (s : State) (c n : Nat) (v : Word) : (s.setG c n v).procs = s.procs := rfl
@[simp] theorem State.setG_power (s : State) (c n : Nat) (v : Word) : (s.setG c n v).power = s.power := rfl
@[simp] theorem State.setG_reset' (s : State) (c n : Nat) (v : Word) : (s.setG c n v).reset' = s.reset' := rfl
@[simp] theorem State.setG_opTarget (s : State) (c n : Nat) (v : Word) : (s.setG c n v).opTarget = s.opTarget := rfl
@[simp] theorem State.setG_log (s : State) (c n : Nat) (v : Word) : (s.setG c n v).log = s.log := rfl
@[simp] theorem State.setG_host (s : State) (c n : Nat) (v : Word) : (s.setG c n v).host = s.host := rfl
@[simp] theorem State.setG_tap (s : State) (c n : Nat) (v : Word) : (s.setG c n v).tap = s.tap := rfl
@[simp] theorem State.setG_hubPaths (s : State) (c n : Nat) (v : Word) : (s.setG c n v).hubPaths = s.hubPaths := rfl
@[simp] theorem State.setG_hubHeld (s : State) (c n : Nat) (v : Word) : (s.setG c n v).hubHeld = s.hubHeld := rfl
@[simp] theorem State.setG_ports (s : State) (c n : Nat) (v : Word) : (s.setG c n v).ports = s.ports := rfl
@[simp] theorem State.setG_replies (s : State) (c n : Nat) (v : Word) : (s.setG c n v).replies = s.replies := rfl
@[simp] theorem State.setG_hostOps (s : State) (c n : Nat) (v : Word) : (s.setG c n v).hostOps = s.hostOps := rfl
@[simp] theorem State.setG_l2 (s : State) (c n : Nat) (v : Word) : (s.setG c n v).l2 = s.l2 := rfl
@[simp] theorem State.setG_patrol (s : State) (c n : Nat) (v : Word) : (s.setG c n v).patrol = s.patrol := rfl
@[simp] theorem State.setG_pins (s : State) (c n : Nat) (v : Word) : (s.setG c n v).pins = s.pins := rfl
@[simp] theorem State.setG_powerWait (s : State) (c n : Nat) (v : Word) : (s.setG c n v).powerWait = s.powerWait := rfl
@[simp] theorem State.setG_arr (s : State) (c n : Nat) (v : Word) : (s.setG c n v).arr = s.arr := rfl
@[simp] theorem State.setG_ctrPoison (s : State) (c n : Nat) (v : Word) : (s.setG c n v).ctrPoison = s.ctrPoison := rfl
@[simp] theorem State.setG_waiters (s : State) (c n : Nat) (v : Word) : (s.setG c n v).waiters = s.waiters := rfl
@[simp] theorem State.setG_mapCopies (s : State) (c n : Nat) (v : Word) : (s.setG c n v).mapCopies = s.mapCopies := rfl
@[simp] theorem State.setG_tests (s : State) (c n : Nat) (v : Word) : (s.setG c n v).tests = s.tests := rfl
@[simp] theorem State.setG_streams (s : State) (c n : Nat) (v : Word) : (s.setG c n v).streams = s.streams := rfl
@[simp] theorem State.setG_rings (s : State) (c n : Nat) (v : Word) : (s.setG c n v).rings = s.rings := rfl
@[simp] theorem State.setG_htCopies (s : State) (c n : Nat) (v : Word) : (s.setG c n v).htCopies = s.htCopies := rfl
@[simp] theorem State.setG_lastRing (s : State) (c n : Nat) (v : Word) : (s.setG c n v).lastRing = s.lastRing := rfl
@[simp] theorem State.setG_dispatch (s : State) (c n : Nat) (v : Word) : (s.setG c n v).dispatch = s.dispatch := rfl
@[simp] theorem State.setG_colls (s : State) (c n : Nat) (v : Word) : (s.setG c n v).colls = s.colls := rfl
@[simp] theorem State.setG_heldColls (s : State) (c n : Nat) (v : Word) : (s.setG c n v).heldColls = s.heldColls := rfl
@[simp] theorem State.setG_freeCtr (s : State) (c n : Nat) (v : Word) : (s.setG c n v).freeCtr = s.freeCtr := rfl
@[simp] theorem State.setG_out (s : State) (c n : Nat) (v : Word) : (s.setG c n v).out = s.out := rfl
@[simp] theorem State.setG_pending (s : State) (c n : Nat) (v : Word) : (s.setG c n v).pending = s.pending := rfl

/-! modMat. -/

@[simp] theorem State.modMat_regs (s : State) (c : Nat) (f : MatSt → MatSt) : (s.modMat c f).regs = s.regs := rfl
@[simp] theorem State.modMat_mem (s : State) (c : Nat) (f : MatSt → MatSt) : (s.modMat c f).mem = s.mem := rfl
@[simp] theorem State.modMat_poison (s : State) (c : Nat) (f : MatSt → MatSt) : (s.modMat c f).poison = s.poison := rfl
@[simp] theorem State.modMat_fences (s : State) (c : Nat) (f : MatSt → MatSt) : (s.modMat c f).fences = s.fences := rfl
@[simp] theorem State.modMat_fenceSince (s : State) (c : Nat) (f : MatSt → MatSt) : (s.modMat c f).fenceSince = s.fenceSince := rfl
@[simp] theorem State.modMat_hotFolds (s : State) (c : Nat) (f : MatSt → MatSt) : (s.modMat c f).hotFolds = s.hotFolds := rfl
@[simp] theorem State.modMat_stallTick (s : State) (c : Nat) (f : MatSt → MatSt) : (s.modMat c f).stallTick = s.stallTick := rfl
@[simp] theorem State.modMat_thermLow (s : State) (c : Nat) (f : MatSt → MatSt) : (s.modMat c f).thermLow = s.thermLow := rfl
@[simp] theorem State.modMat_time (s : State) (c : Nat) (f : MatSt → MatSt) : (s.modMat c f).time = s.time := rfl
@[simp] theorem State.modMat_life (s : State) (c : Nat) (f : MatSt → MatSt) : (s.modMat c f).life = s.life := rfl
@[simp] theorem State.modMat_fused (s : State) (c : Nat) (f : MatSt → MatSt) : (s.modMat c f).fused = s.fused := rfl
@[simp] theorem State.modMat_fuse (s : State) (c : Nat) (f : MatSt → MatSt) : (s.modMat c f).fuse = s.fuse := rfl
@[simp] theorem State.modMat_procs (s : State) (c : Nat) (f : MatSt → MatSt) : (s.modMat c f).procs = s.procs := rfl
@[simp] theorem State.modMat_power (s : State) (c : Nat) (f : MatSt → MatSt) : (s.modMat c f).power = s.power := rfl
@[simp] theorem State.modMat_reset' (s : State) (c : Nat) (f : MatSt → MatSt) : (s.modMat c f).reset' = s.reset' := rfl
@[simp] theorem State.modMat_opTarget (s : State) (c : Nat) (f : MatSt → MatSt) : (s.modMat c f).opTarget = s.opTarget := rfl
@[simp] theorem State.modMat_log (s : State) (c : Nat) (f : MatSt → MatSt) : (s.modMat c f).log = s.log := rfl
@[simp] theorem State.modMat_host (s : State) (c : Nat) (f : MatSt → MatSt) : (s.modMat c f).host = s.host := rfl
@[simp] theorem State.modMat_tap (s : State) (c : Nat) (f : MatSt → MatSt) : (s.modMat c f).tap = s.tap := rfl
@[simp] theorem State.modMat_hubPaths (s : State) (c : Nat) (f : MatSt → MatSt) : (s.modMat c f).hubPaths = s.hubPaths := rfl
@[simp] theorem State.modMat_hubHeld (s : State) (c : Nat) (f : MatSt → MatSt) : (s.modMat c f).hubHeld = s.hubHeld := rfl
@[simp] theorem State.modMat_ports (s : State) (c : Nat) (f : MatSt → MatSt) : (s.modMat c f).ports = s.ports := rfl
@[simp] theorem State.modMat_replies (s : State) (c : Nat) (f : MatSt → MatSt) : (s.modMat c f).replies = s.replies := rfl
@[simp] theorem State.modMat_hostOps (s : State) (c : Nat) (f : MatSt → MatSt) : (s.modMat c f).hostOps = s.hostOps := rfl
@[simp] theorem State.modMat_l2 (s : State) (c : Nat) (f : MatSt → MatSt) : (s.modMat c f).l2 = s.l2 := rfl
@[simp] theorem State.modMat_patrol (s : State) (c : Nat) (f : MatSt → MatSt) : (s.modMat c f).patrol = s.patrol := rfl
@[simp] theorem State.modMat_pins (s : State) (c : Nat) (f : MatSt → MatSt) : (s.modMat c f).pins = s.pins := rfl
@[simp] theorem State.modMat_powerWait (s : State) (c : Nat) (f : MatSt → MatSt) : (s.modMat c f).powerWait = s.powerWait := rfl
@[simp] theorem State.modMat_arr (s : State) (c : Nat) (f : MatSt → MatSt) : (s.modMat c f).arr = s.arr := rfl
@[simp] theorem State.modMat_ctrPoison (s : State) (c : Nat) (f : MatSt → MatSt) : (s.modMat c f).ctrPoison = s.ctrPoison := rfl
@[simp] theorem State.modMat_waiters (s : State) (c : Nat) (f : MatSt → MatSt) : (s.modMat c f).waiters = s.waiters := rfl
@[simp] theorem State.modMat_mapCopies (s : State) (c : Nat) (f : MatSt → MatSt) : (s.modMat c f).mapCopies = s.mapCopies := rfl
@[simp] theorem State.modMat_tests (s : State) (c : Nat) (f : MatSt → MatSt) : (s.modMat c f).tests = s.tests := rfl
@[simp] theorem State.modMat_streams (s : State) (c : Nat) (f : MatSt → MatSt) : (s.modMat c f).streams = s.streams := rfl
@[simp] theorem State.modMat_rings (s : State) (c : Nat) (f : MatSt → MatSt) : (s.modMat c f).rings = s.rings := rfl
@[simp] theorem State.modMat_htCopies (s : State) (c : Nat) (f : MatSt → MatSt) : (s.modMat c f).htCopies = s.htCopies := rfl
@[simp] theorem State.modMat_lastRing (s : State) (c : Nat) (f : MatSt → MatSt) : (s.modMat c f).lastRing = s.lastRing := rfl
@[simp] theorem State.modMat_dispatch (s : State) (c : Nat) (f : MatSt → MatSt) : (s.modMat c f).dispatch = s.dispatch := rfl
@[simp] theorem State.modMat_colls (s : State) (c : Nat) (f : MatSt → MatSt) : (s.modMat c f).colls = s.colls := rfl
@[simp] theorem State.modMat_heldColls (s : State) (c : Nat) (f : MatSt → MatSt) : (s.modMat c f).heldColls = s.heldColls := rfl
@[simp] theorem State.modMat_freeCtr (s : State) (c : Nat) (f : MatSt → MatSt) : (s.modMat c f).freeCtr = s.freeCtr := rfl
@[simp] theorem State.modMat_out (s : State) (c : Nat) (f : MatSt → MatSt) : (s.modMat c f).out = s.out := rfl
@[simp] theorem State.modMat_pending (s : State) (c : Nat) (f : MatSt → MatSt) : (s.modMat c f).pending = s.pending := rfl

/-! modMov. -/

@[simp] theorem State.modMov_regs (s : State) (c : Nat) (f : MovSt → MovSt) : (s.modMov c f).regs = s.regs := rfl
@[simp] theorem State.modMov_mem (s : State) (c : Nat) (f : MovSt → MovSt) : (s.modMov c f).mem = s.mem := rfl
@[simp] theorem State.modMov_poison (s : State) (c : Nat) (f : MovSt → MovSt) : (s.modMov c f).poison = s.poison := rfl
@[simp] theorem State.modMov_fences (s : State) (c : Nat) (f : MovSt → MovSt) : (s.modMov c f).fences = s.fences := rfl
@[simp] theorem State.modMov_fenceSince (s : State) (c : Nat) (f : MovSt → MovSt) : (s.modMov c f).fenceSince = s.fenceSince := rfl
@[simp] theorem State.modMov_hotFolds (s : State) (c : Nat) (f : MovSt → MovSt) : (s.modMov c f).hotFolds = s.hotFolds := rfl
@[simp] theorem State.modMov_stallTick (s : State) (c : Nat) (f : MovSt → MovSt) : (s.modMov c f).stallTick = s.stallTick := rfl
@[simp] theorem State.modMov_thermLow (s : State) (c : Nat) (f : MovSt → MovSt) : (s.modMov c f).thermLow = s.thermLow := rfl
@[simp] theorem State.modMov_time (s : State) (c : Nat) (f : MovSt → MovSt) : (s.modMov c f).time = s.time := rfl
@[simp] theorem State.modMov_life (s : State) (c : Nat) (f : MovSt → MovSt) : (s.modMov c f).life = s.life := rfl
@[simp] theorem State.modMov_fused (s : State) (c : Nat) (f : MovSt → MovSt) : (s.modMov c f).fused = s.fused := rfl
@[simp] theorem State.modMov_fuse (s : State) (c : Nat) (f : MovSt → MovSt) : (s.modMov c f).fuse = s.fuse := rfl
@[simp] theorem State.modMov_procs (s : State) (c : Nat) (f : MovSt → MovSt) : (s.modMov c f).procs = s.procs := rfl
@[simp] theorem State.modMov_power (s : State) (c : Nat) (f : MovSt → MovSt) : (s.modMov c f).power = s.power := rfl
@[simp] theorem State.modMov_reset' (s : State) (c : Nat) (f : MovSt → MovSt) : (s.modMov c f).reset' = s.reset' := rfl
@[simp] theorem State.modMov_opTarget (s : State) (c : Nat) (f : MovSt → MovSt) : (s.modMov c f).opTarget = s.opTarget := rfl
@[simp] theorem State.modMov_log (s : State) (c : Nat) (f : MovSt → MovSt) : (s.modMov c f).log = s.log := rfl
@[simp] theorem State.modMov_host (s : State) (c : Nat) (f : MovSt → MovSt) : (s.modMov c f).host = s.host := rfl
@[simp] theorem State.modMov_tap (s : State) (c : Nat) (f : MovSt → MovSt) : (s.modMov c f).tap = s.tap := rfl
@[simp] theorem State.modMov_hubPaths (s : State) (c : Nat) (f : MovSt → MovSt) : (s.modMov c f).hubPaths = s.hubPaths := rfl
@[simp] theorem State.modMov_hubHeld (s : State) (c : Nat) (f : MovSt → MovSt) : (s.modMov c f).hubHeld = s.hubHeld := rfl
@[simp] theorem State.modMov_ports (s : State) (c : Nat) (f : MovSt → MovSt) : (s.modMov c f).ports = s.ports := rfl
@[simp] theorem State.modMov_replies (s : State) (c : Nat) (f : MovSt → MovSt) : (s.modMov c f).replies = s.replies := rfl
@[simp] theorem State.modMov_hostOps (s : State) (c : Nat) (f : MovSt → MovSt) : (s.modMov c f).hostOps = s.hostOps := rfl
@[simp] theorem State.modMov_l2 (s : State) (c : Nat) (f : MovSt → MovSt) : (s.modMov c f).l2 = s.l2 := rfl
@[simp] theorem State.modMov_patrol (s : State) (c : Nat) (f : MovSt → MovSt) : (s.modMov c f).patrol = s.patrol := rfl
@[simp] theorem State.modMov_pins (s : State) (c : Nat) (f : MovSt → MovSt) : (s.modMov c f).pins = s.pins := rfl
@[simp] theorem State.modMov_powerWait (s : State) (c : Nat) (f : MovSt → MovSt) : (s.modMov c f).powerWait = s.powerWait := rfl
@[simp] theorem State.modMov_arr (s : State) (c : Nat) (f : MovSt → MovSt) : (s.modMov c f).arr = s.arr := rfl
@[simp] theorem State.modMov_ctrPoison (s : State) (c : Nat) (f : MovSt → MovSt) : (s.modMov c f).ctrPoison = s.ctrPoison := rfl
@[simp] theorem State.modMov_waiters (s : State) (c : Nat) (f : MovSt → MovSt) : (s.modMov c f).waiters = s.waiters := rfl
@[simp] theorem State.modMov_mapCopies (s : State) (c : Nat) (f : MovSt → MovSt) : (s.modMov c f).mapCopies = s.mapCopies := rfl
@[simp] theorem State.modMov_tests (s : State) (c : Nat) (f : MovSt → MovSt) : (s.modMov c f).tests = s.tests := rfl
@[simp] theorem State.modMov_streams (s : State) (c : Nat) (f : MovSt → MovSt) : (s.modMov c f).streams = s.streams := rfl
@[simp] theorem State.modMov_rings (s : State) (c : Nat) (f : MovSt → MovSt) : (s.modMov c f).rings = s.rings := rfl
@[simp] theorem State.modMov_htCopies (s : State) (c : Nat) (f : MovSt → MovSt) : (s.modMov c f).htCopies = s.htCopies := rfl
@[simp] theorem State.modMov_lastRing (s : State) (c : Nat) (f : MovSt → MovSt) : (s.modMov c f).lastRing = s.lastRing := rfl
@[simp] theorem State.modMov_dispatch (s : State) (c : Nat) (f : MovSt → MovSt) : (s.modMov c f).dispatch = s.dispatch := rfl
@[simp] theorem State.modMov_colls (s : State) (c : Nat) (f : MovSt → MovSt) : (s.modMov c f).colls = s.colls := rfl
@[simp] theorem State.modMov_heldColls (s : State) (c : Nat) (f : MovSt → MovSt) : (s.modMov c f).heldColls = s.heldColls := rfl
@[simp] theorem State.modMov_freeCtr (s : State) (c : Nat) (f : MovSt → MovSt) : (s.modMov c f).freeCtr = s.freeCtr := rfl
@[simp] theorem State.modMov_out (s : State) (c : Nat) (f : MovSt → MovSt) : (s.modMov c f).out = s.out := rfl
@[simp] theorem State.modMov_pending (s : State) (c : Nat) (f : MovSt → MovSt) : (s.modMov c f).pending = s.pending := rfl

/-! modWhisk. -/

@[simp] theorem State.modWhisk_regs (s : State) (c : Nat) (f : WhiskSt → WhiskSt) : (s.modWhisk c f).regs = s.regs := rfl
@[simp] theorem State.modWhisk_mem (s : State) (c : Nat) (f : WhiskSt → WhiskSt) : (s.modWhisk c f).mem = s.mem := rfl
@[simp] theorem State.modWhisk_poison (s : State) (c : Nat) (f : WhiskSt → WhiskSt) : (s.modWhisk c f).poison = s.poison := rfl
@[simp] theorem State.modWhisk_fences (s : State) (c : Nat) (f : WhiskSt → WhiskSt) : (s.modWhisk c f).fences = s.fences := rfl
@[simp] theorem State.modWhisk_fenceSince (s : State) (c : Nat) (f : WhiskSt → WhiskSt) : (s.modWhisk c f).fenceSince = s.fenceSince := rfl
@[simp] theorem State.modWhisk_hotFolds (s : State) (c : Nat) (f : WhiskSt → WhiskSt) : (s.modWhisk c f).hotFolds = s.hotFolds := rfl
@[simp] theorem State.modWhisk_stallTick (s : State) (c : Nat) (f : WhiskSt → WhiskSt) : (s.modWhisk c f).stallTick = s.stallTick := rfl
@[simp] theorem State.modWhisk_thermLow (s : State) (c : Nat) (f : WhiskSt → WhiskSt) : (s.modWhisk c f).thermLow = s.thermLow := rfl
@[simp] theorem State.modWhisk_time (s : State) (c : Nat) (f : WhiskSt → WhiskSt) : (s.modWhisk c f).time = s.time := rfl
@[simp] theorem State.modWhisk_life (s : State) (c : Nat) (f : WhiskSt → WhiskSt) : (s.modWhisk c f).life = s.life := rfl
@[simp] theorem State.modWhisk_fused (s : State) (c : Nat) (f : WhiskSt → WhiskSt) : (s.modWhisk c f).fused = s.fused := rfl
@[simp] theorem State.modWhisk_fuse (s : State) (c : Nat) (f : WhiskSt → WhiskSt) : (s.modWhisk c f).fuse = s.fuse := rfl
@[simp] theorem State.modWhisk_procs (s : State) (c : Nat) (f : WhiskSt → WhiskSt) : (s.modWhisk c f).procs = s.procs := rfl
@[simp] theorem State.modWhisk_power (s : State) (c : Nat) (f : WhiskSt → WhiskSt) : (s.modWhisk c f).power = s.power := rfl
@[simp] theorem State.modWhisk_reset' (s : State) (c : Nat) (f : WhiskSt → WhiskSt) : (s.modWhisk c f).reset' = s.reset' := rfl
@[simp] theorem State.modWhisk_opTarget (s : State) (c : Nat) (f : WhiskSt → WhiskSt) : (s.modWhisk c f).opTarget = s.opTarget := rfl
@[simp] theorem State.modWhisk_log (s : State) (c : Nat) (f : WhiskSt → WhiskSt) : (s.modWhisk c f).log = s.log := rfl
@[simp] theorem State.modWhisk_host (s : State) (c : Nat) (f : WhiskSt → WhiskSt) : (s.modWhisk c f).host = s.host := rfl
@[simp] theorem State.modWhisk_tap (s : State) (c : Nat) (f : WhiskSt → WhiskSt) : (s.modWhisk c f).tap = s.tap := rfl
@[simp] theorem State.modWhisk_hubPaths (s : State) (c : Nat) (f : WhiskSt → WhiskSt) : (s.modWhisk c f).hubPaths = s.hubPaths := rfl
@[simp] theorem State.modWhisk_hubHeld (s : State) (c : Nat) (f : WhiskSt → WhiskSt) : (s.modWhisk c f).hubHeld = s.hubHeld := rfl
@[simp] theorem State.modWhisk_ports (s : State) (c : Nat) (f : WhiskSt → WhiskSt) : (s.modWhisk c f).ports = s.ports := rfl
@[simp] theorem State.modWhisk_replies (s : State) (c : Nat) (f : WhiskSt → WhiskSt) : (s.modWhisk c f).replies = s.replies := rfl
@[simp] theorem State.modWhisk_hostOps (s : State) (c : Nat) (f : WhiskSt → WhiskSt) : (s.modWhisk c f).hostOps = s.hostOps := rfl
@[simp] theorem State.modWhisk_l2 (s : State) (c : Nat) (f : WhiskSt → WhiskSt) : (s.modWhisk c f).l2 = s.l2 := rfl
@[simp] theorem State.modWhisk_patrol (s : State) (c : Nat) (f : WhiskSt → WhiskSt) : (s.modWhisk c f).patrol = s.patrol := rfl
@[simp] theorem State.modWhisk_pins (s : State) (c : Nat) (f : WhiskSt → WhiskSt) : (s.modWhisk c f).pins = s.pins := rfl
@[simp] theorem State.modWhisk_powerWait (s : State) (c : Nat) (f : WhiskSt → WhiskSt) : (s.modWhisk c f).powerWait = s.powerWait := rfl
@[simp] theorem State.modWhisk_arr (s : State) (c : Nat) (f : WhiskSt → WhiskSt) : (s.modWhisk c f).arr = s.arr := rfl
@[simp] theorem State.modWhisk_ctrPoison (s : State) (c : Nat) (f : WhiskSt → WhiskSt) : (s.modWhisk c f).ctrPoison = s.ctrPoison := rfl
@[simp] theorem State.modWhisk_waiters (s : State) (c : Nat) (f : WhiskSt → WhiskSt) : (s.modWhisk c f).waiters = s.waiters := rfl
@[simp] theorem State.modWhisk_mapCopies (s : State) (c : Nat) (f : WhiskSt → WhiskSt) : (s.modWhisk c f).mapCopies = s.mapCopies := rfl
@[simp] theorem State.modWhisk_tests (s : State) (c : Nat) (f : WhiskSt → WhiskSt) : (s.modWhisk c f).tests = s.tests := rfl
@[simp] theorem State.modWhisk_streams (s : State) (c : Nat) (f : WhiskSt → WhiskSt) : (s.modWhisk c f).streams = s.streams := rfl
@[simp] theorem State.modWhisk_rings (s : State) (c : Nat) (f : WhiskSt → WhiskSt) : (s.modWhisk c f).rings = s.rings := rfl
@[simp] theorem State.modWhisk_htCopies (s : State) (c : Nat) (f : WhiskSt → WhiskSt) : (s.modWhisk c f).htCopies = s.htCopies := rfl
@[simp] theorem State.modWhisk_lastRing (s : State) (c : Nat) (f : WhiskSt → WhiskSt) : (s.modWhisk c f).lastRing = s.lastRing := rfl
@[simp] theorem State.modWhisk_dispatch (s : State) (c : Nat) (f : WhiskSt → WhiskSt) : (s.modWhisk c f).dispatch = s.dispatch := rfl
@[simp] theorem State.modWhisk_colls (s : State) (c : Nat) (f : WhiskSt → WhiskSt) : (s.modWhisk c f).colls = s.colls := rfl
@[simp] theorem State.modWhisk_heldColls (s : State) (c : Nat) (f : WhiskSt → WhiskSt) : (s.modWhisk c f).heldColls = s.heldColls := rfl
@[simp] theorem State.modWhisk_freeCtr (s : State) (c : Nat) (f : WhiskSt → WhiskSt) : (s.modWhisk c f).freeCtr = s.freeCtr := rfl
@[simp] theorem State.modWhisk_out (s : State) (c : Nat) (f : WhiskSt → WhiskSt) : (s.modWhisk c f).out = s.out := rfl
@[simp] theorem State.modWhisk_pending (s : State) (c : Nat) (f : WhiskSt → WhiskSt) : (s.modWhisk c f).pending = s.pending := rfl

/-! setQueue. -/

@[simp] theorem State.setQueue_regs (s : State) (c e : Nat) (q : List EWord) : (s.setQueue c e q).regs = s.regs := rfl
@[simp] theorem State.setQueue_mem (s : State) (c e : Nat) (q : List EWord) : (s.setQueue c e q).mem = s.mem := rfl
@[simp] theorem State.setQueue_poison (s : State) (c e : Nat) (q : List EWord) : (s.setQueue c e q).poison = s.poison := rfl
@[simp] theorem State.setQueue_fences (s : State) (c e : Nat) (q : List EWord) : (s.setQueue c e q).fences = s.fences := rfl
@[simp] theorem State.setQueue_fenceSince (s : State) (c e : Nat) (q : List EWord) : (s.setQueue c e q).fenceSince = s.fenceSince := rfl
@[simp] theorem State.setQueue_hotFolds (s : State) (c e : Nat) (q : List EWord) : (s.setQueue c e q).hotFolds = s.hotFolds := rfl
@[simp] theorem State.setQueue_stallTick (s : State) (c e : Nat) (q : List EWord) : (s.setQueue c e q).stallTick = s.stallTick := rfl
@[simp] theorem State.setQueue_thermLow (s : State) (c e : Nat) (q : List EWord) : (s.setQueue c e q).thermLow = s.thermLow := rfl
@[simp] theorem State.setQueue_time (s : State) (c e : Nat) (q : List EWord) : (s.setQueue c e q).time = s.time := rfl
@[simp] theorem State.setQueue_life (s : State) (c e : Nat) (q : List EWord) : (s.setQueue c e q).life = s.life := rfl
@[simp] theorem State.setQueue_fused (s : State) (c e : Nat) (q : List EWord) : (s.setQueue c e q).fused = s.fused := rfl
@[simp] theorem State.setQueue_fuse (s : State) (c e : Nat) (q : List EWord) : (s.setQueue c e q).fuse = s.fuse := rfl
@[simp] theorem State.setQueue_procs (s : State) (c e : Nat) (q : List EWord) : (s.setQueue c e q).procs = s.procs := rfl
@[simp] theorem State.setQueue_power (s : State) (c e : Nat) (q : List EWord) : (s.setQueue c e q).power = s.power := rfl
@[simp] theorem State.setQueue_reset' (s : State) (c e : Nat) (q : List EWord) : (s.setQueue c e q).reset' = s.reset' := rfl
@[simp] theorem State.setQueue_opTarget (s : State) (c e : Nat) (q : List EWord) : (s.setQueue c e q).opTarget = s.opTarget := rfl
@[simp] theorem State.setQueue_log (s : State) (c e : Nat) (q : List EWord) : (s.setQueue c e q).log = s.log := rfl
@[simp] theorem State.setQueue_host (s : State) (c e : Nat) (q : List EWord) : (s.setQueue c e q).host = s.host := rfl
@[simp] theorem State.setQueue_tap (s : State) (c e : Nat) (q : List EWord) : (s.setQueue c e q).tap = s.tap := rfl
@[simp] theorem State.setQueue_hubPaths (s : State) (c e : Nat) (q : List EWord) : (s.setQueue c e q).hubPaths = s.hubPaths := rfl
@[simp] theorem State.setQueue_hubHeld (s : State) (c e : Nat) (q : List EWord) : (s.setQueue c e q).hubHeld = s.hubHeld := rfl
@[simp] theorem State.setQueue_ports (s : State) (c e : Nat) (q : List EWord) : (s.setQueue c e q).ports = s.ports := rfl
@[simp] theorem State.setQueue_replies (s : State) (c e : Nat) (q : List EWord) : (s.setQueue c e q).replies = s.replies := rfl
@[simp] theorem State.setQueue_hostOps (s : State) (c e : Nat) (q : List EWord) : (s.setQueue c e q).hostOps = s.hostOps := rfl
@[simp] theorem State.setQueue_l2 (s : State) (c e : Nat) (q : List EWord) : (s.setQueue c e q).l2 = s.l2 := rfl
@[simp] theorem State.setQueue_patrol (s : State) (c e : Nat) (q : List EWord) : (s.setQueue c e q).patrol = s.patrol := rfl
@[simp] theorem State.setQueue_pins (s : State) (c e : Nat) (q : List EWord) : (s.setQueue c e q).pins = s.pins := rfl
@[simp] theorem State.setQueue_powerWait (s : State) (c e : Nat) (q : List EWord) : (s.setQueue c e q).powerWait = s.powerWait := rfl
@[simp] theorem State.setQueue_arr (s : State) (c e : Nat) (q : List EWord) : (s.setQueue c e q).arr = s.arr := rfl
@[simp] theorem State.setQueue_ctrPoison (s : State) (c e : Nat) (q : List EWord) : (s.setQueue c e q).ctrPoison = s.ctrPoison := rfl
@[simp] theorem State.setQueue_waiters (s : State) (c e : Nat) (q : List EWord) : (s.setQueue c e q).waiters = s.waiters := rfl
@[simp] theorem State.setQueue_mapCopies (s : State) (c e : Nat) (q : List EWord) : (s.setQueue c e q).mapCopies = s.mapCopies := rfl
@[simp] theorem State.setQueue_tests (s : State) (c e : Nat) (q : List EWord) : (s.setQueue c e q).tests = s.tests := rfl
@[simp] theorem State.setQueue_streams (s : State) (c e : Nat) (q : List EWord) : (s.setQueue c e q).streams = s.streams := rfl
@[simp] theorem State.setQueue_rings (s : State) (c e : Nat) (q : List EWord) : (s.setQueue c e q).rings = s.rings := rfl
@[simp] theorem State.setQueue_htCopies (s : State) (c e : Nat) (q : List EWord) : (s.setQueue c e q).htCopies = s.htCopies := rfl
@[simp] theorem State.setQueue_lastRing (s : State) (c e : Nat) (q : List EWord) : (s.setQueue c e q).lastRing = s.lastRing := rfl
@[simp] theorem State.setQueue_dispatch (s : State) (c e : Nat) (q : List EWord) : (s.setQueue c e q).dispatch = s.dispatch := rfl
@[simp] theorem State.setQueue_colls (s : State) (c e : Nat) (q : List EWord) : (s.setQueue c e q).colls = s.colls := rfl
@[simp] theorem State.setQueue_heldColls (s : State) (c e : Nat) (q : List EWord) : (s.setQueue c e q).heldColls = s.heldColls := rfl
@[simp] theorem State.setQueue_freeCtr (s : State) (c e : Nat) (q : List EWord) : (s.setQueue c e q).freeCtr = s.freeCtr := rfl
@[simp] theorem State.setQueue_out (s : State) (c e : Nat) (q : List EWord) : (s.setQueue c e q).out = s.out := rfl
@[simp] theorem State.setQueue_pending (s : State) (c e : Nat) (q : List EWord) : (s.setQueue c e q).pending = s.pending := rfl

/-! modProc. -/

@[simp] theorem State.modProc_regs (s : State) (n : Nat) (f : ProcSt → ProcSt) : (s.modProc n f).regs = s.regs := rfl
@[simp] theorem State.modProc_mem (s : State) (n : Nat) (f : ProcSt → ProcSt) : (s.modProc n f).mem = s.mem := rfl
@[simp] theorem State.modProc_poison (s : State) (n : Nat) (f : ProcSt → ProcSt) : (s.modProc n f).poison = s.poison := rfl
@[simp] theorem State.modProc_cores (s : State) (n : Nat) (f : ProcSt → ProcSt) : (s.modProc n f).cores = s.cores := rfl
@[simp] theorem State.modProc_fences (s : State) (n : Nat) (f : ProcSt → ProcSt) : (s.modProc n f).fences = s.fences := rfl
@[simp] theorem State.modProc_fenceSince (s : State) (n : Nat) (f : ProcSt → ProcSt) : (s.modProc n f).fenceSince = s.fenceSince := rfl
@[simp] theorem State.modProc_hotFolds (s : State) (n : Nat) (f : ProcSt → ProcSt) : (s.modProc n f).hotFolds = s.hotFolds := rfl
@[simp] theorem State.modProc_stallTick (s : State) (n : Nat) (f : ProcSt → ProcSt) : (s.modProc n f).stallTick = s.stallTick := rfl
@[simp] theorem State.modProc_thermLow (s : State) (n : Nat) (f : ProcSt → ProcSt) : (s.modProc n f).thermLow = s.thermLow := rfl
@[simp] theorem State.modProc_time (s : State) (n : Nat) (f : ProcSt → ProcSt) : (s.modProc n f).time = s.time := rfl
@[simp] theorem State.modProc_life (s : State) (n : Nat) (f : ProcSt → ProcSt) : (s.modProc n f).life = s.life := rfl
@[simp] theorem State.modProc_fused (s : State) (n : Nat) (f : ProcSt → ProcSt) : (s.modProc n f).fused = s.fused := rfl
@[simp] theorem State.modProc_fuse (s : State) (n : Nat) (f : ProcSt → ProcSt) : (s.modProc n f).fuse = s.fuse := rfl
@[simp] theorem State.modProc_power (s : State) (n : Nat) (f : ProcSt → ProcSt) : (s.modProc n f).power = s.power := rfl
@[simp] theorem State.modProc_reset' (s : State) (n : Nat) (f : ProcSt → ProcSt) : (s.modProc n f).reset' = s.reset' := rfl
@[simp] theorem State.modProc_opTarget (s : State) (n : Nat) (f : ProcSt → ProcSt) : (s.modProc n f).opTarget = s.opTarget := rfl
@[simp] theorem State.modProc_log (s : State) (n : Nat) (f : ProcSt → ProcSt) : (s.modProc n f).log = s.log := rfl
@[simp] theorem State.modProc_host (s : State) (n : Nat) (f : ProcSt → ProcSt) : (s.modProc n f).host = s.host := rfl
@[simp] theorem State.modProc_tap (s : State) (n : Nat) (f : ProcSt → ProcSt) : (s.modProc n f).tap = s.tap := rfl
@[simp] theorem State.modProc_hubPaths (s : State) (n : Nat) (f : ProcSt → ProcSt) : (s.modProc n f).hubPaths = s.hubPaths := rfl
@[simp] theorem State.modProc_hubHeld (s : State) (n : Nat) (f : ProcSt → ProcSt) : (s.modProc n f).hubHeld = s.hubHeld := rfl
@[simp] theorem State.modProc_ports (s : State) (n : Nat) (f : ProcSt → ProcSt) : (s.modProc n f).ports = s.ports := rfl
@[simp] theorem State.modProc_replies (s : State) (n : Nat) (f : ProcSt → ProcSt) : (s.modProc n f).replies = s.replies := rfl
@[simp] theorem State.modProc_hostOps (s : State) (n : Nat) (f : ProcSt → ProcSt) : (s.modProc n f).hostOps = s.hostOps := rfl
@[simp] theorem State.modProc_l2 (s : State) (n : Nat) (f : ProcSt → ProcSt) : (s.modProc n f).l2 = s.l2 := rfl
@[simp] theorem State.modProc_patrol (s : State) (n : Nat) (f : ProcSt → ProcSt) : (s.modProc n f).patrol = s.patrol := rfl
@[simp] theorem State.modProc_pins (s : State) (n : Nat) (f : ProcSt → ProcSt) : (s.modProc n f).pins = s.pins := rfl
@[simp] theorem State.modProc_powerWait (s : State) (n : Nat) (f : ProcSt → ProcSt) : (s.modProc n f).powerWait = s.powerWait := rfl
@[simp] theorem State.modProc_arr (s : State) (n : Nat) (f : ProcSt → ProcSt) : (s.modProc n f).arr = s.arr := rfl
@[simp] theorem State.modProc_ctrPoison (s : State) (n : Nat) (f : ProcSt → ProcSt) : (s.modProc n f).ctrPoison = s.ctrPoison := rfl
@[simp] theorem State.modProc_waiters (s : State) (n : Nat) (f : ProcSt → ProcSt) : (s.modProc n f).waiters = s.waiters := rfl
@[simp] theorem State.modProc_mapCopies (s : State) (n : Nat) (f : ProcSt → ProcSt) : (s.modProc n f).mapCopies = s.mapCopies := rfl
@[simp] theorem State.modProc_tests (s : State) (n : Nat) (f : ProcSt → ProcSt) : (s.modProc n f).tests = s.tests := rfl
@[simp] theorem State.modProc_streams (s : State) (n : Nat) (f : ProcSt → ProcSt) : (s.modProc n f).streams = s.streams := rfl
@[simp] theorem State.modProc_rings (s : State) (n : Nat) (f : ProcSt → ProcSt) : (s.modProc n f).rings = s.rings := rfl
@[simp] theorem State.modProc_htCopies (s : State) (n : Nat) (f : ProcSt → ProcSt) : (s.modProc n f).htCopies = s.htCopies := rfl
@[simp] theorem State.modProc_lastRing (s : State) (n : Nat) (f : ProcSt → ProcSt) : (s.modProc n f).lastRing = s.lastRing := rfl
@[simp] theorem State.modProc_dispatch (s : State) (n : Nat) (f : ProcSt → ProcSt) : (s.modProc n f).dispatch = s.dispatch := rfl
@[simp] theorem State.modProc_colls (s : State) (n : Nat) (f : ProcSt → ProcSt) : (s.modProc n f).colls = s.colls := rfl
@[simp] theorem State.modProc_heldColls (s : State) (n : Nat) (f : ProcSt → ProcSt) : (s.modProc n f).heldColls = s.heldColls := rfl
@[simp] theorem State.modProc_freeCtr (s : State) (n : Nat) (f : ProcSt → ProcSt) : (s.modProc n f).freeCtr = s.freeCtr := rfl
@[simp] theorem State.modProc_out (s : State) (n : Nat) (f : ProcSt → ProcSt) : (s.modProc n f).out = s.out := rfl
@[simp] theorem State.modProc_pending (s : State) (n : Nat) (f : ProcSt → ProcSt) : (s.modProc n f).pending = s.pending := rfl

/-! modPort. -/

@[simp] theorem State.modPort_regs (s : State) (p : Nat) (f : PortSt → PortSt) : (s.modPort p f).regs = s.regs := rfl
@[simp] theorem State.modPort_mem (s : State) (p : Nat) (f : PortSt → PortSt) : (s.modPort p f).mem = s.mem := rfl
@[simp] theorem State.modPort_poison (s : State) (p : Nat) (f : PortSt → PortSt) : (s.modPort p f).poison = s.poison := rfl
@[simp] theorem State.modPort_cores (s : State) (p : Nat) (f : PortSt → PortSt) : (s.modPort p f).cores = s.cores := rfl
@[simp] theorem State.modPort_fences (s : State) (p : Nat) (f : PortSt → PortSt) : (s.modPort p f).fences = s.fences := rfl
@[simp] theorem State.modPort_fenceSince (s : State) (p : Nat) (f : PortSt → PortSt) : (s.modPort p f).fenceSince = s.fenceSince := rfl
@[simp] theorem State.modPort_hotFolds (s : State) (p : Nat) (f : PortSt → PortSt) : (s.modPort p f).hotFolds = s.hotFolds := rfl
@[simp] theorem State.modPort_stallTick (s : State) (p : Nat) (f : PortSt → PortSt) : (s.modPort p f).stallTick = s.stallTick := rfl
@[simp] theorem State.modPort_thermLow (s : State) (p : Nat) (f : PortSt → PortSt) : (s.modPort p f).thermLow = s.thermLow := rfl
@[simp] theorem State.modPort_time (s : State) (p : Nat) (f : PortSt → PortSt) : (s.modPort p f).time = s.time := rfl
@[simp] theorem State.modPort_life (s : State) (p : Nat) (f : PortSt → PortSt) : (s.modPort p f).life = s.life := rfl
@[simp] theorem State.modPort_fused (s : State) (p : Nat) (f : PortSt → PortSt) : (s.modPort p f).fused = s.fused := rfl
@[simp] theorem State.modPort_fuse (s : State) (p : Nat) (f : PortSt → PortSt) : (s.modPort p f).fuse = s.fuse := rfl
@[simp] theorem State.modPort_procs (s : State) (p : Nat) (f : PortSt → PortSt) : (s.modPort p f).procs = s.procs := rfl
@[simp] theorem State.modPort_power (s : State) (p : Nat) (f : PortSt → PortSt) : (s.modPort p f).power = s.power := rfl
@[simp] theorem State.modPort_reset' (s : State) (p : Nat) (f : PortSt → PortSt) : (s.modPort p f).reset' = s.reset' := rfl
@[simp] theorem State.modPort_opTarget (s : State) (p : Nat) (f : PortSt → PortSt) : (s.modPort p f).opTarget = s.opTarget := rfl
@[simp] theorem State.modPort_log (s : State) (p : Nat) (f : PortSt → PortSt) : (s.modPort p f).log = s.log := rfl
@[simp] theorem State.modPort_host (s : State) (p : Nat) (f : PortSt → PortSt) : (s.modPort p f).host = s.host := rfl
@[simp] theorem State.modPort_tap (s : State) (p : Nat) (f : PortSt → PortSt) : (s.modPort p f).tap = s.tap := rfl
@[simp] theorem State.modPort_hubPaths (s : State) (p : Nat) (f : PortSt → PortSt) : (s.modPort p f).hubPaths = s.hubPaths := rfl
@[simp] theorem State.modPort_hubHeld (s : State) (p : Nat) (f : PortSt → PortSt) : (s.modPort p f).hubHeld = s.hubHeld := rfl
@[simp] theorem State.modPort_replies (s : State) (p : Nat) (f : PortSt → PortSt) : (s.modPort p f).replies = s.replies := rfl
@[simp] theorem State.modPort_hostOps (s : State) (p : Nat) (f : PortSt → PortSt) : (s.modPort p f).hostOps = s.hostOps := rfl
@[simp] theorem State.modPort_l2 (s : State) (p : Nat) (f : PortSt → PortSt) : (s.modPort p f).l2 = s.l2 := rfl
@[simp] theorem State.modPort_patrol (s : State) (p : Nat) (f : PortSt → PortSt) : (s.modPort p f).patrol = s.patrol := rfl
@[simp] theorem State.modPort_pins (s : State) (p : Nat) (f : PortSt → PortSt) : (s.modPort p f).pins = s.pins := rfl
@[simp] theorem State.modPort_powerWait (s : State) (p : Nat) (f : PortSt → PortSt) : (s.modPort p f).powerWait = s.powerWait := rfl
@[simp] theorem State.modPort_arr (s : State) (p : Nat) (f : PortSt → PortSt) : (s.modPort p f).arr = s.arr := rfl
@[simp] theorem State.modPort_ctrPoison (s : State) (p : Nat) (f : PortSt → PortSt) : (s.modPort p f).ctrPoison = s.ctrPoison := rfl
@[simp] theorem State.modPort_waiters (s : State) (p : Nat) (f : PortSt → PortSt) : (s.modPort p f).waiters = s.waiters := rfl
@[simp] theorem State.modPort_mapCopies (s : State) (p : Nat) (f : PortSt → PortSt) : (s.modPort p f).mapCopies = s.mapCopies := rfl
@[simp] theorem State.modPort_tests (s : State) (p : Nat) (f : PortSt → PortSt) : (s.modPort p f).tests = s.tests := rfl
@[simp] theorem State.modPort_streams (s : State) (p : Nat) (f : PortSt → PortSt) : (s.modPort p f).streams = s.streams := rfl
@[simp] theorem State.modPort_rings (s : State) (p : Nat) (f : PortSt → PortSt) : (s.modPort p f).rings = s.rings := rfl
@[simp] theorem State.modPort_htCopies (s : State) (p : Nat) (f : PortSt → PortSt) : (s.modPort p f).htCopies = s.htCopies := rfl
@[simp] theorem State.modPort_lastRing (s : State) (p : Nat) (f : PortSt → PortSt) : (s.modPort p f).lastRing = s.lastRing := rfl
@[simp] theorem State.modPort_dispatch (s : State) (p : Nat) (f : PortSt → PortSt) : (s.modPort p f).dispatch = s.dispatch := rfl
@[simp] theorem State.modPort_colls (s : State) (p : Nat) (f : PortSt → PortSt) : (s.modPort p f).colls = s.colls := rfl
@[simp] theorem State.modPort_heldColls (s : State) (p : Nat) (f : PortSt → PortSt) : (s.modPort p f).heldColls = s.heldColls := rfl
@[simp] theorem State.modPort_freeCtr (s : State) (p : Nat) (f : PortSt → PortSt) : (s.modPort p f).freeCtr = s.freeCtr := rfl
@[simp] theorem State.modPort_out (s : State) (p : Nat) (f : PortSt → PortSt) : (s.modPort p f).out = s.out := rfl
@[simp] theorem State.modPort_pending (s : State) (p : Nat) (f : PortSt → PortSt) : (s.modPort p f).pending = s.pending := rfl

/-! modRing. -/

@[simp] theorem State.modRing_regs (s : State) (r : Nat) (f : RingSt → RingSt) : (s.modRing r f).regs = s.regs := rfl
@[simp] theorem State.modRing_mem (s : State) (r : Nat) (f : RingSt → RingSt) : (s.modRing r f).mem = s.mem := rfl
@[simp] theorem State.modRing_poison (s : State) (r : Nat) (f : RingSt → RingSt) : (s.modRing r f).poison = s.poison := rfl
@[simp] theorem State.modRing_cores (s : State) (r : Nat) (f : RingSt → RingSt) : (s.modRing r f).cores = s.cores := rfl
@[simp] theorem State.modRing_fences (s : State) (r : Nat) (f : RingSt → RingSt) : (s.modRing r f).fences = s.fences := rfl
@[simp] theorem State.modRing_fenceSince (s : State) (r : Nat) (f : RingSt → RingSt) : (s.modRing r f).fenceSince = s.fenceSince := rfl
@[simp] theorem State.modRing_hotFolds (s : State) (r : Nat) (f : RingSt → RingSt) : (s.modRing r f).hotFolds = s.hotFolds := rfl
@[simp] theorem State.modRing_stallTick (s : State) (r : Nat) (f : RingSt → RingSt) : (s.modRing r f).stallTick = s.stallTick := rfl
@[simp] theorem State.modRing_thermLow (s : State) (r : Nat) (f : RingSt → RingSt) : (s.modRing r f).thermLow = s.thermLow := rfl
@[simp] theorem State.modRing_time (s : State) (r : Nat) (f : RingSt → RingSt) : (s.modRing r f).time = s.time := rfl
@[simp] theorem State.modRing_life (s : State) (r : Nat) (f : RingSt → RingSt) : (s.modRing r f).life = s.life := rfl
@[simp] theorem State.modRing_fused (s : State) (r : Nat) (f : RingSt → RingSt) : (s.modRing r f).fused = s.fused := rfl
@[simp] theorem State.modRing_fuse (s : State) (r : Nat) (f : RingSt → RingSt) : (s.modRing r f).fuse = s.fuse := rfl
@[simp] theorem State.modRing_procs (s : State) (r : Nat) (f : RingSt → RingSt) : (s.modRing r f).procs = s.procs := rfl
@[simp] theorem State.modRing_power (s : State) (r : Nat) (f : RingSt → RingSt) : (s.modRing r f).power = s.power := rfl
@[simp] theorem State.modRing_reset' (s : State) (r : Nat) (f : RingSt → RingSt) : (s.modRing r f).reset' = s.reset' := rfl
@[simp] theorem State.modRing_opTarget (s : State) (r : Nat) (f : RingSt → RingSt) : (s.modRing r f).opTarget = s.opTarget := rfl
@[simp] theorem State.modRing_log (s : State) (r : Nat) (f : RingSt → RingSt) : (s.modRing r f).log = s.log := rfl
@[simp] theorem State.modRing_host (s : State) (r : Nat) (f : RingSt → RingSt) : (s.modRing r f).host = s.host := rfl
@[simp] theorem State.modRing_tap (s : State) (r : Nat) (f : RingSt → RingSt) : (s.modRing r f).tap = s.tap := rfl
@[simp] theorem State.modRing_hubPaths (s : State) (r : Nat) (f : RingSt → RingSt) : (s.modRing r f).hubPaths = s.hubPaths := rfl
@[simp] theorem State.modRing_hubHeld (s : State) (r : Nat) (f : RingSt → RingSt) : (s.modRing r f).hubHeld = s.hubHeld := rfl
@[simp] theorem State.modRing_ports (s : State) (r : Nat) (f : RingSt → RingSt) : (s.modRing r f).ports = s.ports := rfl
@[simp] theorem State.modRing_replies (s : State) (r : Nat) (f : RingSt → RingSt) : (s.modRing r f).replies = s.replies := rfl
@[simp] theorem State.modRing_hostOps (s : State) (r : Nat) (f : RingSt → RingSt) : (s.modRing r f).hostOps = s.hostOps := rfl
@[simp] theorem State.modRing_l2 (s : State) (r : Nat) (f : RingSt → RingSt) : (s.modRing r f).l2 = s.l2 := rfl
@[simp] theorem State.modRing_patrol (s : State) (r : Nat) (f : RingSt → RingSt) : (s.modRing r f).patrol = s.patrol := rfl
@[simp] theorem State.modRing_pins (s : State) (r : Nat) (f : RingSt → RingSt) : (s.modRing r f).pins = s.pins := rfl
@[simp] theorem State.modRing_powerWait (s : State) (r : Nat) (f : RingSt → RingSt) : (s.modRing r f).powerWait = s.powerWait := rfl
@[simp] theorem State.modRing_arr (s : State) (r : Nat) (f : RingSt → RingSt) : (s.modRing r f).arr = s.arr := rfl
@[simp] theorem State.modRing_ctrPoison (s : State) (r : Nat) (f : RingSt → RingSt) : (s.modRing r f).ctrPoison = s.ctrPoison := rfl
@[simp] theorem State.modRing_waiters (s : State) (r : Nat) (f : RingSt → RingSt) : (s.modRing r f).waiters = s.waiters := rfl
@[simp] theorem State.modRing_mapCopies (s : State) (r : Nat) (f : RingSt → RingSt) : (s.modRing r f).mapCopies = s.mapCopies := rfl
@[simp] theorem State.modRing_tests (s : State) (r : Nat) (f : RingSt → RingSt) : (s.modRing r f).tests = s.tests := rfl
@[simp] theorem State.modRing_streams (s : State) (r : Nat) (f : RingSt → RingSt) : (s.modRing r f).streams = s.streams := rfl
@[simp] theorem State.modRing_htCopies (s : State) (r : Nat) (f : RingSt → RingSt) : (s.modRing r f).htCopies = s.htCopies := rfl
@[simp] theorem State.modRing_lastRing (s : State) (r : Nat) (f : RingSt → RingSt) : (s.modRing r f).lastRing = s.lastRing := rfl
@[simp] theorem State.modRing_dispatch (s : State) (r : Nat) (f : RingSt → RingSt) : (s.modRing r f).dispatch = s.dispatch := rfl
@[simp] theorem State.modRing_colls (s : State) (r : Nat) (f : RingSt → RingSt) : (s.modRing r f).colls = s.colls := rfl
@[simp] theorem State.modRing_heldColls (s : State) (r : Nat) (f : RingSt → RingSt) : (s.modRing r f).heldColls = s.heldColls := rfl
@[simp] theorem State.modRing_freeCtr (s : State) (r : Nat) (f : RingSt → RingSt) : (s.modRing r f).freeCtr = s.freeCtr := rfl
@[simp] theorem State.modRing_out (s : State) (r : Nat) (f : RingSt → RingSt) : (s.modRing r f).out = s.out := rfl
@[simp] theorem State.modRing_pending (s : State) (r : Nat) (f : RingSt → RingSt) : (s.modRing r f).pending = s.pending := rfl

/-! modLife. -/

@[simp] theorem State.modLife_regs (s : State) (f : LifeSt → LifeSt) : (s.modLife f).regs = s.regs := rfl
@[simp] theorem State.modLife_mem (s : State) (f : LifeSt → LifeSt) : (s.modLife f).mem = s.mem := rfl
@[simp] theorem State.modLife_poison (s : State) (f : LifeSt → LifeSt) : (s.modLife f).poison = s.poison := rfl
@[simp] theorem State.modLife_cores (s : State) (f : LifeSt → LifeSt) : (s.modLife f).cores = s.cores := rfl
@[simp] theorem State.modLife_fences (s : State) (f : LifeSt → LifeSt) : (s.modLife f).fences = s.fences := rfl
@[simp] theorem State.modLife_fenceSince (s : State) (f : LifeSt → LifeSt) : (s.modLife f).fenceSince = s.fenceSince := rfl
@[simp] theorem State.modLife_hotFolds (s : State) (f : LifeSt → LifeSt) : (s.modLife f).hotFolds = s.hotFolds := rfl
@[simp] theorem State.modLife_stallTick (s : State) (f : LifeSt → LifeSt) : (s.modLife f).stallTick = s.stallTick := rfl
@[simp] theorem State.modLife_thermLow (s : State) (f : LifeSt → LifeSt) : (s.modLife f).thermLow = s.thermLow := rfl
@[simp] theorem State.modLife_time (s : State) (f : LifeSt → LifeSt) : (s.modLife f).time = s.time := rfl
@[simp] theorem State.modLife_fused (s : State) (f : LifeSt → LifeSt) : (s.modLife f).fused = s.fused := rfl
@[simp] theorem State.modLife_fuse (s : State) (f : LifeSt → LifeSt) : (s.modLife f).fuse = s.fuse := rfl
@[simp] theorem State.modLife_procs (s : State) (f : LifeSt → LifeSt) : (s.modLife f).procs = s.procs := rfl
@[simp] theorem State.modLife_power (s : State) (f : LifeSt → LifeSt) : (s.modLife f).power = s.power := rfl
@[simp] theorem State.modLife_reset' (s : State) (f : LifeSt → LifeSt) : (s.modLife f).reset' = s.reset' := rfl
@[simp] theorem State.modLife_opTarget (s : State) (f : LifeSt → LifeSt) : (s.modLife f).opTarget = s.opTarget := rfl
@[simp] theorem State.modLife_log (s : State) (f : LifeSt → LifeSt) : (s.modLife f).log = s.log := rfl
@[simp] theorem State.modLife_host (s : State) (f : LifeSt → LifeSt) : (s.modLife f).host = s.host := rfl
@[simp] theorem State.modLife_tap (s : State) (f : LifeSt → LifeSt) : (s.modLife f).tap = s.tap := rfl
@[simp] theorem State.modLife_hubPaths (s : State) (f : LifeSt → LifeSt) : (s.modLife f).hubPaths = s.hubPaths := rfl
@[simp] theorem State.modLife_hubHeld (s : State) (f : LifeSt → LifeSt) : (s.modLife f).hubHeld = s.hubHeld := rfl
@[simp] theorem State.modLife_ports (s : State) (f : LifeSt → LifeSt) : (s.modLife f).ports = s.ports := rfl
@[simp] theorem State.modLife_replies (s : State) (f : LifeSt → LifeSt) : (s.modLife f).replies = s.replies := rfl
@[simp] theorem State.modLife_hostOps (s : State) (f : LifeSt → LifeSt) : (s.modLife f).hostOps = s.hostOps := rfl
@[simp] theorem State.modLife_l2 (s : State) (f : LifeSt → LifeSt) : (s.modLife f).l2 = s.l2 := rfl
@[simp] theorem State.modLife_patrol (s : State) (f : LifeSt → LifeSt) : (s.modLife f).patrol = s.patrol := rfl
@[simp] theorem State.modLife_pins (s : State) (f : LifeSt → LifeSt) : (s.modLife f).pins = s.pins := rfl
@[simp] theorem State.modLife_powerWait (s : State) (f : LifeSt → LifeSt) : (s.modLife f).powerWait = s.powerWait := rfl
@[simp] theorem State.modLife_arr (s : State) (f : LifeSt → LifeSt) : (s.modLife f).arr = s.arr := rfl
@[simp] theorem State.modLife_ctrPoison (s : State) (f : LifeSt → LifeSt) : (s.modLife f).ctrPoison = s.ctrPoison := rfl
@[simp] theorem State.modLife_waiters (s : State) (f : LifeSt → LifeSt) : (s.modLife f).waiters = s.waiters := rfl
@[simp] theorem State.modLife_mapCopies (s : State) (f : LifeSt → LifeSt) : (s.modLife f).mapCopies = s.mapCopies := rfl
@[simp] theorem State.modLife_tests (s : State) (f : LifeSt → LifeSt) : (s.modLife f).tests = s.tests := rfl
@[simp] theorem State.modLife_streams (s : State) (f : LifeSt → LifeSt) : (s.modLife f).streams = s.streams := rfl
@[simp] theorem State.modLife_rings (s : State) (f : LifeSt → LifeSt) : (s.modLife f).rings = s.rings := rfl
@[simp] theorem State.modLife_htCopies (s : State) (f : LifeSt → LifeSt) : (s.modLife f).htCopies = s.htCopies := rfl
@[simp] theorem State.modLife_lastRing (s : State) (f : LifeSt → LifeSt) : (s.modLife f).lastRing = s.lastRing := rfl
@[simp] theorem State.modLife_dispatch (s : State) (f : LifeSt → LifeSt) : (s.modLife f).dispatch = s.dispatch := rfl
@[simp] theorem State.modLife_colls (s : State) (f : LifeSt → LifeSt) : (s.modLife f).colls = s.colls := rfl
@[simp] theorem State.modLife_heldColls (s : State) (f : LifeSt → LifeSt) : (s.modLife f).heldColls = s.heldColls := rfl
@[simp] theorem State.modLife_freeCtr (s : State) (f : LifeSt → LifeSt) : (s.modLife f).freeCtr = s.freeCtr := rfl
@[simp] theorem State.modLife_out (s : State) (f : LifeSt → LifeSt) : (s.modLife f).out = s.out := rfl
@[simp] theorem State.modLife_pending (s : State) (f : LifeSt → LifeSt) : (s.modLife f).pending = s.pending := rfl

/-! modLog. -/

@[simp] theorem State.modLog_regs (s : State) (f : LogSt → LogSt) : (s.modLog f).regs = s.regs := rfl
@[simp] theorem State.modLog_mem (s : State) (f : LogSt → LogSt) : (s.modLog f).mem = s.mem := rfl
@[simp] theorem State.modLog_poison (s : State) (f : LogSt → LogSt) : (s.modLog f).poison = s.poison := rfl
@[simp] theorem State.modLog_cores (s : State) (f : LogSt → LogSt) : (s.modLog f).cores = s.cores := rfl
@[simp] theorem State.modLog_fences (s : State) (f : LogSt → LogSt) : (s.modLog f).fences = s.fences := rfl
@[simp] theorem State.modLog_fenceSince (s : State) (f : LogSt → LogSt) : (s.modLog f).fenceSince = s.fenceSince := rfl
@[simp] theorem State.modLog_hotFolds (s : State) (f : LogSt → LogSt) : (s.modLog f).hotFolds = s.hotFolds := rfl
@[simp] theorem State.modLog_stallTick (s : State) (f : LogSt → LogSt) : (s.modLog f).stallTick = s.stallTick := rfl
@[simp] theorem State.modLog_thermLow (s : State) (f : LogSt → LogSt) : (s.modLog f).thermLow = s.thermLow := rfl
@[simp] theorem State.modLog_time (s : State) (f : LogSt → LogSt) : (s.modLog f).time = s.time := rfl
@[simp] theorem State.modLog_life (s : State) (f : LogSt → LogSt) : (s.modLog f).life = s.life := rfl
@[simp] theorem State.modLog_fused (s : State) (f : LogSt → LogSt) : (s.modLog f).fused = s.fused := rfl
@[simp] theorem State.modLog_fuse (s : State) (f : LogSt → LogSt) : (s.modLog f).fuse = s.fuse := rfl
@[simp] theorem State.modLog_procs (s : State) (f : LogSt → LogSt) : (s.modLog f).procs = s.procs := rfl
@[simp] theorem State.modLog_power (s : State) (f : LogSt → LogSt) : (s.modLog f).power = s.power := rfl
@[simp] theorem State.modLog_reset' (s : State) (f : LogSt → LogSt) : (s.modLog f).reset' = s.reset' := rfl
@[simp] theorem State.modLog_opTarget (s : State) (f : LogSt → LogSt) : (s.modLog f).opTarget = s.opTarget := rfl
@[simp] theorem State.modLog_host (s : State) (f : LogSt → LogSt) : (s.modLog f).host = s.host := rfl
@[simp] theorem State.modLog_tap (s : State) (f : LogSt → LogSt) : (s.modLog f).tap = s.tap := rfl
@[simp] theorem State.modLog_hubPaths (s : State) (f : LogSt → LogSt) : (s.modLog f).hubPaths = s.hubPaths := rfl
@[simp] theorem State.modLog_hubHeld (s : State) (f : LogSt → LogSt) : (s.modLog f).hubHeld = s.hubHeld := rfl
@[simp] theorem State.modLog_ports (s : State) (f : LogSt → LogSt) : (s.modLog f).ports = s.ports := rfl
@[simp] theorem State.modLog_replies (s : State) (f : LogSt → LogSt) : (s.modLog f).replies = s.replies := rfl
@[simp] theorem State.modLog_hostOps (s : State) (f : LogSt → LogSt) : (s.modLog f).hostOps = s.hostOps := rfl
@[simp] theorem State.modLog_l2 (s : State) (f : LogSt → LogSt) : (s.modLog f).l2 = s.l2 := rfl
@[simp] theorem State.modLog_patrol (s : State) (f : LogSt → LogSt) : (s.modLog f).patrol = s.patrol := rfl
@[simp] theorem State.modLog_pins (s : State) (f : LogSt → LogSt) : (s.modLog f).pins = s.pins := rfl
@[simp] theorem State.modLog_powerWait (s : State) (f : LogSt → LogSt) : (s.modLog f).powerWait = s.powerWait := rfl
@[simp] theorem State.modLog_arr (s : State) (f : LogSt → LogSt) : (s.modLog f).arr = s.arr := rfl
@[simp] theorem State.modLog_ctrPoison (s : State) (f : LogSt → LogSt) : (s.modLog f).ctrPoison = s.ctrPoison := rfl
@[simp] theorem State.modLog_waiters (s : State) (f : LogSt → LogSt) : (s.modLog f).waiters = s.waiters := rfl
@[simp] theorem State.modLog_mapCopies (s : State) (f : LogSt → LogSt) : (s.modLog f).mapCopies = s.mapCopies := rfl
@[simp] theorem State.modLog_tests (s : State) (f : LogSt → LogSt) : (s.modLog f).tests = s.tests := rfl
@[simp] theorem State.modLog_streams (s : State) (f : LogSt → LogSt) : (s.modLog f).streams = s.streams := rfl
@[simp] theorem State.modLog_rings (s : State) (f : LogSt → LogSt) : (s.modLog f).rings = s.rings := rfl
@[simp] theorem State.modLog_htCopies (s : State) (f : LogSt → LogSt) : (s.modLog f).htCopies = s.htCopies := rfl
@[simp] theorem State.modLog_lastRing (s : State) (f : LogSt → LogSt) : (s.modLog f).lastRing = s.lastRing := rfl
@[simp] theorem State.modLog_dispatch (s : State) (f : LogSt → LogSt) : (s.modLog f).dispatch = s.dispatch := rfl
@[simp] theorem State.modLog_colls (s : State) (f : LogSt → LogSt) : (s.modLog f).colls = s.colls := rfl
@[simp] theorem State.modLog_heldColls (s : State) (f : LogSt → LogSt) : (s.modLog f).heldColls = s.heldColls := rfl
@[simp] theorem State.modLog_freeCtr (s : State) (f : LogSt → LogSt) : (s.modLog f).freeCtr = s.freeCtr := rfl
@[simp] theorem State.modLog_out (s : State) (f : LogSt → LogSt) : (s.modLog f).out = s.out := rfl
@[simp] theorem State.modLog_pending (s : State) (f : LogSt → LogSt) : (s.modLog f).pending = s.pending := rfl

/-! modHost. -/

@[simp] theorem State.modHost_regs (s : State) (f : HostSt → HostSt) : (s.modHost f).regs = s.regs := rfl
@[simp] theorem State.modHost_mem (s : State) (f : HostSt → HostSt) : (s.modHost f).mem = s.mem := rfl
@[simp] theorem State.modHost_poison (s : State) (f : HostSt → HostSt) : (s.modHost f).poison = s.poison := rfl
@[simp] theorem State.modHost_cores (s : State) (f : HostSt → HostSt) : (s.modHost f).cores = s.cores := rfl
@[simp] theorem State.modHost_fences (s : State) (f : HostSt → HostSt) : (s.modHost f).fences = s.fences := rfl
@[simp] theorem State.modHost_fenceSince (s : State) (f : HostSt → HostSt) : (s.modHost f).fenceSince = s.fenceSince := rfl
@[simp] theorem State.modHost_hotFolds (s : State) (f : HostSt → HostSt) : (s.modHost f).hotFolds = s.hotFolds := rfl
@[simp] theorem State.modHost_stallTick (s : State) (f : HostSt → HostSt) : (s.modHost f).stallTick = s.stallTick := rfl
@[simp] theorem State.modHost_thermLow (s : State) (f : HostSt → HostSt) : (s.modHost f).thermLow = s.thermLow := rfl
@[simp] theorem State.modHost_time (s : State) (f : HostSt → HostSt) : (s.modHost f).time = s.time := rfl
@[simp] theorem State.modHost_life (s : State) (f : HostSt → HostSt) : (s.modHost f).life = s.life := rfl
@[simp] theorem State.modHost_fused (s : State) (f : HostSt → HostSt) : (s.modHost f).fused = s.fused := rfl
@[simp] theorem State.modHost_fuse (s : State) (f : HostSt → HostSt) : (s.modHost f).fuse = s.fuse := rfl
@[simp] theorem State.modHost_procs (s : State) (f : HostSt → HostSt) : (s.modHost f).procs = s.procs := rfl
@[simp] theorem State.modHost_power (s : State) (f : HostSt → HostSt) : (s.modHost f).power = s.power := rfl
@[simp] theorem State.modHost_reset' (s : State) (f : HostSt → HostSt) : (s.modHost f).reset' = s.reset' := rfl
@[simp] theorem State.modHost_opTarget (s : State) (f : HostSt → HostSt) : (s.modHost f).opTarget = s.opTarget := rfl
@[simp] theorem State.modHost_log (s : State) (f : HostSt → HostSt) : (s.modHost f).log = s.log := rfl
@[simp] theorem State.modHost_tap (s : State) (f : HostSt → HostSt) : (s.modHost f).tap = s.tap := rfl
@[simp] theorem State.modHost_hubPaths (s : State) (f : HostSt → HostSt) : (s.modHost f).hubPaths = s.hubPaths := rfl
@[simp] theorem State.modHost_hubHeld (s : State) (f : HostSt → HostSt) : (s.modHost f).hubHeld = s.hubHeld := rfl
@[simp] theorem State.modHost_ports (s : State) (f : HostSt → HostSt) : (s.modHost f).ports = s.ports := rfl
@[simp] theorem State.modHost_replies (s : State) (f : HostSt → HostSt) : (s.modHost f).replies = s.replies := rfl
@[simp] theorem State.modHost_hostOps (s : State) (f : HostSt → HostSt) : (s.modHost f).hostOps = s.hostOps := rfl
@[simp] theorem State.modHost_l2 (s : State) (f : HostSt → HostSt) : (s.modHost f).l2 = s.l2 := rfl
@[simp] theorem State.modHost_patrol (s : State) (f : HostSt → HostSt) : (s.modHost f).patrol = s.patrol := rfl
@[simp] theorem State.modHost_pins (s : State) (f : HostSt → HostSt) : (s.modHost f).pins = s.pins := rfl
@[simp] theorem State.modHost_powerWait (s : State) (f : HostSt → HostSt) : (s.modHost f).powerWait = s.powerWait := rfl
@[simp] theorem State.modHost_arr (s : State) (f : HostSt → HostSt) : (s.modHost f).arr = s.arr := rfl
@[simp] theorem State.modHost_ctrPoison (s : State) (f : HostSt → HostSt) : (s.modHost f).ctrPoison = s.ctrPoison := rfl
@[simp] theorem State.modHost_waiters (s : State) (f : HostSt → HostSt) : (s.modHost f).waiters = s.waiters := rfl
@[simp] theorem State.modHost_mapCopies (s : State) (f : HostSt → HostSt) : (s.modHost f).mapCopies = s.mapCopies := rfl
@[simp] theorem State.modHost_tests (s : State) (f : HostSt → HostSt) : (s.modHost f).tests = s.tests := rfl
@[simp] theorem State.modHost_streams (s : State) (f : HostSt → HostSt) : (s.modHost f).streams = s.streams := rfl
@[simp] theorem State.modHost_rings (s : State) (f : HostSt → HostSt) : (s.modHost f).rings = s.rings := rfl
@[simp] theorem State.modHost_htCopies (s : State) (f : HostSt → HostSt) : (s.modHost f).htCopies = s.htCopies := rfl
@[simp] theorem State.modHost_lastRing (s : State) (f : HostSt → HostSt) : (s.modHost f).lastRing = s.lastRing := rfl
@[simp] theorem State.modHost_dispatch (s : State) (f : HostSt → HostSt) : (s.modHost f).dispatch = s.dispatch := rfl
@[simp] theorem State.modHost_colls (s : State) (f : HostSt → HostSt) : (s.modHost f).colls = s.colls := rfl
@[simp] theorem State.modHost_heldColls (s : State) (f : HostSt → HostSt) : (s.modHost f).heldColls = s.heldColls := rfl
@[simp] theorem State.modHost_freeCtr (s : State) (f : HostSt → HostSt) : (s.modHost f).freeCtr = s.freeCtr := rfl
@[simp] theorem State.modHost_out (s : State) (f : HostSt → HostSt) : (s.modHost f).out = s.out := rfl
@[simp] theorem State.modHost_pending (s : State) (f : HostSt → HostSt) : (s.modHost f).pending = s.pending := rfl

/-! setIr. -/

@[simp] theorem State.setIr_regs (s : State) (ir : Nat) (bypass : Bool) : (s.setIr ir bypass).regs = s.regs := rfl
@[simp] theorem State.setIr_mem (s : State) (ir : Nat) (bypass : Bool) : (s.setIr ir bypass).mem = s.mem := rfl
@[simp] theorem State.setIr_poison (s : State) (ir : Nat) (bypass : Bool) : (s.setIr ir bypass).poison = s.poison := rfl
@[simp] theorem State.setIr_cores (s : State) (ir : Nat) (bypass : Bool) : (s.setIr ir bypass).cores = s.cores := rfl
@[simp] theorem State.setIr_fences (s : State) (ir : Nat) (bypass : Bool) : (s.setIr ir bypass).fences = s.fences := rfl
@[simp] theorem State.setIr_fenceSince (s : State) (ir : Nat) (bypass : Bool) : (s.setIr ir bypass).fenceSince = s.fenceSince := rfl
@[simp] theorem State.setIr_hotFolds (s : State) (ir : Nat) (bypass : Bool) : (s.setIr ir bypass).hotFolds = s.hotFolds := rfl
@[simp] theorem State.setIr_stallTick (s : State) (ir : Nat) (bypass : Bool) : (s.setIr ir bypass).stallTick = s.stallTick := rfl
@[simp] theorem State.setIr_thermLow (s : State) (ir : Nat) (bypass : Bool) : (s.setIr ir bypass).thermLow = s.thermLow := rfl
@[simp] theorem State.setIr_time (s : State) (ir : Nat) (bypass : Bool) : (s.setIr ir bypass).time = s.time := rfl
@[simp] theorem State.setIr_life (s : State) (ir : Nat) (bypass : Bool) : (s.setIr ir bypass).life = s.life := rfl
@[simp] theorem State.setIr_fused (s : State) (ir : Nat) (bypass : Bool) : (s.setIr ir bypass).fused = s.fused := rfl
@[simp] theorem State.setIr_fuse (s : State) (ir : Nat) (bypass : Bool) : (s.setIr ir bypass).fuse = s.fuse := rfl
@[simp] theorem State.setIr_procs (s : State) (ir : Nat) (bypass : Bool) : (s.setIr ir bypass).procs = s.procs := rfl
@[simp] theorem State.setIr_power (s : State) (ir : Nat) (bypass : Bool) : (s.setIr ir bypass).power = s.power := rfl
@[simp] theorem State.setIr_reset' (s : State) (ir : Nat) (bypass : Bool) : (s.setIr ir bypass).reset' = s.reset' := rfl
@[simp] theorem State.setIr_opTarget (s : State) (ir : Nat) (bypass : Bool) : (s.setIr ir bypass).opTarget = s.opTarget := rfl
@[simp] theorem State.setIr_log (s : State) (ir : Nat) (bypass : Bool) : (s.setIr ir bypass).log = s.log := rfl
@[simp] theorem State.setIr_host (s : State) (ir : Nat) (bypass : Bool) : (s.setIr ir bypass).host = s.host := rfl
@[simp] theorem State.setIr_hubPaths (s : State) (ir : Nat) (bypass : Bool) : (s.setIr ir bypass).hubPaths = s.hubPaths := rfl
@[simp] theorem State.setIr_hubHeld (s : State) (ir : Nat) (bypass : Bool) : (s.setIr ir bypass).hubHeld = s.hubHeld := rfl
@[simp] theorem State.setIr_ports (s : State) (ir : Nat) (bypass : Bool) : (s.setIr ir bypass).ports = s.ports := rfl
@[simp] theorem State.setIr_replies (s : State) (ir : Nat) (bypass : Bool) : (s.setIr ir bypass).replies = s.replies := rfl
@[simp] theorem State.setIr_hostOps (s : State) (ir : Nat) (bypass : Bool) : (s.setIr ir bypass).hostOps = s.hostOps := rfl
@[simp] theorem State.setIr_l2 (s : State) (ir : Nat) (bypass : Bool) : (s.setIr ir bypass).l2 = s.l2 := rfl
@[simp] theorem State.setIr_patrol (s : State) (ir : Nat) (bypass : Bool) : (s.setIr ir bypass).patrol = s.patrol := rfl
@[simp] theorem State.setIr_pins (s : State) (ir : Nat) (bypass : Bool) : (s.setIr ir bypass).pins = s.pins := rfl
@[simp] theorem State.setIr_powerWait (s : State) (ir : Nat) (bypass : Bool) : (s.setIr ir bypass).powerWait = s.powerWait := rfl
@[simp] theorem State.setIr_arr (s : State) (ir : Nat) (bypass : Bool) : (s.setIr ir bypass).arr = s.arr := rfl
@[simp] theorem State.setIr_ctrPoison (s : State) (ir : Nat) (bypass : Bool) : (s.setIr ir bypass).ctrPoison = s.ctrPoison := rfl
@[simp] theorem State.setIr_waiters (s : State) (ir : Nat) (bypass : Bool) : (s.setIr ir bypass).waiters = s.waiters := rfl
@[simp] theorem State.setIr_mapCopies (s : State) (ir : Nat) (bypass : Bool) : (s.setIr ir bypass).mapCopies = s.mapCopies := rfl
@[simp] theorem State.setIr_tests (s : State) (ir : Nat) (bypass : Bool) : (s.setIr ir bypass).tests = s.tests := rfl
@[simp] theorem State.setIr_streams (s : State) (ir : Nat) (bypass : Bool) : (s.setIr ir bypass).streams = s.streams := rfl
@[simp] theorem State.setIr_rings (s : State) (ir : Nat) (bypass : Bool) : (s.setIr ir bypass).rings = s.rings := rfl
@[simp] theorem State.setIr_htCopies (s : State) (ir : Nat) (bypass : Bool) : (s.setIr ir bypass).htCopies = s.htCopies := rfl
@[simp] theorem State.setIr_lastRing (s : State) (ir : Nat) (bypass : Bool) : (s.setIr ir bypass).lastRing = s.lastRing := rfl
@[simp] theorem State.setIr_dispatch (s : State) (ir : Nat) (bypass : Bool) : (s.setIr ir bypass).dispatch = s.dispatch := rfl
@[simp] theorem State.setIr_colls (s : State) (ir : Nat) (bypass : Bool) : (s.setIr ir bypass).colls = s.colls := rfl
@[simp] theorem State.setIr_heldColls (s : State) (ir : Nat) (bypass : Bool) : (s.setIr ir bypass).heldColls = s.heldColls := rfl
@[simp] theorem State.setIr_freeCtr (s : State) (ir : Nat) (bypass : Bool) : (s.setIr ir bypass).freeCtr = s.freeCtr := rfl
@[simp] theorem State.setIr_out (s : State) (ir : Nat) (bypass : Bool) : (s.setIr ir bypass).out = s.out := rfl
@[simp] theorem State.setIr_pending (s : State) (ir : Nat) (bypass : Bool) : (s.setIr ir bypass).pending = s.pending := rfl

/-! put. -/

@[simp] theorem State.put_regs (s : State) (a : Nat) (b : Bytes) : (s.put a b).regs = s.regs := rfl
@[simp] theorem State.put_poison (s : State) (a : Nat) (b : Bytes) : (s.put a b).poison = s.poison := rfl
@[simp] theorem State.put_cores (s : State) (a : Nat) (b : Bytes) : (s.put a b).cores = s.cores := rfl
@[simp] theorem State.put_fences (s : State) (a : Nat) (b : Bytes) : (s.put a b).fences = s.fences := rfl
@[simp] theorem State.put_fenceSince (s : State) (a : Nat) (b : Bytes) : (s.put a b).fenceSince = s.fenceSince := rfl
@[simp] theorem State.put_hotFolds (s : State) (a : Nat) (b : Bytes) : (s.put a b).hotFolds = s.hotFolds := rfl
@[simp] theorem State.put_stallTick (s : State) (a : Nat) (b : Bytes) : (s.put a b).stallTick = s.stallTick := rfl
@[simp] theorem State.put_thermLow (s : State) (a : Nat) (b : Bytes) : (s.put a b).thermLow = s.thermLow := rfl
@[simp] theorem State.put_time (s : State) (a : Nat) (b : Bytes) : (s.put a b).time = s.time := rfl
@[simp] theorem State.put_life (s : State) (a : Nat) (b : Bytes) : (s.put a b).life = s.life := rfl
@[simp] theorem State.put_fused (s : State) (a : Nat) (b : Bytes) : (s.put a b).fused = s.fused := rfl
@[simp] theorem State.put_fuse (s : State) (a : Nat) (b : Bytes) : (s.put a b).fuse = s.fuse := rfl
@[simp] theorem State.put_procs (s : State) (a : Nat) (b : Bytes) : (s.put a b).procs = s.procs := rfl
@[simp] theorem State.put_power (s : State) (a : Nat) (b : Bytes) : (s.put a b).power = s.power := rfl
@[simp] theorem State.put_reset' (s : State) (a : Nat) (b : Bytes) : (s.put a b).reset' = s.reset' := rfl
@[simp] theorem State.put_opTarget (s : State) (a : Nat) (b : Bytes) : (s.put a b).opTarget = s.opTarget := rfl
@[simp] theorem State.put_log (s : State) (a : Nat) (b : Bytes) : (s.put a b).log = s.log := rfl
@[simp] theorem State.put_host (s : State) (a : Nat) (b : Bytes) : (s.put a b).host = s.host := rfl
@[simp] theorem State.put_tap (s : State) (a : Nat) (b : Bytes) : (s.put a b).tap = s.tap := rfl
@[simp] theorem State.put_hubPaths (s : State) (a : Nat) (b : Bytes) : (s.put a b).hubPaths = s.hubPaths := rfl
@[simp] theorem State.put_hubHeld (s : State) (a : Nat) (b : Bytes) : (s.put a b).hubHeld = s.hubHeld := rfl
@[simp] theorem State.put_ports (s : State) (a : Nat) (b : Bytes) : (s.put a b).ports = s.ports := rfl
@[simp] theorem State.put_replies (s : State) (a : Nat) (b : Bytes) : (s.put a b).replies = s.replies := rfl
@[simp] theorem State.put_hostOps (s : State) (a : Nat) (b : Bytes) : (s.put a b).hostOps = s.hostOps := rfl
@[simp] theorem State.put_l2 (s : State) (a : Nat) (b : Bytes) : (s.put a b).l2 = s.l2 := rfl
@[simp] theorem State.put_patrol (s : State) (a : Nat) (b : Bytes) : (s.put a b).patrol = s.patrol := rfl
@[simp] theorem State.put_pins (s : State) (a : Nat) (b : Bytes) : (s.put a b).pins = s.pins := rfl
@[simp] theorem State.put_powerWait (s : State) (a : Nat) (b : Bytes) : (s.put a b).powerWait = s.powerWait := rfl
@[simp] theorem State.put_arr (s : State) (a : Nat) (b : Bytes) : (s.put a b).arr = s.arr := rfl
@[simp] theorem State.put_ctrPoison (s : State) (a : Nat) (b : Bytes) : (s.put a b).ctrPoison = s.ctrPoison := rfl
@[simp] theorem State.put_waiters (s : State) (a : Nat) (b : Bytes) : (s.put a b).waiters = s.waiters := rfl
@[simp] theorem State.put_mapCopies (s : State) (a : Nat) (b : Bytes) : (s.put a b).mapCopies = s.mapCopies := rfl
@[simp] theorem State.put_tests (s : State) (a : Nat) (b : Bytes) : (s.put a b).tests = s.tests := rfl
@[simp] theorem State.put_streams (s : State) (a : Nat) (b : Bytes) : (s.put a b).streams = s.streams := rfl
@[simp] theorem State.put_rings (s : State) (a : Nat) (b : Bytes) : (s.put a b).rings = s.rings := rfl
@[simp] theorem State.put_htCopies (s : State) (a : Nat) (b : Bytes) : (s.put a b).htCopies = s.htCopies := rfl
@[simp] theorem State.put_lastRing (s : State) (a : Nat) (b : Bytes) : (s.put a b).lastRing = s.lastRing := rfl
@[simp] theorem State.put_dispatch (s : State) (a : Nat) (b : Bytes) : (s.put a b).dispatch = s.dispatch := rfl
@[simp] theorem State.put_colls (s : State) (a : Nat) (b : Bytes) : (s.put a b).colls = s.colls := rfl
@[simp] theorem State.put_heldColls (s : State) (a : Nat) (b : Bytes) : (s.put a b).heldColls = s.heldColls := rfl
@[simp] theorem State.put_freeCtr (s : State) (a : Nat) (b : Bytes) : (s.put a b).freeCtr = s.freeCtr := rfl
@[simp] theorem State.put_out (s : State) (a : Nat) (b : Bytes) : (s.put a b).out = s.out := rfl
@[simp] theorem State.put_pending (s : State) (a : Nat) (b : Bytes) : (s.put a b).pending = s.pending := rfl

/-! Free values. -/

@[simp] theorem State.free_regs (s : State) : s.free.2.regs = s.regs := rfl
@[simp] theorem State.free_mem (s : State) : s.free.2.mem = s.mem := rfl
@[simp] theorem State.free_poison (s : State) : s.free.2.poison = s.poison := rfl
@[simp] theorem State.free_cores (s : State) : s.free.2.cores = s.cores := rfl
@[simp] theorem State.free_fences (s : State) : s.free.2.fences = s.fences := rfl
@[simp] theorem State.free_fenceSince (s : State) : s.free.2.fenceSince = s.fenceSince := rfl
@[simp] theorem State.free_hotFolds (s : State) : s.free.2.hotFolds = s.hotFolds := rfl
@[simp] theorem State.free_stallTick (s : State) : s.free.2.stallTick = s.stallTick := rfl
@[simp] theorem State.free_thermLow (s : State) : s.free.2.thermLow = s.thermLow := rfl
@[simp] theorem State.free_time (s : State) : s.free.2.time = s.time := rfl
@[simp] theorem State.free_life (s : State) : s.free.2.life = s.life := rfl
@[simp] theorem State.free_fused (s : State) : s.free.2.fused = s.fused := rfl
@[simp] theorem State.free_fuse (s : State) : s.free.2.fuse = s.fuse := rfl
@[simp] theorem State.free_procs (s : State) : s.free.2.procs = s.procs := rfl
@[simp] theorem State.free_power (s : State) : s.free.2.power = s.power := rfl
@[simp] theorem State.free_reset' (s : State) : s.free.2.reset' = s.reset' := rfl
@[simp] theorem State.free_opTarget (s : State) : s.free.2.opTarget = s.opTarget := rfl
@[simp] theorem State.free_log (s : State) : s.free.2.log = s.log := rfl
@[simp] theorem State.free_host (s : State) : s.free.2.host = s.host := rfl
@[simp] theorem State.free_tap (s : State) : s.free.2.tap = s.tap := rfl
@[simp] theorem State.free_hubPaths (s : State) : s.free.2.hubPaths = s.hubPaths := rfl
@[simp] theorem State.free_hubHeld (s : State) : s.free.2.hubHeld = s.hubHeld := rfl
@[simp] theorem State.free_ports (s : State) : s.free.2.ports = s.ports := rfl
@[simp] theorem State.free_replies (s : State) : s.free.2.replies = s.replies := rfl
@[simp] theorem State.free_hostOps (s : State) : s.free.2.hostOps = s.hostOps := rfl
@[simp] theorem State.free_l2 (s : State) : s.free.2.l2 = s.l2 := rfl
@[simp] theorem State.free_patrol (s : State) : s.free.2.patrol = s.patrol := rfl
@[simp] theorem State.free_pins (s : State) : s.free.2.pins = s.pins := rfl
@[simp] theorem State.free_powerWait (s : State) : s.free.2.powerWait = s.powerWait := rfl
@[simp] theorem State.free_arr (s : State) : s.free.2.arr = s.arr := rfl
@[simp] theorem State.free_ctrPoison (s : State) : s.free.2.ctrPoison = s.ctrPoison := rfl
@[simp] theorem State.free_waiters (s : State) : s.free.2.waiters = s.waiters := rfl
@[simp] theorem State.free_mapCopies (s : State) : s.free.2.mapCopies = s.mapCopies := rfl
@[simp] theorem State.free_tests (s : State) : s.free.2.tests = s.tests := rfl
@[simp] theorem State.free_streams (s : State) : s.free.2.streams = s.streams := rfl
@[simp] theorem State.free_rings (s : State) : s.free.2.rings = s.rings := rfl
@[simp] theorem State.free_htCopies (s : State) : s.free.2.htCopies = s.htCopies := rfl
@[simp] theorem State.free_lastRing (s : State) : s.free.2.lastRing = s.lastRing := rfl
@[simp] theorem State.free_dispatch (s : State) : s.free.2.dispatch = s.dispatch := rfl
@[simp] theorem State.free_colls (s : State) : s.free.2.colls = s.colls := rfl
@[simp] theorem State.free_heldColls (s : State) : s.free.2.heldColls = s.heldColls := rfl
@[simp] theorem State.free_out (s : State) : s.free.2.out = s.out := rfl
@[simp] theorem State.free_pending (s : State) : s.free.2.pending = s.pending := rfl

/-! What is set. -/

@[simp] theorem State.put_mem (s : State) (a : Nat) (b : Bytes) : (s.put a b).mem = mwrites s.mem a b := rfl
@[simp] theorem State.emit_out (s : State) (o : Out) : (s.emit o).out = o :: s.out := rfl
@[simp] theorem State.reply_replies (s : State) (r : Reply) : (s.reply r).replies = s.replies ++ [r] := rfl
@[simp] theorem State.modTime_time (s : State) (f : TimeSt → TimeSt) : (s.modTime f).time = f s.time := rfl
@[simp] theorem State.modLife_life (s : State) (f : LifeSt → LifeSt) : (s.modLife f).life = f s.life := rfl
@[simp] theorem State.modLog_log (s : State) (f : LogSt → LogSt) : (s.modLog f).log = f s.log := rfl
@[simp] theorem State.modHost_host (s : State) (f : HostSt → HostSt) : (s.modHost f).host = f s.host := rfl
@[simp] theorem State.free_val (s : State) : s.free.1 = Config.free s.freeCtr := rfl
@[simp] theorem State.free_ctr (s : State) : s.free.2.freeCtr = s.freeCtr + 1 := rfl

@[simp] theorem State.core_setCore (s : State) (c : Nat) (v : CoreSt) : (s.setCore c v).core c = v := nget_nset_self ..
theorem State.core_setCore_ne (s : State) {c d : Nat} (v : CoreSt) (h : c ≠ d) : (s.setCore c v).core d = s.core d := nget_nset_ne _ _ _ h
@[simp] theorem State.core_modCore (s : State) (c : Nat) (f : CoreSt → CoreSt) : (s.modCore c f).core c = f (s.core c) := nget_nset_self ..
theorem State.core_modCore_ne (s : State) {c d : Nat} (f : CoreSt → CoreSt) (h : c ≠ d) : (s.modCore c f).core d = s.core d :=
  nget_nset_ne _ _ _ h
@[simp] theorem State.twin_modTwin (s : State) (c : Nat) (f : TwinSt → TwinSt) : (s.modTwin c f).twin c = f (s.twin c) := by
  simp [State.twin, State.modTwin]
theorem State.twin_modTwin_ne (s : State) {c d : Nat} (f : TwinSt → TwinSt) (h : c ≠ d) : (s.modTwin c f).twin d = s.twin d := by
  simp only [State.twin, State.modTwin]; rw [State.core_modCore_ne _ _ h]
@[simp] theorem State.proc_modProc (s : State) (n : Nat) (f : ProcSt → ProcSt) : (s.modProc n f).proc n = f (s.proc n) := nget_nset_self ..
theorem State.proc_modProc_ne (s : State) {n m : Nat} (f : ProcSt → ProcSt) (h : n ≠ m) : (s.modProc n f).proc m = s.proc m :=
  nget_nset_ne _ _ _ h
@[simp] theorem State.port_modPort (s : State) (p : Nat) (f : PortSt → PortSt) : (s.modPort p f).port p = f (s.port p) := nget_nset_self ..
theorem State.port_modPort_ne (s : State) {p q : Nat} (f : PortSt → PortSt) (h : p ≠ q) : (s.modPort p f).port q = s.port q :=
  nget_nset_ne _ _ _ h
@[simp] theorem State.ring_modRing (s : State) (r : Nat) (f : RingSt → RingSt) : (s.modRing r f).ring r = f (s.ring r) := nget_nset_self ..
theorem State.ring_modRing_ne (s : State) {r q : Nat} (f : RingSt → RingSt) (h : r ≠ q) : (s.modRing r f).ring q = s.ring q :=
  nget_nset_ne _ _ _ h

/-! Time. -/

/-- Time passes until a Quartz value, and never backwards. -/
theorem State.q_advance (s : State) (n : Nat) : (s.advance n).time.q = max s.time.q (tick * n) := by
  unfold State.advance; simp only; omega

theorem State.advance_past (s : State) {n : Nat} (h : tick * n ≤ s.time.q) : s.advance n = s := by
  unfold State.advance; simp [Nat.sub_eq_zero_of_le h]

end Sys2Proof.Machine
end

