-- ==== Sys2Proof/Laws/Ops.lean ====
section
/-!
SUPPORT. What the shared operations leave as it was, said once: none of Ops.lean writes device memory or takes from the queue.
-/
namespace Sys2Proof.Machine
set_option linter.unusedSimpArgs false

theorem foldl_mem {α : Type} {f : State → α → State} (h : ∀ s x, (f s x).mem = s.mem) (l : List α) (s : State) :
    (l.foldl f s).mem = s.mem := by
  induction l generalizing s with
  | nil => rfl
  | cons x l ih => rw [List.foldl_cons, ih, h]

theorem foldl_pending {α : Type} {f : State → α → State} (h : ∀ s x, (f s x).pending = s.pending) (l : List α) (s : State) :
    (l.foldl f s).pending = s.pending := by
  induction l generalizing s with
  | nil => rfl
  | cons x l ih => rw [List.foldl_cons, ih, h]

@[simp] theorem State.setMapBit_mem (s : State) (r : RegName) (i : Nat) : (s.setMapBit r i).mem = s.mem := by
  unfold State.setMapBit; (repeat' split) <;> simp [foldl_mem, apply_ite State.mem]
@[simp] theorem State.setMapBit_pending (s : State) (r : RegName) (i : Nat) : (s.setMapBit r i).pending = s.pending := by
  unfold State.setMapBit; (repeat' split) <;> simp [foldl_pending, apply_ite State.pending]
@[simp] theorem State.violate_mem (s : State) (z : Viol) : (s.violate z).mem = s.mem := by
  unfold State.violate; (repeat' split) <;> simp [foldl_mem, apply_ite State.mem]
@[simp] theorem State.violate_pending (s : State) (z : Viol) : (s.violate z).pending = s.pending := by
  unfold State.violate; (repeat' split) <;> simp [foldl_pending, apply_ite State.pending]
@[simp] theorem State.charge_mem (s : State) (z : Source) : (s.charge z).mem = s.mem := by
  unfold State.charge; (repeat' split) <;> simp [foldl_mem, apply_ite State.mem]
@[simp] theorem State.charge_pending (s : State) (z : Source) : (s.charge z).pending = s.pending := by
  unfold State.charge; (repeat' split) <;> simp [foldl_pending, apply_ite State.pending]
@[simp] theorem State.unsupported_mem (s : State) : (unsupported s).mem = s.mem := by
  unfold unsupported; (repeat' split) <;> simp [foldl_mem, apply_ite State.mem]
@[simp] theorem State.unsupported_pending (s : State) : (unsupported s).pending = s.pending := by
  unfold unsupported; (repeat' split) <;> simp [foldl_pending, apply_ite State.pending]
@[simp] theorem State.turned_mem (s : State) (v : Viol) : (s.turned v).mem = s.mem := by
  unfold State.turned; (repeat' split) <;> simp [foldl_mem, apply_ite State.mem]
@[simp] theorem State.turned_pending (s : State) (v : Viol) : (s.turned v).pending = s.pending := by
  unfold State.turned; (repeat' split) <;> simp [foldl_pending, apply_ite State.pending]
@[simp] theorem State.flushVec_mem (s : State) (v : Nat) : (s.flushVec v).mem = s.mem := by
  unfold State.flushVec; (repeat' split) <;> simp [foldl_mem, apply_ite State.mem]
@[simp] theorem State.flushVec_pending (s : State) (v : Nat) : (s.flushVec v).pending = s.pending := by
  unfold State.flushVec; (repeat' split) <;> simp [foldl_pending, apply_ite State.pending]
@[simp] theorem State.raiseVec_mem (s : State) (v : Nat) : (s.raiseVec v).mem = s.mem := by
  unfold State.raiseVec; (repeat' split) <;> simp [foldl_mem, apply_ite State.mem]
@[simp] theorem State.raiseVec_pending (s : State) (v : Nat) : (s.raiseVec v).pending = s.pending := by
  unfold State.raiseVec; (repeat' split) <;> simp [foldl_pending, apply_ite State.pending]
@[simp] theorem State.ringOnly_mem (s : State) (typ : Nat) (body : Bytes) : (s.ringOnly typ body).mem = s.mem := by
  unfold State.ringOnly; (repeat' split) <;> simp [foldl_mem, apply_ite State.mem]
@[simp] theorem State.ringOnly_pending (s : State) (typ : Nat) (body : Bytes) : (s.ringOnly typ body).pending = s.pending := by
  unfold State.ringOnly; (repeat' split) <;> simp [foldl_pending, apply_ite State.pending]
@[simp] theorem State.submit_mem (s : State) (typ source flags : Nat) (body : Bytes) : (s.submit typ source flags body).mem = s.mem := by
  unfold State.submit; (repeat' split) <;> simp [foldl_mem, apply_ite State.mem]
@[simp] theorem State.submit_pending (s : State) (typ source flags : Nat) (body : Bytes) : (s.submit typ source flags body).pending = s.pending := by
  unfold State.submit; (repeat' split) <;> simp [foldl_pending, apply_ite State.pending]
@[simp] theorem State.stewardLog_mem (s : State) (typ : Nat) (body : Bytes) : (s.stewardLog typ body).mem = s.mem := by
  unfold State.stewardLog; (repeat' split) <;> simp [foldl_mem, apply_ite State.mem]
@[simp] theorem State.stewardLog_pending (s : State) (typ : Nat) (body : Bytes) : (s.stewardLog typ body).pending = s.pending := by
  unfold State.stewardLog; (repeat' split) <;> simp [foldl_pending, apply_ite State.pending]
@[simp] theorem State.trace_mem (s : State) (point : Nat) (body : Bytes := []) : (s.trace point body).mem = s.mem := by
  unfold State.trace; (repeat' split) <;> simp [foldl_mem, apply_ite State.mem]
@[simp] theorem State.trace_pending (s : State) (point : Nat) (body : Bytes := []) : (s.trace point body).pending = s.pending := by
  unfold State.trace; (repeat' split) <;> simp [foldl_pending, apply_ite State.pending]
@[simp] theorem State.latchProc_mem (s : State) (n bitNo : Nat) : (s.latchProc n bitNo).mem = s.mem := by
  unfold State.latchProc; (repeat' split) <;> simp [foldl_mem, apply_ite State.mem]
@[simp] theorem State.latchProc_pending (s : State) (n bitNo : Nat) : (s.latchProc n bitNo).pending = s.pending := by
  unfold State.latchProc; (repeat' split) <;> simp [foldl_pending, apply_ite State.pending]
@[simp] theorem State.latchProcs_mem (s : State) (bitNo : Nat) : (s.latchProcs bitNo).mem = s.mem := by
  unfold State.latchProcs; (repeat' split) <;> simp [foldl_mem, apply_ite State.mem]
@[simp] theorem State.latchProcs_pending (s : State) (bitNo : Nat) : (s.latchProcs bitNo).pending = s.pending := by
  unfold State.latchProcs; (repeat' split) <;> simp [foldl_pending, apply_ite State.pending]
@[simp] theorem State.restamp_mem (s : State) (p : Nat) (slots : List Word) : (s.restamp p slots).1.mem = s.mem := by
  unfold State.restamp; split <;> rfl
@[simp] theorem State.restamp_pending (s : State) (p : Nat) (slots : List Word) : (s.restamp p slots).1.pending = s.pending := by
  unfold State.restamp; split <;> rfl
@[simp] theorem State.sendData_mem (s : State) (p : Nat) (u : Nat × List Word) : (s.sendData p u).mem = s.mem := by
  simp [State.sendData, State.sendFlit]
@[simp] theorem State.sendData_pending (s : State) (p : Nat) (u : Nat × List Word) : (s.sendData p u).pending = s.pending := by
  simp [State.sendData, State.sendFlit]
@[simp] theorem State.pump_mem (s : State) (p : Nat) : (s.pump p).mem = s.mem := by
  unfold State.pump; dsimp only; split
  · rfl
  · rw [foldl_mem fun t u => State.sendData_mem t p u]; rfl
@[simp] theorem State.pump_pending (s : State) (p : Nat) : (s.pump p).pending = s.pending := by
  unfold State.pump; dsimp only; split
  · rfl
  · rw [foldl_pending fun t u => State.sendData_pending t p u]; rfl
@[simp] theorem State.transmit_mem (s : State) (p : Nat) (slots : List Word) : (s.transmit p slots).mem = s.mem := by
  simp [State.transmit]
@[simp] theorem State.transmit_pending (s : State) (p : Nat) (slots : List Word) : (s.transmit p slots).pending = s.pending := by
  simp [State.transmit]
@[simp] theorem State.sendPacket_mem (s : State) (p : Nat) (slots : List Word) : (s.sendPacket p slots).mem = s.mem := by
  unfold State.sendPacket; (repeat' split) <;> simp [foldl_mem, apply_ite State.mem]
@[simp] theorem State.sendPacket_pending (s : State) (p : Nat) (slots : List Word) : (s.sendPacket p slots).pending = s.pending := by
  unfold State.sendPacket; (repeat' split) <;> simp [foldl_pending, apply_ite State.pending]
@[simp] theorem State.modCmd_mem (s : State) (r seq : Nat) (f : RingCmd → RingCmd) : (s.modCmd r seq f).mem = s.mem := by
  unfold State.modCmd; (repeat' split) <;> simp [foldl_mem, apply_ite State.mem]
@[simp] theorem State.modCmd_pending (s : State) (r seq : Nat) (f : RingCmd → RingCmd) : (s.modCmd r seq f).pending = s.pending := by
  unfold State.modCmd; (repeat' split) <;> simp [foldl_pending, apply_ite State.pending]
@[simp] theorem State.cmdDone_mem (s : State) (r seq st det : Nat) : (s.cmdDone r seq st det).mem = s.mem := by
  unfold State.cmdDone; (repeat' split) <;> simp [foldl_mem, apply_ite State.mem]
@[simp] theorem State.cmdDone_pending (s : State) (r seq st det : Nat) : (s.cmdDone r seq st det).pending = s.pending := by
  unfold State.cmdDone; (repeat' split) <;> simp [foldl_pending, apply_ite State.pending]
@[simp] theorem State.cmdRun_mem (s : State) (r seq n : Nat) : (s.cmdRun r seq n).mem = s.mem := by
  unfold State.cmdRun; (repeat' split) <;> simp [foldl_mem, apply_ite State.mem]
@[simp] theorem State.cmdRun_pending (s : State) (r seq n : Nat) : (s.cmdRun r seq n).pending = s.pending := by
  unfold State.cmdRun; (repeat' split) <;> simp [foldl_pending, apply_ite State.pending]
@[simp] theorem State.partEnd_mem (s : State) (r seq st det : Nat) : (s.partEnd r seq st det).mem = s.mem := by
  unfold State.partEnd; (repeat' split) <;> simp [foldl_mem, apply_ite State.mem]
@[simp] theorem State.partEnd_pending (s : State) (r seq st det : Nat) : (s.partEnd r seq st det).pending = s.pending := by
  unfold State.partEnd; (repeat' split) <;> simp [foldl_pending, apply_ite State.pending]
@[simp] theorem State.partOver_mem (s : State) (p : Part) (st det : Nat) : (s.partOver p st det).mem = s.mem := by
  unfold State.partOver; (repeat' split) <;> simp
@[simp] theorem State.partOver_pending (s : State) (p : Part) (st det : Nat) : (s.partOver p st det).pending = s.pending := by
  unfold State.partOver; (repeat' split) <;> simp
@[simp] theorem State.endParts_mem (s : State) (c st det : Nat) : (s.endParts c st det).mem = s.mem := by
  unfold State.endParts; dsimp only; split
  · rfl
  · rw [foldl_mem fun t p => State.partOver_mem t p st det]; rfl
@[simp] theorem State.endParts_pending (s : State) (c st det : Nat) : (s.endParts c st det).pending = s.pending := by
  unfold State.endParts; dsimp only; split
  · rfl
  · rw [foldl_pending fun t p => State.partOver_pending t p st det]; rfl
@[simp] theorem State.sendCollCtl_mem (s : State) (x : Coll) (kind reason m : Nat) : (s.sendCollCtl x kind reason m).mem = s.mem := by
  unfold State.sendCollCtl; (repeat' split) <;> simp [foldl_mem, apply_ite State.mem]
@[simp] theorem State.sendCollCtl_pending (s : State) (x : Coll) (kind reason m : Nat) : (s.sendCollCtl x kind reason m).pending = s.pending := by
  unfold State.sendCollCtl; (repeat' split) <;> simp [foldl_pending, apply_ite State.pending]
@[simp] theorem State.endColl_mem (s : State) (i st det : Nat) : (s.endColl i st det).mem = s.mem := by
  unfold State.endColl; split
  · rfl
  · simp only [State.cmdDone_mem]
    refine (foldl_mem (fun t q => ?_) _ _).trans ?_
    · rw [State.fset_mem, State.fset_mem]
    · rw [State.fset_mem, State.fset_mem]
@[simp] theorem State.endColl_pending (s : State) (i st det : Nat) : (s.endColl i st det).pending = s.pending := by
  unfold State.endColl; split
  · rfl
  · simp only [State.cmdDone_pending]
    refine (foldl_pending (fun t q => ?_) _ _).trans ?_
    · rw [State.fset_pending, State.fset_pending]
    · rw [State.fset_pending, State.fset_pending]
@[simp] theorem State.abortColl_mem (s : State) (i reason : Nat) (away : Bool) : (s.abortColl i reason away).mem = s.mem := by
  unfold State.abortColl; (repeat' split) <;> simp [foldl_mem, apply_ite State.mem]
@[simp] theorem State.abortColl_pending (s : State) (i reason : Nat) (away : Bool) : (s.abortColl i reason away).pending = s.pending := by
  unfold State.abortColl; (repeat' split) <;> simp [foldl_pending, apply_ite State.pending]
@[simp] theorem State.abortFoldColls_mem (s : State) (f : Nat) : (s.abortFoldColls f).mem = s.mem := by
  unfold State.abortFoldColls; (repeat' split) <;> simp [foldl_mem, apply_ite State.mem]
@[simp] theorem State.abortFoldColls_pending (s : State) (f : Nat) : (s.abortFoldColls f).pending = s.pending := by
  unfold State.abortFoldColls; (repeat' split) <;> simp [foldl_pending, apply_ite State.pending]
@[simp] theorem State.checkColls_mem (s : State) : (s.checkColls).mem = s.mem := by
  unfold State.checkColls; (repeat' split) <;> simp [foldl_mem, apply_ite State.mem]
@[simp] theorem State.checkColls_pending (s : State) : (s.checkColls).pending = s.pending := by
  unfold State.checkColls; (repeat' split) <;> simp [foldl_pending, apply_ite State.pending]
@[simp] theorem State.setFence_mem (s : State) (k : Nat) (ph : FencePhase) : (s.setFence k ph).mem = s.mem := by
  unfold State.setFence; (repeat' split) <;> simp [foldl_mem, apply_ite State.mem]
@[simp] theorem State.setFence_pending (s : State) (k : Nat) (ph : FencePhase) : (s.setFence k ph).pending = s.pending := by
  unfold State.setFence; (repeat' split) <;> simp [foldl_pending, apply_ite State.pending]
@[simp] theorem State.numEnd_mem (s : State) (c e : Nat) : (s.numEnd c e).mem = s.mem := by
  rw [State.numEnd, State.modCore_mem, State.fset_mem, State.fset_mem]
@[simp] theorem State.numEnd_pending (s : State) (c e : Nat) : (s.numEnd c e).pending = s.pending := by
  rw [State.numEnd, State.modCore_pending, State.fset_pending, State.fset_pending]
@[simp] theorem State.noteResident_mem (s : State) (c : Nat) : (s.noteResident c).mem = s.mem := by
  unfold State.noteResident; simp
@[simp] theorem State.noteResident_pending (s : State) (c : Nat) : (s.noteResident c).pending = s.pending := by
  unfold State.noteResident; simp
@[simp] theorem State.whiskCut_mem (s : State) (c : Nat) : (s.whiskCut c).mem = s.mem := by
  rw [State.whiskCut, State.noteResident_mem, State.modCore_mem]
  exact (apply_ite State.mem _ _ _).trans (by rw [State.numEnd_mem, ite_self])
@[simp] theorem State.whiskCut_pending (s : State) (c : Nat) : (s.whiskCut c).pending = s.pending := by
  rw [State.whiskCut, State.noteResident_pending, State.modCore_pending]
  exact (apply_ite State.pending _ _ _).trans (by rw [State.numEnd_pending, ite_self])
@[simp] theorem State.cutTest_mem (s : State) (c : Nat) : (s.cutTest c).mem = s.mem := by
  unfold State.cutTest; split <;> rfl
@[simp] theorem State.cutTest_pending (s : State) (c : Nat) : (s.cutTest c).pending = s.pending := by
  unfold State.cutTest; split <;> rfl
@[simp] theorem State.beginFence_mem (s : State) (k : Nat) : (s.beginFence k).mem = s.mem := by
  unfold State.beginFence; dsimp only; (repeat' split) <;> simp
@[simp] theorem State.beginFence_pending (s : State) (k : Nat) : (s.beginFence k).pending = s.pending := by
  unfold State.beginFence; dsimp only; (repeat' split) <;> simp
@[simp] theorem State.fenceCore_mem (s : State) (c : Nat) : (s.fenceCore c).mem = s.mem := by
  unfold State.fenceCore; (repeat' split) <;> simp [foldl_mem, apply_ite State.mem]
@[simp] theorem State.fenceCore_pending (s : State) (c : Nat) : (s.fenceCore c).pending = s.pending := by
  unfold State.fenceCore; (repeat' split) <;> simp [foldl_pending, apply_ite State.pending]
@[simp] theorem State.fencePort_mem (s : State) (p : Nat) : (s.fencePort p).mem = s.mem := by
  unfold State.fencePort; (repeat' split) <;> simp [foldl_mem, apply_ite State.mem]
@[simp] theorem State.fencePort_pending (s : State) (p : Nat) : (s.fencePort p).pending = s.pending := by
  unfold State.fencePort; (repeat' split) <;> simp [foldl_pending, apply_ite State.pending]
@[simp] theorem State.fenceFold_mem (s : State) (f : Nat) : (s.fenceFold f).mem = s.mem := by
  unfold State.fenceFold; (repeat' split) <;> simp [foldl_mem, apply_ite State.mem]
@[simp] theorem State.fenceFold_pending (s : State) (f : Nat) : (s.fenceFold f).pending = s.pending := by
  unfold State.fenceFold; (repeat' split) <;> simp [foldl_pending, apply_ite State.pending]
@[simp] theorem State.fenceFolds_mem (s : State) (l : List Nat) : (s.fenceFolds l).mem = s.mem := by
  unfold State.fenceFolds; (repeat' split) <;> simp [foldl_mem, apply_ite State.mem]
@[simp] theorem State.fenceFolds_pending (s : State) (l : List Nat) : (s.fenceFolds l).pending = s.pending := by
  unfold State.fenceFolds; (repeat' split) <;> simp [foldl_pending, apply_ite State.pending]
@[simp] theorem State.fenceUnits_mem (s : State) (d : Nat) : (s.fenceUnits d).mem = s.mem := by
  unfold State.fenceUnits; (repeat' split) <;> simp [foldl_mem, apply_ite State.mem]
@[simp] theorem State.fenceUnits_pending (s : State) (d : Nat) : (s.fenceUnits d).pending = s.pending := by
  unfold State.fenceUnits; (repeat' split) <;> simp [foldl_pending, apply_ite State.pending]
@[simp] theorem State.fenceDie_mem (s : State) (d : Nat) : (s.fenceDie d).mem = s.mem := by
  unfold State.fenceDie; (repeat' split) <;> simp [foldl_mem, apply_ite State.mem]
@[simp] theorem State.fenceDie_pending (s : State) (d : Nat) : (s.fenceDie d).pending = s.pending := by
  unfold State.fenceDie; (repeat' split) <;> simp [foldl_pending, apply_ite State.pending]
@[simp] theorem State.mapOutLane_mem (s : State) (p lane : Nat) : (s.mapOutLane p lane).mem = s.mem := by
  unfold State.mapOutLane; (repeat' split) <;> simp [foldl_mem, apply_ite State.mem]
@[simp] theorem State.mapOutLane_pending (s : State) (p lane : Nat) : (s.mapOutLane p lane).pending = s.pending := by
  unfold State.mapOutLane; (repeat' split) <;> simp [foldl_pending, apply_ite State.pending]
@[simp] theorem State.mapOutChannel_mem (s : State) (c : Nat) : (s.mapOutChannel c).mem = s.mem := by
  unfold State.mapOutChannel; (repeat' split) <;> simp [foldl_mem, apply_ite State.mem]
@[simp] theorem State.mapOutChannel_pending (s : State) (c : Nat) : (s.mapOutChannel c).pending = s.pending := by
  unfold State.mapOutChannel; (repeat' split) <;> simp [foldl_pending, apply_ite State.pending]
@[simp] theorem State.respond_mem (s : State) (d : Det) (r : Nat) : (s.respond d r).mem = s.mem := by
  unfold State.respond
  simp only [apply_ite State.mem]
  (repeat' split) <;> simp
@[simp] theorem State.respond_pending (s : State) (d : Det) (r : Nat) : (s.respond d r).pending = s.pending := by
  unfold State.respond
  simp only [apply_ite State.pending]
  (repeat' split) <;> simp
@[simp] theorem State.overflowFence_mem (s : State) (d : Det) : (s.overflowFence d).mem = s.mem := by
  unfold State.overflowFence; (repeat' split) <;> simp [foldl_mem, apply_ite State.mem]
@[simp] theorem State.overflowFence_pending (s : State) (d : Det) : (s.overflowFence d).pending = s.pending := by
  unfold State.overflowFence; (repeat' split) <;> simp [foldl_pending, apply_ite State.pending]
@[simp] theorem State.place_mem (s : State) (die : Nat) (d : Det) (r : Nat) : (s.place die d r).1.mem = s.mem := by
  unfold State.place; (repeat' split) <;> simp [apply_ite State.mem, apply_ite Prod.fst]
@[simp] theorem State.place_pending (s : State) (die : Nat) (d : Det) (r : Nat) : (s.place die d r).1.pending = s.pending := by
  unfold State.place; (repeat' split) <;> simp [apply_ite State.pending, apply_ite Prod.fst]
@[simp] theorem State.summary_mem (s : State) (m : Nat) : (s.summary m).mem = s.mem := by
  unfold State.summary; (repeat' split) <;> simp [foldl_mem, apply_ite State.mem]
@[simp] theorem State.summary_pending (s : State) (m : Nat) : (s.summary m).pending = s.pending := by
  unfold State.summary; (repeat' split) <;> simp [foldl_pending, apply_ite State.pending]
@[simp] theorem State.hubReport_mem (s : State) (die cls n : Nat) (taken lost : Bool) : (s.hubReport die cls n taken lost).mem = s.mem := by
  unfold State.hubReport; (repeat' split) <;> simp [foldl_mem, apply_ite State.mem]
@[simp] theorem State.hubReport_pending (s : State) (die cls n : Nat) (taken lost : Bool) : (s.hubReport die cls n taken lost).pending = s.pending := by
  unfold State.hubReport; (repeat' split) <;> simp [foldl_pending, apply_ite State.pending]
@[simp] theorem State.detectOn_mem (s : State) (die : Nat) (d : Det) : (s.detectOn die d).mem = s.mem := by
  unfold State.detectOn; (repeat' split) <;> simp [foldl_mem, apply_ite State.mem]
@[simp] theorem State.detectOn_pending (s : State) (die : Nat) (d : Det) : (s.detectOn die d).pending = s.pending := by
  unfold State.detectOn; (repeat' split) <;> simp [foldl_pending, apply_ite State.pending]
@[simp] theorem State.detect_mem (s : State) (d : Det) : (s.detect d).mem = s.mem := by
  unfold State.detect; (repeat' split) <;> simp [foldl_mem, apply_ite State.mem]
@[simp] theorem State.detect_pending (s : State) (d : Det) : (s.detect d).pending = s.pending := by
  unfold State.detect; (repeat' split) <;> simp [foldl_pending, apply_ite State.pending]
@[simp] theorem State.detectCore_mem (s : State) (cls c detail : Nat) : (s.detectCore cls c detail).mem = s.mem := by
  unfold State.detectCore; (repeat' split) <;> simp [foldl_mem, apply_ite State.mem]
@[simp] theorem State.detectCore_pending (s : State) (cls c detail : Nat) : (s.detectCore cls c detail).pending = s.pending := by
  unfold State.detectCore; (repeat' split) <;> simp [foldl_pending, apply_ite State.pending]
@[simp] theorem State.detectHub_mem (s : State) (cls detail : Nat) : (s.detectHub cls detail).mem = s.mem := by
  unfold State.detectHub; (repeat' split) <;> simp [foldl_mem, apply_ite State.mem]
@[simp] theorem State.detectHub_pending (s : State) (cls detail : Nat) : (s.detectHub cls detail).pending = s.pending := by
  unfold State.detectHub; (repeat' split) <;> simp [foldl_pending, apply_ite State.pending]
@[simp] theorem State.latchCore_mem (s : State) (c bitNo : Nat) : (s.latchCore c bitNo).mem = s.mem := by
  unfold State.latchCore; (repeat' split) <;> simp [foldl_mem, apply_ite State.mem]
@[simp] theorem State.latchCore_pending (s : State) (c bitNo : Nat) : (s.latchCore c bitNo).pending = s.pending := by
  unfold State.latchCore; (repeat' split) <;> simp [foldl_pending, apply_ite State.pending]
@[simp] theorem State.latchFold_mem (s : State) (f bitNo : Nat) : (s.latchFold f bitNo).mem = s.mem := by
  unfold State.latchFold; (repeat' split) <;> simp [foldl_mem, apply_ite State.mem]
@[simp] theorem State.latchFold_pending (s : State) (f bitNo : Nat) : (s.latchFold f bitNo).pending = s.pending := by
  unfold State.latchFold; (repeat' split) <;> simp [foldl_pending, apply_ite State.pending]
@[simp] theorem State.answer_mem (s : State) (b : Requester) (a : Answer) (data : Bytes := []) : (s.answer b a data).mem = s.mem := by
  unfold State.answer; (repeat' split) <;> simp [foldl_mem, apply_ite State.mem]
@[simp] theorem State.answer_pending (s : State) (b : Requester) (a : Answer) (data : Bytes := []) : (s.answer b a data).pending = s.pending := by
  unfold State.answer; (repeat' split) <;> simp [foldl_pending, apply_ite State.pending]
@[simp] theorem State.genPort_mem (s : State) (p : Nat) : (s.genPort p).mem = s.mem := by
  unfold State.genPort; (repeat' split) <;> simp [foldl_mem, apply_ite State.mem]
@[simp] theorem State.genPort_pending (s : State) (p : Nat) : (s.genPort p).pending = s.pending := by
  unfold State.genPort; (repeat' split) <;> simp [foldl_pending, apply_ite State.pending]
@[simp] theorem State.orphanForwards_mem (s : State) (p : Nat) : (s.orphanForwards p).mem = s.mem := by
  unfold State.orphanForwards; (repeat' split) <;> simp [foldl_mem, apply_ite State.mem]
@[simp] theorem State.orphanForwards_pending (s : State) (p : Nat) : (s.orphanForwards p).pending = s.pending := by
  unfold State.orphanForwards; (repeat' split) <;> simp [foldl_pending, apply_ite State.pending]
@[simp] theorem State.answerOutst_mem (s : State) (p : Nat) : (s.answerOutst p).mem = s.mem := by
  unfold State.answerOutst; (repeat' split) <;> simp [foldl_mem, apply_ite State.mem]
@[simp] theorem State.answerOutst_pending (s : State) (p : Nat) : (s.answerOutst p).pending = s.pending := by
  unfold State.answerOutst; (repeat' split) <;> simp [foldl_pending, apply_ite State.pending]
@[simp] theorem State.setPortState_mem (s : State) (p st : Nat) : (s.setPortState p st).mem = s.mem := by
  unfold State.setPortState; (repeat' split) <;> simp [apply_ite State.mem] <;> split <;> simp
@[simp] theorem State.setPortState_pending (s : State) (p st : Nat) : (s.setPortState p st).pending = s.pending := by
  unfold State.setPortState; (repeat' split) <;> simp [apply_ite State.pending] <;> split <;> simp
@[simp] theorem State.setInUse_mem (s : State) (p : Nat) : (s.setInUse p).mem = s.mem := by
  unfold State.setInUse; (repeat' split) <;> simp [foldl_mem, apply_ite State.mem]
@[simp] theorem State.setInUse_pending (s : State) (p : Nat) : (s.setInUse p).pending = s.pending := by
  unfold State.setInUse; (repeat' split) <;> simp [foldl_pending, apply_ite State.pending]
@[simp] theorem State.leaveActive_mem (s : State) (p st : Nat) : (s.leaveActive p st).mem = s.mem := by
  unfold State.leaveActive; (repeat' split) <;> simp [foldl_mem, apply_ite State.mem]
@[simp] theorem State.leaveActive_pending (s : State) (p st : Nat) : (s.leaveActive p st).pending = s.pending := by
  unfold State.leaveActive; (repeat' split) <;> simp [foldl_pending, apply_ite State.pending]
@[simp] theorem State.noLanes_mem (s : State) (p : Nat) : (s.noLanes p).mem = s.mem := by
  unfold State.noLanes; (repeat' split) <;> simp [foldl_mem, apply_ite State.mem]
@[simp] theorem State.noLanes_pending (s : State) (p : Nat) : (s.noLanes p).pending = s.pending := by
  unfold State.noLanes; (repeat' split) <;> simp [foldl_pending, apply_ite State.pending]
@[simp] theorem State.enterTraining_mem (s : State) (p : Nat) : (s.enterTraining p).mem = s.mem := by
  rw [State.enterTraining, State.modPort_mem, State.noLanes_mem, State.inc_mem, State.leaveActive_mem]
@[simp] theorem State.enterTraining_pending (s : State) (p : Nat) : (s.enterTraining p).pending = s.pending := by
  rw [State.enterTraining, State.modPort_pending, State.noLanes_pending, State.inc_pending, State.leaveActive_pending]
@[simp] theorem State.dropToTraining_mem (s : State) (p : Nat) : (s.dropToTraining p).mem = s.mem := by
  unfold State.dropToTraining; (repeat' split) <;> simp [foldl_mem, apply_ite State.mem]
@[simp] theorem State.dropToTraining_pending (s : State) (p : Nat) : (s.dropToTraining p).pending = s.pending := by
  unfold State.dropToTraining; (repeat' split) <;> simp [foldl_pending, apply_ite State.pending]
@[simp] theorem State.protocolError_mem (s : State) (p : Nat) : (s.protocolError p).mem = s.mem := by
  unfold State.protocolError; (repeat' split) <;> simp [foldl_mem, apply_ite State.mem]
@[simp] theorem State.protocolError_pending (s : State) (p : Nat) : (s.protocolError p).pending = s.pending := by
  unfold State.protocolError; (repeat' split) <;> simp [foldl_pending, apply_ite State.pending]
@[simp] theorem State.acceptPacket_mem (s : State) (p : Nat) (slots : List Word) : (s.acceptPacket p slots).1.mem = s.mem := by
  unfold State.acceptPacket; (repeat' split) <;> simp [foldl_mem, apply_ite State.mem]
@[simp] theorem State.acceptPacket_pending (s : State) (p : Nat) (slots : List Word) : (s.acceptPacket p slots).1.pending = s.pending := by
  unfold State.acceptPacket; (repeat' split) <;> simp [foldl_pending, apply_ite State.pending]
@[simp] theorem State.relane_mem (s : State) (p : Nat) : (s.relane p).mem = s.mem := by
  unfold State.relane; (repeat' split) <;> simp [foldl_mem, apply_ite State.mem]
@[simp] theorem State.relane_pending (s : State) (p : Nat) : (s.relane p).pending = s.pending := by
  unfold State.relane; (repeat' split) <;> simp [foldl_pending, apply_ite State.pending]
@[simp] theorem State.hostWriteF_mem (s : State) (addr : Nat) (data : Bytes) (cause : Nat) : (s.hostWriteF addr data cause).1.mem = s.mem := by
  unfold State.hostWriteF; (repeat' split) <;> simp [foldl_mem, apply_ite State.mem]
@[simp] theorem State.hostWriteF_pending (s : State) (addr : Nat) (data : Bytes) (cause : Nat) : (s.hostWriteF addr data cause).1.pending = s.pending := by
  unfold State.hostWriteF; (repeat' split) <;> simp [foldl_pending, apply_ite State.pending]
@[simp] theorem State.hostWrite_mem (s : State) (addr : Nat) (data : Bytes) : (s.hostWrite addr data).mem = s.mem := by
  unfold State.hostWrite; (repeat' split) <;> simp [foldl_mem, apply_ite State.mem]
@[simp] theorem State.hostWrite_pending (s : State) (addr : Nat) (data : Bytes) : (s.hostWrite addr data).pending = s.pending := by
  unfold State.hostWrite; (repeat' split) <;> simp [foldl_pending, apply_ite State.pending]
@[simp] theorem State.hostReq_mem (s : State) (o : Out) : (s.hostReq o).mem = s.mem := by
  unfold State.hostReq; (repeat' split) <;> simp [foldl_mem, apply_ite State.mem]
@[simp] theorem State.hostReq_pending (s : State) (o : Out) : (s.hostReq o).pending = s.pending := by
  unfold State.hostReq; (repeat' split) <;> simp [foldl_pending, apply_ite State.pending]

end Sys2Proof.Machine
end

