-- ==== Sys2Proof/Laws/Mem.lean ====
section
/-!
SUPPORT. The operations on device memory keep its canonical form, and the queue.
-/
namespace Sys2Proof.Machine
set_option linter.unusedSimpArgs false

theorem foldl_wf {α : Type} {f : State → α → State} (h : ∀ s x, s.mem.wf = true → (f s x).mem.wf = true) (l : List α) (s : State)
    (hs : s.mem.wf = true) : (l.foldl f s).mem.wf = true := by
  induction l generalizing s with
  | nil => exact hs
  | cons x l ih => exact ih _ (h s x hs)

@[simp] theorem wf_ite {p : Prop} [Decidable p] {m n : Memory} (hm : m.wf = true) (hn : n.wf = true) : (if p then m else n).wf = true := by
  split <;> assumption

@[simp] theorem State.setPoison_pending (s : State) (k : Nat) (p : Bool) : (s.setPoison k p).pending = s.pending := by
  unfold State.setPoison; (repeat' split) <;> simp [foldl_pending, apply_ite State.pending, apply_ite Prod.fst]
@[simp] theorem State.setPoison_mem (s : State) (k : Nat) (p : Bool) : (s.setPoison k p).mem = s.mem := by
  unfold State.setPoison; (repeat' split) <;> simp [foldl_mem, apply_ite State.mem, apply_ite Prod.fst]
@[simp] theorem State.hbmStore_pending (s : State) (ch q : Nat) (b : Bytes) (p : Bool) : (s.hbmStore ch q b p).pending = s.pending := by
  unfold State.hbmStore; (repeat' split) <;> simp [foldl_pending, apply_ite State.pending, apply_ite Prod.fst]
@[simp] theorem State.hbmStore_wf (s : State) (ch q : Nat) (b : Bytes) (p : Bool) (h : s.mem.wf = true) : (s.hbmStore ch q b p).mem.wf = true := by
  unfold State.hbmStore; (repeat' split) <;> simp [foldl_wf, apply_ite State.mem, apply_ite Prod.fst, h]
@[simp] theorem State.l2Put_pending (s : State) (ch q : Nat) (l : List L2Line) : (s.l2Put ch q l).pending = s.pending := by
  unfold State.l2Put; (repeat' split) <;> simp [foldl_pending, apply_ite State.pending, apply_ite Prod.fst]
@[simp] theorem State.l2Put_mem (s : State) (ch q : Nat) (l : List L2Line) : (s.l2Put ch q l).mem = s.mem := by
  unfold State.l2Put; (repeat' split) <;> simp [foldl_mem, apply_ite State.mem, apply_ite Prod.fst]
@[simp] theorem State.l2Touch_pending (s : State) (ch : Nat) (w : L2Line) : (s.l2Touch ch w).pending = s.pending := by
  unfold State.l2Touch; (repeat' split) <;> simp [foldl_pending, apply_ite State.pending, apply_ite Prod.fst]
@[simp] theorem State.l2Touch_mem (s : State) (ch : Nat) (w : L2Line) : (s.l2Touch ch w).mem = s.mem := by
  unfold State.l2Touch; (repeat' split) <;> simp [foldl_mem, apply_ite State.mem, apply_ite Prod.fst]
@[simp] theorem State.writeBack_pending (s : State) (ch : Nat) (w : L2Line) : (s.writeBack ch w).pending = s.pending := by
  unfold State.writeBack; (repeat' split) <;> simp [foldl_pending, apply_ite State.pending, apply_ite Prod.fst]
@[simp] theorem State.writeBack_wf (s : State) (ch : Nat) (w : L2Line) (h : s.mem.wf = true) : (s.writeBack ch w).mem.wf = true := by
  unfold State.writeBack; (repeat' split) <;> simp [foldl_wf, apply_ite State.mem, apply_ite Prod.fst, h]
@[simp] theorem State.l2Room_pending (s : State) (ch q : Nat) : (s.l2Room ch q).pending = s.pending := by
  simp only [State.l2Room]; split
  · rfl
  · split <;> simp [apply_ite State.pending]
@[simp] theorem State.l2Room_wf (s : State) (ch q : Nat) (h : s.mem.wf = true) : (s.l2Room ch q).mem.wf = true := by
  simp only [State.l2Room]; split
  · exact h
  · split <;> simp [apply_ite State.mem, h]
@[simp] theorem State.l2Fill_pending (s : State) (ch q : Nat) : (s.l2Fill ch q).1.pending = s.pending := by
  unfold State.l2Fill; (repeat' split) <;> simp [foldl_pending, apply_ite State.pending, apply_ite Prod.fst]
@[simp] theorem State.l2Fill_wf (s : State) (ch q : Nat) (h : s.mem.wf = true) : (s.l2Fill ch q).1.mem.wf = true := by
  unfold State.l2Fill; (repeat' split) <;> simp [foldl_wf, apply_ite State.mem, apply_ite Prod.fst, h]
@[simp] theorem State.l2Load_pending (s : State) (ch q off len : Nat) : (s.l2Load ch q off len).1.pending = s.pending := by
  have hp := s.l2Fill_pending ch q
  simp only [State.l2Load]
  rcases e : s.l2Fill ch q with ⟨t, w⟩
  rw [e] at hp
  (repeat' split) <;> simp_all [apply_ite State.pending]
@[simp] theorem State.l2Load_wf (s : State) (ch q off len : Nat) (h : s.mem.wf = true) : (s.l2Load ch q off len).1.mem.wf = true := by
  have hp := s.l2Fill_wf ch q h
  simp only [State.l2Load]
  rcases e : s.l2Fill ch q with ⟨t, w⟩
  rw [e] at hp
  (repeat' split) <;> simp_all [apply_ite State.mem]
@[simp] theorem State.l2StoreMask_pending (s : State) (ch q m : Nat) (b : Bytes) : (s.l2StoreMask ch q m b).pending = s.pending := by
  unfold State.l2StoreMask; (repeat' split) <;> simp [foldl_pending, apply_ite State.pending, apply_ite Prod.fst]
@[simp] theorem State.l2StoreMask_wf (s : State) (ch q m : Nat) (b : Bytes) (h : s.mem.wf = true) : (s.l2StoreMask ch q m b).mem.wf = true := by
  unfold State.l2StoreMask; (repeat' split) <;> simp [foldl_wf, apply_ite State.mem, apply_ite Prod.fst, h]
@[simp] theorem State.l2Store_pending (s : State) (ch q off : Nat) (b : Bytes) : (s.l2Store ch q off b).pending = s.pending := by
  unfold State.l2Store; (repeat' split) <;> simp [foldl_pending, apply_ite State.pending, apply_ite Prod.fst]
@[simp] theorem State.l2Store_wf (s : State) (ch q off : Nat) (b : Bytes) (h : s.mem.wf = true) : (s.l2Store ch q off b).mem.wf = true := by
  unfold State.l2Store; (repeat' split) <;> simp [foldl_wf, apply_ite State.mem, apply_ite Prod.fst, h]
@[simp] theorem State.ctrSet_pending (s : State) (k v : Nat) : (s.ctrSet k v).pending = s.pending := by
  unfold State.ctrSet; (repeat' split) <;> simp [foldl_pending, apply_ite State.pending, apply_ite Prod.fst]
@[simp] theorem State.ctrSet_mem (s : State) (k v : Nat) : (s.ctrSet k v).mem = s.mem := by
  unfold State.ctrSet; (repeat' split) <;> simp [foldl_mem, apply_ite State.mem, apply_ite Prod.fst]
@[simp] theorem State.ctrAdd_pending (s : State) (k v : Nat) : (s.ctrAdd k v).pending = s.pending := by
  unfold State.ctrAdd; (repeat' split) <;> simp [foldl_pending, apply_ite State.pending, apply_ite Prod.fst]
@[simp] theorem State.ctrAdd_mem (s : State) (k v : Nat) : (s.ctrAdd k v).mem = s.mem := by
  unfold State.ctrAdd; (repeat' split) <;> simp [foldl_mem, apply_ite State.mem, apply_ite Prod.fst]
@[simp] theorem State.ctrStore_pending (s : State) (k v : Nat) : (s.ctrStore k v).pending = s.pending := by
  unfold State.ctrStore; (repeat' split) <;> simp [foldl_pending, apply_ite State.pending, apply_ite Prod.fst]
@[simp] theorem State.ctrStore_mem (s : State) (k v : Nat) : (s.ctrStore k v).mem = s.mem := by
  unfold State.ctrStore; (repeat' split) <;> simp [foldl_mem, apply_ite State.mem, apply_ite Prod.fst]
@[simp] theorem State.pantryPut_pending (s : State) (c off : Nat) (b : Bytes) : (s.pantryPut c off b).pending = s.pending := by
  unfold State.pantryPut; (repeat' split) <;> simp [foldl_pending, apply_ite State.pending, apply_ite Prod.fst]
@[simp] theorem State.pantryPut_wf (s : State) (c off : Nat) (b : Bytes) (h : s.mem.wf = true) : (s.pantryPut c off b).mem.wf = true := by
  unfold State.pantryPut; (repeat' split) <;> simp [foldl_wf, apply_ite State.mem, apply_ite Prod.fst, h]
@[simp] theorem State.pantryAccess_pending (s : State) (c off len : Nat) (a : Act) : (s.pantryAccess c off len a).st.pending = s.pending := by
  unfold State.pantryAccess; (repeat' split) <;> simp [apply_ite State.pending, apply_ite Got.st]
@[simp] theorem State.pantryAccess_wf (s : State) (c off len : Nat) (a : Act) (h : s.mem.wf = true) : (s.pantryAccess c off len a).st.mem.wf = true := by
  unfold State.pantryAccess; (repeat' split) <;> simp [apply_ite State.mem, apply_ite Got.st, h]
@[simp] theorem State.lineAccess_pending (s : State) (ch q off len : Nat) (a : Act) : (s.lineAccess ch q off len a).st.pending = s.pending := by
  simp only [State.lineAccess]
  have hp := s.l2Load_pending ch q off
  (repeat' split) <;> simp [apply_ite State.pending, apply_ite Got.st] <;> simp_all [← hp]
@[simp] theorem State.lineAccess_wf (s : State) (ch q off len : Nat) (a : Act) (h : s.mem.wf = true) : (s.lineAccess ch q off len a).st.mem.wf = true := by
  have hl : ∀ n, (s.l2Load ch q off n).1.mem.wf = true := fun n => s.l2Load_wf ch q off n h
  simp only [State.lineAccess]
  (repeat' split) <;> simp [apply_ite State.mem, h, hl, wf_ite]
@[simp] theorem State.hbmAccess_pending (s : State) (addr len : Nat) (a : Act) : (s.hbmAccess addr len a).st.pending = s.pending := by
  unfold State.hbmAccess; (repeat' split) <;> simp [foldl_pending, apply_ite State.pending, apply_ite Prod.fst]
@[simp] theorem State.hbmAccess_wf (s : State) (addr len : Nat) (a : Act) (h : s.mem.wf = true) : (s.hbmAccess addr len a).st.mem.wf = true := by
  unfold State.hbmAccess; (repeat' split) <;> simp [foldl_wf, apply_ite State.mem, apply_ite Prod.fst, h]
@[simp] theorem State.l2Capture_pending (s : State) (ch q kind : Nat) : (s.l2Capture ch q kind).pending = s.pending := by
  unfold State.l2Capture; (repeat' split) <;> simp [foldl_pending, apply_ite State.pending, apply_ite Prod.fst]
@[simp] theorem State.l2Capture_mem (s : State) (ch q kind : Nat) : (s.l2Capture ch q kind).mem = s.mem := by
  unfold State.l2Capture; (repeat' split) <;> simp [foldl_mem, apply_ite State.mem, apply_ite Prod.fst]
@[simp] theorem State.l2Double_pending (s : State) (ch q kind : Nat) : (s.l2Double ch q kind).pending = s.pending := by
  unfold State.l2Double; (repeat' split) <;> simp [foldl_pending, apply_ite State.pending, apply_ite Prod.fst]
@[simp] theorem State.l2Double_wf (s : State) (ch q kind : Nat) (h : s.mem.wf = true) : (s.l2Double ch q kind).mem.wf = true := by
  unfold State.l2Double; (repeat' split) <;> simp [foldl_wf, apply_ite State.mem, apply_ite Prod.fst, h]
@[simp] theorem State.hbmBad_pending (s : State) (ch q kind : Nat) : (s.hbmBad ch q kind).pending = s.pending := by
  unfold State.hbmBad; (repeat' split) <;> simp [foldl_pending, apply_ite State.pending, apply_ite Prod.fst]
@[simp] theorem State.hbmBad_wf (s : State) (ch q kind : Nat) (h : s.mem.wf = true) : (s.hbmBad ch q kind).mem.wf = true := by
  unfold State.hbmBad; (repeat' split) <;> simp [foldl_wf, apply_ite State.mem, apply_ite Prod.fst, h]
@[simp] theorem State.l2Ecc_pending (s : State) (ch q : Nat) (e : Ecc) : (s.l2Ecc ch q e).pending = s.pending := by
  unfold State.l2Ecc; (repeat' split) <;> simp [foldl_pending, apply_ite State.pending, apply_ite Prod.fst]
@[simp] theorem State.l2Ecc_wf (s : State) (ch q : Nat) (e : Ecc) (h : s.mem.wf = true) : (s.l2Ecc ch q e).mem.wf = true := by
  unfold State.l2Ecc; (repeat' split) <;> simp [foldl_wf, apply_ite State.mem, apply_ite Prod.fst, h]
@[simp] theorem State.hbmDeliver_pending (s : State) (ch q : Nat) (merge : Bool) : (s.hbmDeliver ch q merge).pending = s.pending := by
  have hp := s.l2Fill_pending ch q
  simp only [State.hbmDeliver]
  rcases e : s.l2Fill ch q with ⟨t, w⟩
  rw [e] at hp
  (repeat' split) <;> simp_all [apply_ite State.pending]
@[simp] theorem State.hbmDeliver_wf (s : State) (ch q : Nat) (merge : Bool) (h : s.mem.wf = true) : (s.hbmDeliver ch q merge).mem.wf = true := by
  have hp := s.l2Fill_wf ch q h
  simp only [State.hbmDeliver]
  rcases e : s.l2Fill ch q with ⟨t, w⟩
  rw [e] at hp
  (repeat' split) <;> simp_all [apply_ite State.mem]
@[simp] theorem State.patrolCount_pending (s : State) (ch i n : Nat) : (s.patrolCount ch i n).pending = s.pending := by
  unfold State.patrolCount; (repeat' split) <;> simp [foldl_pending, apply_ite State.pending, apply_ite Prod.fst]
@[simp] theorem State.patrolCount_mem (s : State) (ch i n : Nat) : (s.patrolCount ch i n).mem = s.mem := by
  unfold State.patrolCount; (repeat' split) <;> simp [foldl_mem, apply_ite State.mem, apply_ite Prod.fst]
@[simp] theorem State.patrolNext_pending (s : State) (ch ecs : Nat) : (s.patrolNext ch ecs).pending = s.pending := by
  unfold State.patrolNext; (repeat' split) <;> simp [foldl_pending, apply_ite State.pending, apply_ite Prod.fst]
@[simp] theorem State.patrolNext_mem (s : State) (ch ecs : Nat) : (s.patrolNext ch ecs).mem = s.mem := by
  unfold State.patrolNext; (repeat' split) <;> simp [foldl_mem, apply_ite State.mem, apply_ite Prod.fst]
@[simp] theorem State.pinLine_pending (s : State) (f : Nat) (p : Nat × Nat) : (s.pinLine f p).1.pending = s.pending := by
  have hp := s.l2Fill_pending p.1 p.2
  simp only [State.pinLine]
  rcases e : s.l2Fill p.1 p.2 with ⟨t, w⟩
  rw [e] at hp
  (repeat' split) <;> simp_all [apply_ite State.pending]
@[simp] theorem State.pinLine_wf (s : State) (f : Nat) (p : Nat × Nat) (h : s.mem.wf = true) : (s.pinLine f p).1.mem.wf = true := by
  have hp := s.l2Fill_wf p.1 p.2 h
  simp only [State.pinLine]
  rcases e : s.l2Fill p.1 p.2 with ⟨t, w⟩
  rw [e] at hp
  (repeat' split) <;> simp_all [apply_ite State.mem]
@[simp] theorem State.unpinIf_pending (s : State) (f : Nat) (p : Nat → L2Line → Bool) : (s.unpinIf f p).pending = s.pending := by
  unfold State.unpinIf; (repeat' split) <;> simp [foldl_pending, apply_ite State.pending, apply_ite Prod.fst]
@[simp] theorem State.unpinIf_mem (s : State) (f : Nat) (p : Nat → L2Line → Bool) : (s.unpinIf f p).mem = s.mem := by
  unfold State.unpinIf; (repeat' split) <;> simp [foldl_mem, apply_ite State.mem, apply_ite Prod.fst]
@[simp] theorem State.unpinAll_pending (s : State) (f : Nat) : (s.unpinAll f).pending = s.pending := by
  unfold State.unpinAll; (repeat' split) <;> simp [foldl_pending, apply_ite State.pending, apply_ite Prod.fst]
@[simp] theorem State.unpinAll_mem (s : State) (f : Nat) : (s.unpinAll f).mem = s.mem := by
  unfold State.unpinAll; (repeat' split) <;> simp [foldl_mem, apply_ite State.mem, apply_ite Prod.fst]
@[simp] theorem State.pinStart_pending (s : State) (f result refused : Nat) : (s.pinStart f result refused).pending = s.pending := by
  unfold State.pinStart; (repeat' split) <;> simp [foldl_pending, apply_ite State.pending, apply_ite Prod.fst]
@[simp] theorem State.pinStart_mem (s : State) (f result refused : Nat) : (s.pinStart f result refused).mem = s.mem := by
  unfold State.pinStart; (repeat' split) <;> simp [foldl_mem, apply_ite State.mem, apply_ite Prod.fst]

end Sys2Proof.Machine
end

