-- ==== Sys2Proof/Laws/Access.lean ====
section
/-!
SUPPORT. Requests and their answers keep the queue, and device memory or its canonical form.
-/
namespace Sys2Proof.Machine
set_option linter.unusedSimpArgs false

@[simp] theorem State.miss_pending (s : State) (c page kind : Nat) (b : Requester) : (s.miss c page kind b).pending = s.pending := by
  unfold State.miss; (repeat' split) <;> simp [foldl_pending, apply_ite State.pending, apply_ite Prod.fst]
@[simp] theorem State.miss_mem (s : State) (c page kind : Nat) (b : Requester) : (s.miss c page kind b).mem = s.mem := by
  unfold State.miss; (repeat' split) <;> simp [foldl_mem, apply_ite State.mem, apply_ite Prod.fst]
@[simp] theorem State.hostStore_pending (s : State) (addr m : Nat) (d : Bytes) : (s.hostStore addr m d).pending = s.pending := by
  simp only [State.hostStore]; (repeat' split) <;> simp [foldl_pending]
@[simp] theorem State.hostStore_mem (s : State) (addr m : Nat) (d : Bytes) : (s.hostStore addr m d).mem = s.mem := by
  simp only [State.hostStore]; (repeat' split) <;> simp [foldl_mem]
@[simp] theorem State.hostIssue_pending (s : State) (o : HostOp) (entry : Nat) : (s.hostIssue o entry).1.pending = s.pending := by
  unfold State.hostIssue; (repeat' split) <;> simp [foldl_pending, apply_ite State.pending, apply_ite Prod.fst]
@[simp] theorem State.hostIssue_mem (s : State) (o : HostOp) (entry : Nat) : (s.hostIssue o entry).1.mem = s.mem := by
  unfold State.hostIssue; (repeat' split) <;> simp [foldl_mem, apply_ite State.mem, apply_ite Prod.fst]
@[simp] theorem State.hostStart_pending (s : State) (o : HostOp) (other : Viol) : (s.hostStart o other).1.pending = s.pending := by
  simp only [State.hostStart]; (repeat' split) <;> simp
@[simp] theorem State.hostStart_mem (s : State) (o : HostOp) (other : Viol) : (s.hostStart o other).1.mem = s.mem := by
  simp only [State.hostStart]; (repeat' split) <;> simp
@[simp] theorem State.noteOutst_pending (s : State) (p : Nat) : (s.noteOutst p).pending = s.pending := by
  unfold State.noteOutst; (repeat' split) <;> simp [foldl_pending, apply_ite State.pending, apply_ite Prod.fst]
@[simp] theorem State.noteOutst_mem (s : State) (p : Nat) : (s.noteOutst p).mem = s.mem := by
  unfold State.noteOutst; (repeat' split) <;> simp [foldl_mem, apply_ite State.mem, apply_ite Prod.fst]
@[simp] theorem State.pcieFault_pending (s : State) (cause : Nat) : (s.pcieFault cause).pending = s.pending := by
  unfold State.pcieFault; (repeat' split) <;> simp [foldl_pending, apply_ite State.pending, apply_ite Prod.fst]
@[simp] theorem State.pcieFault_mem (s : State) (cause : Nat) : (s.pcieFault cause).mem = s.mem := by
  unfold State.pcieFault; (repeat' split) <;> simp [foldl_mem, apply_ite State.mem, apply_ite Prod.fst]
@[simp] theorem State.hostFinish_pending (s : State) (tag : Nat) (a : Answer) (data : Bytes) : (s.hostFinish tag a data).pending = s.pending := by
  unfold State.hostFinish; (repeat' split) <;> simp [foldl_pending, apply_ite State.pending, apply_ite Prod.fst]
@[simp] theorem State.hostFinish_mem (s : State) (tag : Nat) (a : Answer) (data : Bytes) : (s.hostFinish tag a data).mem = s.mem := by
  unfold State.hostFinish; (repeat' split) <;> simp [foldl_mem, apply_ite State.mem, apply_ite Prod.fst]
@[simp] theorem State.entryArrives_pending (s : State) (tag e : Nat) : (s.entryArrives tag e).pending = s.pending := by
  simp only [State.entryArrives]
  split
  · rfl
  · split
    · rfl
    · next o _ _ =>
      generalize ht : ({ s with hostOps := _, mapCopies := _ } : State) = t
      have hs : t.pending = s.pending := by rw [← ht]
      have hi := t.hostIssue_pending o e
      rcases e' : t.hostIssue o e with ⟨u, r⟩
      rw [e'] at hi
      cases r with
      | none => exact hi.trans hs
      | some x => simp only [State.answer_pending]; exact hi.trans hs
@[simp] theorem State.entryArrives_mem (s : State) (tag e : Nat) : (s.entryArrives tag e).mem = s.mem := by
  simp only [State.entryArrives]
  split
  · rfl
  · split
    · rfl
    · next o _ _ =>
      generalize ht : ({ s with hostOps := _, mapCopies := _ } : State) = t
      have hs : t.mem = s.mem := by rw [← ht]
      have hi := t.hostIssue_mem o e
      rcases e' : t.hostIssue o e with ⟨u, r⟩
      rw [e'] at hi
      cases r with
      | none => exact hi.trans hs
      | some x => simp only [State.answer_mem]; exact hi.trans hs
@[simp] theorem State.noteRead_pending (s : State) (z : HostRead) : (s.noteRead z).pending = s.pending := by
  unfold State.noteRead; (repeat' split) <;> simp [foldl_pending, apply_ite State.pending, apply_ite Prod.fst]
@[simp] theorem State.noteRead_mem (s : State) (z : HostRead) : (s.noteRead z).mem = s.mem := by
  unfold State.noteRead; (repeat' split) <;> simp [foldl_mem, apply_ite State.mem, apply_ite Prod.fst]
@[simp] theorem State.entryFails_pending (s : State) (tag : Nat) (r : HostRead) : (s.entryFails tag r).pending = s.pending := by
  unfold State.entryFails; (repeat' split) <;> simp [foldl_pending, apply_ite State.pending, apply_ite Prod.fst]
@[simp] theorem State.entryFails_mem (s : State) (tag : Nat) (r : HostRead) : (s.entryFails tag r).mem = s.mem := by
  unfold State.entryFails; (repeat' split) <;> simp [foldl_mem, apply_ite State.mem, apply_ite Prod.fst]
@[simp] theorem State.hostGood_pending (s : State) (tag : Nat) (o : HostOp) (data : Bytes) : (s.hostGood tag o data).pending = s.pending := by
  simp only [State.hostGood]; (repeat' split) <;> simp
@[simp] theorem State.hostGood_mem (s : State) (tag : Nat) (o : HostOp) (data : Bytes) : (s.hostGood tag o data).mem = s.mem := by
  simp only [State.hostGood]; (repeat' split) <;> simp
@[simp] theorem State.completionArrives_pending (s : State) (tag : Nat) (status : CplStatus) (data : Bytes) : (s.completionArrives tag status data).pending = s.pending := by
  simp only [State.completionArrives]; (repeat' split) <;> simp
@[simp] theorem State.completionArrives_mem (s : State) (tag : Nat) (status : CplStatus) (data : Bytes) : (s.completionArrives tag status data).mem = s.mem := by
  simp only [State.completionArrives]; (repeat' split) <;> simp
@[simp] theorem State.mapInval_pending (s : State) (src : Source) (c : Nat) (all : Bool) (page : Nat) : (s.mapInval src c all page).pending = s.pending := by
  unfold State.mapInval; (repeat' split) <;> simp [foldl_pending, apply_ite State.pending, apply_ite Prod.fst]
@[simp] theorem State.mapInval_mem (s : State) (src : Source) (c : Nat) (all : Bool) (page : Nat) : (s.mapInval src c all page).mem = s.mem := by
  unfold State.mapInval; (repeat' split) <;> simp [foldl_mem, apply_ite State.mem, apply_ite Prod.fst]
@[simp] theorem State.mapDrop_pending (s : State) (c : Nat) : (s.mapDrop c).pending = s.pending := by
  unfold State.mapDrop; (repeat' split) <;> simp [foldl_pending, apply_ite State.pending, apply_ite Prod.fst]
@[simp] theorem State.mapDrop_mem (s : State) (c : Nat) : (s.mapDrop c).mem = s.mem := by
  unfold State.mapDrop; (repeat' split) <;> simp [foldl_mem, apply_ite State.mem, apply_ite Prod.fst]
@[simp] theorem State.sendRequest_pending (s : State) (b : Requester) (f addr : Nat) (a : Act) (len fwd arr : Nat) (v : Viol) :
    (s.sendRequest b f addr a len fwd arr v).1.pending = s.pending := by
  simp only [State.sendRequest]; (repeat' split) <;> simp
@[simp] theorem State.sendRequest_mem (s : State) (b : Requester) (f addr : Nat) (a : Act) (len fwd arr : Nat) (v : Viol) :
    (s.sendRequest b f addr a len fwd arr v).1.mem = s.mem := by
  simp only [State.sendRequest]; (repeat' split) <;> simp
@[simp] theorem State.deliver_pending (s : State) (b : Requester) (r : Route) (a : Act) (len fwd arr : Nat) (v : Viol) :
    (s.deliver b r a len fwd arr v).1.pending = s.pending := by
  simp only [State.deliver]; (repeat' split) <;> simp
@[simp] theorem State.deliver_wf (s : State) (b : Requester) (r : Route) (a : Act) (len fwd arr : Nat) (v : Viol) (h : s.mem.wf = true) :
    (s.deliver b r a len fwd arr v).1.mem.wf = true := by
  simp only [State.deliver]; (repeat' split) <;> simp [h]
@[simp] theorem State.takeReply_pending {s t : State} {b : Requester} {x : Answer × Bytes} (h : s.takeReply b = some (t, x)) :
    t.pending = s.pending := by
  obtain ⟨_, _, e⟩ := Option.map_eq_some_iff.1 h
  cases e; rfl
@[simp] theorem State.takeReply_mem {s t : State} {b : Requester} {x : Answer × Bytes} (h : s.takeReply b = some (t, x)) :
    t.mem = s.mem := by
  obtain ⟨_, _, e⟩ := Option.map_eq_some_iff.1 h
  cases e; rfl
@[simp] theorem State.request_pending (s : State) (b : Requester) (c : Nat) (a : Act) (addr len arr : Nat) (twin : Bool) :
    (s.request b c a addr len arr twin).1.pending = s.pending := by
  simp only [State.request]; split
  · next h => exact State.takeReply_pending h
  · split <;> simp
@[simp] theorem State.request_wf (s : State) (b : Requester) (c : Nat) (a : Act) (addr len arr : Nat) (twin : Bool) (h : s.mem.wf = true) :
    (s.request b c a addr len arr twin).1.mem.wf = true := by
  simp only [State.request]; split
  · next e => rw [State.takeReply_mem e]; exact h
  · split <;> simp [h]

end Sys2Proof.Machine
end

