-- ==== Sys2Proof/Laws/Engine.lean ====
section
/-!
SUPPORT. The shared operations of the engines keep the queue, and device memory or its canonical form.
-/
namespace Sys2Proof.Machine
set_option linter.unusedSimpArgs false

@[simp] theorem State.setEngState_pending (s : State) (c e v : Nat) : (s.setEngState c e v).pending = s.pending := by
  unfold State.setEngState; (repeat' split) <;> simp [foldl_pending, apply_ite State.pending, apply_ite Prod.fst]
@[simp] theorem State.setEngState_mem (s : State) (c e v : Nat) : (s.setEngState c e v).mem = s.mem := by
  unfold State.setEngState; (repeat' split) <;> simp [foldl_mem, apply_ite State.mem, apply_ite Prod.fst]
@[simp] theorem State.dropWord_pending (s : State) (c e : Nat) : (s.dropWord c e).pending = s.pending := by
  unfold State.dropWord; (repeat' split) <;> simp [foldl_pending, apply_ite State.pending, apply_ite Prod.fst]
@[simp] theorem State.dropWord_mem (s : State) (c e : Nat) : (s.dropWord c e).mem = s.mem := by
  unfold State.dropWord; (repeat' split) <;> simp [foldl_mem, apply_ite State.mem, apply_ite Prod.fst]
@[simp] theorem State.markPart_pending (s : State) (c m : Nat) : (s.markPart c m).pending = s.pending := by
  unfold State.markPart; (repeat' split) <;> simp [foldl_pending, apply_ite State.pending, apply_ite Prod.fst]
@[simp] theorem State.markPart_mem (s : State) (c m : Nat) : (s.markPart c m).mem = s.mem := by
  unfold State.markPart; (repeat' split) <;> simp [foldl_mem, apply_ite State.mem, apply_ite Prod.fst]
@[simp] theorem State.record_pending (s : State) (c e : Nat) (l : List Res) : (s.record c e l).pending = s.pending := by
  unfold State.record; (repeat' split) <;> simp [foldl_pending, apply_ite State.pending, apply_ite Prod.fst]
@[simp] theorem State.record_mem (s : State) (c e : Nat) (l : List Res) : (s.record c e l).mem = s.mem := by
  unfold State.record; (repeat' split) <;> simp [foldl_mem, apply_ite State.mem, apply_ite Prod.fst]
@[simp] theorem State.engDone_pending (s : State) (c e : Nat) (f : FieldRef) : (s.engDone c e f).pending = s.pending := by
  unfold State.engDone; (repeat' split) <;> simp [foldl_pending, apply_ite State.pending, apply_ite Prod.fst]
@[simp] theorem State.engDone_mem (s : State) (c e : Nat) (f : FieldRef) : (s.engDone c e f).mem = s.mem := by
  unfold State.engDone; (repeat' split) <;> simp [foldl_mem, apply_ite State.mem, apply_ite Prod.fst]
@[simp] theorem State.padBits_pending (s : State) (n count : Nat) : (s.padBits n count).2.pending = s.pending := by
  unfold State.padBits; (repeat' split) <;> simp [foldl_pending, apply_ite State.pending, apply_ite Prod.fst]
@[simp] theorem State.padBits_mem (s : State) (n count : Nat) : (s.padBits n count).2.mem = s.mem := by
  unfold State.padBits; (repeat' split) <;> simp [foldl_mem, apply_ite State.mem, apply_ite Prod.fst]
theorem State.pantryWrite_pending (s : State) (c off : Nat) (b : Bytes) (rec : Nat → Nat → State → State)
    (hr : ∀ x y t, (rec x y t).pending = t.pending) : (s.pantryWrite c off b rec).pending = s.pending := by
  unfold State.pantryWrite
  split
  · rfl
  · exact foldl_pending (fun t i => by simp only []; split <;> simp [hr]) _ _
theorem State.pantryWrite_wf (s : State) (c off : Nat) (b : Bytes) (rec : Nat → Nat → State → State)
    (hr : ∀ x y t, t.mem.wf = true → (rec x y t).mem.wf = true) (h : s.mem.wf = true) : (s.pantryWrite c off b rec).mem.wf = true := by
  unfold State.pantryWrite
  split
  · exact h
  · refine foldl_wf (fun t i ht => ?_) _ _ h
    simp only []
    split
    · simp [ht]
    · exact hr _ _ _ (State.pantryAccess_wf _ _ _ _ _ ht)
@[simp] theorem State.writeResults_pending (s : State) (c e off n : Nat) (l : List Res) :
    (s.writeResults c e off n l).pending = s.pending := by
  have hp := s.padBits_pending n l.length
  unfold State.writeResults
  generalize s.padBits n l.length = r at hp ⊢
  obtain ⟨p, t⟩ := r
  exact (State.pantryWrite_pending _ _ _ _ _ (fun _ _ _ => by simp)).trans hp
@[simp] theorem State.writeResults_wf (s : State) (c e off n : Nat) (l : List Res) (h : s.mem.wf = true) :
    (s.writeResults c e off n l).mem.wf = true := by
  have hp := s.padBits_mem n l.length
  unfold State.writeResults
  generalize s.padBits n l.length = r at hp ⊢
  obtain ⟨p, t⟩ := r
  refine State.pantryWrite_wf _ _ _ _ _ (fun _ _ t ht => by simp [ht]) ?_
  rw [show t.mem = s.mem from hp]; exact h

end Sys2Proof.Machine
end

