-- ==== Sys2Proof/WellFormed.lean ====
section
/-!
DEFINITION. Well-formedness of commands. Units are bounded by their types; what remains is that an access has a size of R148, a
packet the type of its row (Table 14.5), and that a line's place, a data string or a register offset is one the interface of its row
can carry at all. The meanings are total on every command: one that is not well formed is answered as the manual's own checks say, or
leaves the state as it was.
-/
namespace Sys2Proof

/-- An access the fabric carries: 1 to 64 bytes (R148), with data of its size. A signal's increment is 8 bytes; an atomic acts on 4 or 8
bytes. -/
def accessOk (op : AccessOp) (size : Nat) (data : Bytes) : Bool :=
  match op with
  | .load => decide (0 < size) && decide (size ≤ 64)
  | .store => decide (0 < size) && decide (size ≤ 64) && data.length == size
  | .signal => size == 8 && data.length == 8
  | .atomic _ => (size == 4 || size == 8) && decide (size ≤ data.length)

/-- A line's place within its channel. -/
def lineOk (line : Nat) : Bool := decide (line < Config.channelLines)

/-- A decode outcome: wrong data is a whole line. -/
def decodeOk : HbmDecode → Bool
  | .clean => true
  | .corrected => true
  | .detected => true
  | .wrong d => d.length == 64
  | .poisoned => true
  | .parity => true

/-- A packet whose first slot gives a type (R517). -/
def isPacket (typ : Nat) : List Word → Bool
  | [] => false
  | w :: _ => w.toNat % 256 == typ

/-- Whether a command is well formed. -/
def Instr.wf : Instr → Bool
  | .registerWrite _ off wide _ => decide (off < Config.regBytes + 0x80) && off % (if wide then 8 else 4) == 0
  | .rootStall _ _ _ _ _ => true
  | .heldEpisode _ _ => true
  | .bootImageLoad _ _ => true
  | .loadFull _ _ _ _ => true
  | .updateFold _ _ _ _ => true
  | .imageValidate _ _ _ => true
  | .coreRequestResolve _ _ op _ size data _ => accessOk op size data
  | .hostMapEntryFetch _ _ => true
  | .ctxMapInval _ _ _ => true
  | .ctxMapInvalDone _ => true
  | .ctxMapEnable _ _ _ => true
  | .ctxMissClear _ _ => true
  | .chedalAlu _ _ _ => true
  | .chedalAluImmediate _ _ _ => true
  | .chedalLoad _ _ _ _ _ => true
  | .chedalStore _ _ _ _ _ => true
  | .chedalAtomic _ _ _ _ => true
  | .chedalBranch _ _ _ => true
  | .chedalJump _ _ _ => true
  | .issue _ _ _ _ => true
  | .sumget _ _ _ _ => true
  | .qwait _ _ _ => true
  | .twinWaitAcq _ _ _ => true
  | .twinSignal _ _ _ _ => true
  | .twinFence _ _ _ => true
  | .twinFlush _ _ _ => true
  | .dinv _ _ _ => true
  | .dinvAll _ _ _ => true
  | .iinvAll _ _ _ => true
  | .ecall _ _ _ => true
  | .ebreak _ _ _ => true
  | .eret _ _ _ _ => true
  | .mfs _ _ _ => true
  | .mts _ _ _ => true
  | .wfe _ _ _ => true
  | .kick _ _ _ _ => true
  | .twinDone _ _ _ => true
  | .timerEvent _ _ => true
  | .lockstepSignatureCheck _ _ => true
  | .twinKettleExpiry _ _ => true
  | .twinStart _ _ => true
  | .kettleKeyWrite _ _ _ _ => true
  | .kettleWindowWrite _ _ _ _ _ => true
  | .kettleLock _ _ => true
  | .mma _ => true
  | .matrixStepEnd _ _ _ => true
  | .matrixResume _ _ => true
  | .matrixDiscard _ _ => true
  | .arrayTestDue _ _ => true
  | .arrayTestEnd _ _ => true
  | .vectorWord _ _ _ => true
  | .vectorResume _ _ => true
  | .vectorDiscard _ _ => true
  | .launch _ _ => true
  | .crewResident _ => true
  | .whiskIntegerOp _ _ _ _ => true
  | .whiskFloatOp _ _ _ _ => true
  | .whiskCvt _ _ _ _ => true
  | .tst _ _ _ _ => true
  | .predicateOp _ _ _ _ => true
  | .whiskSel _ _ _ _ => true
  | .laneInformation _ _ _ _ => true
  | .whiskLoad _ _ _ _ => true
  | .whiskStore _ _ _ _ => true
  | .whiskAtomic _ _ _ _ => true
  | .whiskJump _ _ _ _ => true
  | .jr _ _ _ _ => true
  | .meetBarrier _ _ _ _ => true
  | .markBarrier _ _ _ _ => true
  | .awaitBarrier _ _ _ _ => true
  | .whiskSummary _ _ _ _ => true
  | .whiskWaitAcq _ _ _ _ => true
  | .whiskSignal _ _ _ _ => true
  | .whiskFence _ _ _ _ => true
  | .whiskFlush _ _ _ _ => true
  | .groupExit _ _ _ _ => true
  | .brk _ _ _ _ => true
  | .barrierStall _ _ _ => true
  | .groupResume _ _ _ _ => true
  | .groupRelease _ _ _ _ => true
  | .groupKill _ _ _ _ => true
  | .groupHalt _ _ _ _ => true
  | .groupStep _ _ _ _ => true
  | .dbgDataWrite _ _ _ => true
  | .whiskResume _ _ => true
  | .whiskDiscard _ _ => true
  | .copy _ _ => true
  | .fill _ _ => true
  | .moverWordFinish _ => true
  | .moverResume _ _ => true
  | .moverDiscard _ _ => true
  | .l2Load _ line off len _ => lineOk line && decide (off + len ≤ 64)
  | .l2Store _ line off data _ => lineOk line && decide (off + data.length ≤ 64)
  | .l2Atomic _ line off _ size _ _ _ => lineOk line && (size == 4 || size == 8) && off % size == 0 && decide (off < 64)
  | .hbmReadComplete _ line _ _ _ outcome => lineOk line && decodeOk outcome
  | .l2ScrubRead _ line _ => lineOk line
  | .hbmPatrolRead _ _ outcome _ => decodeOk outcome
  | .hbmTemperatureRead _ _ => true
  | .pin _ _ => true
  | .unpin _ _ => true
  | .unpinAll _ _ => true
  | .pinCommandDone _ => true
  | .hbmSelfRefresh _ _ => true
  | .hbmActive _ _ => true
  | .hbmPowerDone => true
  | .stream _ => true
  | .pourDiscardWord _ => true
  | .tileInject _ => true
  | .tileAccept _ _ _ => true
  | .panelRelease _ tree _ => decide (tree < 1024)
  | .streamFinish _ => true
  | .streamAbort _ => true
  | .pourResume _ _ => true
  | .pourDiscard _ _ => true
  | .dbTail _ _ => true
  | .dbStart _ _ => true
  | .dbTimedTail _ _ => true
  | .timedDoorbellRelease _ _ => true
  | .descriptorFetch _ _ => true
  | .handleEntryFetch _ _ => true
  | .commandStart _ _ => true
  | .nop _ => true
  | .kernel _ => true
  | .wait _ => true
  | .timestamp _ _ => true
  | .collective _ => true
  | .domain _ => true
  | .commandRetire _ _ _ => true
  | .ringStart _ _ => true
  | .stopDrain _ _ => true
  | .stopAbort _ _ => true
  | .ringReset _ _ => true
  | .ctxHtEnable _ _ _ => true
  | .ctxHtInval _ _ _ => true
  | .codewordReceive _ _ _ hdr flits => decide (hdr < 2 ^ 20) && (flits.isEmpty || (flits.length == 5 && flits.all fun b => b.length == 128))
  | .flitReceive _ _ fseq ack slots _ => decide (fseq < 4096) && decide (ack < 4096) && decide (slots.length ≤ 15)
  | .nakReceive _ fseq => decide (fseq < 4096)
  | .replayTimer _ _ => true
  | .loadRequest _ slots => isPacket 0x10 slots
  | .storeRequest _ slots => isPacket 0x11 slots
  | .storeMaskedRequest _ slots => isPacket 0x12 slots
  | .signalRequest _ slots => isPacket 0x13 slots
  | .atomicRequest _ slots => isPacket 0x14 slots
  | .rspReceive _ slots => isPacket 0x20 slots
  | .creditReceive _ slot => isPacket 0x01 [slot]
  | .laneBad _ _ => true
  | .trainingLock _ _ _ _ _ => true
  | .trainingTimeout _ _ => true
  | .downRetry _ _ => true
  | .portTimeout _ _ _ => true
  | .retrain _ _ _ => true
  | .restoreLanes _ _ _ => true
  | .agreeSend _ _ => true
  | .agreeReceive _ slots _ => isPacket 0x40 slots
  | .agreementLost _ _ => true
  | .collOpen _ slots => isPacket 0x30 slots
  | .openRepeat _ _ _ => true
  | .collPartial _ slots _ => isPacket 0x30 slots
  | .collFinal _ slots => isPacket 0x30 slots
  | .collAbort _ slots => isPacket 0x30 slots
  | .segmentOriginate _ _ _ => true
  | .collectiveComplete _ => true
  | .noProgress _ _ => true
  | .groupEpochWrite _ _ => true
  | .timeReqSend _ _ => true
  | .timeReq _ slots _ _ _ => isPacket 0x41 slots
  | .timeRsp _ slots _ _ _ => isPacket 0x41 slots
  | .measurementTimeout _ _ => true
  | .advertisementAgeOut _ _ => true
  | .holdoverEntry _ => true
  | .holdoverExpiry _ => true
  | .stepForward _ _ => true
  | .ptmSample _ _ => true
  | .ptmPeriodic _ => true
  | .ptmDialogDone _ _ _ _ => true
  | .ppsCrossing _ => true
  | .todMessage _ => true
  | .refTLoss _ => true
  | .refTAccept _ => true
  | .quartzCounter _ _ => true
  | .fence _ => true
  | .drainLimitExpiry _ _ => true
  | .fenceComplete _ => true
  | .unfence _ => true
  | .setState _ => true
  | .coreStateReached _ => true
  | .setOp _ => true
  | .setOpComplete _ _ _ => true
  | .railFault _ => true
  | .powerCommandDone => true
  | .railTelemetry _ _ _ _ => true
  | .thermalSample _ _ => true
  | .thermCtlWrite _ _ => true
  | .fcAck _ _ => true
  | .pantryScrubRead _ _ _ => true
  | .packetCrc _ _ _ _ _ => true
  | .hubPathFailure _ _ => true
  | .hubPathRestore _ _ => true
  | .coreReset _ _ => true
  | .foldReset _ _ => true
  | .portReset _ _ => true
  | .processorReset _ _ => true
  | .resetDone _ => true
  | .coldReset => true
  | .deviceReset _ => true
  | .alwaysOnStart _ _ _ => true
  | .hubBoot _ _ _ _ _ _ => true
  | .refTNotAccepted _ _ => true
  | .tagRetirementExpiry _ _ _ => true
  | .stewardHeartbeat _ => true
  | .ladleHeartbeat _ _ => true
  | .ladleHung _ _ => true
  | .pkettleKick _ _ _ _ => true
  | .pkettleExpiry _ _ _ => true
  | .processorStart _ _ _ => true
  | .fwUpdate _ _ _ => true
  | .persist _ _ => true
  | .fwHandoff _ _ _ _ _ => true
  | .handoverKick _ _ => true
  | .handoverExpiry _ _ _ => true
  | .fwTimerExpiry _ _ _ => true
  | .fwEventTake _ _ => true
  | .garnetSubmit _ _ _ _ _ => true
  | .garnetWindowRead _ _ => true
  | .garnetFlush _ _ => true
  | .hostLogRingWrite => true
  | .fwlogEnable _ _ => true
  | .programSlot _ _ => true
  | .revokeSlot _ _ => true
  | .raiseImageFloor _ _ => true
  | .raiseFwFloor _ _ => true
  | .raiseTestLock _ _ => true
  | .scanUnlock _ _ => true
  | .fuseProgramDone _ => true
  | .coreOffline _ _ => true
  | .stackOffline _ _ => true
  | .offlineTestDone _ _ => true
  | .extest => true
  | .idcode => true
  | .samplePreload _ => true
  | .extestPulse => true
  | .extestTrain => true
  | .clamp => true
  | .highz => true
  | .debugAccess dr => decide (dr < 2 ^ 96)
  | .debugAccessDone => true
  | .scanChain => true
  | .bypass => true
  | .testLogicReset => true
  | .twinHalt _ _ => true
  | .twinResume _ _ => true
  | .twinStep _ _ => true
  | .tdbgDataWrite _ _ _ => true
  | .bar4Request write _ len data _ => decide (0 < len) && (data.length == len || (!write && data.length == 0))
  | .bar0AccessIllegal _ off size => !((size == 4 || size == 8) && off % size == 0)
  | .deviceReadCompletion _ _ _ => true
  | .completionTimeout _ => true
  | .d3hotToD0 => true
  | .smbusTransaction _ _ => true
  | .setEndpointId _ => true
  | .getEndpointId => true
  | .getMctpVersionSupport _ => true
  | .getMessageTypeSupport => true
  | .gettid => true
  | .getpldmversion _ => true
  | .getpldmtypes => true
  | .getpldmcommands _ => true
  | .getpdrrepositoryinfo => true
  | .getpdr _ => true
  | .getsensorreading _ => true
  | .getstatesensorreadings _ => true
  | .unsupportedPldmCmd _ _ => true
  | .pldmSensorRefresh _ => true
  | .winAddr _ => true
  | .winRead => true
  | .winWrite _ => true
  | .pwrOkLow => true
  | .perstNRise _ => true
  | .ctxHtInvalDone _ => true
  | .noHandoff _ _ => true
  | .illegal _ _ _ _ => true
  | .quartzNowRead _ => true
  | .configurationSpaceWrite _ => true
  | .malformedTlp _ => true
  | .unsupportedRequest => true
  | .doorbellPageViolation _ _ => true
  | .pcieRetrain _ _ _ => true
  | .privateMemoryDoubleError _ => true

end Sys2Proof
end

