-- ==== Sys2Proof/Tests/Slice0.lean ====
section
/-!
SUPPORT. Tests on small states: what the checks of WellFormed refuse, the spec's worked examples, and for each clause of a statement a
state and operands that meet its hypotheses together.
-/
namespace Sys2Proof.Tests
open Sys2Proof Sys2Proof.Machine
set_option Elab.async false
set_option exponentiation.threshold 1024

/-! States the tests use. -/

/-- The endpoint answers and the BARs decode. -/
def up : State := { State.reset with life := { State.reset.life with aonUp := true, perst := false }, host := { memSpace := true } }

/-- The five firmware processors run. -/
def fw : State :=
  ((List.range 5).foldl (fun s n => s.modProc n fun p => { p with running := true }) up).fset Fd.fwStatus_STATE 1

/-- Every class answered with RECORD. -/
def record : List (Nat × Nat) := (List.range 32).map fun c => (c, 0)

/-- An image of one fold that owns every core, port, ring and context. -/
def oneFold : Loaded :=
  { folds := [{ cores := 2 ^ 288 - 1, channels := 2 ^ 256 - 1, ports := 2 ^ 36 - 1, ringSet := 2 ^ 64 - 1, ctxSet := 2 ^ 16 - 1
                groups := [⟨1, 1, 1⟩, ⟨2, 2, 1⟩, ⟨4, 3, 1⟩] }]
    dev := { responses := record, memberCount := 4, levelCount := 1, timePorts := 2 ^ 36 - 1 } }

/-- That image is loaded. -/
def img : State := { fw with life := { fw.life with image := some oneFold, appliedAt := 0 } }.fset Fd.imageStatus_STATE 2

/-- An image of one fold that owns cores 7 and 9, ports 0 and 35 and ring 0. -/
def smallImg : State :=
  { img with life := { img.life with image := some { oneFold with folds := [{ cores := 2 ^ 7 + 2 ^ 9, channels := 2 ^ 256 - 1, ports := 2 ^ 35 + 1, ringSet := 1, ctxSet := 3, groups := [⟨1, 1, 1⟩] }] } } }

/-- Core 0's twin runs. -/
def twin : State := img.modTwin 0 fun t => { t with mode := .running, status := 1 }

/-- A key. -/
def fwKey : Bytes := beBytes 32 0x7ae9e1db1160794c70c1ef071be5191f6c66240f4608fbe8a44ecd36c3ed5db9 ++ beBytes 32
  0x7500f2e4d84e3fb45850fd6f4303302bd8ac21444cd80d241538d8034b399a0d ++ beBytes 32
  0xee3636eb5cb00b9499d061a571db0f14bb47ed79453948ed63f3a6ccbbf6e74f

/-- A firmware bundle (Table 20.3) signed with it. -/
def fwBundle : Bytes := leBytes 4 0x31574658 ++ leBytes 8 1 ++ leBytes 4 640 ++ leBytes 4 5 ++ leBytes 4 256 ++ leBytes 4 1 ++ leBytes 4
  320 ++ leBytes 4 1 ++ leBytes 2 0xA1 ++ List.replicate 346 0 ++ leBytes 4 0x47495358 ++ [0, 1] ++ List.replicate 10 0 ++ fwKey ++
  beBytes 32 0x8568a35a879b0d506132993c6d911d3136a731409ab8c5d26fd7a01e81425281 ++ beBytes 16 0x453a6c6adf4cd2f38c77a5042815ea48 ++
  beBytes 32 0xfcd41857daf85ddecd1a3564e412f59424ffe337db657999f41c41af6ed44325 ++ beBytes 16 0x15957fc2229145082af1796c0db614af ++
  List.replicate 48 0

/-- The hash of the key. -/
def fwHash : Bytes := beBytes 32 0x4938b309efca0e50cab9f949ab849d045c5a676ac0163690ab822a7a4e19d906 ++ beBytes 16
  0x50792c29353c5bf4461f331495630270


/-- An array word (Table 6.3): INT8 operands, INT32 result, one row, two columns, K of 4, A at 0, B at 0x400, D at 0x800. -/
def mmaWord : EWord :=
  { w0 := 0x00020001000000 <<< 8 ||| 0x9AA01, w1 := 3, w2 := 4 + (1 <<< 12) + (4 <<< 25), w3 := (0x10 <<< 32) + (0x20 <<< 47) }

/-- A core whose MATRIX queue holds it. -/
def mmaState : State := img.setQueue 0 0 [mmaWord]

/-- The word runs, with A and B in the Pantry. -/
def mmaRun : State :=
  (((img.setEngState 0 0 1).modMat 0 fun _ => { word := some mmaWord, arrays := [0, 1] }).put (pantryKey 0 0) [1, 2, 3, 255]).put
    (pantryKey 0 0x400) [5, 6, 7, 8, 1, 1, 1, 128]

/-- An image with in-field test every 100 s. -/
def testState : State :=
  { img with life := { img.life with image := some { oneFold with dev := { oneFold.dev with policyFlags := 4, bistS := 100 } } } }

/-- A vector word (Table 8.2): INT32 add of v registers 1 and 2 into 3, four elements. -/
def vecAdd : EWord := { w0 := (4 <<< 32) + 0xA89AA01, w1 := 1 + (2 <<< 17), w2 := 3, w3 := 1 }

/-- A core whose VECTOR queue holds it. -/
def vecState : State := (img.setQueue 2 1 [vecAdd]).modCore 2 fun k => { k with vregs := [(1, List.replicate 256 7), (2, List.replicate 256 9)] }

/-- A FILL word: 8 bytes at offset 0x100 of the own Pantry. -/
def fillWord : EWord := { w0 := (8 <<< 24) + 0x7F02, w1 := 0x1122334455667788, w2 := 0xFFFF100000000100, w3 := 0x7F0000 }

/-- A COPY word: 8 bytes from offset 0x40 of core 1's Pantry. -/
def copyWord : EWord := { w0 := (8 <<< 24) + 0x7F01, w1 := 0xFFFF100000200040, w2 := 0xFFFF100000000100, w3 := 0x7F0000 }

/-- A whole line, line 7 of its channel. -/
def heldLine : L2Line := { q := 7, valid := fullMask, dirty := 1, data := List.replicate 64 5 }

/-- Slice 3 holds it; L2 scrub and HBM patrol are on. -/
def heldState : State :=
  { img with life := { img.life with image := some { oneFold with dev := { oneFold.dev with policyFlags := 3 } } } }.l2Touch 3 heldLine

/-- A fold that may pin, asked to pin one line. -/
def pinState : State :=
  { img with life := { img.life with image := some { oneFold with
      folds := [{ cores := 1, channels := 2 ^ 256 - 1, pinKib := 1 }], dev := { oneFold.dev with pinCap := 4 } } } }.setReg .pinLen 64

/-- The line with its low 8 bytes valid, and line 0 pinned by fold 0. -/
def partLine : L2Line := { heldLine with valid := 0xFF }
/-- Line 0 of its channel, pinned by fold 0. -/
def pinLine0 : L2Line := { heldLine with q := 0, pin := some 0 }

/-- A launch word (Table 9.1) of one group. -/
def launchWord : EWord := { w0 := (1 <<< 32) + 0x10001, w1 := 0x100, w2 := 5, w3 := 9 }

/-- A group of crew 0 with all lanes in p0 and a value in its first registers; g1's lane 0 holds 7, g2's lane 0 holds 3, g4 and g5 hold an
address of the own Pantry at offset 0x1000. -/
def grp : WGroup :=
  { crew := 0, index := 0, rank := 0, pc := 0x100, t := [(32, 7), (64, 3), (128, 0x1000), (160, 0xFFFF1000)], p := [(1, 1)] }

/-- Core 0's Whisk engine runs one launch word of two groups, of which it holds the first, in slot 0. -/
def whiskState : State :=
  (img.setEngState 0 2 1).modWhisk 0 fun w => { w with word := some { launchWord with w0 := (2 <<< 32) + 0x10001 }, next := 1, groups := [(0, grp)], crews := [(0, { slots := [0] })] }

/-- The group with lanes 0 and 1 in p1; lane 1's address lies at an offset of its own. -/
def grpTwo (off : Nat) : WGroup :=
  { grp with t := [(32, 7), (33, 8), (64, 3), (65, 9), (128, 0x1000), (129, BitVec.ofNat 32 off), (160, 0xFFFF1000), (161, 0xFFFF1000)], p := [(1, 3)] }

/-- A group that waits at barrier 0, parked with BARRIER_STALL. -/
def stalled : WGroup := { grp with park := 2, wait := .meet 0 }
/-- A Whisk instruction: OP, SUB, guard p1 and a low field. -/
def wi (op sub rest : Nat) : Word := BitVec.ofNat 64 (op * 2 ^ 56 + sub * 2 ^ 52 + 2 ^ 48 + rest)
/-- A group instruction. -/
def wg (op sub rest : Nat) : Word := BitVec.ofNat 64 (op * 2 ^ 56 + sub * 2 ^ 52 + rest)
/-- A crew of one group. -/
def crewOne : Crew := { slots := [0] }
/-- A crew of two groups. -/
def crewTwo : Crew := { slots := [0, 5] }

/-- A Pour tree from the channel 0 root to core 5. -/
def pourTree : Tree := ⟨1, 0x1000, 2 ^ 5, [(0x1000, 5)]⟩
/-- A POUR word (Table 12.4): stream two tiles from local address 0 over tree 1, raising counter 2. -/
def pourWord : EWord := { w0 := (2 <<< 32) + (2 <<< 23) + 0x101, w1 := 0xFFFF000000000000, w2 := 0x1000 }
/-- A tile header (Table 12.2): INT8 stored and delivered, K of 4, one panel of 64 bytes, index 0. -/
def tileHead : Bytes := [0x54, 10, 10, 0, 4, 0, 0, 0, 0, 0, 0, 0, 64] ++ List.replicate 51 0
/-- The image with the tree. -/
def pourState : State :=
  ({ img with life := { img.life with image := some { oneFold with folds := oneFold.folds.map fun f => { f with trees := [pourTree] } } } } : State).fset
    Fd.hbmStatus_STATE 1 0
/-- Bytes at an HBM local address. -/
def putHbm (s : State) (a : Nat) (b : Bytes) : State :=
  match s.hbmPlace a with
  | some p => s.put (hbmKey p.1 p.2) b
  | none => s
/-- Its stream. -/
def pourStream : StreamSt := { core := 0, fold := 0, word := pourWord }
/-- The stream runs, with its first tile in HBM. -/
def pourRun : State :=
  { (putHbm (putHbm (pourState.setEntry 5 0 { tree := 1 }) 0 tileHead) 64 (List.replicate 64 9)).setEngState 0 4 1 with streams := [pourStream] }
/-- Ring 0 of 16 entries runs; the device may master and its link is up; Quartz is time-locked. -/
def ringOn : State :=
  ((((img.fset Fd.ringCtl_SIZE 16 0).fset Fd.ringStatus_STATE 1 0).fset Fd.pcieStatus_BME 1).fset Fd.pcieStatus_LINK_UP 1).fset
    Fd.quartzStatus_TIME_LOCKED 1
/-- Words of a descriptor. -/
def desc (l : List Nat) : Bytes := l.flatMap (leBytes 8)
/-- Ring 0 with segments and commands. -/
def ringWith (g : List Seg) (c : List RingCmd) : State := ringOn.modRing 0 fun x => { x with segs := g, cmds := c }
/-- A NOP descriptor. -/
def nopDesc : Bytes := desc [1, 0, 0, 0, 0, 0, 0, 0]
/-- A NOP, fetched. -/
def nopCmd : RingCmd := { idx := 0, seq := 1, desc := nopDesc, phase := .ready }
/-- A segment of two entries held until 500. -/
def heldSeg : Seg := { count := 2, start := 500, held := true }
/-- A COLLECTIVE (Table 15.2): ALL_REDUCE, SUM of FP32, identity 7, 512 elements. -/
def collCmd : RingCmd := { nopCmd with desc := desc [5, 0x1000100010000, 0, 0x1000, 512, 0x7F000700011001, 0, 0], phase := .started }
/-- Another COLLECTIVE, of addresses 0. -/
def nullColl : RingCmd := { nopCmd with desc := desc [5, 0, 0, 0, 512, 0x7F000700010001, 0, 0], phase := .started }
/-- The collective it asks for. -/
def collX : Coll :=
  { ring := 0, seq := 1, fold := 0, id := 7, epoch := 0, kind := 1, rop := 0, inFmt := 1, outFmt := 1, elems := 512
    src := 0xFFFF100000000000, dst := 0xFFFF100000001000, arr := 0x7F }
/-- Its ring, in a group of members 0 to 3 whose ports are in use. -/
def collState : State :=
  { (((((ringWith [{ count := 1 }] [collCmd]).fset Fd.ctxHtCtl_ENABLE 1 0).fset Fd.ctxHtCtl_ENTRIES 4 0).fset Fd.portStatus_IN_USE 1 0).fset
      Fd.portStatus_IN_USE 1 1).fset Fd.portStatus_IN_USE 1 2 with
    htCopies := [(0, 0xFFFF100000000000 + 2 ^ 64 * (2 ^ 48 + 2 ^ 47 + 2 ^ 40 + 0x8000)),
      (1, 0xFFFF100000000000 + 2 ^ 64 * (2 ^ 48 + 2 ^ 47 + 2 ^ 41 + 0x8000))] }
/-- Port 0 is in a state, with all four lanes each way. -/
def portIn (st : Nat) : State :=
  (((img.fset Fd.portStatus_STATE st 0).fset Fd.portStatus_TX_LANE_MAP 15 0).fset Fd.portStatus_RX_LANE_MAP 15 0).fset
    Fd.portStatus_PEER_RX_GOOD 15 0
/-- Port 0 is ACTIVE, and no fold owns it. -/
def noFoldPort : State :=
  { portIn 5 with life := { (portIn 5).life with image := some { oneFold with folds := oneFold.folds.map fun f => { f with ports := 0 } } } }
/-- Lane 2 of port 0 has lost lock. -/
def laneLost : State := (portIn 5).modPort 0 fun q => { q with lanes := [{}, {}, { fails := 3, lost := true }, {}] }
/-- A window over core 0's Pantry that takes every requester and permission. -/
def openWin : Window := ⟨0xFFFF100000000000, 0x200000, 0xFFFF100000000000, 15, 15⟩
/-- Port 0 is ACTIVE and its fold has that window. -/
def remoteIn : State :=
  { portIn 5 with life := { (portIn 5).life with image := some { oneFold with folds := oneFold.folds.map fun f => { f with windows := [openWin] } } } }
/-- Port 0 is ACTIVE and its fold has a window from there to member 2, whose port 1 is in use. -/
def forwardIn : State :=
  let s := (portIn 5).fset Fd.portStatus_IN_USE 1 1
  { s with life := { s.life with image := some { oneFold with folds := oneFold.folds.map fun f => { f with
      windows := [⟨0xFFFF100000000000, 0x200000, 0x2100000000000, 15, 15⟩] } } } }
/-- A request's first slot (Table 14.6): type, length, TAG 9, GEN 2 and the counter 0x7F. -/
def reqSlot (typ len op : Nat) : Word := BitVec.ofNat 64 (typ + 2 ^ 8 * len + 2 ^ 24 * 9 + 2 ^ 40 * 0x7F + 2 ^ 48 * 2 + 2 ^ 56 * op)
/-- Its address: core 0's Pantry at an offset, of member 0. -/
def reqAddr (off : Nat) : Word := BitVec.ofNat 64 (0x100000000000 + off)
/-- A LOAD of 8 bytes of core 0's twin is outstanding on port 0 with tag 7. -/
def awaitRsp : State := remoteIn.modPort 0 fun q => { q with outst := [(7, ⟨.twin 0, 0x10, 0x1000, 8, 0, 0⟩)] }
/-- An agreement record of member 1 that agrees with this member. -/
def peerRecord (s : State) : List Word :=
  (s.agreement.set 0 ((s.agreement.getD 0 0) ||| BitVec.ofNat 64 (2 ^ 32 + 2 ^ 48)))
/-- The member index is 0 of a ring of 4; the collective's command runs, and it is open in slot 0 over the ACTIVE ports 0 to 2. -/
def openColl (x : Coll) : State :=
  { ((((ringWith [{ count := 1 }] [{ collCmd with phase := .running }]).fset Fd.portStatus_STATE 5 0).fset Fd.portStatus_IN_USE 1 0).fset
      Fd.portStatus_IN_USE 1 2).fset Fd.collSlot_BUSY 1 0 with colls := [(0, x)] }
/-- FP32 1.0 and 2.0. -/
def fpOne : Nat := 0x3F800000
/-- FP32 2.0. -/
def fpTwo : Nat := 0x40000000
/-- A collective of two elements in one segment. -/
def tinyColl : Coll := { collX with elems := 2 }
/-- A collective of two segments, the second of two elements. -/
def twoSegs : Coll := { collX with elems := 258 }
/-- A collective of three segments, the third of two elements, with its own input to that segment read. -/
def threeSegs : Coll := { collX with elems := 514, vals := [(lvlKey 2 0, [fpOne, fpTwo])] }
/-- A member with a time role whose time port 0 is ACTIVE, in a Quartz state, time-locked. -/
def timeIn (role st : Nat) : State :=
  ((({ portIn 5 with life := { (portIn 5).life with image := some { oneFold with dev := { oneFold.dev with role := role, timeOutputs := 7 } } } }.fset
    Fd.quartzStatus_STATE st).fset Fd.quartzStatus_REF_OK 1).fset Fd.quartzStatus_TIME_LOCKED (b2n (lockedState st))).fset
    Fd.quartzStatus_PARENT_PORT 0
/-- A TIME packet of a leader 5 of epoch 3, member 1, of a kind with T_TX and T_RX. -/
def timeSlots (kind seq tx rx : Nat) : List Word :=
  [BitVec.ofNat 64 (0x41 + 6 * 2 ^ 8 + 2 ^ 16 * kind + 2 ^ 24 * seq + 2 ^ 40), 5, BitVec.ofNat 64 (3 + 2 ^ 32), BitVec.ofNat 64 tx,
    BitVec.ofNat 64 rx, 0]
/-- A follower that follows that leader on port 0, with REQ 4 of time point 1000 outstanding. -/
def follower (st : Nat) : State :=
  { (((timeIn 0 st).setReg .quartzLeaderId 5).fset Fd.quartzStatus_TIME_EPOCH 3) with
    time := { q := tick * 2000, el := tick * 2000, lead := [5, 3], reqs := [(0, [4, 1000, 0, 1000])], good := 7 } }
/-- A power command of POWER_CMD under way: a kind, a number, an action and its argument. -/
def runs (dkind id action arg : Nat) (res : Option Nat) : PowerRun :=
  { ring := none, dkind := dkind, id := id, action := action, arg := arg, result := res }
/-- It runs. -/
def powerOn (p : PowerRun) : State := { img.fset Fd.powerStatus_BUSY 1 with power := some p }
/-- Key slot 0 holds the key's hash; step 1 has ended. -/
def keyed : State :=
  let f : FuseSt := { slots := [⟨some fwHash, false⟩, {}, {}, {}] }
  { up with fuse := f, fused := f }
/-- A fuse request (Table 21.2): OP, SLOT, VALUE and the S of its signature, with DEVICE_ID and NONCE 0. -/
def fuseRequest (op slot v x : Nat) (h : Bytes) : Bytes :=
  leBytes 4 0x53554658 ++ leBytes 4 (op + 2 ^ 8 * slot) ++ List.replicate 16 0 ++ leBytes 8 v ++ padTo 96 h ++ leBytes 4 0x47495358 ++ [0, 1] ++
    List.replicate 10 0 ++ fwKey ++
    beBytes 48 0x8568a35a879b0d506132993c6d911d3136a731409ab8c5d26fd7a01e81425281453a6c6adf4cd2f38c77a5042815ea48 ++ beBytes 48 x ++ List.replicate 48 0
/-- REVOKE_SLOT of slot 1, signed with the key. -/
def revokeReq : Bytes := fuseRequest 2 1 0 0x444f69657db1eaf35e4f0ccf36ae3bab00ee47367ea00aab6a9c587441e0099c15cb082a4fa816f92cf4b4daba197775 []
/-- RAISE_IMAGE_FLOOR to 9. -/
def imageReq : Bytes := fuseRequest 3 0 9 0xc75b5142639dc3c297134820f337a9b78fbf71aab4a18bf4d23ed5c052dae450a4c094b06a46463bf8c42e13efbc13b1 []
/-- RAISE_FW_FLOOR to 7. -/
def floorReq : Bytes := fuseRequest 4 0 7 0xec9b018f18c00c7ca3d86e6273f51411da96ed1c99c0998ae4e0ca1e71674f00b8f288cde9e657a3ab0941ffb60023a9 []
/-- RAISE_TEST_LOCK to 2. -/
def lockReq : Bytes := fuseRequest 5 0 2 0x3de34cf23a4cb6c793574b05422c4a8dcaceafba11c1dbc677b2ea6553aa1910c68be0b71780485975a4688fe4ec090 []
/-- Firmware runs; key slot 0 holds the key's hash and slot 1 another; FUSE_NONCE reads 0; VDD_HUB is at OP5. -/
def fusable : State :=
  let f : FuseSt := { slots := [⟨some fwHash, false⟩, ⟨some (List.replicate 48 7), false⟩, {}, {}] }
  ({ fw with fuse := f, fused := f }.setReg .fuseNonce 0).fset Fd.railStatus_OP_NOW 5 4
/-- The same with every slot unprogrammed and TEST_LOCK OPEN. -/
def blankFuses : State := { fusable with fuse := { testLock := 0 }, fused := { testLock := 0 } }
/-- A twin's instruction cache holds ADD g3, g1, g2 at pc 0, and it is halted. -/
def haltedTwin : State :=
  (img.fset Fd.debugCtl_CONTROL_FOLDS 1).modTwin 0 fun t => { t with mode := .halted, icache := [(0, leBytes 4 (3 * 2 ^ 21 + 2 ^ 16 + 2 * 2 ^ 11) ++ List.replicate 60 0)] }
/-- BAR 4 is 2^45 bytes, and the image's window takes the host to core 0's Pantry at offset 2^44. -/
def hostIn : State := { remoteIn with host := { remoteIn.host with bar4 := 45 } }
/-- A read by core 0's twin of 8 bytes of host memory, issued with tag 5. -/
def hostOp5 : HostOp := { by' := .twin 0, op := 0, ctx := 0, off := 0, len := 8, stage := 1 }
/-- It is open. -/
def hostOpen : State := { img with hostOps := [(5, hostOp5)] }
/-- MCTP is served. -/
def mctp : State := (fw.fset Fd.sbCtl_MCTP_ENABLE 1).fset Fd.sbStatus_EID 9
/-- A directory entry (Table 3.2) and a body of a small image. -/
def imgEntry (i typ scope len cnt : Nat) : Bytes :=
  [BitVec.ofNat 8 typ, BitVec.ofNat 8 scope, 1, 0] ++ leBytes 4 (576 + 64 * i) ++ leBytes 4 len ++ leBytes 4 cnt ++ List.replicate 16 0
/-- A signed FULL image (chapter 3) of one fold that owns core 0, channel 0, ring 0 and context 0, of serial 7. -/
def tinyImage : Bytes :=
  padTo 256 (leBytes 4 0x31464B58 ++ leBytes 4 1 ++ leBytes 4 0xFF01 ++ leBytes 4 0x200009 ++ leBytes 4 1408 ++ leBytes 4 7 ++
      leBytes 4 (4288 + 0xA10000)) ++
    padTo 320 (imgEntry 0 1 255 16 1 ++ imgEntry 1 2 0 40 0 ++ imgEntry 2 6 255 16 0 ++ imgEntry 3 7 0 48 0 ++ imgEntry 4 9 255 16 0 ++
      imgEntry 5 10 255 32 0 ++ imgEntry 6 11 255 16 0 ++ imgEntry 7 12 0 16 0 ++ imgEntry 8 14 255 48 0) ++
    [[0, 1], [1], [0, 4], [1] ++ List.replicate 35 0 ++ [1], [], [], [0, 5, 0, 5, 0, 5, 0, 5, 3, 5], [1, 0, 0, 0, 0, 0, 0, 0, 1],
      [0, 0, 0, 0, 0, 0, 0, 0, 1, 0, 0, 0, 1, 0, 0, 0, 1]].flatMap (padTo 64) ++
    leBytes 4 0x47495358 ++ [0, 1] ++ List.replicate 10 0 ++ fwKey ++
    beBytes 48 0x8568a35a879b0d506132993c6d911d3136a731409ab8c5d26fd7a01e81425281453a6c6adf4cd2f38c77a5042815ea48 ++
    beBytes 48 0x2f350f95dc354ba1c87a24765b5333733a35861a57aec8d411e50d931a74f48d38742430b668c3884e159ada8c7f523e ++ List.replicate 48 0
/-- A full load of it by the host, fetched. -/
def imageState : State :=
  let s := { fusable with life := { fusable.life with store := tinyImage, cmd := some (true, true) } }
  s.fset Fd.imageStatus_STATE 1
/-- A FULL image of one fold that owns core 0, channel 0, ring 0 and context 0 and may be updated, of digest 0. -/
def updBase : Loaded :=
  { oneFold with digest := List.replicate 48 0, folds := [{ flags := 1, cores := 1, channels := 1, noPin := true, ringSet := 1, ctxSet := 1 }] }
/-- A signed FOLD_UPDATE (chapter 3) of serial 9 that gives fold 0 cores 0 and 1. -/
def foldUpdate : Bytes :=
  padTo 256 (leBytes 4 0x31464B58 ++ leBytes 4 1 ++ leBytes 4 2 ++ leBytes 4 0x200003 ++ leBytes 4 832 ++ leBytes 4 9 ++
      leBytes 4 (4288 + 0xA10000)) ++
    padTo 128 ([(0, 2, 40), (1, 7, 48), (2, 12, 16)].flatMap fun (i, typ, len) =>
      [BitVec.ofNat 8 typ, 0, 1, 0] ++ leBytes 4 (384 + 64 * i) ++ leBytes 4 len ++ List.replicate 20 0) ++
    [[3], [1] ++ List.replicate 35 0 ++ [1], [1, 0, 0, 0, 0, 0, 0, 0, 1]].flatMap (padTo 64) ++
    leBytes 4 0x47495358 ++ [0, 1] ++ List.replicate 10 0 ++ fwKey ++
    beBytes 48 0x8568a35a879b0d506132993c6d911d3136a731409ab8c5d26fd7a01e81425281453a6c6adf4cd2f38c77a5042815ea48 ++
    beBytes 48 0xc84ad60499a64f4b4f505eed3c484f6e9c1ff831ca13893999d323e4763ea1ee1bf8f424b54a42b144f0405c8dc3cf88 ++ List.replicate 48 0
/-- A fold update by the host with those bytes, fetched; fold 0 is fenced and idle. -/
def updateState : State :=
  { fusable.fset Fd.imageStatus_STATE 3 with
    fences := [(288, .fenced)]
    life := { fusable.life with image := some updBase, store := foldUpdate, cmd := some (false, true), updating := some 0 } }
/-- Host memory can be read: the device may master and the link is up. -/
def State.masters (s : State) : State := (s.fset Fd.pcieStatus_BME 1).fset Fd.pcieStatus_LINK_UP 1
/-- Core 0's twin runs with values in g1 and g2, and its stack in the middle of its Pantry. -/
def twinG (x y : Word) : State := twin.modTwin 0 fun t => { t with g := [(1, x), (2, y), (30, 0xFFFF100000008000)] }
/-- An access of core 0's twin to context 0 that waits for its entry of page 3. -/
def mapWait : State := { img with hostOps := [(5, { by' := .twin 0, op := 0, ctx := 0, off := 0x600000, len := 8 })] }
/-- A core whose engine accesses the own Pantry at its offset 0x100. -/
def ownAt (off : Nat) : Word := BitVec.ofNat 64 (0xFFFF100000000000 + off)
/-! The smoke of WellFormed: for each check, a term it refuses. -/

theorem test_wf_register_range : (Instr.registerWrite .host (Config.regBytes + 0x80) true 0).wf = false := by decide
theorem test_wf_register_alignment :
    (Instr.registerWrite .host 4 true 0).wf = false ∧ (Instr.registerWrite .host 2 false 0).wf = false := by decide
theorem test_wf_access_sizes :
    (Instr.coreRequestResolve 0 0 .load 0 0 []).wf = false ∧ (Instr.coreRequestResolve 0 0 .load 0 65 []).wf = false ∧
      (Instr.coreRequestResolve 0 0 .store 0 4 [1]).wf = false ∧ (Instr.coreRequestResolve 0 0 .signal 0 4 [1, 2, 3, 4]).wf = false ∧
      (Instr.coreRequestResolve 0 0 (.atomic 0) 0 2 [1, 2]).wf = false := by decide
theorem test_wf_lines :
    (Instr.l2Load 0 Config.channelLines 0 8 .clean).wf = false ∧ (Instr.l2Load 0 0 60 8 .clean).wf = false ∧
      (Instr.l2Store 0 0 63 [1, 2]).wf = false ∧ (Instr.l2Atomic 0 0 2 0 4 0 0).wf = false ∧ (Instr.l2Atomic 0 0 0 0 2 0 0).wf = false ∧
      (Instr.l2ScrubRead 0 Config.channelLines .clean).wf = false := by decide
theorem test_wf_decode_outcomes :
    (Instr.hbmReadComplete 0 0 false 0 false (.wrong [1])).wf = false ∧ (Instr.hbmPatrolRead 0 0 (.wrong [])).wf = false := by decide
theorem test_wf_tree_and_debug : (Instr.panelRelease 0 1024 false).wf = false ∧ (Instr.debugAccess (2 ^ 96)).wf = false := by decide
theorem test_wf_link :
    (Instr.codewordReceive 0 0 .good (2 ^ 20)).wf = false ∧ (Instr.flitReceive 0 true 4096 0 []).wf = false ∧
      (Instr.flitReceive 0 true 0 4096 []).wf = false ∧ (Instr.flitReceive 0 true 0 0 (List.replicate 16 0)).wf = false ∧
      (Instr.nakReceive 0 4096).wf = false := by decide
theorem test_wf_packet_types :
    (Instr.loadRequest 0 [0x11]).wf = false ∧ (Instr.storeRequest 0 [0x12]).wf = false ∧ (Instr.storeMaskedRequest 0 [0x11]).wf = false ∧
      (Instr.signalRequest 0 []).wf = false ∧ (Instr.atomicRequest 0 [0x13]).wf = false ∧ (Instr.rspReceive 0 [0x10]).wf = false ∧
      (Instr.creditReceive 0 0x20).wf = false := by decide
theorem test_wf_group_packet_types :
    (Instr.agreeReceive 0 [0x41] 0).wf = false ∧ (Instr.collOpen 0 [0x31]).wf = false ∧ (Instr.collPartial 0 [] false).wf = false ∧
      (Instr.collFinal 0 [0x20]).wf = false ∧ (Instr.collAbort 0 [0x31]).wf = false ∧ (Instr.timeReq 0 [0x40] 0 0 0).wf = false ∧
      (Instr.timeRsp 0 [0x40] 0 0 0).wf = false := by decide
theorem test_wf_host_requests :
    (Instr.bar4Request true 0 0 [] false).wf = false ∧ (Instr.bar4Request true 0 8 [1] false).wf = false ∧
      (Instr.bar0AccessIllegal false 8 8).wf = false := by decide

/-! The spec's cases and examples. -/

/-- Case of chapter 0: core 185 is CORE_Q2_41, and its Pantry window starts at local address 0x1000_1720_0000. -/
theorem test_core_185_pantry : Config.pantryBase + 185 * Config.pantryBytes = 0x100017200000 := by decide
/-- Case of chapter 5: core 185's stack check fails with BELOW_LIMIT and RESCUE_OVERLAP. -/
theorem test_stack_check : (img.modTwin 185 fun t =>
    { t with g := [(30, 0xFFFF1000172100C0)], stackLimit := 0xFFFF100017210000 }).stackFails 185 = 0xC := by decide +kernel
/-- Two folds of 248 and 8 channels, and the window of Example 4.1. -/
def example41 : State :=
  { img with life := { img.life with image := some { oneFold with folds := [
    { cores := 2 ^ 280 - 1, channels := 2 ^ 248 - 1, ctxSet := 2 ^ 8 - 1, windows := [⟨0xFFFF900000000000, 0x200000, 0x04D3100000000000, 6, 1⟩] },
    { cores := 2 ^ 288 - 2 ^ 280, channels := 2 ^ 256 - 2 ^ 248 }] } } }
/-- Example 4.1: the store to the peer leaves for member 1,235; FOLD_1's load of FOLD_0's region is a violation of core 280; the store to
the host lies at its offset of context 3; and FOLD_1's region starts at 0x45_C000_0000. -/
theorem test_resolving : example41.resolveCore 82 1 0xFFFF900000010040 true = .away 0 0x04D3100000010040 ∧
    example41.resolveCore 280 0 0xFFFF000000001000 true = .viol (.core 280) ∧
    example41.resolveCore 82 1 0xFFFF4C0006412340 true = .here 0 (.host 3 0x6412340) ∧ example41.regionBase 1 = 0x45C0000000 := by
  decide +kernel
/-- Table 6.4. -/
theorem test_array_word : let w := EWord.mma ⟨0x0200008001212201, 0xFFFFFFFFFFFFFFFF, 0x0002000100040200, 0x080000023F800000, false⟩
    (w.n, w.m, w.k, w.afmt, w.bfmt, w.dfmt) = (512, 128, 512, 2, 2, 1) ∧ (w.aoff, w.lda, w.doff, w.ldd) = (0x20000, 1024, 0x40000, 2048) ∧
      (w.acc, w.pour, w.tree, w.scale, w.bad) = (true, true, 2, 0x3F800000, false) := by decide
/-- Case after R270: 460 and 500 to E4M3. -/
theorem test_e4m3_overflow : (roundFloat 5 0 1 (.q 460 1 false)).bits = 0x7E ∧ (roundFloat 5 0 1 (.q 460 1 false)).sat = false ∧
    (roundFloat 5 0 1 (.q 500 1 false)).bits = 0x7E ∧ (roundFloat 5 0 1 (.q 500 1 false)).sat = true ∧
    (roundFloat 5 0 0 (.q 500 1 false)).bits = 0x7F := by decide +kernel
/-- Case of chapter 7: 2,147,484,000 in INT32. -/
theorem test_int32_limit : (limitInt 9 1 2147484000).bits = 2147483647 ∧ (limitInt 9 1 2147484000).sat = true ∧
    (limitInt 9 0 2147484000).bits = 2 ^ 32 - 2147483296 ∧ (limitInt 9 0 2147484000).sat = false := by decide +kernel
/-- Table 7.6: E4M3 elements with block scale 0x7A and T 0x3DCC_CCCD, to BF16. -/
theorem test_expansion :
    ([0x5A, 0x7E, 0x80, 0x7F].map fun v =>
      let x := finish 2 0 0 [decodeNum 5 v] ((decodeNum 5 v).mul ((scaleNum 0x7A).mul (fp32 0x3DCCCCCD)))
      (x.bits, x.flags)) = [(0x3D80, 1), (0x3FB3, 1), (0x8000, 0), (0x7FC0, 16)] := by decide +kernel
/-- Table 8.6. -/
theorem test_vector_word : let w := EWord.vec ⟨0x0000020000010131, 0x0028000000008000, 0x0000000401001000, 0x80, false⟩
    (w.opc, w.a.fmt, w.dfmt, w.len, w.rows, w.a.off) = (0x31, 1, 1, 512, 128, 0x8000) ∧ (w.summary, w.doff, w.lda, w.ldd, w.rsv) = (5, 0x1000, 128, 1, false) := by
  decide
/-- Case of chapter 8: PSIN of position 2,097,151 with f = 2^-10, to BF16. -/
theorem test_psin : (finish 2 0 0 [] (numPos true 2097151 (.q 1 1024 false))).bits = 0xBBC9 := by decide +kernel
/-- Case after R307: a block whose largest value is 3.0, to E4M3. -/
theorem test_quant : quantScale 5 (.q 1 1 false) [.q 3 1 false, .q 1 100 false] = 120 ∧
    (roundFloat 5 0 0 (.q 384 1 false)).bits = 0x7C ∧ (roundFloat 5 0 0 (.q 128 100 false)).bits = 0x3A := by decide +kernel
/-- Table 9.5. -/
theorem test_launch_word : EWord.launch ⟨0x0000001000100001, 0xFFFF000001000000, 0xFFFF100017210100, 0, false⟩ =
    ⟨1, 16, 16, 0xFFFF000001000000, 0xFFFF100017210100, 0, false⟩ := by decide
/-- Table 10.6: the spill and the reload. -/
theorem test_copy_words : EWord.mov ⟨0x0000060000007F01, 0xFFFF100017220000, 0xFFFF001200000000, 0x30000, false⟩ =
      ⟨1, 0x60000, 0x7F, 0xFFFF100017220000, 0xFFFF001200000000, 3, false⟩ ∧
    EWord.mov ⟨0x0000060000000401, 0xFFFF001200000000, 0xFFFF100017220000, 0x7F0000, false⟩ =
      ⟨1, 0x60000, 4, 0xFFFF001200000000, 0xFFFF100017220000, 0x7F, false⟩ := by decide
/-- Example 11.1: the first line of the block lies on channel 252, set 0x48; the next on channel 253. -/
theorem test_slice_hash : hashPlace 0x12340000 (List.range 256) (0x1200000000 / 64) = (252, 0x480000) ∧ hashSet 0x480000 = 0x48 ∧
    (hashPlace 0x12340000 (List.range 256) (0x1200000000 / 64 + 1)).1 = 253 := by decide +kernel
/-- Table 12.5. -/
theorem test_pour_word : EWord.pour ⟨0x0001B00002800001, 0xFFFF003000000000, 0x1C440000, 0, false⟩ =
    ⟨1, 0, 5, 110592, 0xFFFF003000000000, 474218496, false⟩ := by decide
/-- Table 14.10: the RSP slot of TAG 0x0041 and GEN 3. -/
theorem test_rsp_slot : rspSlots 0x41 3 0 [] = [0x0003000041000020] := by decide
/-- Table 14.10: the SIGNAL of the same tag is a request packet the port takes. -/
theorem test_signal_packet : requestOk [0x00037F0041000813, 0x04D310000000FC28, 1] = true := by decide
/-- Example 15.1: the digits of member 1,234, its +x neighbour, and the owner of segment 5,000 with its digits. -/
theorem test_pod_shape : let d : DevSec := { memberCount := 4096, levelCount := 3, fanIn := [16, 16, 16] }
    (d.digit 0 1234, d.digit 1 1234, d.digit 2 1234, d.step 0 1234 true) = (2, 13, 4, 1235) ∧ d.owner 5000 = 904 ∧ segUp 5000 = true ∧
      (d.digit 0 904, d.digit 1 904, d.digit 2 904) = (8, 8, 3) ∧ d.place 5000 0 9 = 1 ∧ d.place 5000 0 8 = 0 := by decide
/-- SHA-384 of "abc": the worked example of the hash standard R740's signatures rest on (FIPS 180-4). -/
theorem test_sha384 : beNat (sha384 [0x61, 0x62, 0x63]) =
    0xCB00753F45A35E8BB5A03D699AC65007272C32AB0EDED1631A8B605A43FF5BED8086072BA1E7CC2358BAECA134C825A7 := by decide +kernel
/-- Example 21.1: FUSE_STATE as slot 2 is programmed and slot 0 revoked. -/
theorem test_fuse_state :
    let f : FuseSt := { slots := [⟨some fwHash, false⟩, ⟨some fwHash, false⟩, {}, {}] }
    let g := f.programmed ⟨1, 2, 0, fwHash⟩
    ({ State.reset with fuse := f }.fuseState, { State.reset with fuse := g }.fuseState,
      { State.reset with fuse := g.programmed ⟨2, 0, 0, []⟩ }.fuseState) = (0x105, 0x115, 0x116) := by decide +kernel
/-- Case of chapter 21: the IDCODE of an IXT-4288, IXT-4256 and IXT-4224. -/
theorem test_idcode : (({} : FuseSt).idcode, ({ orderCode := 4256 } : FuseSt).idcode, ({ orderCode := 4224 } : FuseSt).idcode) =
    (0x110C074F, 0x110A074F, 0x1108074F) := by decide
/-- Table 24.3: where registers lie. -/
theorem test_register_offsets :
    [0xB000, 0xB160, 0x2A038, 0x1172110, 0x1172118, 0x1172310, 0xA6F0, 0x59618, 0x18, 0x50, 0x90, 0x135C8].map regAt =
      [⟨.faultSummary, 0, 0, 0⟩, ⟨.faultClassCount, 12, 0, 0⟩, ⟨.fcCounts, 2, 0, 0⟩, ⟨.matrixFault, 185, 0, 0⟩, ⟨.arrayOut, 185, 0, 0⟩,
        ⟨.vectorFault, 185, 0, 0⟩, ⟨.corePwr, 190, 0, 0⟩, ⟨.l2Fault, 150, 0, 0⟩, ⟨.unitsSummary, 0, 0, 0⟩, ⟨.presentCores, 2, 0, 0⟩,
        ⟨.coresOut, 2, 0, 0⟩, ⟨.coreViol, 185, 0, 0⟩].map some := by decide +kernel

/-! The statements of the core, at states that meet their hypotheses. -/

/-- BYPASS waits. -/
def waiting : State := { img with pending := [.bypass] }
theorem meets_stepTakesTheFrontCommand : waiting.pending = Instr.bypass :: [] ∧ img.pending = [] := by decide
theorem meets_everyStepKeepsMemoryCanonical : waiting.ok ∧ ∃ t, step waiting = .next t := ⟨(by decide +kernel : waiting.mem.wf = true), _, rfl⟩
theorem meets_commandsLeaveTheQueueAlone : ∃ t, exec .bypass waiting = .next t := ⟨_, rfl⟩


/-- A command that answers a next state answers the one its match takes. -/
theorem next_of (o : Host.Outcome State Fault Refusal) (h : (match o with | .next _ => true | _ => false) = true) :
    o = .next (match o with | .next v => v | _ => img) := by
  cases o with
  | next v => rfl
  | fault r => cases h
  | refused r => cases h

/-! For each clause with hypotheses: a state and operands that meet them together. -/

theorem meets_registerWriteFollowsAccessCodes_1 :
    let src : Source := .host
    let off : Nat := 0x40000
    let v : Word := 2
    let a : RegAt := ⟨.portCtl, 0, 0, 0⟩
    let s : State := fw
    s.shut src = false ∧ off % a.reg.width = 0 ∧ regAt off = some a ∧ a.o = 0 ∧ a.reg ∉ actingRegs ∧ s.absentReg a.reg a.u off = false ∧
      timerOf off = none ∧ (off < 0x80100 ∨ 0x80240 ≤ off) ∧ (∀ f ∈ a.reg.fields, s.refuses a v.toNat f = false) :=
  by decide +kernel
theorem meets_registerWriteFollowsAccessCodes_2 :
    let off : Nat := 0x40000
    let v : Word := 3
    let a : RegAt := ⟨.portCtl, 0, 0, 0⟩
    let s : State := fw.fset Fd.hostViol_COUNT 5
    s.shut .host = false ∧ off % a.reg.width = 0 ∧ regAt off = some a ∧ a.o = 0 ∧ a.reg ∉ actingRegs ∧ s.absentReg a.reg a.u off = false ∧
      timerOf off = none ∧ (off < 0x80100 ∨ 0x80240 ≤ off) ∧ (∃ f ∈ a.reg.fields, s.refuses a v.toNat f = true) :=
  by decide +kernel
theorem meets_registerWriteFollowsAccessCodes_3 :
    let src : Source := .host
    let s : State := fw
    s.shut src = false :=
  by decide +kernel
theorem meets_registerWriteFollowsAccessCodes_4 :
    let src : Source := .host
    let s : State := (fw.fset Fd.imageStatus_DONE 1).fset Fd.imageStatus_STATE 2
    s.shut src = false :=
  by decide +kernel
theorem meets_registerWriteFollowsAccessCodes_5 :
    let off : Nat := 0x1019
    let wide : Bool := false
    let s : State := fw
    s.shut .host = false ∧ off % (if wide then 8 else 4) ≠ 0 :=
  by decide +kernel
theorem meets_stallMonitorsCountAndCapture_1 :
    let openNs : Nat := img.stallNs + 1
    let s : State := img
    s.hasImage = true ∧ s.stallNs < openNs :=
  by decide +kernel
theorem meets_stallMonitorsCountAndCapture_2 :
    let openNs : Nat := 0
    let s : State := up
    (s.hasImage = false ∨ openNs ≤ s.stallNs) :=
  by decide +kernel
theorem meets_stallMonitorsCountAndCapture_3 :
    let die : Fin 5 := 0
    let ch : Nat := 0
    let openNs : Nat := img.stallNs
    let d : Det := ⟨1, 1, 0, 0⟩
    let s : State := img
    s.hasImage = true ∧ s.stallNs ≤ openNs ∧ ch < 2 ^ 16 ∧ stallDets die ch = [d] ∧ s.stallExempt d = false ∧ s.responseOf d.cls = 0 ∧ bit
      (s.reg .fcActive die) 63 = false :=
  by decide +kernel
theorem meets_stallMonitorsCountAndCapture_4 :
    let die : Fin 5 := 0
    let ch : Nat := 0
    let openNs : Nat := 0
    let held : Bool := false
    let s : State := up
    (s.hasImage = false ∨ openNs < s.stallNs ∨ held = true ∨ (∀ d ∈ stallDets die ch, s.stallExempt d = true)) :=
  by decide +kernel
theorem meets_imageCommandsStartAndEnd_1 :
    let src : Source := .host
    let flash : Bool := false
    let hdr : Option Bytes := none
    let data : HostRead := .ok tinyImage
    let e : Option ImageErr := none
    let b : Bytes := tinyImage
    let s : State := (State.masters fw).setReg .imageSrcLen tinyImage.length
    s.shut src = false ∧ s.imageRefused src = false ∧ s.scanOn = false ∧ (s.proc 0).running = true ∧ s.fget Fd.fwStatus_STATE ≠ 2 ∧
      fetchResult true flash (s.reg .imageSrcLen) hdr (readBytes data) = (e, b) :=
  by decide +kernel
theorem meets_imageCommandsStartAndEnd_2 :
    let src : Source := .host
    let flash : Bool := false
    let hdr : Option Bytes := none
    let data : HostRead := .ok foldUpdate
    let e : Option ImageErr := none
    let b : Bytes := foldUpdate
    let s : State := (State.masters img).setReg .imageSrcLen foldUpdate.length
    s.shut src = false ∧ s.imageRefused src = false ∧ s.scanOn = false ∧ (s.proc 0).running = true ∧ s.fget Fd.fwStatus_STATE ≠ 2 ∧
      fetchResult false flash (s.reg .imageSrcLen) hdr (readBytes data) = (e, b) :=
  by decide +kernel
theorem meets_imageCommandsStartAndEnd_3 :
    let s : State := fw.fset Fd.bootStatus_STAGE 2
    (s.proc 0).running = true ∧ s.fget Fd.bootStatus_STAGE = 2 ∧ s.imageRefused .host = false ∧ s.scanOn = false :=
  by decide +kernel
theorem meets_imageCommandsStartAndEnd_4 :
    let full : Bool := true
    let host : Bool := true
    let e : ImageErr := ⟨2, 0xFF, 0⟩
    let s : State := { fw with life := { fw.life with cmd := some (true, true), fetchErr := some ⟨2, 0xFF, 0⟩ } }
    (s.proc 0).running = true ∧ s.life.cmd = some (full, host) ∧ s.life.applying = none ∧ s.life.imgDue = none ∧ (if
      s.life.fetchErr.isSome then s.life.fetchErr else if s.fuse.bad then some ⟨0x07, 0xFF, 0x18⟩ else checkImage (s.imageEnv full
      host) s.life.store) = some e :=
  by decide +kernel
theorem meets_imageCommandsStartAndEnd_5 :
    let last : Nat := 4
    let host : Bool := true
    let s : State := imageState
    (s.proc 0).running = true ∧ s.life.cmd = some (true, host) ∧ s.life.applying = none ∧ s.life.imgDue = none ∧ s.life.fetchErr = none ∧
      s.fuse.bad = false ∧ checkImage (s.imageEnv true host) s.life.store = none ∧ 4 ≤ last :=
  by decide +kernel
theorem meets_imageCommandsStartAndEnd_6 :
    let last : Nat := 7
    let f : Nat := 0
    let host : Bool := true
    let s : State := updateState
    (s.proc 0).running = true ∧ s.life.cmd = some (false, host) ∧ s.life.applying = none ∧ s.life.imgDue = none ∧ s.life.fetchErr = none ∧
      s.fuse.bad = false ∧ checkImage (s.imageEnv false host) s.life.store = none ∧ 7 ≤ last ∧ f = imgN s.life.store 9 1 ∧ (∀ r,
      (s.ring r).segs = [] ∧ (s.ring r).due = [] ∧ (s.ring r).cancelled = []) :=
  ⟨by decide +kernel, by decide +kernel, rfl, rfl, rfl, by decide +kernel, by decide +kernel, by decide, by decide +kernel,
    fun _ => ⟨rfl, rfl, rfl⟩⟩
theorem meets_coreAccessesReachTheirTarget_1 :
    let core : CoreId := 0
    let agent : Fin 6 := 4
    let addr : Word := ownAt 0x100
    let size : Nat := 4
    let ecc : Ecc := .clean
    let f : Nat := 0
    let c : Nat := 0
    let off : Nat := 0x100
    let s : State := twin.put (pantryKey 0 0x100) [1, 2, 3, 4]
    s.coreLive core = true ∧ 0 < size ∧ addr.toNat % 64 + size ≤ 64 ∧ s.inFlight (.engine core agent (2 ^ 40)) = false ∧ s.resolveCore
      core 0 addr.toNat (agent == 0) = .here f (.pantry c off) ∧ s.placeFenced f (.pantry c off) = false ∧ s.pantryPoison c off size =
      false ∧ s.replies = [] ∧ ecc ≠ .double :=
  by decide +kernel
theorem meets_coreAccessesReachTheirTarget_2 :
    let core : CoreId := 0
    let agent : Fin 6 := 4
    let addr : Word := ownAt 0x108
    let size : Nat := 4
    let f : Nat := 0
    let c : Nat := 0
    let off : Nat := 0x108
    let s : State := twin.put (pantryKey 0 0x108) [1, 2, 3, 4]
    s.coreLive core = true ∧ 0 < size ∧ addr.toNat % 64 + size ≤ 64 ∧ s.inFlight (.engine core agent (2 ^ 40)) = false ∧ s.resolveCore
      core 0 addr.toNat (agent == 0) = .here f (.pantry c off) ∧ s.placeFenced f (.pantry c off) = false ∧ isCtrOff off = false ∧ c <
      288 ∧ off < Config.pantryBytes ∧ Quiet (c / 72) 0x0A s ∧ s.replies = [] :=
  by decide +kernel
theorem meets_coreAccessesReachTheirTarget_3 :
    let core : CoreId := 0
    let agent : Fin 6 := 0
    let addr : Word := ownAt 0x100
    let data : Bytes := [1, 2]
    let ecc : Ecc := .clean
    let f : Nat := 0
    let c : Nat := 0
    let off : Nat := 0x100
    let s : State := twin
    s.coreLive core = true ∧ 0 < data.length ∧ addr.toNat % 64 + data.length ≤ 64 ∧ s.inFlight (.engine core agent (2 ^ 40)) = false ∧
      s.resolveCore core 1 addr.toNat (agent == 0) = .here f (.pantry c off) ∧ s.placeFenced f (.pantry c off) = false ∧ isCtrOff off
      = false ∧ isRescueOff off = false ∧ s.isPoison (pantryKey c off / 64) = false ∧ s.replies = [] ∧ ecc ≠ .double :=
  by decide +kernel
theorem meets_coreAccessesReachTheirTarget_4 :
    let core : CoreId := 0
    let agent : Fin 6 := 4
    let addr : Word := ownAt 0xFC10
    let ecc : Ecc := .clean
    let f : Nat := 0
    let c : Nat := 0
    let off : Nat := 0xFC10
    let n : Nat := 2
    let s : State := twin
    s.coreLive core = true ∧ addr.toNat % 8 = 0 ∧ s.inFlight (.engine core agent (2 ^ 40)) = false ∧ s.resolveCore core 2 addr.toNat
      (agent == 0) = .here f (.pantry c off) ∧ s.placeFenced f (.pantry c off) = false ∧ ctrOfOff off = some n ∧ nhas s.ctrPoison
      (ctrKey c n) = false ∧ s.replies = [] ∧ ecc ≠ .double :=
  by decide +kernel
theorem meets_coreAccessesReachTheirTarget_5 :
    let core : CoreId := 0
    let agent : Fin 6 := 2
    let addr : Word := ownAt 0x108
    let aop : Nat := 0
    let size : Nat := 4
    let ecc : Ecc := .clean
    let f : Nat := 0
    let c : Nat := 0
    let off : Nat := 0x108
    let s : State := twin.put (pantryKey 0 0x108) [1, 2, 3, 4]
    s.coreLive core = true ∧ aop ≤ 9 ∧ (size = 4 ∨ size = 8) ∧ addr.toNat % size = 0 ∧ s.inFlight (.engine core agent (2 ^ 40)) = false ∧
      s.resolveCore core 3 addr.toNat (agent == 0) = .here f (.pantry c off) ∧ s.placeFenced f (.pantry c off) = false ∧ isCtrOff off
      = false ∧ isRescueOff off = false ∧ s.pantryPoison c off size = false ∧ s.replies = [] ∧ ecc ≠ .double :=
  by decide +kernel
theorem meets_coreAccessesReachTheirTarget_6 :
    let core : CoreId := 0
    let agent : Fin 6 := 4
    let addr : Word := 0xFFFFF00000000000
    let size : Nat := 8
    let s : State := twin
    s.coreLive core = true ∧ 0 < size ∧ addr.toNat % 64 + size ≤ 64 ∧ s.inFlight (.engine core agent (2 ^ 40)) = false ∧ s.resolveCore
      core 0 addr.toNat (agent == 0) = .viol (.core core) ∧ s.replies = [] :=
  by decide +kernel
theorem meets_hostMapEntriesAreFetchedAndDropped_1 :
    let tag : Nat := 5
    let core : Nat := 0
    let b : Bytes := leBytes 8 0x600003
    let o : HostOp := { by' := .twin 0, op := 0, ctx := 0, off := 0x600000, len := 8 }
    let s : State := State.masters mapWait
    nfind s.hostOps tag = some o ∧ o.stage = 0 ∧ o.gen = 0 ∧ o.by' = .twin core ∧ o.op = 0 ∧ bits (leNat (b.take 8)) 20 4 = 0 ∧ bit (leNat
      (b.take 8)) 0 = true ∧ bit (leNat (b.take 8)) 1 = true ∧ (∀ f, s.foldOfCtx o.ctx = some f → s.foldFence f = FencePhase.none) ∧
      s.mayMaster = true :=
  by decide +kernel
theorem meets_hostMapEntriesAreFetchedAndDropped_2 :
    let tag : Nat := 5
    let core : Nat := 0
    let b : Bytes := leBytes 8 0x600005
    let o : HostOp := { by' := .twin 0, op := 1, ctx := 0, off := 0x600010, len := 8, data := [1, 2, 3] }
    let s : State := { State.masters img with hostOps := [(5, { by' := .twin 0, op := 1, ctx := 0, off := 0x600010, len := 8, data := [1, 2, 3] })] }
    nfind s.hostOps tag = some o ∧ o.stage = 0 ∧ o.gen = 0 ∧ o.by' = .twin core ∧ o.op = 1 ∧ o.mask = 2 ^ 64 - 1 ∧ 0 < o.data.length ∧
      o.data.length ≤ 64 ∧ bits (leNat (b.take 8)) 20 4 = 0 ∧ bit (leNat (b.take 8)) 0 = true ∧ bit (leNat (b.take 8)) 2 = true ∧ (∀
      f, s.foldOfCtx o.ctx = some f → s.foldFence f = FencePhase.none) ∧ s.mayMaster = true ∧ s.fon Fd.pcieStatus_LINK_UP = true :=
  by decide +kernel
theorem meets_hostMapEntriesAreFetchedAndDropped_3 :
    let tag : Nat := 5
    let core : Nat := 0
    let b : Bytes := leBytes 8 0x600005
    let o : HostOp := { by' := .twin 0, op := 0, ctx := 0, off := 0x600000, len := 8 }
    let s : State := State.masters mapWait
    nfind s.hostOps tag = some o ∧ o.stage = 0 ∧ o.gen = 0 ∧ o.by' = .twin core ∧ bits (leNat (b.take 8)) 20 4 = 0 ∧ bit (leNat (b.take
      8)) 0 = true ∧ bit (leNat (b.take 8)) (o.op + 1) = false ∧ (s.foldOfCtx o.ctx).isSome = true :=
  by decide +kernel
theorem meets_hostMapEntriesAreFetchedAndDropped_4 :
    let tag : Nat := 5
    let core : Nat := 0
    let b : Bytes := []
    let o : HostOp := { by' := .twin 0, op := 0, ctx := 0, off := 0x600000, len := 8 }
    let c : CtxId := 0
    let s : State := mapWait
    nfind s.hostOps tag = some o ∧ o.stage = 0 ∧ o.gen = 0 ∧ o.ctx = c.val ∧ o.by' = .twin core ∧ (bit (leNat (b.take 8)) 0 = false ∨ bits
      (leNat (b.take 8)) 20 4 ≠ 0) :=
  by decide +kernel
theorem meets_hostMapEntriesAreFetchedAndDropped_5 :
    let tag : Nat := 5
    let core : Nat := 0
    let o : HostOp := { by' := .twin 0, op := 0, ctx := 0, off := 0x600000, len := 8 }
    let s : State := mapWait
    nfind s.hostOps tag = some o ∧ o.stage = 0 ∧ o.by' = .twin core :=
  by decide +kernel
theorem meets_hostMapEntriesAreFetchedAndDropped_6 :
    let src : Source := .host
    let c : CtxId := 1
    let s : State := { img with mapCopies := [(5, 1), (0x200001, 3)] }
    s.shut src = false ∧ s.fget Fd.ctxMapCtl_INVAL_BUSY c = 0 :=
  by decide +kernel
theorem meets_hostMapEntriesAreFetchedAndDropped_7 :
    let c : CtxId := 1
    let s : State := img.fset Fd.ctxMapCtl_INVAL_BUSY 1 1
    s.shut .host = false ∧ s.fget Fd.ctxMapCtl_INVAL_BUSY c = 1 :=
  by decide +kernel
theorem meets_hostMapEntriesAreFetchedAndDropped_8 :
    let c : CtxId := 1
    let s : State := mapWait.fset Fd.ctxMapCtl_INVAL_BUSY 1 1
    (∀ e ∈ s.hostOps, e.2.ctx ≠ c.val ∨ e.2.stage ≠ 0 ∨ e.2.gen ≠ 1) :=
  by decide +kernel
theorem meets_hostMapEntriesAreFetchedAndDropped_9 :
    let c : CtxId := 0
    let s : State := { img.fset Fd.ctxMapCtl_INVAL_BUSY 1 0 with hostOps := [(5, { by' := .twin 0, op := 0, ctx := 0, off := 0x600000, len := 8, gen := 1 })] }
    (∃ e ∈ s.hostOps, e.2.ctx = c.val ∧ e.2.stage = 0 ∧ e.2.gen = 1) :=
  by decide +kernel
theorem meets_hostMapEntriesAreFetchedAndDropped_10 :
    let src : Source := .host
    let c : CtxId := 1
    let v : Word32 := 0x80000000
    let s : State := img
    s.shut src = false ∧ v.toNat.testBit 31 = true ∧ s.fget Fd.ctxMapCtl_ENABLE c = 0 :=
  by decide +kernel
theorem meets_hostMapEntriesAreFetchedAndDropped_11 :
    let c : CtxId := 1
    let v : Word32 := 5
    let s : State := { img.fset Fd.ctxMapCtl_ENABLE 1 1 with mapCopies := [(5, 1), (0x200001, 3)] }
    s.shut .host = false ∧ v.toNat.testBit 31 = false ∧ s.fget Fd.ctxMapCtl_ENABLE c = 1 :=
  by decide +kernel
theorem meets_hostMapEntriesAreFetchedAndDropped_12 :
    let src : Source := .host
    let s : State := (whiskState.modWhisk 0 fun w => { w with groups := [(0, { grp with park := 1, missCtx := [1] })] }).fset Fd.ctxMiss_VALID 1 1
    s.shut src = false :=
  by decide +kernel
theorem meets_twinArithmeticWritesRd_1 :
    let c : CoreId := 0
    let w : Word32 := 0x611001
    let s : State := twinG 7 9
    TwinReady s c ∧ tClass w.toNat = .alu :=
  by decide +kernel
theorem meets_twinArithmeticWritesRd_2 :
    let c : CoreId := 0
    let w : Word32 := 0x04610005
    let s : State := twinG 7 9
    TwinReady s c ∧ tClass w.toNat = .aluImm :=
  by decide +kernel
theorem meets_twinArithmeticWritesRd_3 :
    let c : CoreId := 0
    let w : Word32 := 0xFC604003
    let s : State := twinG 7 9
    TwinReady s c ∧ tClass w.toNat = .mfs ∧ ((s.twin c).super = true ∨ userReads (tSn w.toNat) = true) :=
  by decide +kernel
theorem meets_twinArithmeticWritesRd_4 :
    let c : CoreId := 0
    let w : Word32 := 0xFC020004
    let s : State := twinG 7 0x133
    TwinReady s c ∧ tClass w.toNat = .mts ∧ ((s.twin c).super = true ∨ tSn w.toNat = 12) :=
  by decide +kernel
theorem meets_twinArithmeticWritesRd_5 :
    let c : CoreId := 0
    let w : Word32 := 0xFC600003
    let s : State := (twinG 7 9).modTwin 0 fun t => { t with status := 0 }
    TwinReady s c ∧ tClass w.toNat = .mfs ∧ (s.twin c).super = false ∧ userReads (tSn w.toNat) = false :=
  by decide +kernel
theorem meets_twinArithmeticWritesRd_6 :
    let c : CoreId := 0
    let w : Word32 := 0xFC020004
    let s : State := (twinG 7 9).modTwin 0 fun t => { t with status := 0 }
    TwinReady s c ∧ tClass w.toNat = .mts ∧ (s.twin c).super = false ∧ tSn w.toNat ≠ 12 :=
  by decide +kernel
theorem meets_divisionCornersOfChedal_1 :
    let c : CoreId := 0
    let w : Word32 := 0x611011
    let s : State := twinG 7 0
    TwinReady s c ∧ tClass w.toNat = .alu ∧ tRd w.toNat ≠ 0 :=
  by decide +kernel
theorem meets_twinAccessesItsOwnPantry_1 :
    let c : CoreId := 0
    let w : Word32 := 0x4C610008
    let ecc : Ecc := .clean
    let s : State := (twinG 0xFFFF100000001000 9).put (pantryKey 0 0x1008) [1, 2, 3, 4, 5, 6, 7, 200]
    let f : Nat := 0
    let off : Nat := 0x1008
    let a : Nat := 0xFFFF100000001008
    let n : Nat := 8
    TwinReady s c ∧ s.replies = [] ∧ s.inFlight (.twin c) = false ∧ a = (s.twin c).ea w.toNat ∧ n = 2 ^ (tOp w.toNat % 4) ∧ tClass w.toNat
      = .load ∧ a % n = 0 ∧ s.resolveCore c 0 a true = .here f (.pantry c off) ∧ s.placeFenced f (.pantry c off) = false ∧
      s.pantryPoison c off n = false ∧ ecc ≠ .double :=
  by decide +kernel
theorem meets_twinAccessesItsOwnPantry_2 :
    let c : CoreId := 0
    let w : Word32 := 0x6C410008
    let hold : Bool := false
    let ecc : Ecc := .clean
    let s : State := twinG 0xFFFF100000001000 0x1122334455667788
    let f : Nat := 0
    let off : Nat := 0x1008
    let a : Nat := 0xFFFF100000001008
    let n : Nat := 8
    TwinReady s c ∧ s.replies = [] ∧ s.inFlight (.twin c) = false ∧ a = (s.twin c).ea w.toNat ∧ n = 2 ^ (tOp w.toNat % 4) ∧ tClass w.toNat
      = .store ∧ a % n = 0 ∧ s.resolveCore c 1 a true = .here f (.pantry c off) ∧ s.placeFenced f (.pantry c off) = false ∧ isCtrOff
      off = false ∧ isRescueOff off = false ∧ ecc ≠ .double ∧ hold = false :=
  by decide +kernel
theorem meets_twinAccessesItsOwnPantry_3 :
    let c : CoreId := 0
    let w : Word32 := 0x70611000
    let ecc : Ecc := .clean
    let s : State := (twinG 0xFFFF100000001000 9).put (pantryKey 0 0x1000) [5]
    let f : Nat := 0
    let off : Nat := 0x1000
    let a : Nat := 0xFFFF100000001000
    TwinReady s c ∧ s.replies = [] ∧ s.inFlight (.twin c) = false ∧ a = ((s.twin c).gr (tRa w.toNat)).toNat ∧ tClass w.toNat = .atomic ∧ a
      % 8 = 0 ∧ s.resolveCore c 3 a true = .here f (.pantry c off) ∧ s.placeFenced f (.pantry c off) = false ∧ isCtrOff off = false ∧
      isRescueOff off = false ∧ s.pantryPoison c off 8 = false ∧ ecc ≠ .double :=
  by decide +kernel
theorem meets_twinAccessesItsOwnPantry_4 :
    let c : CoreId := 0
    let w : Word32 := 0x4C610001
    let s : State := twinG 0xFFFF100000001000 9
    TwinReady s c ∧ s.replies = [] ∧ s.inFlight (.twin c) = false ∧ tClass w.toNat = .load ∧ (s.twin c).ea w.toNat % 2 ^ (tOp w.toNat % 4)
      ≠ 0 ∧ s.stackFails c = 0 :=
  by decide +kernel
theorem meets_twinAccessesItsOwnPantry_5 :
    let c : CoreId := 0
    let w : Word32 := 0x6C410001
    let s : State := twinG 0xFFFF100000001000 9
    TwinReady s c ∧ s.replies = [] ∧ s.inFlight (.twin c) = false ∧ tClass w.toNat = .store ∧ (s.twin c).ea w.toNat % 2 ^ (tOp w.toNat %
      4) ≠ 0 ∧ s.stackFails c = 0 :=
  by decide +kernel
theorem meets_twinAccessesItsOwnPantry_6 :
    let c : CoreId := 0
    let w : Word32 := 0x70611000
    let s : State := twinG 0xFFFF100000001004 9
    TwinReady s c ∧ s.replies = [] ∧ s.inFlight (.twin c) = false ∧ tClass w.toNat = .atomic ∧ ((s.twin c).gr (tRa w.toNat)).toNat % 8 ≠ 0
      ∧ s.stackFails c = 0 :=
  by decide +kernel
theorem meets_twinAccessesItsOwnPantry_7 :
    let c : CoreId := 0
    let w : Word32 := 0x4C610008
    let s : State := (twinG 0x1000 9).modTwin 0 fun t => { t with dcache := [(0x1008 / 64, List.replicate 64 3)] }
    let g : Nat := 0x1008 / 64
    let a : Nat := 0x1008
    let n : Nat := 8
    let l : Nat × Bytes := (0x1008 / 64, List.replicate 64 3)
    TwinReady s c ∧ s.replies = [] ∧ s.inFlight (.twin c) = false ∧ a = (s.twin c).ea w.toNat ∧ n = 2 ^ (tOp w.toNat % 4) ∧ tClass w.toNat
      = .load ∧ a % n = 0 ∧ s.dcacheLine c 0 a = some g ∧ (s.twin c).dcache.find? (fun e => e.1 == g) = some l :=
  by decide +kernel
theorem meets_twinControlFlow_1 :
    let c : CoreId := 0
    let w : Word32 := 0x80410004
    let s : State := twinG 7 9
    TwinReady s c ∧ tClass w.toNat = .branch :=
  by decide +kernel
theorem meets_twinControlFlow_2 :
    let c : CoreId := 0
    let w : Word32 := 0xA0610004
    let s : State := twinG 0x100 9
    TwinReady s c ∧ tClass w.toNat = .jump :=
  by decide +kernel
theorem meets_twinControlFlow_3 :
    let c : CoreId := 0
    let w : Word32 := 0xD0000002
    let s : State := twinG 7 9
    TwinReady s c ∧ tClass w.toNat = .fence :=
  by decide +kernel
theorem meets_twinControlFlow_4 :
    let c : CoreId := 0
    let w : Word32 := 0xD0000003
    let s : State := twinG 7 9
    TwinReady s c ∧ tClass w.toNat = .flush :=
  by decide +kernel
theorem meets_twinControlFlow_5 :
    let c : CoreId := 0
    let w : Word32 := 0xD8000001
    let s : State := (twinG 7 9).modTwin 0 fun t => { t with dcache := [(1, [])], icache := [(2, [])] }
    TwinReady s c ∧ tClass w.toNat = .dinvAll :=
  by decide +kernel
theorem meets_twinControlFlow_6 :
    let c : CoreId := 0
    let w : Word32 := 0xD8000002
    let s : State := (twinG 7 9).modTwin 0 fun t => { t with dcache := [(1, [])], icache := [(2, [])] }
    TwinReady s c ∧ tClass w.toNat = .iinvAll :=
  by decide +kernel
theorem meets_twinControlFlow_7 :
    let c : CoreId := 0
    let w : Word32 := 0xD8010000
    let s : State := (twinG 0xFFFF000000000040 9).modTwin 0 fun t => { t with dcache := [(1, []), (2, [])] }
    TwinReady s c ∧ tClass w.toNat = .dinv :=
  by decide +kernel
theorem meets_exceptionEntryAndReturn_1 :
    let c : CoreId := 0
    let w : Word32 := 0xFC000000
    let base : Nat := pantryKey 0 0x7FC0
    let s : State := twinG 7 9
    TwinReady s c ∧ s.stackFails c = 0 ∧ tClass w.toNat = .ecall ∧ base = pantryKey c (s.norm ((s.twin c).gr 30).toNat - pantryP c - 64) :=
  by decide +kernel
theorem meets_exceptionEntryAndReturn_2 :
    let c : CoreId := 0
    let w : Word32 := 0xFC000001
    let base : Nat := pantryKey 0 0x7FC0
    let s : State := twinG 7 9
    TwinReady s c ∧ s.stackFails c = 0 ∧ tClass w.toNat = .ebreak ∧ base = pantryKey c (s.norm ((s.twin c).gr 30).toNat - pantryP c - 64) :=
  by decide +kernel
theorem meets_exceptionEntryAndReturn_3 :
    let c : CoreId := 0
    let w : Word32 := 0xFFFFFFFF
    let base : Nat := pantryKey 0 0x7FC0
    let s : State := twinG 7 9
    TwinReady s c ∧ s.stackFails c = 0 ∧ tClass w.toNat = .illegal ∧ base = pantryKey c (s.norm ((s.twin c).gr 30).toNat - pantryP c - 64) :=
  by decide +kernel
theorem meets_exceptionEntryAndReturn_4 :
    let c : CoreId := 0
    let w : Word32 := 0xFC000002
    let s : State := { twinG 7 9 with replies := [⟨eretBy 0 0, .done, leBytes 8 0x400⟩, ⟨eretBy 0 1, .done, leBytes 8 3⟩, ⟨eretBy 0 2, .done, leBytes 8 0x900⟩] }
    let d0 : Bytes := leBytes 8 0x400
    let d1 : Bytes := leBytes 8 3
    let d2 : Bytes := leBytes 8 0x900
    TwinReady s c ∧ tClass w.toNat = .eret ∧ (s.twin c).super = true ∧ ((s.twin c).gr 30).toNat % 8 = 0 ∧ s.replies = [⟨eretBy c 0, .done,
      d0⟩, ⟨eretBy c 1, .done, d1⟩, ⟨eretBy c 2, .done, d2⟩] :=
  by decide +kernel
theorem meets_exceptionEntryAndReturn_5 :
    let c : CoreId := 0
    let w : Word32 := 0xFC000002
    let s : State := (twinG 7 9).modTwin 0 fun t => { t with status := 0 }
    TwinReady s c ∧ tClass w.toNat = .eret ∧ (s.twin c).super = false :=
  by decide +kernel
theorem meets_exceptionEntryAndReturn_6 :
    let c : CoreId := 0
    let w : Word32 := 0xFC000002
    let s : State := ((twinG 7 9).put (pantryKey 0 0x8000) (leBytes 8 0x400 ++ leBytes 8 3)).put (pantryKey 0 0x8020) (leBytes 8 0x900)
    let f : Nat := 0
    let off : Nat := 0x8000
    let a : Nat := 0xFFFF100000008000
    TwinReady s c ∧ tClass w.toNat = .eret ∧ (s.twin c).super = true ∧ a = ((s.twin c).gr 30).toNat ∧ a % 8 = 0 ∧ s.replies = [] ∧
      s.inFlight (eretBy c 0) = false ∧ s.inFlight (eretBy c 1) = false ∧ s.inFlight (eretBy c 2) = false ∧ s.resolveCore c 0 a true =
      .here f (.pantry c off) ∧ s.resolveCore c 0 ((a + 8) % 2 ^ 64) true = .here f (.pantry c (off + 8)) ∧ s.resolveCore c 0 ((a +
      32) % 2 ^ 64) true = .here f (.pantry c (off + 32)) ∧ (∀ i : Fin 5, s.placeFenced f (.pantry c (off + 8 * i)) = false ∧
      s.pantryPoison c (off + 8 * i) 8 = false) :=
  by decide +kernel
theorem meets_exceptionEntryAndReturn_7 :
    let c : CoreId := 0
    let w : Word32 := 0xFC000000
    let s : State := (twinG 7 9).setG 0 30 0xFFFF100000008001
    TwinReady s c ∧ s.stackFails c ≠ 0 ∧ tClass w.toNat = .ecall :=
  by decide +kernel
theorem meets_twinQueuesAndWaits_1 :
    let c : CoreId := 0
    let w : Word32 := 0xC0040000
    let s : State := twinG 7 9
    TwinReady s c ∧ tClass w.toNat = .issue ∧ ((s.core c).queue (tFn w.toNat)).length < 64 ∧ tFn w.toNat < (s.core c).queues.length :=
  by decide +kernel
theorem meets_twinQueuesAndWaits_2 :
    let c : CoreId := 0
    let w : Word32 := 0xC0000001
    let s : State := (twinG 7 9).setQueue 0 1 (List.replicate 64 vecAdd)
    TwinReady s c ∧ tClass w.toNat = .issue ∧ 64 ≤ ((s.core c).queue (tFn w.toNat)).length :=
  by decide +kernel
theorem meets_twinQueuesAndWaits_3 :
    let c : CoreId := 0
    let w : Word32 := 0xC4600001
    let s : State := (twinG 7 9).modCore 0 fun k => { k with sums := [[5, 6], []] }
    let v : Word := 5
    let vs : List Word := [6]
    TwinReady s c ∧ tClass w.toNat = .sumget ∧ (s.core c).vecSum = none ∧ (s.core c).sums.getD (tFn w.toNat - 1) [] = v :: vs :=
  by decide +kernel
theorem meets_twinQueuesAndWaits_4 :
    let c : CoreId := 0
    let w : Word32 := 0xCC000000
    let s : State := twinG 7 9
    TwinReady s c ∧ tClass w.toNat = .qwait ∧ s.engState c (tFn w.toNat) = 0 ∧ (s.core c).queue (tFn w.toNat) = [] :=
  by decide +kernel
theorem meets_twinQueuesAndWaits_5 :
    let c : CoreId := 0
    let w : Word32 := 0xD0611000
    let s : State := (twinG 0xFFFF10000000FC10 3).ctrSet 2 5
    let k : Nat := 2
    TwinReady s c ∧ tClass w.toNat = .waitAcq ∧ s.ownCounter c ((s.twin c).gr (tRa w.toNat)).toNat = some k ∧ nhas s.ctrPoison k = false ∧
      nfind s.waiters c = none ∧ ((s.twin c).gr (tRb w.toNat)).toNat ≤ s.ctr k :=
  by decide +kernel
theorem meets_twinQueuesAndWaits_6 :
    let c : CoreId := 0
    let w : Word32 := 0xFC000005
    let s : State := (twinG 7 9).modTwin 0 fun t => { t with events := 1, eventMask := 1 }
    TwinReady s c ∧ tClass w.toNat = .wfe ∧ (s.twin c).due ≠ 0 :=
  by decide +kernel
theorem meets_twinQueuesAndWaits_7 :
    let c : CoreId := 0
    let w : Word32 := 0xFC000005
    let s : State := twinG 7 9
    TwinReady s c ∧ tClass w.toNat = .wfe ∧ (s.twin c).due = 0 :=
  by decide +kernel
theorem meets_twinQueuesAndWaits_8 :
    let c : CoreId := 0
    let w : Word32 := 0xFC000007
    let s : State := (twinG 7 9).modCore 0 fun k => { k with parts := [⟨0, 1, 0, false, false⟩, ⟨1, 2, 0, false, false⟩] }
    let p : Part := ⟨0, 1, 0, false, false⟩
    let ps : List Part := [⟨1, 2, 0, false, false⟩]
    TwinReady s c ∧ tClass w.toNat = .done ∧ (s.twin c).super = true ∧ bit (s.coreStatus c) 4 = true ∧ (s.core c).parts = p :: ps :=
  by decide +kernel
theorem meets_twinQueuesAndWaits_9 :
    let c : CoreId := 0
    let w : Word32 := 0xC4600001
    let s : State := twinG 7 9
    TwinReady s c ∧ tClass w.toNat = .sumget ∧ (s.core c).sums.getD (tFn w.toNat - 1) [] = [] ∧ s.engState c (tFn w.toNat) ≠ 2 :=
  by decide +kernel
theorem meets_twinQueuesAndWaits_10 :
    let c : CoreId := 0
    let w : Word32 := 0xCC000000
    let s : State := (twinG 7 9).setEngState 0 0 1
    TwinReady s c ∧ tClass w.toNat = .qwait ∧ (s.engState c (tFn w.toNat) = 1 ∨ s.engState c (tFn w.toNat) = 0 ∧ (s.core c).queue (tFn
      w.toNat) ≠ []) :=
  by decide +kernel
theorem meets_twinQueuesAndWaits_11 :
    let c : CoreId := 0
    let w : Word32 := 0xD0611000
    let s : State := (twinG 0xFFFF10000000FC10 6).ctrSet 2 5
    let k : Nat := 2
    TwinReady s c ∧ tClass w.toNat = .waitAcq ∧ s.ownCounter c ((s.twin c).gr (tRa w.toNat)).toNat = some k ∧ nhas s.ctrPoison k = false ∧
      nfind s.waiters c = none ∧ s.ctr k < ((s.twin c).gr (tRb w.toNat)).toNat :=
  by decide +kernel
theorem meets_twinQueuesAndWaits_12 :
    let c : CoreId := 0
    let w : Word32 := 0xD0611000
    let s : State := { (twinG 0xFFFF10000000FC10 6).ctrSet 2 5 with ctrPoison := [(2, ())] }
    let k : Nat := 2
    TwinReady s c ∧ tClass w.toNat = .waitAcq ∧ s.ownCounter c ((s.twin c).gr (tRa w.toNat)).toNat = some k ∧ nhas s.ctrPoison k = true ∧
      nfind s.waiters c = none ∧ s.stackFails c = 0 :=
  by decide +kernel
theorem meets_twinQueuesAndWaits_13 :
    let c : CoreId := 0
    let w : Word32 := 0xD0611000
    let s : State := twinG 0xFFFF10000000FC11 6
    TwinReady s c ∧ tClass w.toNat = .waitAcq ∧ s.ownCounter c ((s.twin c).gr (tRa w.toNat)).toNat = none :=
  by decide +kernel
theorem meets_twinQueuesAndWaits_14 :
    let c : CoreId := 0
    let w : Word32 := 0xFC000007
    let s : State := ((twinG 7 9).setEngState 0 0 1).modCore 0 fun k => { k with parts := [⟨0, 1, 0, false, false⟩] }
    TwinReady s c ∧ tClass w.toNat = .done ∧ (s.twin c).super = true ∧ bit (s.coreStatus c) 4 = false :=
  by decide +kernel
theorem meets_twinQueuesAndWaits_15 :
    let c : CoreId := 0
    let w : Word32 := 0xFC000007
    let s : State := twinG 7 9
    TwinReady s c ∧ tClass w.toNat = .done ∧ ((s.twin c).super = false ∨ bit (s.coreStatus c) 4 = true ∧ (s.core c).parts = []) :=
  by decide +kernel
theorem meets_twinQueuesAndWaits_16 :
    let c : CoreId := 0
    let w : Word32 := 0xCC000003
    let s : State := (twinG 7 9).setEngState 0 3 2
    TwinReady s c ∧ tClass w.toNat = .qwait ∧ s.engState c (tFn w.toNat) = 2 ∧ s.stackFails c = 0 :=
  by decide +kernel
theorem meets_twinSignalRaisesItsCounter_1 :
    let c : CoreId := 0
    let w : Word32 := 0xD0410001
    let s : State := twinG 0xFFFF10000000FC10 3
    let f : Nat := 0
    let n : Nat := 0
    let off : Nat := 0xFC10
    let k : Nat := 2
    TwinReady s c ∧ s.replies = [] ∧ s.inFlight (.twin c) = false ∧ tClass w.toNat = .signal ∧ ((s.twin c).gr (tRa w.toNat)).toNat % 8 = 0
      ∧ s.resolveCore c 2 ((s.twin c).gr (tRa w.toNat)).toNat true = .here f (.pantry n off) ∧ s.placeFenced f (.pantry n off) = false
      ∧ ctrOfOff off = some k ∧ nhas s.ctrPoison (ctrKey n k) = false :=
  by decide +kernel
theorem meets_twinSignalRaisesItsCounter_2 :
    let c : CoreId := 0
    let w : Word32 := 0xD0410001
    let s : State := twinG 0xFFFF10000000FC11 3
    TwinReady s c ∧ s.replies = [] ∧ s.inFlight (.twin c) = false ∧ tClass w.toNat = .signal ∧ ((s.twin c).gr (tRa w.toNat)).toNat % 8 ≠ 0 :=
  by decide +kernel
theorem meets_twinFetchesFromItsInstructionCache_1 :
    let c : CoreId := 0
    let e : Ecc := .clean
    let s : State := haltedTwin.modTwin 0 fun t => { t with mode := .running }
    let l : Nat × Bytes := (0, leBytes 4 (3 * 2 ^ 21 + 2 ^ 16 + 2 * 2 ^ 11) ++ List.replicate 60 0)
    let w : Word32 := 0x611000
    TwinReady s c ∧ (s.twin c).pc.toNat % 4 = 0 ∧ (s.twin c).icache.find? (fun e => e.1 == (s.twin c).pc.toNat / 64) = some l ∧ w.toNat =
      leNat ((l.2.drop ((s.twin c).pc.toNat % 64)).take 4) :=
  by decide +kernel
theorem meets_twinFetchesFromItsInstructionCache_2 :
    let c : CoreId := 0
    let s : State := (twinG 7 9).modTwin 0 fun t => { t with icache := [(0, List.replicate 64 0)] }
    TwinReady s c ∧ (s.twin c).icache.any (fun e => e.1 == (s.twin c).pc.toNat / 64) = true :=
  by decide +kernel
theorem meets_twinKettleStartAndLockstep_1 :
    let src : Source := .host
    let c : CoreId := 0
    let s : State := img.fset Fd.twinBootPc_PC 0x40 0
    s.shut src = false ∧ s.corePresent c = true ∧ s.coreOut c = false ∧ (s.twin c).mode = .resetHold ∧ s.fget Fd.corePwr_STATE c = 0 ∧
      (s.foldOfCore c).isSome :=
  by decide +kernel
theorem meets_twinKettleStartAndLockstep_2 :
    let c : CoreId := 7
    let s : State := { img with fuse := { img.fuse with present := 1 } }
    s.shut .host = false ∧ s.corePresent c = false :=
  by decide +kernel
theorem meets_twinKettleStartAndLockstep_3 :
    let c : CoreId := 0
    let now : Nat := 1000
    let s : State := twin.modTwin 0 fun t => { t with tcmpArmed := true, tcmp := 1000 }
    (s.twin c).tcmpArmed = true ∧ (s.twin c).tcmp.toNat ≤ (s.advance now).now :=
  by decide +kernel
theorem meets_twinKettleStartAndLockstep_4 :
    let c : CoreId := 0
    let w : Word32 := 0xFC000006
    let now : Nat := 15000
    let s : State := ((twin.fset Fd.kettleCtl_ENABLE 1 0).fset Fd.kettleWindow_OPEN_US 10 0).fset Fd.kettleWindow_CLOSE_US 20 0
    TwinReady (s.advance now) c ∧ tClass w.toNat = .kick ∧ s.fon Fd.kettleCtl_ENABLE c = true ∧ 1000 * s.fget Fd.kettleWindow_OPEN_US c ≤
      (s.advance now).elapsed - (s.twin c).kettle.start ∧ (s.advance now).elapsed - (s.twin c).kettle.start < 1000 * s.fget
      Fd.kettleWindow_CLOSE_US c :=
  by decide +kernel
theorem meets_twinKettleStartAndLockstep_5 :
    let c : CoreId := 0
    let now : Nat := 20000
    let s : State := ((twin.fset Fd.kettleCtl_ENABLE 1 0).fset Fd.kettleWindow_OPEN_US 10 0).fset Fd.kettleWindow_CLOSE_US 20 0
    (s.advance now).twinRuns c = true ∧ s.fon Fd.kettleCtl_ENABLE c = true ∧ (s.twin c).kettle.start + 1000 * s.fget
      Fd.kettleWindow_CLOSE_US c ≤ (s.advance now).elapsed ∧ s.responseOf 3 = 0 :=
  by decide +kernel
theorem meets_twinKettleStartAndLockstep_6 :
    let c : CoreId := 0
    let s : State := twin
    s.twinRuns c = true ∧ s.responseOf 2 = 0 :=
  by decide +kernel
theorem meets_twinKettleStartAndLockstep_7 :
    let c : CoreId := 0
    let s : State := twin
    (s.twin c).rel = [] :=
  by decide +kernel
theorem meets_twinKettleStartAndLockstep_8 :
    let c : CoreId := 0
    let w : Word32 := 0xFC000006
    let now : Nat := 9000
    let s : State := ((twin.fset Fd.kettleCtl_ENABLE 1 0).fset Fd.kettleWindow_OPEN_US 10 0).fset Fd.kettleWindow_CLOSE_US 20 0
    TwinReady (s.advance now) c ∧ tClass w.toNat = .kick ∧ s.fon Fd.kettleCtl_ENABLE c = true ∧ (s.advance now).elapsed - (s.twin
      c).kettle.start < 1000 * s.fget Fd.kettleWindow_OPEN_US c ∧ s.responseOf 3 = 0 :=
  by decide +kernel
theorem meets_twinKettleStartAndLockstep_9 :
    let c : CoreId := 0
    let w : Word32 := 0x6C410008
    let s : State := twinG 0xFFFF100000001000 9
    let f : Nat := 0
    let off : Nat := 0x1008
    let a : Nat := 0xFFFF100000001008
    let n : Nat := 8
    TwinReady s c ∧ s.replies = [] ∧ s.inFlight (.twin c) = false ∧ a = (s.twin c).ea w.toNat ∧ n = 2 ^ (tOp w.toNat % 4) ∧ tClass w.toNat
      = .store ∧ a % n = 0 ∧ s.resolveCore c 1 a true = .here f (.pantry c off) :=
  by decide +kernel
theorem meets_twinKettleStartAndLockstep_10 :
    let c : CoreId := 0
    let d : Bytes := [1, 2, 3, 4]
    let s : State := (twinG 0xFFFF100000001000 9).modTwin 0 fun t => { t with rel := [.store 0xFFFF100000001008 [1, 2, 3, 4]] }
    let f : Nat := 0
    let off : Nat := 0x1008
    let a : Nat := 0xFFFF100000001008
    (s.twin c).rel = [.store a d] ∧ (s.twin c).mode = .running ∧ s.coreFence c = FencePhase.none ∧ s.resolveCore c 1 a true = .here f
      (.pantry c off) ∧ s.placeFenced f (.pantry c off) = false ∧ isCtrOff off = false ∧ isRescueOff off = false ∧ 0 < d.length ∧ off
      % 64 + d.length ≤ 64 :=
  by decide +kernel
theorem meets_twinKettleStartAndLockstep_11 :
    let c : CoreId := 0
    let e : Nat := 2
    let x : EWord := vecAdd
    let s : State := (twinG 0xFFFF100000001000 9).modTwin 0 fun t => { t with rel := [.issue 2 vecAdd] }
    (s.twin c).rel = [.issue e x] ∧ (s.twin c).mode = .running ∧ s.coreFence c = FencePhase.none ∧ e < (s.core c).queues.length :=
  by decide +kernel
theorem meets_kettleKeysWindowsAndKicks_1 :
    let src : Source := .host
    let id : KettleId := .twin 3
    let s : State := up
    s.shut src = false ∧ kettleWriter src id = true ∧ s.kettleLocked id = false ∧ (s.kettle id).key = .idle :=
  by decide +kernel
theorem meets_kettleKeysWindowsAndKicks_2 :
    let src : Source := .proc 0
    let id : KettleId := .proc 2
    let now : Nat := 1000009
    let at' : Nat := 9
    let s : State := up.modKettle (fun k => { k with key := .first (.proc 0) 9 }) (.proc 2)
    s.shut src = false ∧ kettleWriter src id = true ∧ s.kettleLocked id = false ∧ (s.kettle id).key = .first src at' ∧ (s.advance
      now).elapsed ≤ at' + 1000000 :=
  by decide +kernel
theorem meets_kettleKeysWindowsAndKicks_3 :
    let src : Source := .host
    let c : CoreId := 3
    let now : Nat := 12
    let s : State := up.modKettle (fun k => { k with key := .window .host 9 }) (.twin 3)
    s.shut src = false ∧ kettleWriter src (.twin c) = true ∧ s.kettleLocked (.twin c) = false ∧ (s.advance now).keyOpen (.twin c) src =
      true :=
  by decide +kernel
theorem meets_kettleKeysWindowsAndKicks_4 :
    let src : Source := .proc 2
    let n : Fin 5 := 2
    let v : Word := 0xA00000009
    let now : Nat := 12
    let s : State := up.modKettle (fun k => { k with key := .window (.proc 2) 9 }) (.proc 2)
    s.shut src = false ∧ kettleWriter src (.proc n) = true ∧ s.kettleLocked (.proc n) = false ∧ (s.advance now).keyOpen (.proc n) src =
      true ∧ 10 ≤ bits v.toNat 55 32 ∧ bits v.toNat 55 32 ≤ 10000000 ∧ bits v.toNat 23 0 < bits v.toNat 55 32 :=
  by decide +kernel
theorem meets_kettleKeysWindowsAndKicks_5 :
    let src : Source := .host
    let c : CoreId := 0
    let s : State := up
    s.shut src = false ∧ kettleWriter src (.twin c) = true ∧ s.keyOpen (.twin c) src = false :=
  by decide +kernel
theorem meets_kettleKeysWindowsAndKicks_6 :
    let n : Fin 5 := 1
    let now : Nat := 60000
    let s : State := (fw.fset Fd.pkettleCtl_ENABLE 1 1).fset Fd.pkettleWindow_CLOSE_US 100 1
    s.pkActive n = true ∧ 1000 * s.fget Fd.pkettleWindow_OPEN_US n ≤ (s.advance now).elapsed - (s.proc n).kettle.start ∧ (s.advance
      now).elapsed - (s.proc n).kettle.start < 1000 * s.fget Fd.pkettleWindow_CLOSE_US n :=
  by decide +kernel
theorem meets_kettleKeysWindowsAndKicks_7 :
    let n : Fin 5 := 1
    let now : Nat := 100000
    let s : State := (img.fset Fd.pkettleCtl_ENABLE 1 1).fset Fd.pkettleWindow_CLOSE_US 100 1
    s.pkActive n = true ∧ (s.proc n).kettle.start + 1000 * s.fget Fd.pkettleWindow_CLOSE_US n ≤ (s.advance now).elapsed ∧ Quiet 4 0x1D s :=
  by decide +kernel
theorem meets_kettleKeysWindowsAndKicks_8 :
    let src : Source := .host
    let c : CoreId := 3
    let now : Nat := 12
    let s : State := up.modKettle (fun k => { k with key := .window .host 9 }) (.twin 3)
    s.shut src = false ∧ kettleWriter src (.twin c) = true ∧ s.kettleLocked (.twin c) = false ∧ (s.advance now).keyOpen (.twin c) src =
      true :=
  by decide +kernel
theorem meets_kettleKeysWindowsAndKicks_9 :
    let src : Source := .proc 0
    let n : Fin 5 := 2
    let now : Nat := 12
    let s : State := up.modKettle (fun k => { k with key := .window (.proc 0) 9 }) (.proc 2)
    s.shut src = false ∧ kettleWriter src (.proc n) = true ∧ s.kettleLocked (.proc n) = false ∧ (s.advance now).keyOpen (.proc n) src =
      true :=
  by decide +kernel
theorem meets_kettleKeysWindowsAndKicks_10 :
    let id : KettleId := .proc 2
    let v : Word32 := 0xC1A5
    let s : State := up
    s.shut .host = false ∧ (kettleWriter .host id = false ∨ s.kettleLocked id = true ∨ (s.kettle id).key = .idle ∧ v ≠ 0xC1A5) :=
  by decide +kernel
theorem meets_kettleKeysWindowsAndKicks_11 :
    let id : KettleId := .twin 2
    let v : Word32 := 0x5EA1
    let w : Source := .host
    let now : Nat := 1000010
    let at' : Nat := 9
    let s : State := up.modKettle (fun k => { k with key := .first .host 9 }) (.twin 2)
    s.shut .host = false ∧ kettleWriter .host id = true ∧ s.kettleLocked id = false ∧ (s.kettle id).key = .first w at' ∧ (w ≠ .host ∨ v ≠
      0x5EA1 ∨ at' + 1000000 < (s.advance now).elapsed) :=
  by decide +kernel
theorem meets_kettleKeysWindowsAndKicks_12 :
    let id : KettleId := .twin 2
    let now : Nat := 1000009
    let s : State := up.modKettle (fun k => { k with key := .window .host 9 }) (.twin 2)
    s.shut .host = false ∧ (kettleWriter .host id = false ∨ s.kettleLocked id = true ∨ (s.advance now).keyOpen id .host = false) :=
  by decide +kernel
theorem meets_kettleKeysWindowsAndKicks_13 :
    let n : Fin 5 := 1
    let now : Nat := 49999
    let s : State := ((img.fset Fd.pkettleCtl_ENABLE 1 1).fset Fd.pkettleWindow_CLOSE_US 100 1).fset Fd.pkettleWindow_OPEN_US 50 1
    s.pkActive n = true ∧ (s.advance now).elapsed - (s.proc n).kettle.start < 1000 * s.fget Fd.pkettleWindow_OPEN_US n ∧ Quiet 4 0x1D s :=
  by decide +kernel
theorem meets_kettleKeysWindowsAndKicks_14 :
    let n : Fin 5 := 1
    let m : Fin 5 := 2
    let s : State := img
    n ≠ m ∧ s.dark (.proc m) = false :=
  by decide +kernel
theorem meets_firmwareProcessorsStartAndBeat_1 :
    let q : Fin 4 := 1
    let s : State := { img with fuse := { slots := [{ hash := some [] }] } }.modProc 2 fun p => { p with running := false, starts := true, cause := 3, copy := List.replicate 576 0 }
    (s.proc (q.val + 1)).starts = true ∧ (s.proc (q.val + 1)).cause ≠ 2 ∧ (s.proc (q.val + 1)).handover = false ∧ slotGood s.keySlots
      (s.proc (q.val + 1)).copy = true :=
  by decide +kernel
theorem meets_firmwareProcessorsStartAndBeat_2 :
    let n : Fin 5 := 2
    let s : State := img.modProc 2 fun p => { p with running := false, starts := true }
    (s.proc n).starts = true ∧ Quiet 4 0x1D s :=
  by decide +kernel
theorem meets_firmwareProcessorsStartAndBeat_3 :
    let now : Nat := 1000000
    let s : State := img
    (s.proc 0).running = true ∧ (s.proc 0).beat + s.hbPeriod ≤ (s.advance now).elapsed ∧ s.fon Fd.hbHostAddr_ENABLE = false :=
  by decide +kernel
theorem meets_firmwareProcessorsStartAndBeat_4 :
    let q : Fin 4 := 3
    let s : State := fw
    (s.proc 0).running = true ∧ (s.proc (q.val + 1)).running = true :=
  by decide +kernel
theorem meets_firmwareProcessorsStartAndBeat_5 :
    let q : Fin 4 := 2
    let now : Nat := 3000000
    let s : State := img
    (s.proc 0).running = true ∧ (s.proc (q.val + 1)).running = true ∧ (s.proc (q.val + 1)).handover = false ∧ (s.proc (q.val + 1)).beat +
      3000000 ≤ (s.advance now).elapsed ∧ Quiet 4 0x1D s :=
  by decide +kernel
theorem meets_firmwareProcessorsStartAndBeat_6 :
    let s : State := img
    Quiet 4 0x1D s :=
  by decide +kernel
theorem meets_firmwareProcessorsStartAndBeat_7 :
    let s : State := { img with fuse := { slots := [{ hash := some [] }] } }.modProc 0 fun p => { p with running := false, starts := true, cause := 3, copy := List.replicate 576 0 }
    (s.proc 0).starts = true ∧ (s.proc 0).cause ≠ 2 ∧ (s.proc 0).handover = false ∧ slotGood s.keySlots (s.proc 0).copy = true ∧
      s.life.cmd = none ∧ (∀ d : Fin 5, bit (s.reg .fcActive d) 63 = false) :=
  by decide +kernel
theorem meets_firmwareProcessorsStartAndBeat_8 :
    let now : Nat := 1000000
    let s : State := ((State.masters img).fset Fd.hbHostAddr_ENABLE 1).fset Fd.hbHostAddr_ADDR 0x200
    (s.proc 0).running = true ∧ (s.proc 0).beat + s.hbPeriod ≤ (s.advance now).elapsed ∧ s.fon Fd.hbHostAddr_ENABLE = true ∧ s.mayMaster =
      true ∧ s.fon Fd.pcieStatus_LINK_UP = true :=
  by decide +kernel
theorem meets_firmwareUpdatesHandOver_1 :
    let src : Source := .host
    let s : State := img.setReg .fwSrcLen 100
    s.shut src = false ∧ s.fwCmdRefused src = false ∧ s.life.fwDue = none ∧ (s.proc 0).running = true ∧ s.life.cmd = none ∧ fwLenBad
      (s.reg .fwSrcLen) = true :=
  by decide +kernel
theorem meets_firmwareUpdatesHandOver_2 :
    let src : Source := .host
    let mask : Nat := 3
    let b : Bytes := fwBundle
    let n : Nat := 1
    let s : State := (({ State.masters img with fuse := { slots := [{ hash := some fwHash }] } }).setReg .fwSrcLen 640).modProc 0 fun p => { p with copy := fwBundle }
    s.shut src = false ∧ s.fwCmdRefused src = false ∧ s.life.fwDue = none ∧ s.mayMaster = true ∧ (s.proc 0).running = true ∧ s.fwCheck
      mask (some b) = none ∧ fwOrder.find? (fun k => bit (mask % 32) k) = some n :=
  by decide +kernel
theorem meets_firmwareUpdatesHandOver_3 :
    let n : Fin 5 := 2
    let s : State := { fw with life := { fw.life with fwCur := some 2, staged := [1] } }
    s.life.fwCur = some n.val ∧ (s.proc n).handover = false ∧ (s.proc n).running = true :=
  by decide +kernel
theorem meets_firmwareUpdatesHandOver_4 :
    let n : Fin 5 := 2
    let s : State := fw.modProc 2 fun p => { p with handover := true }
    (s.proc n).handover = true ∧ (s.proc n).running = true ∧ s.life.fwCur = none :=
  by decide +kernel
theorem meets_firmwareUpdatesHandOver_5 :
    let n : Fin 5 := 2
    let m : Fin 5 := 3
    let s : State := { fw with life := { fw.life with fwCur := some 2, fwMask := 9 } }.modProc 2 fun p => { p with handover := true }
    (s.proc n).handover = true ∧ (s.proc n).running = true ∧ s.life.fwCur = some n.val ∧ fwOrder.find? (fun k => bit s.life.fwMask k) =
      some m.val :=
  by decide +kernel
theorem meets_firmwareUpdatesHandOver_6 :
    let n : Fin 5 := 2
    let now : Nat := 100000000
    let s : State := { fw with life := { fw.life with fwCur := some 2, fwMask := 8 } }
    s.life.fwCur = some n.val ∧ (s.proc n).handover = false ∧ s.life.fwSince + 100000000 ≤ (s.advance now).elapsed :=
  by decide +kernel
theorem meets_firmwareUpdatesHandOver_7 :
    let n : Fin 5 := 2
    let now : Nat := 500000000
    let b : Bytes := [7]
    let s : State := { img with life := { img.life with fwCur := some 2 } }.modProc 2 fun p => { p with handover := true, prev := some [7] }
    (s.proc n).handover = true ∧ (s.proc n).prev = some b ∧ s.life.fwCur = some n.val ∧ (s.proc n).hoAt + 1000000 * (if s.hasImage then
      s.devSec.handoverMs else 500) ≤ (s.advance now).elapsed ∧ Quiet 4 0x1D s :=
  by decide +kernel
theorem meets_firmwareUpdatesHandOver_8 :
    let src : Source := .host
    let s : State := img
    s.shut src = false ∧ s.fwCmdRefused src = false ∧ s.life.fwDue = none ∧ (s.proc 0).running = true ∧ s.life.cmd = none :=
  by decide +kernel
theorem meets_firmwareUpdatesHandOver_9 :
    let src : Source := .host
    let s : State := img.setReg .fwSrcLen 640
    s.shut src = false ∧ s.fwCmdRefused src = false ∧ s.life.fwDue = none ∧ s.mayMaster = false ∧ (s.proc 0).running = true ∧ s.fwReads =
      true :=
  by decide +kernel
theorem meets_firmwareUpdatesHandOver_10 :
    let src : Source := .host
    let s : State := img
    s.shut src = false ∧ s.fwCmdRefused src = false ∧ s.life.fwDue = none ∧ (s.proc 0).running = true :=
  by decide +kernel
theorem meets_firmwareUpdatesHandOver_11 :
    let n : Fin 5 := 2
    let v : Word := 0x60D1
    let s : State := { fw with life := { fw.life with fwCur := some 2, staged := [1] } }
    v ≠ 0x60D0 ∧ s.dark (.proc n) = false :=
  by decide +kernel
theorem meets_timersEventsAndTheGarnetLog_1 :
    let n : Fin 5 := 4
    let k : Fin 16 := 3
    let now : Nat := 90
    let s : State := fw.modProc 4 fun p => { p with timers := [(3, 90)] }
    nget 0 (s.proc n).timers k.val ≠ 0 ∧ nget 0 (s.proc n).timers k.val ≤ (s.advance now).now ∧ nhas (s.proc n).timerDone k.val = false :=
  by decide +kernel
theorem meets_timersEventsAndTheGarnetLog_2 :
    let n : Fin 5 := 1
    let s : State := fw.modProc 1 fun p => { p with events := 5 }
    (s.proc n).handover = false :=
  by decide +kernel
theorem meets_timersEventsAndTheGarnetLog_3 :
    let s : State := fw
    s.fget Fd.garnetStatus_RETIRED = 0 ∧ s.fon Fd.fwlogCtl_ENABLE = false ∧ s.life.begun = [] :=
  by decide +kernel
theorem meets_timersEventsAndTheGarnetLog_4 :
    let src : Source := .host
    let i : Nat := 0
    let s : State := fw.submit 1 0 0 [3]
    s.dark src = false ∧ s.fget Fd.garnetStatus_RETIRED = 0 ∧ crcOk (nget blankEntry s.log.bank0 (i % 4096)) = true :=
  by decide +kernel
theorem meets_timersEventsAndTheGarnetLog_5 :
    let now : Nat := 10000000000
    let s : State := fw.submit 1 0 0 [3]
    (s.advance now).flushDue = true :=
  by decide +kernel
theorem meets_timersEventsAndTheGarnetLog_6 :
    let e : Bytes := [1]
    let q : List Bytes := [[2]]
    let s : State := (fw.fset Fd.fwlogCtl_ENABLE 1).modLog fun l => { l with ringQ := [[1], [2]] }
    s.fon Fd.fwlogCtl_ENABLE = true ∧ (s.proc 0).running = true ∧ s.log.ringQ = e :: q ∧ s.log.ringN = s.reg .fwlogTail + s.fget
      Fd.fwlogCtl_SIZE :=
  by decide +kernel
theorem meets_timersEventsAndTheGarnetLog_7 :
    let e : Bytes := [1]
    let q : List Bytes := [[2]]
    let s : State := ((((fw.fset Fd.fwlogCtl_ENABLE 1).fset Fd.fwlogCtl_SIZE 64).fset Fd.pcieStatus_LINK_UP 1).fset Fd.pcieStatus_BME 1).modLog fun l => { l with ringQ := [[1], [2]] }
    s.fon Fd.fwlogCtl_ENABLE = true ∧ s.fon Fd.fwlogCtl_IRQ = false ∧ (s.proc 0).running = true ∧ s.log.ringQ = e :: q ∧ s.log.ringN ≠
      s.reg .fwlogTail + s.fget Fd.fwlogCtl_SIZE ∧ s.log.dropped = 0 ∧ s.mayMaster = true ∧ s.fon Fd.pcieStatus_LINK_UP = true :=
  by decide +kernel
theorem meets_timersEventsAndTheGarnetLog_8 :
    let src : Source := .host
    let v : Word32 := 0x80000020
    let s : State := up
    s.shut src = false ∧ s.fon Fd.fwlogCtl_ENABLE = false ∧ v.toNat.testBit 31 = true :=
  by decide +kernel
theorem meets_timersEventsAndTheGarnetLog_9 :
    let src : Source := .host
    let i : Nat := 0
    let s : State := ({ (fw.submit 1 0 0 [3]) with log := { (fw.submit 1 0 0 [3]).log with bank0 := [] } })
    s.dark src = false ∧ s.fget Fd.garnetStatus_RETIRED = 0 ∧ crcOk (nget blankEntry s.log.bank0 (i % 4096)) = false ∧ crcOk (nget
      blankEntry s.log.bank1 (i % 4096)) = true :=
  by decide +kernel
theorem meets_timersEventsAndTheGarnetLog_10 :
    let e : Bytes := [1]
    let q : List Bytes := [[2]]
    let s : State := ((((fw.fset Fd.fwlogCtl_ENABLE 1).fset Fd.fwlogCtl_SIZE 64).fset Fd.pcieStatus_LINK_UP 1).fset Fd.pcieStatus_BME 1).modLog fun l => { l with ringQ := [[1], [2]], dropped := 3 }
    s.fon Fd.fwlogCtl_ENABLE = true ∧ s.fon Fd.fwlogCtl_IRQ = false ∧ (s.proc 0).running = true ∧ s.log.ringQ = e :: q ∧ s.log.ringN ≠
      s.reg .fwlogTail + s.fget Fd.fwlogCtl_SIZE ∧ s.log.dropped ≠ 0 ∧ s.mayMaster = true ∧ s.fon Fd.pcieStatus_LINK_UP = true :=
  by decide +kernel
theorem meets_timersEventsAndTheGarnetLog_11 :
    let src : Source := .host
    let v : Word32 := 0x40
    let s : State := up
    s.shut src = false ∧ v.toNat.testBit 31 = false ∧ s.fon Fd.fwlogCtl_ENABLE = false :=
  by decide +kernel
theorem meets_matrixWordsAndArrayTests_1 :
    let c : CoreId := 0
    let e : EWord := mmaWord
    let s : State := mmaState
    s.engReady c 0 = true ∧ (s.mat c).word = none ∧ s.headWord c 0 = some e ∧ s.mmaFail c e.mma = none ∧ e.mma.m ≠ 0 ∧ e.mma.n ≠ 0 :=
  by decide +kernel
theorem meets_matrixWordsAndArrayTests_2 :
    let c : CoreId := 0
    let e : EWord := { w0 := 0x9AA01 }
    let s : State := mmaState.setQueue 0 0 [{ w0 := 0x9AA01 }]
    s.engReady c 0 = true ∧ (s.mat c).word = none ∧ s.headWord c 0 = some e ∧ s.mmaFail c e.mma = none ∧ (e.mma.m = 0 ∨ e.mma.n = 0) :=
  by decide +kernel
theorem meets_matrixWordsAndArrayTests_3 :
    let c : CoreId := 0
    let e : EWord := { w0 := 2 }
    let r : Nat := 0x10
    let s : State := (mmaState.setQueue 0 0 [{ w0 := 2 }]).modTwin 0 fun t => { t with mode := .halted }
    s.engReady c 0 = true ∧ (s.mat c).word = none ∧ s.headWord c 0 = some e ∧ s.mmaFail c e.mma = some r ∧ (s.twin c).mode = .halted ∧ r <
      256 :=
  by decide +kernel
theorem meets_matrixWordsAndArrayTests_4 :
    let c : CoreId := 0
    let e : EWord := mmaWord
    let as : List Nat := [0, 1]
    let panel : Bytes := mmaRun.pantryBytes 0 0x400 64
    let s : State := mmaRun
    s.matRuns c = true ∧ (s.mat c) = { word := some e, arrays := as } ∧ as ≠ [] ∧ e.mma.intAcc = true ∧ isIntFmt e.mma.dfmt = true ∧
      e.mma.m = 1 ∧ 0 < e.mma.n ∧ e.mma.n ≤ 8 ∧ 0 < e.mma.k ∧ e.mma.pour = false ∧ e.mma.doff % 64 = 0 ∧ e.mma.n * e.mma.db ≤ 64 ∧
      isCtrOff e.mma.doff = false ∧ isRescueOff e.mma.doff = false ∧ s.rangePoison c e.mma.boff e.mma.panel = false ∧ s.rangePoison c
      e.mma.aoff e.mma.ra = false ∧ s.rangePoison c e.mma.doff (e.mma.n * e.mma.db) = false ∧ panel = s.pantryBytes c e.mma.boff
      e.mma.panel :=
  by decide +kernel
theorem meets_matrixWordsAndArrayTests_5 :
    let c : CoreId := 5
    let now : Nat := 100000000000
    let s : State := testState
    s.hasImage = true ∧ bit s.devSec.policyFlags 2 = true ∧ s.testDue c (nget 0 s.tests c.val + 1) ≤ (s.advance now).elapsed ∧ (s.reg
      .arrayOut c).testBit (nget 0 s.tests c.val % 64) = false ∧ s.coreLive c = true ∧ (s.core c).test = none :=
  by decide +kernel
theorem meets_matrixWordsAndArrayTests_6 :
    let c : CoreId := 80
    let a : Nat := 9
    let s : State := img.modCore 80 fun k => { k with test := some 9 }
    (s.core c).test = some a ∧ a < 64 :=
  by decide +kernel
theorem meets_matrixWordsAndArrayTests_7 :
    let c : CoreId := 80
    let a : Nat := 9
    let s : State := img.modCore 80 fun k => { k with test := some 9 }
    (s.core c).test = some a ∧ a < 64 ∧ Quiet (coreDie c) 5 s :=
  by decide +kernel
theorem meets_matrixWordsAndArrayTests_8 :
    let c : CoreId := 0
    let e : EWord := mmaWord
    let as : List Nat := [0, 1]
    let s : State := mmaRun
    s.matRuns c = true ∧ (s.mat c) = { word := some e, arrays := as } ∧ 0 < e.mma.m ∧ e.mma.m ≤ 8 ∧ 0 < e.mma.n ∧ e.mma.n ≤ 8 * as.length
      ∧ 0 < e.mma.k ∧ e.mma.pour = false ∧ e.mma.n * e.mma.db ≤ e.mma.ldd ∧ (∀ r, r < e.mma.m → ∀ i, i < e.mma.n * e.mma.db → isCtrOff
      (e.mma.doff + r * e.mma.ldd + i) = false ∧ isRescueOff (e.mma.doff + r * e.mma.ldd + i) = false) ∧ (∀ j, j < e.mma.colBlocks →
      s.rangePoison c (e.mma.boff + j * e.mma.panel) e.mma.panel = false) ∧ (∀ r, r < e.mma.m → s.rangePoison c (e.mma.aoff + r *
      e.mma.lda) e.mma.ra = false ∧ (e.mma.sa = true → s.rangePoison c (e.mma.saOff + r * (e.mma.k / 32)) (e.mma.k / 32) = false) ∧
      (e.mma.acc = true → s.rangePoison c (e.mma.doff + r * e.mma.ldd) (e.mma.n * e.mma.db) = false)) :=
  by decide +kernel
theorem meets_matrixWordsAndArrayTests_9 :
    let c : CoreId := 0
    let e : EWord := { mmaWord with w0 := mmaWord.w0 ||| 0x900000000#64 }
    let as : List Nat := [0, 1]
    let s : State := mmaRun.modMat 0 fun t => { t with word := some { mmaWord with w0 := mmaWord.w0 ||| 0x900000000#64 } }
    s.matRuns c = true ∧ (s.mat c) = { word := some e, arrays := as } ∧ 8 < e.mma.m ∧ 0 < e.mma.n ∧ e.mma.n ≤ 8 * as.length ∧ 0 < e.mma.k
      ∧ e.mma.pour = false ∧ (∀ j, j < e.mma.colBlocks → s.rangePoison c (e.mma.boff + j * e.mma.panel) e.mma.panel = false) ∧ (∀ r, r
      < 8 → s.rangePoison c (e.mma.aoff + r * e.mma.lda) e.mma.ra = false ∧ (e.mma.sa = true → s.rangePoison c (e.mma.saOff + r *
      (e.mma.k / 32)) (e.mma.k / 32) = false) ∧ (e.mma.acc = true → s.rangePoison c (e.mma.doff + r * e.mma.ldd) (e.mma.n * e.mma.db)
      = false)) :=
  by decide +kernel
theorem meets_matrixWordsAndArrayTests_10 :
    let c : CoreId := 0
    let e : EWord := { mmaWord with w0 := mmaWord.w0 &&& ~~~0x200000#64 }
    let a : Fin 64 := 0
    let k : Nat := 0
    let as : List Nat := [0, 1]
    let s : State := mmaRun.modMat 0 fun t => { t with word := some { mmaWord with w0 := mmaWord.w0 &&& ~~~0x200000#64 } }
    s.matRuns c = true ∧ (s.mat c) = { word := some e, arrays := as } ∧ as.idxOf? a.val = some k ∧ k < e.mma.colBlocks ∧ 0 < e.mma.m ∧ 0 <
      e.mma.n ∧ 0 < e.mma.k ∧ e.mma.pour = false ∧ e.mma.acc = false ∧ (∀ j, j < e.mma.colBlocks → s.rangePoison c (e.mma.boff + j *
      e.mma.panel) e.mma.panel = false) ∧ (∀ r, r < e.mma.m → s.rangePoison c (e.mma.aoff + r * e.mma.lda) e.mma.ra = false ∧
      (e.mma.sa = true → s.rangePoison c (e.mma.saOff + r * (e.mma.k / 32)) (e.mma.k / 32) = false)) ∧ Quiet (coreDie c) 4 s :=
  by decide +kernel
theorem meets_enginesResumeAndDiscard_1 :
    let src : Source := .host
    let c : CoreId := 7
    let s : State := (up.setEngState 7 0 2).modMat 7 fun m => { m with row := 3 }
    s.shut src = false ∧ s.engState c 0 = 2 :=
  by decide +kernel
theorem meets_enginesResumeAndDiscard_2 :
    let src : Source := .host
    let c : CoreId := 7
    let s : State := (up.setEngState 7 0 2).setQueue 7 0 [{}]
    s.shut src = false ∧ s.engState c 0 = 2 :=
  by decide +kernel
theorem meets_enginesResumeAndDiscard_3 :
    let src : Source := .host
    let c : CoreId := 7
    let s : State := (up.setEngState 7 1 2).setQueue 7 1 [{}]
    s.shut src = false ∧ s.engState c 1 = 2 :=
  by decide +kernel
theorem meets_enginesResumeAndDiscard_4 :
    let src : Source := .host
    let c : CoreId := 7
    let s : State := (up.setEngState 7 1 2).setQueue 7 1 [{}]
    s.shut src = false ∧ s.engState c 1 = 2 :=
  by decide +kernel
theorem meets_enginesResumeAndDiscard_5 :
    let src : Source := .host
    let c : CoreId := 7
    let s : State := (up.setEngState 7 2 2).setQueue 7 2 [{}]
    s.shut src = false ∧ s.engState c 2 = 2 :=
  by decide +kernel
theorem meets_enginesResumeAndDiscard_6 :
    let src : Source := .host
    let c : CoreId := 7
    let s : State := (up.setEngState 7 2 2).setQueue 7 2 [{}]
    s.shut src = false ∧ s.engState c 2 = 2 :=
  by decide +kernel
theorem meets_enginesResumeAndDiscard_7 :
    let src : Source := .host
    let c : CoreId := 7
    let s : State := (up.setEngState 7 3 2).modMov 7 fun _ => { word := some {}, skipped := [64] }
    s.shut src = false ∧ s.engState c 3 = 2 :=
  by decide +kernel
theorem meets_enginesResumeAndDiscard_8 :
    let src : Source := .host
    let c : CoreId := 7
    let s : State := (up.setEngState 7 3 2).modMov 7 fun _ => { word := some {} }
    s.shut src = false ∧ s.engState c 3 = 2 :=
  by decide +kernel
theorem meets_enginesResumeAndDiscard_9 :
    let src : Source := .host
    let c : CoreId := 7
    let s : State := (up.setEngState 7 4 2).setQueue 7 4 [{}]
    s.shut src = false ∧ s.engState c 4 = 2 :=
  by decide +kernel
theorem meets_enginesResumeAndDiscard_10 :
    let src : Source := .host
    let c : CoreId := 7
    let s : State := (up.setEngState 7 4 2).setQueue 7 4 [{}]
    s.shut src = false ∧ s.engState c 4 = 2 :=
  by decide +kernel
theorem meets_enginesResumeAndDiscard_11 :
    let c : CoreId := 3
    let i : Instr := Instr.moverDiscard .host 3
    let e : Nat := 3
    let s : State := up
    s.shut .host = false ∧ ((i, e) ∈ [(Instr.matrixResume .host c, 0), (.matrixDiscard .host c, 0), (.vectorResume .host c, 1),
      (.vectorDiscard .host c, 1), (.whiskResume .host c, 2), (.whiskDiscard .host c, 2), (.moverResume .host c, 3), (.moverDiscard
      .host c, 3), (.pourResume .host c, 4), (.pourDiscard .host c, 4)]) ∧ s.engState c e ≠ 2 :=
  by decide +kernel
theorem meets_vectorAndMoverWords_1 :
    let c : CoreId := 2
    let e : EWord := vecAdd
    let s : State := vecState
    s.engReady c 1 = true ∧ (s.core c).vecSum = none ∧ s.headWord c 1 = some e ∧ e.vec.fail = none ∧ e.vec.opc ∈ [1, 2, 3, 6, 7, 0x10,
      0x11, 0x12, 0x13, 0x14] ∧ e.vec.oneKind false = true ∧ e.vec.dvreg = true ∧ e.vec.a.mode = 2 ∧ e.vec.b.mode = 2 ∧ e.vec.rows = 1
      ∧ 0 < e.vec.len ∧ e.vec.summary = 0 ∧ e.vec.overlaps = false :=
  by decide +kernel
theorem meets_vectorAndMoverWords_2 :
    let c : CoreId := 0
    let e : EWord := fillWord
    let f : Nat := 0
    let n : Nat := 0
    let off : Nat := 0x100
    let s : State := img.setQueue 0 3 [fillWord]
    s.engReady c 3 = true ∧ (s.mov c).word = none ∧ s.headWord c 3 = some e ∧ s.movFail c e.mov = none ∧ e.mov.opc = 2 ∧ 0 < e.mov.len ∧
      e.mov.dst % 64 + e.mov.len ≤ 64 ∧ e.mov.arr = 0x7F ∧ s.replies = [] ∧ s.inFlight (.engine c 4 2) = false ∧ s.resolveCore c 1
      e.mov.dst false = .here f (.pantry n off) ∧ s.placeFenced f (.pantry n off) = false ∧ isCtrOff off = false ∧ isRescueOff off =
      false ∧ s.isPoison (pantryKey n off / 64) = false :=
  by decide +kernel
theorem meets_vectorAndMoverWords_3 :
    let c : CoreId := 0
    let e : EWord := copyWord
    let f : Nat := 0
    let n : Nat := 0
    let off : Nat := 0x100
    let g : Nat := 0
    let m : Nat := 1
    let src : Nat := 0x40
    let s : State := (img.setQueue 0 3 [copyWord]).put (pantryKey 1 0x40) [1, 2, 3]
    s.engReady c 3 = true ∧ (s.mov c).word = none ∧ s.headWord c 3 = some e ∧ s.movFail c e.mov = none ∧ e.mov.opc = 1 ∧ 0 < e.mov.len ∧
      e.mov.dst % 64 + e.mov.len ≤ 64 ∧ e.mov.src % 64 + e.mov.len ≤ 64 ∧ e.mov.arr = 0x7F ∧ s.replies = [] ∧ s.inFlight (.engine c 4
      2) = false ∧ s.inFlight (.engine c 4 0) = false ∧ s.resolveCore c 1 e.mov.dst false = .here f (.pantry n off) ∧ s.placeFenced f
      (.pantry n off) = false ∧ isCtrOff off = false ∧ isRescueOff off = false ∧ s.isPoison (pantryKey n off / 64) = false ∧
      s.resolveCore c 0 e.mov.src false = .here g (.pantry m src) ∧ s.placeFenced g (.pantry m src) = false ∧ s.pantryPoison m src
      e.mov.len = false :=
  by decide +kernel
theorem meets_vectorAndMoverWords_4 :
    let c : CoreId := 0
    let e : EWord := { fillWord with w3 := 0x30000 }
    let s : State := (img.setEngState 0 3 1).modMov 0 fun _ => { word := some { fillWord with w3 := 0x30000 }, at' := 8 }
    (s.mov c).word = some e ∧ (s.mov c).cut = false ∧ e.mov.len ≤ (s.mov c).pos ∧ s.coreLive c = true ∧ s.engState c 3 = 1 ∧ e.mov.done <
      64 ∧ nhas s.ctrPoison (ctrKey c e.mov.done) = false :=
  by decide +kernel
theorem meets_vectorAndMoverWords_5 :
    let c : CoreId := 2
    let e : EWord := vecAdd
    let s : State := vecState
    s.engReady c 1 = true ∧ (s.core c).vecSum = none ∧ s.headWord c 1 = some e ∧ e.vec.fail = none ∧ (e.vec.len = 0 ∨ ∀ r, r < e.vec.rows
      → ∀ p ∈ e.vec.pieces r, ∀ x ∈ e.vec.pieceReads p, s.rangePoison c x.1 x.2 = false) ∧ (e.vec.summary = 0 ∨ ((s.core c).sums.getD
      0 []).length < 16 ∧ 0 < (s.core c).sums.length) :=
  by decide +kernel
theorem meets_vectorAndMoverWords_6 :
    let c : CoreId := 2
    let e : EWord := { vecAdd with w3 := 2 }
    let s : State := vecState.setQueue 2 1 [{ vecAdd with w3 := 2 }]
    s.engReady c 1 = true ∧ (s.core c).vecSum = none ∧ s.headWord c 1 = some e ∧ e.vec.fail = none ∧ vecReduces e.vec.opc = false ∧
      e.vec.opc ≠ 0x21 ∧ e.vec.opc ≠ 0x22 ∧ e.vec.dvreg = true ∧ e.vec.summary = 0 ∧ e.vec.overlaps = false ∧ 0 < e.vec.len ∧ (∀ r, r
      < e.vec.rows → ∀ p ∈ e.vec.pieces r, ∀ x ∈ e.vec.pieceReads p, s.rangePoison c x.1 x.2 = false) :=
  by decide +kernel
theorem meets_vectorAndMoverWords_7 :
    let c : CoreId := 2
    let e : EWord := { w0 := (4 <<< 32) + 0xA09AA01, w1 := 1 + (2 <<< 17), w2 := 0x40, w3 := 1 }
    let s : State := vecState.setQueue 2 1 [{ w0 := (4 <<< 32) + 0xA09AA01, w1 := 1 + (2 <<< 17), w2 := 0x40, w3 := 1 }]
    s.engReady c 1 = true ∧ (s.core c).vecSum = none ∧ s.headWord c 1 = some e ∧ e.vec.fail = none ∧ vecReduces e.vec.opc = false ∧
      e.vec.opc ≠ 0x21 ∧ e.vec.opc ≠ 0x22 ∧ e.vec.dvreg = false ∧ e.vec.summary = 0 ∧ e.vec.overlaps = false ∧ 0 < e.vec.len ∧
      e.vec.rows = 1 ∧ fmtBits e.vec.dfmt ≠ 6 ∧ fmtBits e.vec.dfmt * e.vec.len % 8 = 0 ∧ e.vec.doff % 4 * 16 + rowBytes e.vec.dfmt
      e.vec.len ≤ 64 ∧ isCtrOff (e.vec.doff * 16) = false ∧ isRescueOff (e.vec.doff * 16) = false ∧ (∀ p ∈ e.vec.pieces 0, ∀ x ∈
      e.vec.pieceReads p, s.rangePoison c x.1 x.2 = false) :=
  by decide +kernel
theorem meets_vectorAndMoverWords_8 :
    let c : CoreId := 2
    let e : EWord := { w0 := (4 <<< 32) + 0x2890A30, w1 := 1, w2 := 3, w3 := 2 }
    let s : State := vecState.setQueue 2 1 [{ w0 := (4 <<< 32) + 0x2890A30, w1 := 1, w2 := 3, w3 := 2 }]
    s.engReady c 1 = true ∧ (s.core c).vecSum = none ∧ s.headWord c 1 = some e ∧ e.vec.fail = none ∧ vecReduces e.vec.opc = true ∧
      e.vec.dvreg = true ∧ e.vec.summary = 0 ∧ e.vec.overlaps = false ∧ 0 < e.vec.len ∧ (∀ r, r < e.vec.rows → ∀ p ∈ e.vec.pieces r, ∀
      x ∈ e.vec.pieceReads p, s.rangePoison c x.1 x.2 = false) :=
  by decide +kernel
theorem meets_vectorAndMoverWords_9 :
    let c : CoreId := 2
    let e : EWord := { w0 := 0xFF }
    let r : Nat := 0x10
    let s : State := (vecState.setQueue 2 1 [{ w0 := 0xFF }]).modTwin 2 fun t => { t with mode := .halted }
    s.engReady c 1 = true ∧ (s.core c).vecSum = none ∧ s.headWord c 1 = some e ∧ e.vec.fail = some r ∧ (s.twin c).mode = .halted :=
  by decide +kernel
theorem meets_vectorAndMoverWords_10 :
    let c : CoreId := 2
    let e : EWord := { w0 := 0xA89AA01, w1 := 1 + (2 <<< 17) + (3 <<< 51), w2 := 3, w3 := 1 }
    let v : Word := 0
    let n : Nat := 16
    let s : State := (vecState.setQueue 2 1 [{ w0 := 0xA89AA01, w1 := 1 + (2 <<< 17) + (3 <<< 51), w2 := 3, w3 := 1 }]).modCore 2 fun k => { k with sums := [List.replicate 16 3, []] }
    s.engReady c 1 = true ∧ (s.core c).vecSum = none ∧ s.headWord c 1 = some e ∧ e.vec.fail = none ∧ (e.vec.len = 0 ∨ e.vec.rows = 0) ∧
      e.vec.summary = 3 ∧ n = ((s.core c).sums.getD 0 []).length ∧ 16 ≤ n ∧ v = 0 :=
  by decide +kernel
theorem meets_vectorAndMoverWords_11 :
    let c : CoreId := 0
    let e : EWord := { fillWord with w0 := (150 <<< 24) + 0x7F02, w2 := 0xFFFF100000000104 }
    let f : Nat := 0
    let n : Nat := 0
    let off : Nat := 0x104
    let p : Nat := 3
    let s : State := img.setQueue 0 3 [{ fillWord with w0 := (150 <<< 24) + 0x7F02, w2 := 0xFFFF100000000104 }]
    s.engReady c 3 = true ∧ (s.mov c).word = none ∧ s.headWord c 3 = some e ∧ s.movFail c e.mov = none ∧ e.mov.opc = 2 ∧ 0 < e.mov.len ∧
      e.mov.dst % 64 + e.mov.len ≤ 64 * p ∧ e.mov.arr = 0x7F ∧ s.replies = [] ∧ s.inFlight (.engine c 4 2) = false ∧ off % 64 =
      e.mov.dst % 64 ∧ (∀ i, i < e.mov.len → s.resolveCore c 1 (e.mov.dst + i) false = .here f (.pantry n (off + i)) ∧ isCtrOff (off +
      i) = false ∧ isRescueOff (off + i) = false ∧ s.isPoison (pantryKey n (off + i) / 64) = false) ∧ s.placeFenced f (.pantry n off)
      = false :=
  by decide +kernel
theorem meets_vectorAndMoverWords_12 :
    let c : CoreId := 0
    let e : EWord := { fillWord with w0 := (8 <<< 24) + 0x0502 }
    let f : Nat := 0
    let n : Nat := 0
    let off : Nat := 0x100
    let s : State := img.setQueue 0 3 [{ fillWord with w0 := (8 <<< 24) + 0x0502 }]
    s.engReady c 3 = true ∧ (s.mov c).word = none ∧ s.headWord c 3 = some e ∧ s.movFail c e.mov = none ∧ e.mov.opc = 2 ∧ 0 < e.mov.len ∧
      e.mov.dst % 64 + e.mov.len ≤ 64 ∧ e.mov.arr < 64 ∧ s.replies = [] ∧ s.inFlight (.engine c 4 2) = false ∧ s.resolveCore c 1
      e.mov.dst false = .here f (.pantry n off) ∧ s.placeFenced f (.pantry n off) = false ∧ isCtrOff off = false ∧ isRescueOff off =
      false ∧ s.isPoison (pantryKey n off / 64) = false ∧ nhas s.ctrPoison (ctrKey n e.mov.arr) = false :=
  by decide +kernel
theorem meets_l2SlicesServeTheirLines_1 :
    let ch : ChanId := 3
    let ln : Nat := 7
    let off : Nat := 8
    let len : Nat := 8
    let w : L2Line := heldLine
    let s : State := heldState
    s.chanAnswer ch = none ∧ off + len ≤ 64 ∧ off < 64 ∧ s.l2Find ch ln = some w ∧ w.valid.land (maskOf off len) = maskOf off len :=
  by decide +kernel
theorem meets_l2SlicesServeTheirLines_2 :
    let ch : ChanId := 3
    let ln : Nat := 9
    let off : Nat := 0
    let len : Nat := 4
    let s : State := heldState
    s.chanAnswer ch = none ∧ off + len ≤ 64 ∧ off < 64 ∧ s.l2Find ch ln = none ∧ (s.l2Set ch ln).length < 16 :=
  by decide +kernel
theorem meets_l2SlicesServeTheirLines_3 :
    let ch : ChanId := 3
    let off : Nat := 0
    let len : Nat := 4
    let r : Answer := .poisoned
    let s : State := heldState.fset Fd.hbmStatus_STATE 3 3
    off + len ≤ 64 ∧ off < 64 ∧ s.chanAnswer ch = some r :=
  by decide +kernel
theorem meets_l2SlicesServeTheirLines_4 :
    let ch : ChanId := 3
    let ln : Nat := 7
    let off : Nat := 60
    let data : Bytes := [9, 8]
    let w : L2Line := heldLine
    let s : State := heldState
    s.chanAnswer ch = none ∧ 0 < data.length ∧ off < 64 ∧ off + data.length ≤ 64 ∧ s.l2Find ch ln = some w :=
  by decide +kernel
theorem meets_l2SlicesServeTheirLines_5 :
    let ch : ChanId := 3
    let ln : Nat := 7
    let off : Nat := 8
    let n : Nat := 4
    let w : L2Line := heldLine
    let s : State := heldState
    s.chanAnswer ch = none ∧ (n = 4 ∨ n = 8) ∧ off % n = 0 ∧ off < 64 ∧ s.l2Find ch ln = some w ∧ w.valid = fullMask ∧ w.poison = false :=
  by decide +kernel
theorem meets_l2SlicesServeTheirLines_6 :
    let ch : ChanId := 3
    let ln : Nat := 9
    let off : Nat := 62
    let data : Bytes := [9, 8]
    let s : State := heldState
    s.chanAnswer ch = none ∧ 0 < data.length ∧ off < 64 ∧ off + data.length ≤ 64 ∧ s.l2Find ch ln = none ∧ (s.l2Set ch ln).length < 16 :=
  by decide +kernel
theorem meets_l2SlicesServeTheirLines_7 :
    let ch : ChanId := 3
    let off : Nat := 62
    let r : Answer := .fenced
    let s : State := heldState.fset Fd.hbmStatus_STATE 2 3
    s.chanAnswer ch = some r ∧ off < 64 :=
  by decide +kernel
theorem meets_l2SlicesServeTheirLines_8 :
    let ch : ChanId := 3
    let ln : Nat := 7
    let off : Nat := 4
    let len : Nat := 8
    let w : L2Line := partLine
    let s : State := heldState.l2Touch 3 partLine
    s.chanAnswer ch = none ∧ off + len ≤ 64 ∧ off < 64 ∧ s.l2Find ch ln = some w ∧ w.valid.land (maskOf off len) ≠ maskOf off len :=
  by decide +kernel
theorem meets_l2SlicesServeTheirLines_9 :
    let ch : ChanId := 3
    let ln : Nat := 9
    let off : Nat := 56
    let n : Nat := 8
    let s : State := heldState
    s.chanAnswer ch = none ∧ (n = 4 ∨ n = 8) ∧ off % n = 0 ∧ off < 64 ∧ s.l2Find ch ln = none ∧ (s.l2Set ch ln).length < 16 ∧ s.isPoison
      (hbmKey ch ln / 64) = false :=
  by decide +kernel
theorem meets_l2SlicesServeTheirLines_10 :
    let ch : ChanId := 3
    let ln : Nat := 7
    let off : Nat := 60
    let n : Nat := 4
    let w : L2Line := { heldLine with poison := true }
    let s : State := heldState.l2Touch 3 { heldLine with poison := true }
    s.chanAnswer ch = none ∧ (n = 4 ∨ n = 8) ∧ off % n = 0 ∧ off < 64 ∧ s.l2Find ch ln = some w ∧ w.valid = fullMask ∧ w.poison = true :=
  by decide +kernel
theorem meets_l2SlicesServeTheirLines_11 :
    let ch : ChanId := 3
    let ln : Nat := 9
    let off : Nat := 0
    let len : Nat := 64
    let v : L2Line := { heldLine with q := 9 + 0x10000 }
    let s : State := heldState.l2Put 3 9 ((List.range 15).map (fun i => { heldLine with q := 9 + 0x100000 * (i + 1) }) ++ [{ heldLine with q := 9 + 0x10000 }])
    s.chanAnswer ch = none ∧ off + len ≤ 64 ∧ off < 64 ∧ s.l2Find ch ln = none ∧ (s.l2Set ch ln).length = 16 ∧ (s.l2Set ch ln).getLast? =
      some v ∧ v.pin = none ∧ v.valid = fullMask ∧ v.dirty ≠ 0 ∧ v.data.length = 64 ∧ v.q ≠ ln :=
  by decide +kernel
theorem meets_l2SlicesServeTheirLines_12 :
    let ch : ChanId := 3
    let ln : Nat := 7
    let off : Nat := 8
    let len : Nat := 8
    let w : L2Line := heldLine
    let s : State := heldState
    s.chanAnswer ch = none ∧ off + len ≤ 64 ∧ off < 64 ∧ s.l2Find ch ln = some w ∧ w.valid.land (maskOf off len) = maskOf off len ∧
      w.poison = false :=
  by decide +kernel
theorem meets_l2SlicesServeTheirLines_13 :
    let ch : ChanId := 3
    let ln : Nat := 7
    let off : Nat := 8
    let len : Nat := 8
    let w : L2Line := heldLine
    let s : State := heldState
    s.chanAnswer ch = none ∧ off + len ≤ 64 ∧ off < 64 ∧ s.l2Find ch ln = some w ∧ w.valid.land (maskOf off len) = maskOf off len ∧ Quiet
      (chanDie ch) 0x10 s :=
  by decide +kernel
theorem meets_hbmReadsPatrolAndPins_1 :
    let ch : ChanId := 3
    let ln : Nat := 9
    let o : HbmDecode := .clean
    let s : State := heldState.fset Fd.hbmStatus_STATE 1 3
    s.chanState ch = 1 ∧ s.l2Find ch ln = none ∧ (s.l2Set ch ln).length < 16 ∧ (o = .clean ∨ o = .corrected) :=
  by decide +kernel
theorem meets_hbmReadsPatrolAndPins_2 :
    let ch : ChanId := 3
    let ln : Nat := 7
    let w : L2Line := partLine
    let s : State := heldState.l2Touch 3 partLine |>.fset Fd.hbmStatus_STATE 1 3
    s.chanState ch = 1 ∧ s.l2Find ch ln = some w ∧ w.dirty ≠ 0 ∧ w.data.length = 64 :=
  by decide +kernel
theorem meets_hbmReadsPatrolAndPins_3 :
    let ch : ChanId := 3
    let ln : Nat := 9
    let s : State := heldState.fset Fd.hbmStatus_STATE 1 3
    s.chanState ch = 1 ∧ s.l2Find ch ln = none ∧ (s.l2Set ch ln).length < 16 ∧ Quiet (chanDie ch) 0x11 s :=
  by decide +kernel
theorem meets_hbmReadsPatrolAndPins_4 :
    let ch : ChanId := 3
    let ln : Nat := 7
    let w : L2Line := heldLine
    let s : State := heldState
    bit s.devSec.policyFlags 0 = true ∧ s.l2Find ch ln = some w :=
  by decide +kernel
theorem meets_hbmReadsPatrolAndPins_5 :
    let ch : ChanId := 3
    let s : State := heldState.fset Fd.hbmStatus_STATE 1 3
    bit s.devSec.policyFlags 1 = true ∧ s.chanState ch = 1 ∧ s.l2Find ch (s.fget Fd.hbmPatrol_NEXT_LINE ch) = none ∧ s.fget
      Fd.hbmPatrol_NEXT_LINE ch + 1 < Config.channelLines :=
  by decide +kernel
theorem meets_hbmReadsPatrolAndPins_7 :
    let src : Source := .host
    let f : FoldId := 0
    let s : State := img.setReg .pinLen 0x4800000040
    s.shut src = false ∧ s.fget Fd.pinStatus_BUSY f = 0 ∧ f.val < s.foldSecs.length ∧ (s.foldSec f).noPin = false ∧ (s.fget
      Fd.pinBase_ADDR f + s.reg .pinLen f > s.regionBase f + s.regionSize f) :=
  by decide +kernel
theorem meets_hbmReadsPatrolAndPins_8 :
    let src : Source := .host
    let f : FoldId := 0
    let ch : Nat := 0
    let ln : Nat := 0
    let s : State := pinState
    s.shut src = false ∧ s.fget Fd.pinStatus_BUSY f = 0 ∧ f.val < s.foldSecs.length ∧ s.pinCheck f (s.fget Fd.pinBase_ADDR f) (s.reg
      .pinLen f) = none ∧ s.pinRange (s.fget Fd.pinBase_ADDR f) (s.reg .pinLen f) = [(ch, ln)] ∧ s.pinnedBy f (ch, ln) = false ∧
      s.chanAnswer ch = none ∧ ((s.l2Set ch ln).filter fun w => w.pin.isSome).length < s.devSec.pinCap ∧ 64 * (s.pinnedLines f + 1) ≤
      1024 * (s.foldSec f).pinKib :=
  by decide +kernel
theorem meets_hbmReadsPatrolAndPins_9 :
    let src : Source := .host
    let f : FoldId := 0
    let s : State := heldState
    s.shut src = false ∧ s.fget Fd.pinStatus_BUSY f = 0 ∧ f.val < s.foldSecs.length :=
  by decide +kernel
theorem meets_hbmReadsPatrolAndPins_10 :
    let src : Source := .host
    let f : FoldId := 0
    let ch : Nat := 0
    let ln : Nat := 0
    let w : L2Line := pinLine0
    let s : State := pinState.l2Touch 0 pinLine0
    s.shut src = false ∧ s.fget Fd.pinStatus_BUSY f = 0 ∧ f.val < s.foldSecs.length ∧ s.pinCheck f (s.fget Fd.pinBase_ADDR f) (s.reg
      .pinLen f) = none ∧ s.pinRange (s.fget Fd.pinBase_ADDR f) (s.reg .pinLen f) = [(ch, ln)] ∧ s.l2Find ch ln = some w ∧ w.pin =
      some f.val :=
  by decide +kernel
theorem meets_hbmReadsPatrolAndPins_11 :
    let f : FoldId := 0
    let pr : PinRun := ⟨1, 5⟩
    let s : State := { img with pins := [(0, ⟨1, 5⟩)] }
    nfind s.pins f.val = some pr ∧ pr.result < 8 ∧ pr.refused < 2 ^ 32 :=
  by decide +kernel
theorem meets_hbmReadsPatrolAndPins_12 :
    let ch : ChanId := 3
    let ln : Nat := 9
    let d : Bytes := List.replicate 64 7
    let s : State := heldState.fset Fd.hbmStatus_STATE 1 3
    s.chanState ch = 1 ∧ s.l2Find ch ln = none ∧ (s.l2Set ch ln).length < 16 ∧ d.length = 64 :=
  by decide +kernel
theorem meets_hbmReadsPatrolAndPins_13 :
    let ch : ChanId := 3
    let ln : Nat := 9
    let s : State := heldState.fset Fd.hbmStatus_STATE 1 3
    s.chanState ch = 1 ∧ s.l2Find ch ln = none ∧ (s.l2Set ch ln).length < 16 :=
  by decide +kernel
theorem meets_hbmReadsPatrolAndPins_14 :
    let ch : ChanId := 3
    let s : State := heldState.fset Fd.hbmStatus_STATE 1 3
    s.chanState ch = 1 ∧ Quiet (chanDie ch) 0x12 s :=
  by decide +kernel
theorem meets_hbmReadsPatrolAndPins_15 :
    let ch : ChanId := 3
    let ln : Nat := 7
    let w : L2Line := heldLine
    let s : State := heldState
    bit s.devSec.policyFlags 0 = true ∧ s.l2Find ch ln = some w ∧ Quiet (chanDie ch) 0x10 s :=
  by decide +kernel
theorem meets_hbmReadsPatrolAndPins_16 :
    let ch : ChanId := 3
    let s : State := heldState.fset Fd.hbmStatus_STATE 1 3
    bit s.devSec.policyFlags 1 = true ∧ s.chanState ch = 1 ∧ s.l2Find ch (s.fget Fd.hbmPatrol_NEXT_LINE ch) = none ∧ s.fget
      Fd.hbmPatrol_NEXT_LINE ch + 1 < Config.channelLines :=
  by decide +kernel
theorem meets_hbmReadsPatrolAndPins_17 :
    let ch : ChanId := 3
    let ecs : Nat := 9
    let s : State := (heldState.fset Fd.hbmStatus_STATE 1 3).fset Fd.hbmPatrol_NEXT_LINE (Config.channelLines - 1) 3
    bit s.devSec.policyFlags 1 = true ∧ s.chanState ch = 1 ∧ s.l2Find ch (s.fget Fd.hbmPatrol_NEXT_LINE ch) = none ∧ s.fget
      Fd.hbmPatrol_NEXT_LINE ch + 1 = Config.channelLines ∧ ecs < 65536 :=
  by decide +kernel
theorem meets_hbmReadsPatrolAndPins_18 :
    let ch : ChanId := 3
    let ln : Nat := 11
    let s : State := (heldState.fset Fd.hbmStatus_STATE 1 3).fset Fd.hbmPatrol_NEXT_LINE 11 3
    bit s.devSec.policyFlags 1 = true ∧ s.chanState ch = 1 ∧ ln = s.fget Fd.hbmPatrol_NEXT_LINE ch ∧ s.l2Find ch ln = none ∧ ln + 1 <
      Config.channelLines ∧ Quiet (chanDie ch) 0x11 s :=
  by decide +kernel
theorem meets_hbmReadsPatrolAndPins_19 :
    let src : Source := .host
    let f : FoldId := 0
    let s : State := { img with life := { img.life with image := some { oneFold with folds := [{ cores := 1, channels := 2 ^ 256 - 1, pinKib := 1, noPin := true }] } } }
    s.shut src = false ∧ s.fget Fd.pinStatus_BUSY f = 0 ∧ f.val < s.foldSecs.length ∧ (s.foldSec f).noPin = true :=
  by decide +kernel
theorem meets_hbmReadsPatrolAndPins_20 :
    let src : Source := .host
    let f : FoldId := 0
    let s : State := pinState.setReg .pinLen 1088
    s.shut src = false ∧ s.fget Fd.pinStatus_BUSY f = 0 ∧ f.val < s.foldSecs.length ∧ s.pinCheck f (s.fget Fd.pinBase_ADDR f) (s.reg
      .pinLen f) = none ∧ s.reg .pinLen f ≠ 0 ∧ 1024 * (s.foldSec f).pinKib < 64 * (s.pinnedLines f + ((s.pinRange (s.fget
      Fd.pinBase_ADDR f) (s.reg .pinLen f)).filter fun p => !s.pinnedBy f p).length) :=
  by decide +kernel
theorem meets_hbmReadsPatrolAndPins_21 :
    let src : Source := .host
    let f : FoldId := 0
    let ch : Nat := 0
    let ln : Nat := 0
    let s : State := { pinState with life := { pinState.life with image := some { oneFold with folds := [{ cores := 1, channels := 2 ^ 256 - 1, pinKib := 1 }], dev := { oneFold.dev with pinCap := 0 } } } }
    s.shut src = false ∧ s.fget Fd.pinStatus_BUSY f = 0 ∧ f.val < s.foldSecs.length ∧ s.pinCheck f (s.fget Fd.pinBase_ADDR f) (s.reg
      .pinLen f) = none ∧ s.pinRange (s.fget Fd.pinBase_ADDR f) (s.reg .pinLen f) = [(ch, ln)] ∧ s.pinnedBy f (ch, ln) = false ∧
      s.chanAnswer ch = none ∧ s.devSec.pinCap ≤ ((s.l2Set ch ln).filter fun w => w.pin.isSome).length ∧ 64 * (s.pinnedLines f + 1) ≤
      1024 * (s.foldSec f).pinKib :=
  by decide +kernel
theorem meets_hbmReadsPatrolAndPins_22 :
    let f : FoldId := 0
    let i : Instr := .unpin .host 0
    let s : State := pinState.fset Fd.pinStatus_BUSY 1
    s.shut .host = false ∧ (s.fget Fd.pinStatus_BUSY f = 1 ∨ s.foldSecs.length ≤ f.val) ∧ i ∈ [Instr.pin .host f, .unpin .host f,
      .unpinAll .host f] :=
  by decide +kernel
theorem meets_hbmReadsPatrolAndPins_23 :
    let ch : ChanId := 3
    let i : Instr := .hbmPatrolRead 3 0 .clean
    let s : State := heldState.fset Fd.hbmStatus_STATE 4 3
    (i ∈ [Instr.hbmReadComplete ch 0 false 0 false .clean, .hbmReadComplete ch 0 true 2 true .detected, .hbmPatrolRead ch 0 .clean] ∧
      s.chanState ch ≠ 1 ∨ i = .l2ScrubRead ch 0 .single ∧ bit s.devSec.policyFlags 0 = false) :=
  by decide +kernel
theorem meets_whiskLaneInstructions_1 :
    let c : CoreId := 0
    let sl : SlotId := 0
    let w : Word := wi 1 0 (3 <<< 42 ||| 1 <<< 36 ||| 2 <<< 30)
    let g : WGroup := grp
    let s : State := whiskState
    GroupReady s c sl g ∧ wClass w = .int :=
  by decide +kernel
theorem meets_whiskLaneInstructions_2 :
    let c : CoreId := 0
    let sl : SlotId := 0
    let w : Word := wi 4 0 (3 <<< 42 ||| 1 <<< 36 ||| 2 <<< 30)
    let g : WGroup := grp
    let s : State := whiskState
    GroupReady s c sl g ∧ wClass w = .float :=
  by decide +kernel
theorem meets_whiskLaneInstructions_3 :
    let c : CoreId := 0
    let sl : SlotId := 0
    let w : Word := wi 7 9 (3 <<< 42 ||| 1 <<< 36 ||| 1 <<< 30)
    let g : WGroup := grp
    let s : State := whiskState
    GroupReady s c sl g ∧ wClass w = .cvt :=
  by decide +kernel
theorem meets_whiskLaneInstructions_4 :
    let c : CoreId := 0
    let sl : SlotId := 0
    let w : Word := wi 16 2 (2 <<< 45 ||| 2 <<< 36 ||| 1 <<< 30)
    let g : WGroup := grp
    let s : State := whiskState
    GroupReady s c sl g ∧ wClass w = .tst :=
  by decide +kernel
theorem meets_whiskLaneInstructions_5 :
    let c : CoreId := 0
    let sl : SlotId := 0
    let w : Word := wi 17 3 (2 <<< 45 ||| 1 <<< 27 ||| 3 <<< 42)
    let g : WGroup := grp
    let s : State := whiskState
    GroupReady s c sl g ∧ wClass w = .pred :=
  by decide +kernel
theorem meets_whiskLaneInstructions_6 :
    let c : CoreId := 0
    let sl : SlotId := 0
    let w : Word := wi 18 0 (3 <<< 42 ||| 1 <<< 36 ||| 2 <<< 30 ||| 1 <<< 24)
    let g : WGroup := grp
    let s : State := whiskState
    GroupReady s c sl g ∧ wClass w = .sel :=
  by decide +kernel
theorem meets_whiskLaneInstructions_7 :
    let c : CoreId := 0
    let sl : SlotId := 0
    let w : Word := wi 20 4 (3 <<< 42 ||| 1 <<< 24)
    let g : WGroup := grp
    let s : State := whiskState
    GroupReady s c sl g ∧ wClass w = .lane :=
  by decide +kernel
theorem meets_whiskLaneInstructions_8 :
    let c : CoreId := 0
    let sl : SlotId := 0
    let w : Word := wi 1 0 (3 <<< 42 ||| 1 <<< 36 ||| 2 <<< 30)
    let g : WGroup := grp
    let e : Nat × Bytes := (4, leBytes 8 (wi 1 0 (3 <<< 42 ||| 1 <<< 36 ||| 2 <<< 30)).toNat)
    let i : Instr := .whiskIntegerOp 0 0 none .none
    let j : Instr := .whiskIntegerOp 0 0 (some (wi 1 0 (3 <<< 42 ||| 1 <<< 36 ||| 2 <<< 30))) .none
    let s : State := whiskState.modWhisk 0 fun w => { w with icache := [(4, leBytes 8 (wi 1 0 (3 <<< 42 ||| 1 <<< 36 ||| 2 <<< 30)).toNat)] }
    nfind (s.whisk c).groups sl.val = some g ∧ g.pc.toNat % 8 = 0 ∧ (s.whisk c).icache.find? (fun x => x.1 == g.pc.toNat / 64) = some e ∧
      w = BitVec.ofNat 64 (leNat ((e.2.drop (g.pc.toNat % 64)).take 8)) ∧ (i, j) ∈ [(Instr.whiskIntegerOp c sl none .none,
      Instr.whiskIntegerOp c sl (some w) .none), (.whiskFloatOp c sl none .none, .whiskFloatOp c sl (some w) .none), (.whiskCvt c sl
      none .none, .whiskCvt c sl (some w) .none), (.tst c sl none .none, .tst c sl (some w) .none), (.predicateOp c sl none .none,
      .predicateOp c sl (some w) .none), (.whiskSel c sl none .none, .whiskSel c sl (some w) .none), (.laneInformation c sl none
      .none, .laneInformation c sl (some w) .none), (.whiskLoad c sl none .none, .whiskLoad c sl (some w) .none), (.whiskStore c sl
      none .none, .whiskStore c sl (some w) .none), (.whiskAtomic c sl none .none, .whiskAtomic c sl (some w) .none), (.whiskJump c sl
      none .none, .whiskJump c sl (some w) .none), (.jr c sl none .none, .jr c sl (some w) .none), (.meetBarrier c sl none .none,
      .meetBarrier c sl (some w) .none), (.markBarrier c sl none .none, .markBarrier c sl (some w) .none), (.awaitBarrier c sl none
      .none, .awaitBarrier c sl (some w) .none), (.whiskSummary c sl none .none, .whiskSummary c sl (some w) .none), (.whiskWaitAcq c
      sl none .none, .whiskWaitAcq c sl (some w) .none), (.whiskSignal c sl none .none, .whiskSignal c sl (some w) .none),
      (.whiskFence c sl none .none, .whiskFence c sl (some w) .none), (.whiskFlush c sl none .none, .whiskFlush c sl (some w) .none),
      (.groupExit c sl none .none, .groupExit c sl (some w) .none), (.brk c sl none .none, .brk c sl (some w) .none)] :=
  by decide +kernel
theorem meets_whiskLaneInstructions_9 :
    let c : CoreId := 0
    let sl : SlotId := 0
    let g : WGroup := grp
    let f : Option Word := none
    let fl : EngineFault := .residue
    let i : Instr := .tst 0 0 none .residue
    let s : State := whiskState
    nfind (s.whisk c).groups sl.val = some g ∧ s.groupReady c g = true ∧ (fl = .residue ∨ fl = .parity) ∧ Quiet (coreDie c) (if fl =
      .residue then 8 else 9) s ∧ i ∈ [Instr.whiskIntegerOp c sl f fl, .whiskFloatOp c sl f fl, .whiskLoad c sl f fl, .tst c sl f fl,
      .whiskJump c sl f fl] :=
  by decide +kernel
theorem meets_whiskMemoryInstructions_1 :
    let c : CoreId := 0
    let sl : SlotId := 0
    let w : Word := wi 24 1 (3 <<< 42 ||| 4 <<< 36)
    let g : WGroup := grp
    let l : Nat := 0
    let f : Nat := 0
    let off : Nat := 0x1000
    let s : State := whiskState.put (pantryKey 0 0x1000) [1, 0x80, 3, 4, 5, 6, 7, 8]
    GroupReady s c sl g ∧ wClass w = .load ∧ g.guard w = [l] ∧ g.ea w l % wSize w = 0 ∧ s.replies = [] ∧ s.inFlight (.engine c 3 (64 *
      sl.val + l)) = false ∧ s.resolveCore c 0 (g.ea w l) false = .here f (.pantry c off) ∧ s.placeFenced f (.pantry c off) = false ∧
      s.pantryPoison c off (wSize w) = false :=
  by decide +kernel
theorem meets_whiskMemoryInstructions_2 :
    let c : CoreId := 0
    let sl : SlotId := 0
    let w : Word := wi 25 2 (4 <<< 36 ||| 1 <<< 30 ||| 4)
    let g : WGroup := grp
    let l : Nat := 0
    let f : Nat := 0
    let off : Nat := 0x1004
    let o : Nat := 0x1000
    let s : State := whiskState
    GroupReady s c sl g ∧ wClass w = .store ∧ g.guard w = [l] ∧ g.ea w l % wSize w = 0 ∧ s.replies = [] ∧ s.inFlight (.engine c 3 (64 *
      sl.val + l)) = false ∧ s.resolveCore c 1 (g.ea w l) false = .here f (.pantry c off) ∧ s.resolveCore c 1 (g.ea w l / 64 * 64)
      false = .here f (.pantry c o) ∧ s.placeFenced f (.pantry c off) = false ∧ isCtrOff off = false ∧ isRescueOff off = false ∧
      s.isPoison (pantryKey c off / 64) = false :=
  by decide +kernel
theorem meets_whiskMemoryInstructions_3 :
    let c : CoreId := 0
    let sl : SlotId := 0
    let w : Word := wi 26 0 (3 <<< 42 ||| 4 <<< 36 ||| 1 <<< 30)
    let g : WGroup := grp
    let l : Nat := 0
    let f : Nat := 0
    let off : Nat := 0x1000
    let s : State := whiskState.put (pantryKey 0 0x1000) [1, 2]
    GroupReady s c sl g ∧ wClass w = .atomic ∧ g.guard w = [l] ∧ g.ea w l % 4 = 0 ∧ s.replies = [] ∧ s.inFlight (.engine c 3 (64 * sl.val
      + l)) = false ∧ s.resolveCore c 3 (g.ea w l) false = .here f (.pantry c off) ∧ s.placeFenced f (.pantry c off) = false ∧
      isCtrOff off = false ∧ isRescueOff off = false ∧ s.isPoison (pantryKey c off / 64) = false :=
  by decide +kernel
theorem meets_whiskMemoryInstructions_4 :
    let c : CoreId := 0
    let sl : SlotId := 0
    let w : Word := wg 42 0 (4 <<< 42 ||| 2 <<< 36 ||| 1 <<< 33)
    let g : WGroup := { grp with t := [(64, 3), (128, 0xFC08), (160, 0xFFFF1000)] }
    let l : Nat := 0
    let k : Nat := 1
    let s : State := { (whiskState.modGroup 0 0 fun g => { g with t := [(64, 3), (128, 0xFC08), (160, 0xFFFF1000)] }) with arr := [(1, 3)] }
    GroupReady s c sl g ∧ wClass w = .acq ∧ g.chosen (wPqG w) = some l ∧ s.ownCounter c (g.pair (wRd w) l) = some k ∧ nhas s.ctrPoison k =
      false ∧ nfind s.waiters (slotWaiter c sl) = none ∧ g.reg (wRa w) l ≤ s.ctr k :=
  by decide +kernel
theorem meets_whiskMemoryInstructions_5 :
    let c : CoreId := 0
    let sl : SlotId := 0
    let w : Word := wg 42 1 (4 <<< 42 ||| 2 <<< 36 ||| 1 <<< 33)
    let g : WGroup := { grp with t := [(64, 3), (128, 0xFC08), (160, 0xFFFF1000)] }
    let l : Nat := 0
    let k : Nat := 1
    let f : Nat := 0
    let n : Nat := 1
    let off : Nat := 0xFC08
    let s : State := (whiskState.modGroup 0 0 fun g => { g with t := [(64, 3), (128, 0xFC08), (160, 0xFFFF1000)] })
    GroupReady s c sl g ∧ wClass w = .signal ∧ g.chosen (wPqG w) = some l ∧ (s.whisk c).l1 = [] ∧ g.pair (wRd w) l % 8 = 0 ∧ s.replies =
      [] ∧ s.inFlight (.engine c 3 (64 * sl.val + l)) = false ∧ s.resolveCore c 2 (g.pair (wRd w) l) false = .here f (.pantry c off) ∧
      s.placeFenced f (.pantry c off) = false ∧ ctrOfOff off = some n ∧ k = ctrKey c n ∧ nhas s.ctrPoison k = false :=
  by decide +kernel
theorem meets_whiskMemoryInstructions_6 :
    let c : CoreId := 0
    let sl : SlotId := 0
    let w : Word := wg 42 2 0
    let g : WGroup := grp
    let s : State := whiskState
    GroupReady s c sl g ∧ wClass w = .fence :=
  by decide +kernel
theorem meets_whiskMemoryInstructions_7 :
    let c : CoreId := 0
    let sl : SlotId := 0
    let w : Word := wg 42 3 0
    let g : WGroup := grp
    let s : State := whiskState.modWhisk 0 fun w => { w with l1 := [⟨67108864 * 1024 * 4 + 32768 + 1, 0, 15, 15, [1, 2, 3, 4]⟩] }
    GroupReady s c sl g ∧ wClass w = .flush :=
  by decide +kernel
theorem meets_whiskMemoryInstructions_8 :
    let c : CoreId := 0
    let sl : SlotId := 0
    let w : Word := wi 24 1 (3 <<< 42 ||| 4 <<< 36)
    let g : WGroup := grpTwo 0x1042
    let f : Nat := 0
    let b : Nat := 0xFFFF100000000000
    let s : State := (whiskState.modGroup 0 0 fun _ => grpTwo 0x1042).put (pantryKey 0 0x1000) (List.replicate 80 0x81)
    GroupReady s c sl g ∧ wClass w = .load ∧ (∀ l ∈ g.guard w, g.ea w l % wSize w = 0) ∧ s.replies = [] ∧ (∀ l ∈ g.guard w, s.inFlight
      (.engine c 3 (64 * sl.val + l)) = false) ∧ b = 0xFFFF000000000000 + Config.pantryBase + Config.pantryBytes * c.val ∧
      s.foldOfCore c = some f ∧ (∀ l ∈ g.guard w, s.norm (g.ea w l) / Config.pantryBytes = b / Config.pantryBytes) ∧ s.placeFenced f
      (.pantry c 0) = false ∧ (∀ l ∈ g.guard w, s.pantryPoison c (g.ea w l % Config.pantryBytes / 64 * 64) 64 = false) :=
  by decide +kernel
theorem meets_whiskMemoryInstructions_9 :
    let c : CoreId := 0
    let sl : SlotId := 0
    let w : Word := wi 25 2 (4 <<< 36 ||| 1 <<< 30 ||| 4)
    let g : WGroup := grpTwo 0x1000
    let f : Nat := 0
    let b : Nat := 0xFFFF100000000000
    let s : State := whiskState.modGroup 0 0 fun _ => grpTwo 0x1000
    GroupReady s c sl g ∧ wClass w = .store ∧ (∀ l ∈ g.guard w, g.ea w l % wSize w = 0) ∧ s.replies = [] ∧ (∀ l ∈ g.guard w, s.inFlight
      (.engine c 3 (64 * sl.val + l)) = false) ∧ b = 0xFFFF000000000000 + Config.pantryBase + Config.pantryBytes * c.val ∧
      s.foldOfCore c = some f ∧ (∀ l ∈ g.guard w, s.norm (g.ea w l) / Config.pantryBytes = b / Config.pantryBytes) ∧ s.placeFenced f
      (.pantry c 0) = false ∧ (∀ l ∈ g.guard w, isCtrOff (g.ea w l % Config.pantryBytes) = false ∧ isRescueOff (g.ea w l %
      Config.pantryBytes) = false ∧ s.isPoison (pantryKey c (g.ea w l % Config.pantryBytes) / 64) = false) :=
  by decide +kernel
theorem meets_whiskMemoryInstructions_10 :
    let c : CoreId := 0
    let sl : SlotId := 0
    let w : Word := wi 26 0 (3 <<< 42 ||| 4 <<< 36 ||| 1 <<< 30)
    let g : WGroup := grpTwo 0x1000
    let f : Nat := 0
    let b : Nat := 0xFFFF100000000000
    let s : State := (whiskState.modGroup 0 0 fun _ => grpTwo 0x1000).put (pantryKey 0 0x1000) [1, 2]
    GroupReady s c sl g ∧ wClass w = .atomic ∧ (∀ l ∈ g.guard w, g.ea w l % 4 = 0) ∧ s.replies = [] ∧ (∀ l ∈ g.guard w, s.inFlight
      (.engine c 3 (64 * sl.val + l)) = false) ∧ b = 0xFFFF000000000000 + Config.pantryBase + Config.pantryBytes * c.val ∧
      s.foldOfCore c = some f ∧ (∀ l ∈ g.guard w, s.norm (g.ea w l) / Config.pantryBytes = b / Config.pantryBytes) ∧ s.placeFenced f
      (.pantry c 0) = false ∧ (∀ l ∈ g.guard w, isCtrOff (g.ea w l % Config.pantryBytes) = false ∧ isRescueOff (g.ea w l %
      Config.pantryBytes) = false ∧ s.isPoison (pantryKey c (g.ea w l % Config.pantryBytes) / 64) = false) :=
  by decide +kernel
theorem meets_whiskMemoryInstructions_11 :
    let c : CoreId := 0
    let sl : SlotId := 0
    let w : Word := wi 24 2 (3 <<< 42 ||| 4 <<< 36 ||| 1)
    let g : WGroup := grp
    let l : Nat := 0
    let n : Nat := 4
    let i : Instr := .whiskLoad 0 0 (some (wi 24 2 (3 <<< 42 ||| 4 <<< 36 ||| 1))) .none
    let s : State := whiskState
    GroupReady s c sl g ∧ ((wClass w, i, n) ∈ [(WClass.load, Instr.whiskLoad c sl (some w) .none, wSize w), (.store, .whiskStore c sl
      (some w) .none, wSize w), (.atomic, .whiskAtomic c sl (some w) .none, 4)]) ∧ l ∈ g.guard w ∧ g.ea w l % n ≠ 0 :=
  by decide +kernel
theorem meets_whiskMemoryInstructions_12 :
    let c : CoreId := 0
    let sl : SlotId := 0
    let w : Word := wi 24 1 (3 <<< 42 ||| 4 <<< 36)
    let g : WGroup := grp
    let l : Nat := 0
    let f : Nat := 0
    let off : Nat := 0x1000
    let s : State := whiskState.setPoison (pantryKey 0 0x1000 / 64) true
    GroupReady s c sl g ∧ wClass w = .load ∧ g.guard w = [l] ∧ g.ea w l % wSize w = 0 ∧ s.replies = [] ∧ s.inFlight (.engine c 3 (64 *
      sl.val + l)) = false ∧ s.resolveCore c 0 (g.ea w l) false = .here f (.pantry c off) ∧ s.placeFenced f (.pantry c off) = false ∧
      s.pantryPoison c off (wSize w) = true :=
  by decide +kernel
theorem meets_whiskMemoryInstructions_13 :
    let c : CoreId := 0
    let sl : SlotId := 0
    let w : Word := wg 42 0 (4 <<< 42 ||| 2 <<< 36 ||| 1 <<< 33)
    let g : WGroup := { grp with t := [(64, 3), (128, 0xFC08), (160, 0xFFFF1000)] }
    let l : Nat := 0
    let k : Nat := 1
    let s : State := whiskState.modGroup 0 0 fun g => { g with t := [(64, 3), (128, 0xFC08), (160, 0xFFFF1000)] }
    GroupReady s c sl g ∧ wClass w = .acq ∧ g.chosen (wPqG w) = some l ∧ s.ownCounter c (g.pair (wRd w) l) = some k ∧ nhas s.ctrPoison k =
      false ∧ nfind s.waiters (slotWaiter c sl) = none ∧ s.ctr k < g.reg (wRa w) l :=
  by decide +kernel
theorem meets_whiskMemoryInstructions_14 :
    let c : CoreId := 0
    let sl : SlotId := 0
    let w : Word := wg 42 1 (4 <<< 42 ||| 2 <<< 36 ||| 3 <<< 33)
    let g : WGroup := grp
    let i : Instr := .whiskSignal 0 0 (some (wg 42 1 (4 <<< 42 ||| 2 <<< 36 ||| 3 <<< 33))) .none
    let s : State := whiskState
    GroupReady s c sl g ∧ g.chosen (wPqG w) = none ∧ ((wClass w, i) ∈ [(WClass.acq, Instr.whiskWaitAcq c sl (some w) .none), (.signal,
      .whiskSignal c sl (some w) .none)]) :=
  by decide +kernel
theorem meets_whiskControlAndBarriers_1 :
    let c : CoreId := 0
    let sl : SlotId := 0
    let w : Word := wg 32 0 (1 <<< 45 ||| 1 <<< 43 ||| 0xFFFFFFFE)
    let g : WGroup := grp
    let s : State := whiskState
    GroupReady s c sl g ∧ wClass w = .jump :=
  by decide +kernel
theorem meets_whiskControlAndBarriers_2 :
    let c : CoreId := 0
    let sl : SlotId := 0
    let w : Word := wg 34 0 (4 <<< 42 ||| 1 <<< 33)
    let g : WGroup := grp
    let s : State := whiskState
    GroupReady s c sl g ∧ wClass w = .jr :=
  by decide +kernel
theorem meets_whiskControlAndBarriers_3 :
    let c : CoreId := 0
    let sl : SlotId := 0
    let w : Word := wg 41 1 (1 <<< 42 ||| 1 <<< 33)
    let g : WGroup := grp
    let s : State := whiskState
    GroupReady s c sl g ∧ wClass w = .sum ∧ ((s.core c).sums.getD 1 []).length < 16 :=
  by decide +kernel
theorem meets_whiskControlAndBarriers_4 :
    let c : CoreId := 0
    let sl : SlotId := 0
    let y : SlotId := 5
    let w : Word := wg 40 0 (3 <<< 30)
    let g : WGroup := grp
    let r : Crew := crewTwo
    let s : State := whiskState.modWhisk 0 fun w => { w with groups := [(0, grp), (5, grp)], crews := [(0, crewTwo)] }
    GroupReady s c sl g ∧ wClass w = .meet ∧ nfind (s.whisk c).crews g.crew = some r ∧ sl.val ∉ r.arrived.getD (wBx w) [] ∧ y ≠ sl ∧ y.val
      ∈ (s.whisk c).alive r ∧ y.val ∉ r.arrived.getD (wBx w) [] :=
  by decide +kernel
theorem meets_whiskControlAndBarriers_5 :
    let c : CoreId := 0
    let sl : SlotId := 0
    let w : Word := wg 40 0 (3 <<< 30)
    let g : WGroup := grp
    let r : Crew := crewOne
    let s : State := whiskState
    GroupReady s c sl g ∧ wClass w = .meet ∧ nfind (s.whisk c).crews g.crew = some r ∧ r.slots = [sl.val] ∧ r.arrived.getD (wBx w) [] = []
      ∧ r.arrived.length = 8 ∧ r.gens.length = 8 :=
  by decide +kernel
theorem meets_whiskControlAndBarriers_6 :
    let c : CoreId := 0
    let sl : SlotId := 0
    let y : SlotId := 5
    let w : Word := wg 40 1 (3 <<< 30)
    let g : WGroup := grp
    let r : Crew := crewTwo
    let s : State := whiskState.modWhisk 0 fun w => { w with groups := [(0, grp), (5, grp)], crews := [(0, crewTwo)] }
    GroupReady s c sl g ∧ wClass w = .mark ∧ nfind (s.whisk c).crews g.crew = some r ∧ sl.val ∉ r.arrived.getD (wBx w) [] ∧ y ≠ sl ∧ y.val
      ∈ (s.whisk c).alive r ∧ y.val ∉ r.arrived.getD (wBx w) [] :=
  by decide +kernel
theorem meets_whiskControlAndBarriers_7 :
    let c : CoreId := 0
    let sl : SlotId := 0
    let w : Word := wg 40 2 (3 <<< 30)
    let g : WGroup := { grp with last := [(3, 0)] }
    let r : Crew := crewOne
    let n : Nat := 0
    let s : State := whiskState.modGroup 0 0 fun g => { g with last := [(3, 0)] }
    GroupReady s c sl g ∧ wClass w = .await ∧ nfind (s.whisk c).crews g.crew = some r ∧ nfind g.last (wBx w) = some n :=
  by decide +kernel
theorem meets_whiskControlAndBarriers_8 :
    let c : CoreId := 0
    let sl : SlotId := 0
    let w : Word := wg 47 0 0
    let g : WGroup := grp
    let r : Crew := crewOne
    let e : EWord := { launchWord with w0 := (2 <<< 32) + 0x10001 }
    let s : State := whiskState
    GroupReady s c sl g ∧ wClass w = .exit ∧ nfind (s.whisk c).crews g.crew = some r ∧ r.slots = [sl.val] ∧ (s.whisk c).word = some e ∧
      (s.whisk c).next < e.launch.groups :=
  by decide +kernel
theorem meets_whiskControlAndBarriers_9 :
    let c : CoreId := 0
    let sl : SlotId := 0
    let w : Word := wg 47 1 0
    let g : WGroup := grp
    let s : State := whiskState
    GroupReady s c sl g ∧ wClass w = .brk :=
  by decide +kernel
theorem meets_whiskControlAndBarriers_10 :
    let c : CoreId := 0
    let sl : SlotId := 0
    let g : WGroup := { grp with wait := .meet 0 }
    let r : Crew := crewOne
    let now : Nat := 10000000
    let s : State := whiskState.modGroup 0 0 fun g => { g with wait := .meet 0 }
    s.coreLive c = true ∧ nfind (s.whisk c).groups sl.val = some g ∧ nfind (s.whisk c).crews g.crew = some r ∧ r.slots = [sl.val] ∧ g.wait
      ≠ .none ∧ g.park = 0 ∧ r.since + 1000 * s.devSec.barrierUs ≤ (s.advance now).elapsed :=
  by decide +kernel
theorem meets_whiskControlAndBarriers_11 :
    let c : CoreId := 0
    let sl : SlotId := 5
    let y : SlotId := 0
    let w : Word := wg 40 0 (3 <<< 30)
    let g : WGroup := grp
    let h : WGroup := { grp with wait := .meet 3 }
    let r : Crew := { crewTwo with arrived := [[], [], [], [0], [], [], [], []] }
    let s : State := whiskState.modWhisk 0 fun w => { w with groups := [(0, { grp with wait := .meet 3 }), (5, grp)], crews := [(0, { crewTwo with arrived := [[], [], [], [0], [], [], [], []] })] }
    GroupReady s c sl g ∧ wClass w = .meet ∧ nfind (s.whisk c).crews g.crew = some r ∧ y.val < sl.val ∧ r.slots = [y.val, sl.val] ∧ nfind
      (s.whisk c).groups y.val = some h ∧ h.crew = g.crew ∧ h.wait = .meet (wBx w) ∧ h.park = 0 ∧ h.step = false ∧ r.arrived.getD (wBx
      w) [] = [y.val] ∧ r.arrived.length = 8 ∧ r.gens.length = 8 :=
  by decide +kernel
theorem meets_whiskControlAndBarriers_12 :
    let c : CoreId := 0
    let sl : SlotId := 0
    let w : Word := wg 40 1 (3 <<< 30)
    let g : WGroup := grp
    let r : Crew := { crewTwo with arrived := [[], [], [], [0], [], [], [], []] }
    let i : Instr := .markBarrier 0 0 (some (wg 40 1 (3 <<< 30))) .none
    let s : State := whiskState.modWhisk 0 fun w => { w with groups := [(0, grp), (5, grp)], crews := [(0, { crewTwo with arrived := [[], [], [], [0], [], [], [], []] })] }
    GroupReady s c sl g ∧ nfind (s.whisk c).crews g.crew = some r ∧ sl.val ∈ r.arrived.getD (wBx w) [] ∧ ((wClass w, i) ∈ [(WClass.meet,
      Instr.meetBarrier c sl (some w) .none), (.mark, .markBarrier c sl (some w) .none)]) :=
  by decide +kernel
theorem meets_whiskControlAndBarriers_13 :
    let c : CoreId := 0
    let sl : SlotId := 0
    let w : Word := wg 40 2 (3 <<< 30)
    let g : WGroup := grp
    let s : State := whiskState
    GroupReady s c sl g ∧ wClass w = .await ∧ nfind g.last (wBx w) = none :=
  by decide +kernel
theorem meets_whiskControlAndBarriers_14 :
    let c : CoreId := 0
    let sl : SlotId := 0
    let w : Word := wg 41 1 (1 <<< 42 ||| 1 <<< 33)
    let g : WGroup := grp
    let s : State := whiskState.modCore 0 fun k => { k with sums := [[], List.replicate 16 3] }
    GroupReady s c sl g ∧ wClass w = .sum ∧ 16 ≤ ((s.core c).sums.getD 1 []).length :=
  by decide +kernel
theorem meets_whiskControlAndBarriers_15 :
    let c : CoreId := 0
    let sl : SlotId := 0
    let w : Word := wg 47 0 0
    let g : WGroup := grp
    let r : Crew := crewOne
    let e : EWord := launchWord
    let s : State := whiskState.modWhisk 0 fun w => { w with word := some launchWord }
    GroupReady s c sl g ∧ wClass w = .exit ∧ nfind (s.whisk c).crews g.crew = some r ∧ r.slots = [sl.val] ∧ (s.whisk c).crews.length = 1 ∧
      (s.whisk c).word = some e ∧ e.launch.groups ≤ (s.whisk c).next ∧ (∀ x ∈ (s.whisk c).l1, x.dirty = 0) :=
  by decide +kernel
theorem meets_whiskControlAndBarriers_16 :
    let c : CoreId := 0
    let sl : SlotId := 0
    let w : Word := wi 255 0 0
    let g : WGroup := grp
    let s : State := whiskState
    GroupReady s c sl g ∧ wClass w = .illegal :=
  by decide +kernel
theorem meets_whiskLaunchesAndGroupCommands_1 :
    let c : CoreId := 0
    let e : EWord := launchWord
    let s : State := img.setQueue 0 2 [launchWord]
    s.engReady c 2 = true ∧ (s.whisk c).word = none ∧ (s.whisk c).crews = [] ∧ s.headWord c 2 = some e ∧ e.launch.fail = none ∧ 0 <
      e.launch.groups :=
  by decide +kernel
theorem meets_whiskLaunchesAndGroupCommands_2 :
    let c : CoreId := 0
    let e : EWord := launchWord
    let s : State := img.modWhisk 0 fun w => { w with word := some launchWord }
    s.coreLive c = true ∧ (s.whisk c).word = some e ∧ (s.whisk c).crews = [] ∧ (s.whisk c).groups = [] ∧ e.launch.crew = 1 ∧ (s.whisk
      c).next < e.launch.groups :=
  by decide +kernel
theorem meets_whiskLaunchesAndGroupCommands_3 :
    let src : Source := .host
    let c : CoreId := 0
    let sl : SlotId := 0
    let g : WGroup := { grp with park := 4 }
    let s : State := whiskState.modGroup 0 0 fun g => { g with park := 4 }
    s.shut src = false ∧ nfind (s.whisk c).groups sl.val = some g ∧ g.park ≠ 0 ∧ g.park ≠ 2 :=
  by decide +kernel
theorem meets_whiskLaunchesAndGroupCommands_4 :
    let src : Source := .host
    let c : CoreId := 0
    let sl : SlotId := 0
    let g : WGroup := stalled
    let r : Crew := crewOne
    let b : Fin 8 := 0
    let s : State := whiskState.modGroup 0 0 fun _ => stalled
    s.shut src = false ∧ nfind (s.whisk c).groups sl.val = some g ∧ g.park = 2 ∧ g.step = false ∧ g.wait = .meet b.val ∧ nfind (s.whisk
      c).crews g.crew = some r ∧ r.slots = [sl.val] ∧ r.arrived.length = 8 ∧ r.gens.length = 8 :=
  by decide +kernel
theorem meets_whiskLaunchesAndGroupCommands_5 :
    let src : Source := .host
    let c : CoreId := 0
    let sl : SlotId := 0
    let g : WGroup := grp
    let r : Crew := crewOne
    let e : EWord := { launchWord with w0 := (2 <<< 32) + 0x10001 }
    let s : State := whiskState
    s.shut src = false ∧ nfind (s.whisk c).groups sl.val = some g ∧ nfind (s.whisk c).crews g.crew = some r ∧ r.slots = [sl.val] ∧
      (s.whisk c).word = some e ∧ (s.whisk c).next < e.launch.groups :=
  by decide +kernel
theorem meets_whiskLaunchesAndGroupCommands_6 :
    let src : Source := .twin 0
    let c : CoreId := 0
    let sl : SlotId := 0
    let g : WGroup := grp
    let s : State := whiskState
    s.shut src = false ∧ s.mayDebug src c = true ∧ nfind (s.whisk c).groups sl.val = some g ∧ g.park = 0 :=
  by decide +kernel
theorem meets_whiskLaunchesAndGroupCommands_7 :
    let src : Source := .twin 0
    let c : CoreId := 0
    let sl : SlotId := 0
    let g : WGroup := { grp with park := 4 }
    let s : State := whiskState.modGroup 0 0 fun g => { g with park := 4 }
    s.shut src = false ∧ s.mayDebug src c = true ∧ nfind (s.whisk c).groups sl.val = some g ∧ (g.park = 3 ∨ g.park = 4) ∧ g.wait = .none :=
  by decide +kernel
theorem meets_whiskLaunchesAndGroupCommands_8 :
    let src : Source := .twin 0
    let c : CoreId := 0
    let g : WGroup := { grp with park := 3 }
    let s : State := whiskState.modGroup 0 0 fun g => { g with park := 3 }
    s.shut src = false ∧ s.mayDebug src c = true ∧ nfind (s.whisk c).groups (s.fget Fd.dbgSel_SLOT c) = some g ∧ (g.park = 3 ∨ g.park = 4)
      ∧ s.fget Fd.dbgSel_PRED c = 0 :=
  by decide +kernel
theorem meets_whiskLaunchesAndGroupCommands_9 :
    let c : CoreId := 0
    let sl : SlotId := 9
    let s : State := whiskState
    s.shut .host = false ∧ nfind (s.whisk c).groups sl.val = none :=
  by decide +kernel
theorem meets_whiskLaunchesAndGroupCommands_10 :
    let c : CoreId := 0
    let e : EWord := { launchWord with w0 := (1 <<< 32) + 1 }
    let r : Nat := 0x30
    let s : State := (img.setQueue 0 2 [{ launchWord with w0 := (1 <<< 32) + 1 }]).modTwin 0 fun t => { t with mode := .halted }
    s.engReady c 2 = true ∧ (s.whisk c).word = none ∧ s.headWord c 2 = some e ∧ e.launch.fail = some r ∧ (s.twin c).mode = .halted :=
  by decide +kernel
theorem meets_whiskLaunchesAndGroupCommands_11 :
    let c : CoreId := 0
    let e : EWord := launchWord
    let s : State := img.setQueue 0 2 [launchWord]
    s.engReady c 2 = true ∧ (s.whisk c).word = none ∧ s.headWord c 2 = some e ∧ Quiet (coreDie c) 9 s :=
  by decide +kernel
theorem meets_whiskLaunchesAndGroupCommands_12 :
    let c : CoreId := 0
    let e : EWord := { launchWord with w0 := 0x10001 }
    let s : State := img.setQueue 0 2 [{ launchWord with w0 := 0x10001 }]
    s.engReady c 2 = true ∧ (s.whisk c).word = none ∧ (s.whisk c).crews = [] ∧ (∀ x ∈ (s.whisk c).l1, x.dirty = 0) ∧ s.headWord c 2 = some
      e ∧ e.launch.fail = none ∧ e.launch.groups = 0 :=
  by decide +kernel
theorem meets_whiskLaunchesAndGroupCommands_13 :
    let c : CoreId := 0
    let e : EWord := { launchWord with w0 := (5 <<< 32) + 0x30001 }
    let n : Nat := 3
    let s : State := img.modWhisk 0 fun w => { w with word := some { launchWord with w0 := (5 <<< 32) + 0x30001 } }
    s.coreLive c = true ∧ (s.whisk c).word = some e ∧ (s.whisk c).crews = [] ∧ (s.whisk c).groups = [] ∧ 0 < n ∧ n = min e.launch.crew
      (e.launch.groups - (s.whisk c).next) ∧ n ≤ 48 :=
  by decide +kernel
theorem meets_whiskLaunchesAndGroupCommands_14 :
    let src : Source := .host
    let c : CoreId := 0
    let sl : SlotId := 0
    let x : SlotId := 5
    let g : WGroup := stalled
    let h : WGroup := stalled
    let r : Crew := crewTwo
    let s : State := whiskState.modWhisk 0 fun w => { w with groups := [(0, stalled), (5, stalled)], crews := [(0, crewTwo)] }
    s.shut src = false ∧ nfind (s.whisk c).groups sl.val = some g ∧ g.park = 2 ∧ nfind (s.whisk c).crews g.crew = some r ∧ x.val ∈ r.slots
      ∧ sl.val ∈ r.slots ∧ nfind (s.whisk c).groups x.val = some h ∧ h.park = 2 :=
  by decide +kernel
theorem meets_whiskLaunchesAndGroupCommands_15 :
    let src : Source := .host
    let c : CoreId := 0
    let sl : SlotId := 0
    let x : SlotId := 5
    let g : WGroup := { grp with park := 4 }
    let h : WGroup := { grp with park := 1, missCtx := [3] }
    let r : Crew := crewTwo
    let s : State := whiskState.modWhisk 0 fun w => { w with groups := [(0, { grp with park := 4 }), (5, { grp with park := 1, missCtx := [3] })], crews := [(0, crewTwo)] }
    s.shut src = false ∧ nfind (s.whisk c).groups sl.val = some g ∧ nfind (s.whisk c).crews g.crew = some r ∧ r.slots = [sl.val, x.val] ∧
      sl ≠ x ∧ nfind (s.whisk c).groups x.val = some h ∧ h.crew = g.crew ∧ g.park ≠ 0 ∧ g.park ≠ 2 ∧ h.park ≠ 0 ∧ h.park ≠ 2 :=
  by decide +kernel
theorem meets_whiskLaunchesAndGroupCommands_16 :
    let src : Source := .twin 0
    let c : CoreId := 0
    let sl : SlotId := 0
    let x : SlotId := 5
    let g : WGroup := grp
    let h : WGroup := grp
    let r : Crew := crewTwo
    let e : EWord := { launchWord with w0 := (3 <<< 32) + 0x20001 }
    let s : State := whiskState.modWhisk 0 fun w => { w with word := some { launchWord with w0 := (3 <<< 32) + 0x20001 }, next := 2, groups := [(0, grp), (5, grp)], crews := [(0, crewTwo)] }
    s.shut src = false ∧ nfind (s.whisk c).groups sl.val = some g ∧ nfind (s.whisk c).crews g.crew = some r ∧ r.slots = [sl.val, x.val] ∧
      sl ≠ x ∧ nfind (s.whisk c).groups x.val = some h ∧ h.crew = g.crew ∧ (s.whisk c).word = some e ∧ (s.whisk c).next <
      e.launch.groups :=
  by decide +kernel
theorem meets_whiskLaunchesAndGroupCommands_17 :
    let src : Source := .twin 0
    let c : CoreId := 0
    let sl : SlotId := 0
    let g : WGroup := { grp with park := 3, wait := .meet 1 }
    let s : State := whiskState.modGroup 0 0 fun g => { g with park := 3, wait := .meet 1 }
    s.shut src = false ∧ s.mayDebug src c = true ∧ nfind (s.whisk c).groups sl.val = some g ∧ (g.park = 3 ∨ g.park = 4) ∧ g.wait ≠ .none :=
  by decide +kernel
theorem meets_whiskLaunchesAndGroupCommands_18 :
    let src : Source := .twin 0
    let c : CoreId := 0
    let g : WGroup := { grp with park := 3 }
    let s : State := (whiskState.modGroup 0 0 fun g => { g with park := 3 }).setReg .dbgSel 0 0 |>.fset Fd.dbgSel_PRED 1 0 |>.fset Fd.dbgSel_REG 3 0
    s.shut src = false ∧ s.mayDebug src c = true ∧ nfind (s.whisk c).groups (s.fget Fd.dbgSel_SLOT c) = some g ∧ (g.park = 3 ∨ g.park = 4)
      ∧ s.fget Fd.dbgSel_PRED c = 1 :=
  by decide +kernel
theorem meets_whiskLaunchesAndGroupCommands_19 :
    let c : CoreId := 0
    let sl : SlotId := 0
    let g : WGroup := grp
    let i : Instr := .groupResume .host 0 0 false
    let s : State := whiskState.fset Fd.debugCtl_CONTROL_FOLDS 1
    s.shut .host = false ∧ s.mayDebug .host c = true ∧ nfind (s.whisk c).groups sl.val = some g ∧ (i = .groupResume .host c sl false ∧
      g.park = 0 ∨ i = .groupRelease .host c sl false ∧ g.park ≠ 2 ∨ i = .groupHalt .host c sl false ∧ g.park ≠ 0 ∨ i = .groupStep
      .host c sl false ∧ g.park ≠ 3 ∧ g.park ≠ 4 ∨ i = .dbgDataWrite .host c 5 ∧ s.fget Fd.dbgSel_SLOT c = sl.val ∧ g.park ≠ 3 ∧
      g.park ≠ 4) :=
  by decide +kernel
theorem meets_whiskLaunchesAndGroupCommands_20 :
    let c : CoreId := 0
    let sl : SlotId := 0
    let i : Instr := .groupHalt .host 0 0 false
    let s : State := whiskState
    s.shut .host = false ∧ s.mayDebug .host c = false ∧ i ∈ [Instr.groupHalt .host c sl false, .groupStep .host c sl true, .dbgDataWrite
      .host c 5] :=
  by decide +kernel
theorem meets_pourStreamsAndTiles_1 :
    let c : CoreId := 0
    let e : EWord := pourWord
    let f : Nat := 0
    let tr : Tree := pourTree
    let s : State := pourState.setQueue 0 4 [pourWord]
    s.pourHead c 1 = some e ∧ s.pourFail c e.pour = none ∧ e.pour.count ≠ 0 ∧ s.foldOfCore c = some f ∧ s.treeOf f e.pour.tree = some tr ∧
      s.streamsOn f e.pour.tree = [] ∧ s.rootFull tr.root = false ∧ (tr.cores.all fun n => (s.pourEntry n e.pour.tree).isSome ||
      (s.freeEntry n).isSome) = true :=
  by decide +kernel
theorem meets_pourStreamsAndTiles_2 :
    let c : CoreId := 0
    let x : StreamSt := pourStream
    let tr : Tree := pourTree
    let a : State := (pourRun.readHbm 0 1).1
    let b : State := ((pourRun.readHbm 0 1).1.readHbm 64 1).1
    let h : Bytes := tileHead
    let d : Bytes := List.replicate 64 9
    let s : State := pourRun
    s.streamOf c = some x ∧ s.streamBroken x = false ∧ x.inj = none ∧ x.tile < x.word.pour.count ∧ s.streamTree x = some tr ∧ x.at' + 64 +
      imgN h 0xC 4 ≤ x.word.pour.limit ∧ s.readHbm (x.word.pour.src % 2 ^ 48 + x.at') 1 = (a, h, false) ∧ tileHeaderBad h x.tile =
      false ∧ a.readHbm (x.word.pour.src % 2 ^ 48 + x.at' + 64) (imgN h 0xC 4 / 64) = (b, d, false) :=
  by decide +kernel
theorem meets_pourStreamsAndTiles_3 :
    let c : CoreId := 0
    let node : CoreId := 5
    let x : StreamSt := { pourStream with inj := some { idx := 0, data := tileHead, pending := [5], taken := true } }
    let tr : Tree := pourTree
    let i : Nat := 0
    let en : PourEntry := { tree := 1 }
    let tile : PourTile := { idx := 0, data := tileHead, pending := [5], taken := true }
    let s : State := { pourRun with streams := [{ pourStream with inj := some { idx := 0, data := tileHead, pending := [5], taken := true } }] }
    s.streamOf c = some x ∧ s.streamBroken x = false ∧ s.accepting c node = some x ∧ s.streamTree x = some tr ∧ tr.hops = [(tr.root,
      node.val)] ∧ tr.dests.testBit node = true ∧ s.pourEntry node tr.id = some (i, en) ∧ i < 4 ∧ en.tiles.length < 4 ∧ (∀ y ∈
      en.tiles, y.taken = false) ∧ x.inj = some tile ∧ tile.pending = [node.val] ∧ tile.taken = true ∧ tr.root ≠ node.val :=
  by decide +kernel
theorem meets_pourStreamsAndTiles_4 :
    let c : CoreId := 5
    let id : Nat := 1
    let n : Nat := 0
    let f : Nat := 0
    let e : EWord := { mmaWord with w0 := mmaWord.w0 + (1 <<< 24), w3 := (1 <<< 32) + (0x20 <<< 47) }
    let en : PourEntry := { tree := 1, tiles := [{ idx := 0, data := tileHead, pending := [], taken := false }] }
    let y : PourTile := { idx := 0, data := tileHead, pending := [], taken := false }
    let ys : List PourTile := []
    let s : State := ((pourRun.modMat 5 fun _ => { word := some { mmaWord with w0 := mmaWord.w0 + (1 <<< 24), w3 := (1 <<< 32) + (0x20 <<< 47) }, arrays := [0] }).setEngState 5 0 1).setEntry 5 0 { tree := 1, tiles := [{ idx := 0, data := tileHead, pending := [], taken := false }] }
    s.mat c = { word := some e, arrays := [0] } ∧ s.foldOfCore c = some f ∧ s.pourEntry c id = some (n, en) ∧ n < 4 ∧ en.tiles = y :: ys ∧
      y.taken = false ∧ s.matRuns c = true ∧ e.mma.pour = true ∧ e.mma.tree = id ∧ e.mma.k ≠ 0 ∧ 0 < e.mma.n ∧ imgN y.data 1 1 =
      e.mma.bfmt ∧ imgN y.data 2 1 = e.mma.bfmt ∧ bit (imgN y.data 3 1) 1 = e.mma.sb :=
  by decide +kernel
theorem meets_pourStreamsAndTiles_5 :
    let c : CoreId := 0
    let x : StreamSt := { pourStream with tile := 2 }
    let tr : Tree := pourTree
    let s : State := { pourRun with streams := [{ pourStream with tile := 2 }] }
    s.streamOf c = some x ∧ s.streamBroken x = false ∧ s.streamTree x = some tr ∧ x.word.pour.count ≤ x.tile ∧ s.onItsWay x tr = false ∧
      x.word.pour.done < 64 ∧ nhas s.ctrPoison (ctrKey c x.word.pour.done) = false :=
  by decide +kernel
theorem meets_pourStreamsAndTiles_6 :
    let c : CoreId := 5
    let e : EWord := { w0 := 0x102 }
    let n : Nat := 0
    let f : Nat := 0
    let en : PourEntry := { tree := 1, tiles := [{ idx := 0, data := tileHead, pending := [], taken := false }] }
    let s : State := ({ pourRun with streams := [] }.setEntry 5 0 { tree := 1, tiles := [{ idx := 0, data := tileHead, pending := [], taken := false }] }).setQueue 5 4 [{ w0 := 0x102 }]
    s.pourHead c 2 = some e ∧ s.pourFail c e.pour = none ∧ s.pourEntry c e.pour.tree = some (n, en) ∧ s.foldOfCore c = some f ∧
      s.streamsOn f e.pour.tree = [] ∧ (∀ y ∈ en.tiles, y.pending = []) ∧ e.pour.done < 64 ∧ nhas s.ctrPoison (ctrKey c e.pour.done) =
      false :=
  by decide +kernel
theorem meets_pourStreamsAndTiles_7 :
    let c : CoreId := 0
    let x : StreamSt := { pourStream with cut := true }
    let s : State := { pourRun with streams := [{ pourStream with cut := true }] }
    s.streams.find? (fun z => z.core == c.val && s.streamBroken z) = some x ∧ x.orphan = false ∧ s.coreFence c = FencePhase.none :=
  by decide +kernel
theorem meets_pourStreamsAndTiles_8 :
    let c : CoreId := 0
    let node : CoreId := 5
    let x : StreamSt := { pourStream with inj := some { idx := 0, data := tileHead, pending := [5], taken := true } }
    let tr : Tree := pourTree
    let i : Nat := 0
    let p : Nat := 0x1000
    let en : PourEntry := { tree := 1 }
    let tile : PourTile := { idx := 0, data := tileHead, pending := [5], taken := true }
    let s : State := { pourRun with streams := [{ pourStream with inj := some { idx := 0, data := tileHead, pending := [5], taken := true } }] }
    s.accepting c node = some x ∧ s.streamTree x = some tr ∧ x.ended = false ∧ tr.hops.find? (fun h => h.2 == node.val) = some (p,
      node.val) ∧ p ≠ node.val ∧ s.pourEntry node tr.id = some (i, en) ∧ i < 4 ∧ s.tileHeld x tr p node = some tile :=
  by decide +kernel
theorem meets_pourStreamsAndTiles_9 :
    let c : CoreId := 0
    let node : CoreId := 5
    let x : StreamSt := { pourStream with inj := some { idx := 0, data := tileHead, pending := [5], taken := true } }
    let tr : Tree := pourTree
    let i : Nat := 0
    let p : Nat := 0x1000
    let en : PourEntry := { tree := 1 }
    let tile : PourTile := { idx := 0, data := tileHead, pending := [5], taken := true }
    let s : State := { pourRun with streams := [{ pourStream with inj := some { idx := 0, data := tileHead, pending := [5], taken := true } }] }
    s.accepting c node = some x ∧ s.streamTree x = some tr ∧ x.ended = false ∧ tr.hops.find? (fun h => h.2 == node.val) = some (p,
      node.val) ∧ s.pourEntry node tr.id = some (i, en) ∧ s.tileHeld x tr p node = some tile ∧ Quiet (coreDie node) 0x0D s ∧
      s.coreFence c = FencePhase.none :=
  by decide +kernel
theorem meets_pourStreamsAndTiles_10 :
    let c : CoreId := 5
    let id : Nat := 1
    let n : Nat := 0
    let f : Nat := 0
    let e : EWord := { mmaWord with w0 := mmaWord.w0 + (1 <<< 24) + (8 <<< 48), w3 := (1 <<< 32) + (0x20 <<< 47) }
    let en : PourEntry := { tree := 1, tiles := [{ idx := 0, data := tileHead, pending := [], taken := false }, { idx := 1, data := tileHead, pending := [], taken := false }] }
    let y : PourTile := { idx := 0, data := tileHead, pending := [], taken := false }
    let s : State := ((pourRun.modMat 5 fun _ => { word := some { mmaWord with w0 := mmaWord.w0 + (1 <<< 24) + (8 <<< 48), w3 := (1 <<< 32) + (0x20 <<< 47) }, arrays := [0], panels := [List.replicate 64 3] }).setEngState 5 0 1).setEntry 5 0 { tree := 1, tiles := [{ idx := 0, data := tileHead, pending := [], taken := false }, { idx := 1, data := tileHead, pending := [], taken := false }] }
    (s.mat c).word = some e ∧ (s.mat c).limit = none ∧ (s.mat c).panels.length + (s.mat c).round * (s.mat c).arrays.length < min (((s.mat
      c).round + 2) * (s.mat c).arrays.length) e.mma.colBlocks ∧ s.foldOfCore c = some f ∧ s.pourEntry c id = some (n, en) ∧ n < 4 ∧
      en.tiles.find? (fun z => !z.taken) = some y ∧ s.matRuns c = true ∧ e.mma.pour = true ∧ e.mma.tree = id ∧ e.mma.k ≠ 0 ∧ imgN
      y.data 2 1 = e.mma.bfmt ∧ bit (imgN y.data 3 1) 1 = e.mma.sb :=
  by decide +kernel
theorem meets_pourStreamsAndTiles_11 :
    let c : CoreId := 5
    let id : Nat := 1
    let n : Nat := 0
    let f : Nat := 0
    let e : EWord := { mmaWord with w0 := mmaWord.w0 + (1 <<< 24), w3 := (1 <<< 32) + (0x20 <<< 47) }
    let en : PourEntry := { tree := 1, tiles := [{ idx := 0, data := tileHead.set 2 3, pending := [], taken := false }] }
    let y : PourTile := { idx := 0, data := tileHead.set 2 3, pending := [], taken := false }
    let s : State := ((pourRun.modMat 5 fun _ => { word := some { mmaWord with w0 := mmaWord.w0 + (1 <<< 24), w3 := (1 <<< 32) + (0x20 <<< 47) }, arrays := [0] }).setEngState 5 0 1).setEntry 5 0 { tree := 1, tiles := [{ idx := 0, data := tileHead.set 2 3, pending := [], taken := false }] }
    s.mat c = { word := some e, arrays := [0] } ∧ s.foldOfCore c = some f ∧ s.pourEntry c id = some (n, en) ∧ n < 4 ∧ en.tiles.find? (fun
      z => !z.taken) = some y ∧ s.matRuns c = true ∧ e.mma.pour = true ∧ e.mma.tree = id ∧ e.mma.k ≠ 0 ∧ 0 < e.mma.n ∧ (imgN y.data 2
      1 ≠ e.mma.bfmt ∨ bit (imgN y.data 3 1) 1 ≠ e.mma.sb) :=
  by decide +kernel
theorem meets_pourStreamsAndTiles_12 :
    let c : CoreId := 5
    let id : Nat := 1
    let n : Nat := 0
    let f : Nat := 0
    let e : EWord := { mmaWord with w0 := mmaWord.w0 + (1 <<< 24), w3 := (1 <<< 32) + (0x20 <<< 47) }
    let en : PourEntry := { tree := 1, tiles := [{ idx := 0, data := tileHead, pending := [], taken := false }] }
    let y : PourTile := { idx := 0, data := tileHead, pending := [], taken := false }
    let s : State := ((pourRun.modMat 5 fun _ => { word := some { mmaWord with w0 := mmaWord.w0 + (1 <<< 24), w3 := (1 <<< 32) + (0x20 <<< 47) }, arrays := [0] }).setEngState 5 0 1).setEntry 5 0 { tree := 1, tiles := [{ idx := 0, data := tileHead, pending := [], taken := false }] }
    s.mat c = { word := some e, arrays := [0] } ∧ s.foldOfCore c = some f ∧ s.pourEntry c id = some (n, en) ∧ en.tiles.find? (fun z =>
      !z.taken) = some y ∧ s.matRuns c = true ∧ e.mma.pour = true ∧ e.mma.tree = id ∧ e.mma.k ≠ 0 ∧ 0 < e.mma.n ∧ Quiet (coreDie c)
      0x0E s :=
  by decide +kernel
theorem meets_pourStreamsAndTiles_13 :
    let c : CoreId := 0
    let x : StreamSt := { pourStream with tile := 1 }
    let tr : Tree := pourTree
    let a : State := (({ pourRun with streams := [{ pourStream with tile := 1 }] }.modTwin 0 fun t => { t with mode := .halted }).readHbm 0 1).1
    let h : Bytes := tileHead
    let bad : Bool := false
    let r : Nat := 0x14
    let s : State := { pourRun with streams := [{ pourStream with tile := 1 }] }.modTwin 0 fun t => { t with mode := .halted }
    s.streamOf c = some x ∧ s.streams.filter (fun y => y.core == c.val) = [x] ∧ s.streamBroken x = false ∧ x.inj = none ∧ x.tile <
      x.word.pour.count ∧ s.streamTree x = some tr ∧ (s.twin c).mode = .halted ∧ (x.at' + 64 ≤ x.word.pour.limit → s.readHbm
      (x.word.pour.src % 2 ^ 48 + x.at') 1 = (a, h, bad)) ∧ (x.word.pour.limit < x.at' + 64 ∧ r = 0x15 ∨ x.at' + 64 ≤
      x.word.pour.limit ∧ bad = true ∧ r = 0x22 ∨ x.at' + 64 ≤ x.word.pour.limit ∧ bad = false ∧ tileHeaderBad h x.tile = true ∧ r =
      0x14 ∨ x.at' + 64 ≤ x.word.pour.limit ∧ bad = false ∧ tileHeaderBad h x.tile = false ∧ x.word.pour.limit < x.at' + 64 + imgN h
      0xC 4 ∧ r = 0x15) :=
  by decide +kernel
theorem meets_pourStreamsAndTiles_14 :
    let c : CoreId := 0
    let e : EWord := { w0 := 0x101 + (1 <<< 32), w2 := 0 }
    let op : Nat := 1
    let r : Nat := 0x12
    let i : Instr := .stream 0
    let s : State := (pourState.setQueue 0 4 [{ w0 := 0x101 + (1 <<< 32), w2 := 0 }]).modTwin 0 fun t => { t with mode := .halted }
    s.pourHead c op = some e ∧ s.pourFail c e.pour = some r ∧ (s.twin c).mode = .halted ∧ ((i, op) ∈ [(Instr.stream c, 1),
      (.pourDiscardWord c, 2)]) :=
  by decide +kernel
theorem meets_pourStreamsAndTiles_15 :
    let c : CoreId := 0
    let e : EWord := { w0 := 0x101 + (5 <<< 23) }
    let s : State := pourState.setQueue 0 4 [{ w0 := 0x101 + (5 <<< 23) }]
    s.pourHead c 1 = some e ∧ s.pourFail c e.pour = none ∧ e.pour.count = 0 ∧ e.pour.done < 64 ∧ nhas s.ctrPoison (ctrKey c e.pour.done) =
      false :=
  by decide +kernel
theorem meets_pourStreamsAndTiles_16 :
    let c : CoreId := 3
    let e : EWord := pourWord
    let f : Nat := 0
    let tr : Tree := pourTree
    let s : State := pourRun.setQueue 3 4 [pourWord]
    s.pourHead c 1 = some e ∧ s.pourFail c e.pour = none ∧ e.pour.count ≠ 0 ∧ s.foldOfCore c = some f ∧ s.treeOf f e.pour.tree = some tr ∧
      (s.streamsOn f e.pour.tree ≠ [] ∨ s.rootFull tr.root = true) :=
  by decide +kernel
theorem meets_doorbellsPostEntries_1 :
    let r : RingId := 0
    let v : Word32 := 3
    let n : Nat := 3
    let s : State := ringOn
    s.shut .host = false ∧ (s.foldOfRing r).isSome = true ∧ v.toNat % 65536 < s.ringSize r ∧ n = ((((v.toNat % 65536 : Nat) : Int) -
      (s.fget Fd.ringPtrs_TAIL r : Nat)) % (s.ringSize r : Nat)).toNat ∧ 0 < n :=
  by decide +kernel
theorem meets_doorbellsPostEntries_2 :
    let r : RingId := 0
    let v : Word32 := 16
    let s : State := ringOn
    s.shut .host = false ∧ (s.foldOfRing r = none ∨ s.ringSize r ≤ v.toNat % 65536) :=
  by decide +kernel
theorem meets_doorbellsPostEntries_3 :
    let r : RingId := 0
    let s : State := ringOn
    s.shut .host = false ∧ (s.foldOfRing r).isSome = true :=
  by decide +kernel
theorem meets_doorbellsPostEntries_4 :
    let r : RingId := 0
    let v : Word32 := 3
    let n : Nat := 3
    let s : State := ringOn.modRing 0 fun x => { x with dbStart := 900, segs := [heldSeg] }
    s.shut .host = false ∧ (s.foldOfRing r).isSome = true ∧ v.toNat % 65536 < s.ringSize r ∧ n = ((((v.toNat % 65536 : Nat) : Int) -
      (s.fget Fd.ringPtrs_TAIL r : Nat)) % (s.ringSize r : Nat)).toNat ∧ 0 < n ∧ ((s.ring r).segs.filter fun g => g.held).length < 8 ∧
      s.now < (s.ring r).dbStart :=
  by decide +kernel
theorem meets_doorbellsPostEntries_5 :
    let r : RingId := 0
    let v : Word32 := 3
    let s : State := ringWith (List.replicate 8 heldSeg) []
    s.shut .host = false ∧ (s.foldOfRing r).isSome = true ∧ v.toNat % 65536 < s.ringSize r ∧ ((v.toNat % 65536 : Nat) : Int) % (s.ringSize
      r : Nat) ≠ (s.fget Fd.ringPtrs_TAIL r : Int) % (s.ringSize r : Nat) ∧ 8 ≤ ((s.ring r).segs.filter fun g => g.held).length :=
  by decide +kernel
theorem meets_doorbellsPostEntries_6 :
    let r : RingId := 0
    let v : Word32 := 3
    let n : Nat := 3
    let s : State := ringOn
    s.shut .host = false ∧ (s.foldOfRing r).isSome = true ∧ v.toNat % 65536 < s.ringSize r ∧ n = ((((v.toNat % 65536 : Nat) : Int) -
      (s.fget Fd.ringPtrs_TAIL r : Nat)) % (s.ringSize r : Nat)).toNat ∧ 0 < n ∧ (∀ g ∈ (s.ring r).segs, g.held = false ∧ g.unlocked =
      false) ∧ s.fon Fd.quartzStatus_TIME_LOCKED = true ∧ ((s.ring r).dbStart = 0 ∨ (s.ring r).dbStart < s.now) :=
  by decide +kernel
theorem meets_doorbellsPostEntries_7 :
    let r : RingId := 0
    let now : Nat := 500
    let g : Seg := heldSeg
    let s : State := ringWith [heldSeg] [nopCmd]
    (s.ring r).segs = [g] ∧ g.held = true ∧ g.start ≤ (s.advance now).now ∧ s.fon Fd.quartzStatus_TIME_LOCKED = true :=
  by decide +kernel
theorem meets_doorbellsPostEntries_8 :
    let r : RingId := 0
    let now : Nat := 500
    let g : Seg := heldSeg
    let c : RingCmd := nopCmd
    let s : State := (ringWith [heldSeg] [nopCmd]).fset Fd.quartzStatus_TIME_LOCKED 0
    (s.ring r).segs = [g] ∧ 0 < g.count ∧ g.held = true ∧ g.start ≤ (s.advance now).now ∧ s.fon Fd.quartzStatus_TIME_LOCKED = false ∧
      (s.ring r).cmds = [c] ∧ c.phase = .ready :=
  by decide +kernel
theorem meets_doorbellsPostEntries_9 :
    let off : Nat := 0x1004
    let s : State := ringOn
    s.barUp = true ∧ off < 64 * 4096 ∧ (s.foldOfRing (off / 4096) = none ∨ off % 4096 ≠ 0 ∧ off % 4096 ≠ 8 ∧ off % 4096 ≠ 16) :=
  by decide +kernel
theorem meets_doorbellsPostEntries_10 :
    let r : RingId := 0
    let now : Nat := 500
    let g : Seg := heldSeg
    let h : Seg := { heldSeg with start := 10000000 }
    let s : State := ringWith [heldSeg, { heldSeg with start := 10000000 }] [nopCmd]
    (s.ring r).segs = [g, h] ∧ g.held = true ∧ h.held = true ∧ g.start ≤ (s.advance now).now ∧ (s.advance now).now < h.start ∧ s.fon
      Fd.quartzStatus_TIME_LOCKED = true :=
  by decide +kernel
theorem meets_doorbellsPostEntries_11 :
    let r : RingId := 0
    let now : Nat := 0
    let g : Seg := { heldSeg with start := 10000000 }
    let l : List Seg := []
    let s : State := ringWith [{ heldSeg with start := 10000000 }] [nopCmd]
    (s.ring r).segs = g :: l ∧ (∀ x ∈ g :: l, x.held = true) ∧ (s.advance now).now < g.start :=
  by decide +kernel
theorem meets_doorbellsPostEntries_12 :
    let r : RingId := 63
    let i : Instr := .dbTimedTail 63 3
    let s : State := { ringOn with life := { ringOn.life with image := none } }
    s.shut .host = false ∧ s.foldOfRing r = none ∧ i ∈ [Instr.dbStart r 5, .dbTimedTail r 3] :=
  by decide +kernel
theorem meets_doorbellsPostEntries_13 :
    let r : RingId := 0
    let v : Word32 := 0
    let i : Instr := .dbTimedTail 0 0
    let s : State := ringOn
    s.shut .host = false ∧ (s.foldOfRing r).isSome = true ∧ v.toNat % 65536 < s.ringSize r ∧ v.toNat % 65536 = s.fget Fd.ringPtrs_TAIL r ∧
      i ∈ [Instr.dbTail r v, .dbTimedTail r v] :=
  by decide +kernel
theorem meets_ringCommandsAreFetchedStartedAndRetired_1 :
    let r : RingId := 0
    let b : Bytes := nopDesc
    let g : Seg := { count := 2 }
    let s : State := ringWith [{ count := 2 }] []
    s.mayMaster = true ∧ s.ringState r = 1 ∧ (s.ring r).segs = [g] ∧ 0 < g.count ∧ g.unlocked = false ∧ g.gone = false ∧ (s.ring r).due =
      [] ∧ (s.ring r).cancelled = [] ∧ (s.ring r).cmds = [] ∧ 0 < s.ringSize r ∧ s.ringSize r ≤ 65536 ∧ b.length = 64 ∧
      ({ idx := 0, seq := 0, desc := b } : RingCmd).opc = 1 ∧ ({ idx := 0, seq := 0, desc := b } : RingCmd).reserved = false ∧
      ({ idx := 0, seq := 0, desc := b } : RingCmd).sigHandle / 65536 = 0 :=
  by decide +kernel
theorem meets_ringCommandsAreFetchedStartedAndRetired_2 :
    let r : RingId := 0
    let b : Bytes := desc [7, 0, 0, 0, 0, 0, 0, 0]
    let g : Seg := { count := 2 }
    let s : State := ringWith [{ count := 2 }] []
    s.mayMaster = true ∧ s.ringState r = 1 ∧ (s.ring r).segs = [g] ∧ 0 < g.count ∧ g.unlocked = false ∧ g.gone = false ∧ (s.ring r).due =
      [] ∧ (s.ring r).cancelled = [] ∧ (s.ring r).cmds = [] ∧ b.length = 64 ∧ (({ idx := 0, seq := 0, desc := b } : RingCmd).opc = 0 ∨
      6 < ({ idx := 0, seq := 0, desc := b } : RingCmd).opc) :=
  by decide +kernel
theorem meets_ringCommandsAreFetchedStartedAndRetired_3 :
    let r : RingId := 0
    let g : Seg := { count := 2 }
    let s : State := ringWith [{ count := 2 }] []
    s.mayMaster = true ∧ s.ringState r = 1 ∧ (s.ring r).segs = [g] ∧ 0 < g.count ∧ g.gone = false ∧ (s.ring r).due = [] ∧ (s.ring
      r).cancelled = [] ∧ (s.ring r).cmds = [] ∧ Quiet 4 0x1C s :=
  by decide +kernel
theorem meets_ringCommandsAreFetchedStartedAndRetired_4 :
    let r : RingId := 0
    let b : Bytes := []
    let c : RingCmd := { nopCmd with desc := desc [1, 0, 0, 0, 0, 0, 0x10002, 0], phase := .checking, need := 4 }
    let s : State := ((ringWith [{ count := 2 }] [{ nopCmd with desc := desc [1, 0, 0, 0, 0, 0, 0x10002, 0], phase := .checking, need := 4 }]).fset Fd.ctxHtCtl_ENABLE 1 0).fset Fd.ctxHtCtl_ENTRIES 4 0
    s.mayMaster = true ∧ (s.ring r).cmds = [c] ∧ c.phase = .checking ∧ c.opc = 1 ∧ c.need = 4 ∧ c.addrs = [] ∧ c.stale = false ∧ s.fon
      Fd.ctxHtCtl_ENABLE (s.ringCtx r) = true ∧ c.sigHandle % 65536 < s.fget Fd.ctxHtCtl_ENTRIES (s.ringCtx r) ∧ c.sigHandle / 65536 ≠
      0 ∧ (leNat (padTo 16 b)).testBit 111 = false :=
  by decide +kernel
theorem meets_ringCommandsAreFetchedStartedAndRetired_5 :
    let r : RingId := 0
    let b : Bytes := leBytes 8 0xFFFF10000000FC00 ++ leBytes 8 (2 ^ 48 + 2 ^ 47 + 2 ^ 42 + 64)
    let c : RingCmd := { nopCmd with desc := desc [1, 0, 0, 0, 0, 0, 0x10002, 8], phase := .checking, need := 4 }
    let a : Nat := 0xFFFF10000000FC08
    let size : Nat := 64
    let perm : Nat := 4
    let n : Nat := 0
    let k : Nat := 1
    let self : Bool := true
    let s : State := ((ringWith [{ count := 2 }] [{ nopCmd with desc := desc [1, 0, 0, 0, 0, 0, 0x10002, 8], phase := .checking, need := 4 }]).fset Fd.ctxHtCtl_ENABLE 1 0).fset Fd.ctxHtCtl_ENTRIES 4 0
    s.mayMaster = true ∧ (s.ring r).cmds = [c] ∧ c.phase = .checking ∧ c.opc = 1 ∧ c.need = 4 ∧ c.addrs = [] ∧ c.stale = false ∧ s.fon
      Fd.ctxHtCtl_ENABLE (s.ringCtx r) = true ∧ c.sigHandle % 65536 < s.fget Fd.ctxHtCtl_ENTRIES (s.ringCtx r) ∧ c.sigHandle / 65536 ≠
      0 ∧ decideEntry (leNat (padTo 16 b)) c.sigUse = .found a size perm ∧ s.sigPlace (s.ringFold r) a = .counter self n k ∧
      perm.testBit 2 = true ∧ a % 8 = 0 ∧ k < 64 :=
  by decide +kernel
theorem meets_ringCommandsAreFetchedStartedAndRetired_6 :
    let r : RingId := 0
    let g : Seg := { count := 1 }
    let c : RingCmd := nopCmd
    let s : State := ringWith [{ count := 1 }] [nopCmd]
    s.ringState r = 1 ∧ (s.ring r).segs = [g] ∧ 0 < g.count ∧ g.held = false ∧ (s.ring r).cmds = [c] ∧ c.phase = .ready ∧ c.opc ≠ 2 ∧
      c.opc ≠ 5 ∧ (c.opc = 6 ∨ s.foldFence (s.ringFold r) = FencePhase.none) ∧ s.nextRing = some r.val ∧ (s.ring r).cancelled = [] :=
  by decide +kernel
theorem meets_ringCommandsAreFetchedStartedAndRetired_7 :
    let r : RingId := 0
    let g : Seg := { count := 1 }
    let c : RingCmd := nopCmd
    let s : State := (ringWith [{ count := 1 }] [nopCmd]).setFence 288 .fenced
    s.ringState r = 1 ∧ (s.ring r).segs = [g] ∧ 0 < g.count ∧ g.held = false ∧ (s.ring r).cmds = [c] ∧ c.phase = .ready ∧ c.opc = 1 ∧
      s.foldFence (s.ringFold r) ≠ FencePhase.none ∧ s.nextRing = some r.val :=
  by decide +kernel
theorem meets_ringCommandsAreFetchedStartedAndRetired_8 :
    let r : RingId := 0
    let g : Seg := heldSeg
    let c : RingCmd := nopCmd
    let s : State := ringWith [heldSeg] [nopCmd]
    (s.ring r).segs = [g] ∧ 0 < g.count ∧ g.held = true ∧ (s.ring r).cmds = [c] ∧ c.phase = .ready :=
  by decide +kernel
theorem meets_ringCommandsAreFetchedStartedAndRetired_9 :
    let r : RingId := 0
    let g : Seg := { count := 1, late := true }
    let c : RingCmd := { nopCmd with phase := .done }
    let s : State := ringWith [{ count := 1, late := true }] [{ nopCmd with phase := .done }]
    s.ringState r = 1 ∧ (s.ring r).segs = [g] ∧ 0 < g.count ∧ g.held = false ∧ (s.ring r).cmds = [c] ∧ (s.ring r).cancelled = [] ∧ c.told
      = false ∧ c.phase = .done ∧ c.sig = none ∧ c.sigHandle / 65536 = 0 ∧ c.irq = false ∧ s.mayMaster = true ∧ s.fon
      Fd.pcieStatus_LINK_UP = true :=
  by decide +kernel
theorem meets_ringCommandsAreFetchedStartedAndRetired_10 :
    let r : RingId := 0
    let c : RingCmd := nopCmd
    let l : List RingCmd := []
    let s : State := ringWith [heldSeg] [nopCmd]
    (s.ring r).cmds = c :: l ∧ (s.ring r).cancelled = [] ∧ c.phase ≠ .done :=
  by decide +kernel
theorem meets_ringCommandsAreFetchedStartedAndRetired_11 :
    let r : RingId := 0
    let b : Bytes := nopDesc
    let g : Seg := { count := 3 }
    let c : RingCmd := { idx := 0, seq := 2, desc := nopDesc }
    let s : State := ringWith [{ count := 3 }] [nopCmd]
    s.mayMaster = true ∧ s.ringState r = 1 ∧ (s.ring r).due = [] ∧ (s.ring r).cancelled = [] ∧ (s.ring r).cmds.length < (s.ring r).total ∧
      (aheadCmds (s.ring r).cmds).length < 16 ∧ segAt (s.ring r).segs (s.ring r).cmds.length = some g ∧ g.unlocked = false ∧ g.gone =
      false ∧ b.length = 64 ∧ 0 < s.ringSize r ∧ s.ringSize r ≤ 65536 ∧ c =
      { idx := s.fget Fd.ringPtrs_HEAD r, seq := s.reg .ringSeq r + (s.ring r).cmds.length + 1, desc := b } :=
  by decide +kernel
theorem meets_ringCommandsAreFetchedStartedAndRetired_12 :
    let r : RingId := 0
    let s : State := ringWith [{ count := 1 }] [nopCmd]
    (s.mayMaster = false ∨ (s.ring r).due = [] ∧ (s.ringState r = 0 ∨ s.ringState r = 2 ∨ (s.ring r).total ≤ (s.ring r).cmds.length ∨ 16 ≤
      (aheadCmds (s.ring r).cmds).length)) :=
  by decide +kernel
theorem meets_ringCommandsAreFetchedStartedAndRetired_13 :
    let r : RingId := 0
    let c : RingCmd := { nopCmd with desc := desc [1, 0, 0, 0, 0, 0, 0x10002, 0], phase := .checking, need := 4 }
    let d : HostRead := .timeout
    let s : State := ringWith [{ count := 2 }] [{ nopCmd with desc := desc [1, 0, 0, 0, 0, 0, 0x10002, 0], phase := .checking, need := 4 }]
    s.mayMaster = true ∧ (s.ring r).cmds = [c] ∧ (s.ring r).cancelled = [] ∧ c.need ≠ 0 ∧ c.phase = .checking ∧ (d = .timeout ∨ d =
      .refused) ∧ Quiet 4 0x1C s :=
  by decide +kernel
theorem meets_ringCommandsAreFetchedStartedAndRetired_14 :
    let r : RingId := 3
    let now : Nat := 0
    let s : State := ringWith [{ count := 1 }] [nopCmd]
    (s.advance now).nextRing ≠ some r.val :=
  by decide +kernel
theorem meets_ringCommandsAreFetchedStartedAndRetired_15 :
    let r : RingId := 0
    let now : Nat := 0
    let i : Nat := 1
    let c : RingCmd := { nopCmd with seq := 2 }
    let s : State := ringWith [{ count := 2 }] [{ nopCmd with phase := .running }, { nopCmd with seq := 2 }]
    (s.advance now).nextRing = some r.val ∧ (s.advance now).startable r = some (i, c) ∧ (c.opc = 6 ∨ s.foldFence (s.ringFold r) =
      FencePhase.none) :=
  by decide +kernel
theorem meets_ringCommandsAreFetchedStartedAndRetired_16 :
    let r : RingId := 0
    let g : Seg := { count := 1 }
    let c : RingCmd := { nopCmd with phase := .done, sig := some 0 }
    let s : State := ringWith [{ count := 1 }] [{ nopCmd with phase := .done, sig := some 0 }]
    s.ringState r = 1 ∧ (s.ring r).segs = [g] ∧ 0 < g.count ∧ g.held = false ∧ (s.ring r).cmds = [c] ∧ (s.ring r).cancelled = [] ∧ c.told
      = false ∧ c.phase = .done ∧ c.sig = some 0 ∧ c.irq = false ∧ s.mayMaster = true ∧ s.fon Fd.pcieStatus_LINK_UP = true ∧ Quiet 4
      0x1C s :=
  by decide +kernel
theorem meets_ringCommandsAreFetchedStartedAndRetired_17 :
    let r : RingId := 0
    let g : Seg := { count := 1 }
    let c : RingCmd := { nopCmd with desc := desc [1, 0, 0, 0, 0, 0, 0x10002, 0], phase := .done, addrs := [(4, 0xFFFF10000000FC08)] }
    let f : Nat := 0
    let n : Nat := 0
    let k : Nat := 1
    let off : Nat := 0xFC08
    let s : State := ringWith [{ count := 1 }] [{ nopCmd with desc := desc [1, 0, 0, 0, 0, 0, 0x10002, 0], phase := .done, addrs := [(4, 0xFFFF10000000FC08)] }]
    s.ringState r = 1 ∧ (s.ring r).segs = [g] ∧ 0 < g.count ∧ g.held = false ∧ g.late = false ∧ (s.ring r).cmds = [c] ∧ (s.ring
      r).cancelled = [] ∧ c.told = false ∧ c.phase = .done ∧ c.status = 0 ∧ c.sig = none ∧ c.sigHandle / 65536 % 65536 ≠ 0 ∧ c.sent =
      false ∧ nhas c.addrs 4 = true ∧ c.irq = false ∧ s.mayMaster = true ∧ s.fon Fd.pcieStatus_LINK_UP = true ∧ s.ringBusy r = false ∧
      s.sigPlace (s.ringFold r) (c.addr 4) = .counter true n k ∧ s.resolveFold (s.ringFold r) 2 (c.addr 4) false (.ring r) = .here f
      (.pantry n off) ∧ s.placeFenced f (.pantry n off) = false ∧ ctrOfOff off = some k ∧ nhas s.ctrPoison (ctrKey n k) = false :=
  by decide +kernel
theorem meets_ringCommandsAreFetchedStartedAndRetired_18 :
    let r : RingId := 0
    let now : Nat := 0
    let c : RingCmd := { nopCmd with phase := .done, status := 1, sig := some 0 }
    let s : State := (ringWith [] []).modRing 0 fun x => { x with cancelled := [{ nopCmd with phase := .done, status := 1, sig := some 0 }] }
    s.mayMaster = true ∧ (s.ring r).cancelled = [c] ∧ (s.ring r).cmds = [] ∧ (s.ring r).segs = [] ∧ c.sig = some 0 ∧ c.told = false ∧
      c.irq = false ∧ s.fon Fd.pcieStatus_LINK_UP = true ∧ now = s.now :=
  by decide +kernel
theorem meets_ringCommandsDoTheirWork_1 :
    let r : RingId := 0
    let c : RingCmd := { nopCmd with phase := .started }
    let s : State := ringWith [{ count := 1 }] [{ nopCmd with phase := .started }]
    (s.ring r).cmds = [c] ∧ c.phase = .started ∧ c.opc = 1 :=
  by decide +kernel
theorem meets_ringCommandsDoTheirWork_2 :
    let r : RingId := 0
    let n : CoreId := 3
    let c : RingCmd := { nopCmd with desc := desc [2, 0x10003, 0, 0, 0, 0, 0, 0], phase := .started }
    let s : State := ringWith [{ count := 1 }] [{ nopCmd with desc := desc [2, 0x10003, 0, 0, 0, 0, 0, 0], phase := .started }]
    (s.ring r).cmds = [c] ∧ c.phase = .started ∧ c.opc = 2 ∧ c.cores = [n.val] ∧ s.takesPart n = true ∧ (s.core n).parts.length < 4 ∧
      s.coreFence n = FencePhase.none ∧ s.fget Fd.corePwr_STATE n = 0 ∧ nhas s.ctrPoison (ctrKey n 63) = false :=
  by decide +kernel
theorem meets_ringCommandsDoTheirWork_3 :
    let r : RingId := 0
    let n : CoreId := 3
    let c : RingCmd := { nopCmd with desc := desc [2, 0x10003, 0, 0, 0, 0, 0, 0], phase := .started }
    let s : State := (ringWith [{ count := 1 }] [{ nopCmd with desc := desc [2, 0x10003, 0, 0, 0, 0, 0, 0], phase := .started }]).setMapBit .coresOut 3
    (s.ring r).cmds = [c] ∧ c.phase = .started ∧ c.opc = 2 ∧ c.cores = [n.val] ∧ s.takesPart n = false ∧ c.status < 8 :=
  by decide +kernel
theorem meets_ringCommandsDoTheirWork_4 :
    let r : RingId := 0
    let c : RingCmd := { nopCmd with desc := desc [2, 3, 0, 0, 0, 0, 0, 0], phase := .started }
    let s : State := ringWith [{ count := 1 }] [{ nopCmd with desc := desc [2, 3, 0, 0, 0, 0, 0, 0], phase := .started }]
    (s.ring r).cmds = [c] ∧ c.phase = .started ∧ c.opc = 2 ∧ c.cores = [] :=
  by decide +kernel
theorem meets_ringCommandsDoTheirWork_5 :
    let r : RingId := 0
    let c : RingCmd := { nopCmd with desc := desc [3, 0x10002, 0, 2, 0, 0, 0, 0], phase := .started, addrs := [(3, 0xFFFF10000000FC08)] }
    let k : Nat := 1
    let s : State := { (ringWith [{ count := 1 }] [{ nopCmd with desc := desc [3, 0x10002, 0, 2, 0, 0, 0, 0], phase := .started, addrs := [(3, 0xFFFF10000000FC08)] }]) with arr := [(1, 2)] }
    (s.ring r).cmds = [c] ∧ c.phase = .started ∧ c.opc = 3 ∧ s.waitCtr (s.ringFold r) c = some k ∧ s.coreFence (k / 64) = FencePhase.none
      ∧ nhas s.ctrPoison k = false ∧ c.word 3 ≤ s.ctr k :=
  by decide +kernel
theorem meets_ringCommandsDoTheirWork_6 :
    let r : RingId := 0
    let c : RingCmd := { nopCmd with desc := desc [3, 0x10002, 0, 2, 0, 0, 0, 0], phase := .started, addrs := [(3, 0xFFFF10000000FC08)] }
    let k : Nat := 1
    let s : State := ringWith [{ count := 1 }] [{ nopCmd with desc := desc [3, 0x10002, 0, 2, 0, 0, 0, 0], phase := .started, addrs := [(3, 0xFFFF10000000FC08)] }]
    (s.ring r).cmds = [c] ∧ c.phase = .started ∧ c.opc = 3 ∧ s.waitCtr (s.ringFold r) c = some k ∧ s.coreFence (k / 64) = FencePhase.none
      ∧ nhas s.ctrPoison k = false ∧ s.ctr k < c.word 3 ∧ nfind s.waiters (20000 + r) = none :=
  by decide +kernel
theorem meets_ringCommandsDoTheirWork_7 :
    let r : RingId := 0
    let c : RingCmd := { nopCmd with desc := desc [3, 0x10002, 0, 2, 0, 0, 0, 0], phase := .started, addrs := [(3, 0xFFFF10000000FC08)] }
    let k : Nat := 1
    let s : State := { (ringWith [{ count := 1 }] [{ nopCmd with desc := desc [3, 0x10002, 0, 2, 0, 0, 0, 0], phase := .started, addrs := [(3, 0xFFFF10000000FC08)] }]) with fences := [(0, .fencing)] }
    (s.ring r).cmds = [c] ∧ c.phase = .started ∧ c.opc = 3 ∧ s.waitCtr (s.ringFold r) c = some k ∧ s.coreFence (k / 64) ≠ FencePhase.none :=
  by decide +kernel
theorem meets_ringCommandsDoTheirWork_8 :
    let r : RingId := 0
    let f : Nat := 0
    let n : Nat := 0
    let off : Nat := 0x100
    let c : RingCmd := { nopCmd with desc := desc [4, 0x10002, 0, 0, 0, 0, 0, 0], phase := .started, start := 7, addrs := [(3, 0xFFFF100000000100)] }
    let s : State := ringWith [{ count := 1 }] [{ nopCmd with desc := desc [4, 0x10002, 0, 0, 0, 0, 0, 0], phase := .started, start := 7, addrs := [(3, 0xFFFF100000000100)] }]
    (s.ring r).cmds = [c] ∧ c.phase = .started ∧ c.opc = 4 ∧ c.sent = false ∧ s.ringBusy r = false ∧ s.resolveFold (s.ringFold r) 1
      (c.addr 3) false (.ring r) = .here f (.pantry n off) ∧ s.placeFenced f (.pantry n off) = false ∧ isCtrOff off = false ∧
      isRescueOff off = false :=
  by decide +kernel
theorem meets_ringCommandsDoTheirWork_9 :
    let r : RingId := 0
    let c : RingCmd := nullColl
    let d : RingCmd := { nopCmd with desc := desc [5, 0, 0, 0, 512, 0x7F000700010001, 0, 0], phase := .started, addrs := [(2, 0), (3, 0), (4, 0), (5, 0)] }
    let k : Nat := 0x10
    let s : State := ringWith [{ count := 1 }] [nullColl]
    (s.ring r).cmds = [c] ∧ c.phase = .started ∧ c.opc = 5 ∧ (c.coll r (s.ringFold r) (s.fget Fd.groupEpoch_EPOCH) s.elapsed).reserved
      (c.word 5) = false ∧
      (let n := (c.coll r (s.ringFold r) (s.fget Fd.groupEpoch_EPOCH) s.elapsed).spans s.devSec.memberCount (s.member.getD 0); s.relocate (s.ringFold r) (s.ringCtx r) none [⟨2, bits (c.word 1) 31 0, c.word 2, n.1, some 0⟩, ⟨3, bits (c.word 1) 63 32, c.word 3, n.2, some 1⟩, c.sigUse] c = (d, true))
      ∧ s.sigTarget (s.ringFold r) (s.ringCtx r) d = none ∧ s.collCheck (d.coll r (s.ringFold r) (s.fget Fd.groupEpoch_EPOCH)
      s.elapsed) = some k :=
  by decide +kernel
theorem meets_ringCommandsDoTheirWork_10 :
    let r : RingId := 0
    let c : RingCmd := collCmd
    let d : RingCmd := { collCmd with addrs := [(2, 0xFFFF100000000000), (3, 0xFFFF100000001000), (4, 0), (5, 0x8000)] }
    let x : Coll := collX
    let s : State := collState
    (s.ring r).cmds = [c] ∧ c.phase = .started ∧ c.opc = 5 ∧ (c.coll r (s.ringFold r) (s.fget Fd.groupEpoch_EPOCH) s.elapsed).reserved
      (c.word 5) = false ∧
      (let n := (c.coll r (s.ringFold r) (s.fget Fd.groupEpoch_EPOCH) s.elapsed).spans s.devSec.memberCount (s.member.getD 0); s.relocate (s.ringFold r) (s.ringCtx r) none [⟨2, bits (c.word 1) 31 0, c.word 2, n.1, some 0⟩, ⟨3, bits (c.word 1) 63 32, c.word 3, n.2, some 1⟩, c.sigUse] c = (d, true))
      ∧ s.sigTarget (s.ringFold r) (s.ringCtx r) d = none ∧ x = d.coll r (s.ringFold r) (s.fget Fd.groupEpoch_EPOCH) s.elapsed ∧
      s.collCheck x = none ∧ x.elems ≠ 0 ∧ s.colls = [] ∧ s.heldColls = [] ∧ (∀ m ∈ s.devSec.neighbours (s.member.getD 0), (s.collPort
      x.fold m 0).isSome = true) ∧ x.epoch < 2 ^ 32 :=
  by decide +kernel
theorem meets_ringCommandsDoTheirWork_11 :
    let r : RingId := 0
    let c : RingCmd := { nopCmd with desc := desc [6, 0x104, 0, 0, 0, 0, 0, 0], phase := .started }
    let e : Nat := 2
    let s : State := ringWith [{ count := 1 }] [{ nopCmd with desc := desc [6, 0x104, 0, 0, 0, 0, 0, 0], phase := .started }]
    (s.ring r).cmds = [c] ∧ c.phase = .started ∧ c.opc = 6 ∧ s.power = none ∧ s.powerWait = [] ∧ s.powerCheck (some (s.ringFold r)) (bits
      (c.word 1) 7 0) (bits (c.word 1) 47 32) (bits (c.word 1) 15 8) (bits (c.word 1) 23 16) = some e :=
  by decide +kernel
theorem meets_ringCommandsDoTheirWork_12 :
    let r : RingId := 0
    let c : RingCmd := { nopCmd with desc := desc [6, 0x500000101, 0, 0, 0, 0, 0, 0], phase := .started }
    let n : CoreId := 5
    let s : State := ringWith [{ count := 1 }] [{ nopCmd with desc := desc [6, 0x500000101, 0, 0, 0, 0, 0, 0], phase := .started }]
    (s.ring r).cmds = [c] ∧ c.phase = .started ∧ c.opc = 6 ∧ s.power = none ∧ s.powerWait = [] ∧ s.reset' = none ∧ s.underTest 1 n = false
      ∧ bits (c.word 1) 7 0 = 1 ∧ bits (c.word 1) 15 8 = 1 ∧ bits (c.word 1) 47 32 = n.val ∧ s.powerCheck (some (s.ringFold r)) 1 n 1
      (bits (c.word 1) 23 16) = none ∧ s.coreFence n = FencePhase.none :=
  by decide +kernel
theorem meets_ringCommandsDoTheirWork_13 :
    let r : RingId := 0
    let f : Nat := 0
    let p : Place := .pantry 0 0x100
    let c : RingCmd := { nopCmd with desc := desc [4, 0x10002, 0, 0, 0, 0, 0, 0], phase := .started, start := 7, addrs := [(3, 0xFFFF100000000100)] }
    let s : State := (ringWith [{ count := 1 }] [{ nopCmd with desc := desc [4, 0x10002, 0, 0, 0, 0, 0, 0], phase := .started, start := 7, addrs := [(3, 0xFFFF100000000100)] }]).setFence 0 .fenced
    (s.ring r).cmds = [c] ∧ c.phase = .started ∧ c.opc = 4 ∧ c.sent = false ∧ s.ringBusy r = false ∧ s.resolveFold (s.ringFold r) 1
      (c.addr 3) false (.ring r) = .here f p ∧ s.placeFenced f p = true :=
  by decide +kernel
theorem meets_ringCommandsDoTheirWork_14 :
    let r : RingId := 0
    let c : RingCmd := { nopCmd with desc := desc [3, 0x10002, 0, 2, 0, 0, 0, 0], phase := .started, addrs := [(3, 0xFFFF10000000FC08)] }
    let k : Nat := 1
    let w : Waiter := ⟨1, 2, some 2⟩
    let s : State := State.modRing { (ringWith [{ count := 1 }] [{ nopCmd with desc := desc [3, 0x10002, 0, 2, 0, 0, 0, 0], phase := .started, addrs := [(3, 0xFFFF10000000FC08)] }]) with waiters := [(20000, ⟨1, 2, some 2⟩)], ctrPoison := [(1, ())] } 0 fun x => x
    (s.ring r).cmds = [c] ∧ c.phase = .started ∧ c.opc = 3 ∧ s.waitCtr (s.ringFold r) c = some k ∧ s.coreFence (k / 64) = FencePhase.none
      ∧ nfind s.waiters (20000 + r) = some w ∧ w.hit.isSome = true :=
  by decide +kernel
theorem meets_ringCommandsDoTheirWork_15 :
    let r : RingId := 0
    let c : RingCmd := { nopCmd with desc := desc [3, 0x10002, 0, 2, 0, 0, 0, 0], phase := .started, addrs := [(3, 0xFFFF10000000FC08)] }
    let k : Nat := 1
    let s : State := State.modRing { (ringWith [{ count := 1 }] [{ nopCmd with desc := desc [3, 0x10002, 0, 2, 0, 0, 0, 0], phase := .started, addrs := [(3, 0xFFFF10000000FC08)] }]) with ctrPoison := [(1, ())] } 0 fun x => x
    (s.ring r).cmds = [c] ∧ c.phase = .started ∧ c.opc = 3 ∧ s.waitCtr (s.ringFold r) c = some k ∧ s.coreFence (k / 64) = FencePhase.none
      ∧ (∀ w, nfind s.waiters (20000 + r) = some w → w.hit = none) ∧ nhas s.ctrPoison k = true :=
  by decide +kernel
theorem meets_ringCommandsDoTheirWork_16 :
    let r : RingId := 0
    let n : CoreId := 3
    let c : RingCmd := { nopCmd with desc := desc [2, 0x10003, 0, 0, 0, 0, 0, 0], phase := .started }
    let s : State := (ringWith [{ count := 1 }] [{ nopCmd with desc := desc [2, 0x10003, 0, 0, 0, 0, 0, 0], phase := .started }]).modCore 3 fun k => { k with parts := List.replicate 4 { ring := 1, seq := 1 } }
    (s.ring r).cmds = [c] ∧ c.phase = .started ∧ c.opc = 2 ∧ n.val ∈ c.cores ∧ s.takesPart n = true ∧ 4 ≤ (s.core n).parts.length :=
  by decide +kernel
theorem meets_ringCommandsDoTheirWork_17 :
    let r : RingId := 0
    let n : CoreId := 3
    let c : RingCmd := { nopCmd with desc := desc [2, 0x10003, 0, 0, 0, 0, 0, 0], phase := .started }
    let s : State := (ringWith [{ count := 1 }] [{ nopCmd with desc := desc [2, 0x10003, 0, 0, 0, 0, 0, 0], phase := .started }]).setFence 3 .fencing
    (s.ring r).cmds = [c] ∧ c.phase = .started ∧ c.opc = 2 ∧ c.cores = [n.val] ∧ s.takesPart n = true ∧ (s.core n).parts.length < 4 ∧
      (s.coreFence n ≠ FencePhase.none ∨ s.fget Fd.corePwr_STATE n ≠ 0) ∧ c.status < 4 :=
  by decide +kernel
theorem meets_ringCommandsDoTheirWork_18 :
    let r : RingId := 0
    let n : CoreId := 3
    let m : CoreId := 4
    let c : RingCmd := { nopCmd with desc := desc [2, 0x20003, 0, 0, 0, 0, 0, 0], phase := .started }
    let s : State := (ringWith [{ count := 1 }] [{ nopCmd with desc := desc [2, 0x20003, 0, 0, 0, 0, 0, 0], phase := .started }])
    n ≠ m ∧ (s.ring r).cmds = [c] ∧ c.phase = .started ∧ c.opc = 2 ∧ c.cores = [n.val, m.val] ∧ (∀ k ∈ [n, m], s.takesPart k = true ∧
      (s.core k).parts.length < 4 ∧ s.coreFence k = FencePhase.none ∧ s.fget Fd.corePwr_STATE k = 0 ∧ nhas s.ctrPoison (ctrKey k 63) =
      false) :=
  by decide +kernel
theorem meets_ringCommandsDoTheirWork_19 :
    let r : RingId := 0
    let c : RingCmd := { nopCmd with desc := desc [6, 0x500000101, 0, 0, 0, 0, 0, 0], phase := .started }
    let p : PowerRun := runs 1 4 1 0 none
    let s : State := State.modRing { (ringWith [{ count := 1 }] [{ nopCmd with desc := desc [6, 0x500000101, 0, 0, 0, 0, 0, 0], phase := .started }]) with power := some (runs 1 4 1 0 none) } 0 fun x => x
    (s.ring r).cmds = [c] ∧ c.phase = .started ∧ c.opc = 6 ∧ s.power = some p ∧ (s.powerWait.any fun q => q.ring == some r.val) = false :=
  by decide +kernel
theorem meets_ringCommandsDoTheirWork_20 :
    let r : RingId := 0
    let s : State := img
    (∀ c ∈ (s.ring r).cmds, c.phase ≠ .started) :=
  by decide +kernel
theorem meets_ringsStartStopAndReset_1 :
    let src : Source := .host
    let r : RingId := 0
    let f : Nat := 0
    let s : State := ringOn.fset Fd.ringStatus_STATE 0 0
    s.shut src = false ∧ s.ringState r = 0 ∧ s.foldOfRing r = some f ∧ s.foldOfCtx (s.ringCtx r) = some f ∧ 16 ≤ s.ringSize r ∧ s.ringSize
      r ≤ 65536 :=
  by decide +kernel
theorem meets_ringsStartStopAndReset_2 :
    let src : Source := .host
    let r : RingId := 1
    let s : State := ringOn
    s.shut src = false ∧ s.ringState r = 0 ∧ (s.foldOfRing r = none ∨ s.foldOfCtx (s.ringCtx r) = s.foldOfRing r ∧ (s.ringSize r < 16 ∨
      65536 < s.ringSize r)) :=
  by decide +kernel
theorem meets_ringsStartStopAndReset_3 :
    let r : RingId := 0
    let s : State := ringOn
    s.shut .host = false ∧ s.ringState r ≠ 0 :=
  by decide +kernel
theorem meets_ringsStartStopAndReset_4 :
    let src : Source := .host
    let r : RingId := 0
    let s : State := ringWith [{ count := 2 }] []
    s.shut src = false ∧ s.ringState r = 1 ∧ (s.ring r).cmds = [] :=
  by decide +kernel
theorem meets_ringsStartStopAndReset_5 :
    let src : Source := .host
    let r : RingId := 0
    let c : RingCmd := { nopCmd with phase := .started }
    let d : RingCmd := { nopCmd with idx := 1, seq := 2 }
    let s : State := ringWith [{ count := 2 }] [{ nopCmd with phase := .started }, { nopCmd with idx := 1, seq := 2 }]
    s.shut src = false ∧ s.ringState r = 1 ∧ (s.ring r).cmds = [c, d] ∧ segHeld (s.ring r).segs 0 = false ∧ (c.phase = .started ∨ c.phase
      = .running ∨ c.phase = .done) ∧ d.phase = .ready :=
  by decide +kernel
theorem meets_ringsStartStopAndReset_6 :
    let src : Source := .host
    let r : RingId := 0
    let c : RingCmd := nopCmd
    let g : Seg := heldSeg
    let s : State := ringWith [heldSeg] [nopCmd]
    s.shut src = false ∧ (s.ringState r = 1 ∨ s.ringState r = 2) ∧ (s.ring r).cmds = [c] ∧ c.phase = .ready ∧ (s.ring r).segs = [g] ∧ 0 <
      g.count :=
  by decide +kernel
theorem meets_ringsStartStopAndReset_7 :
    let src : Source := .host
    let r : RingId := 0
    let s : State := (ringWith [heldSeg] [nopCmd]).fset Fd.ringStatus_STATE 0 0
    s.shut src = false ∧ s.ringState r = 0 :=
  by decide +kernel
theorem meets_ringsStartStopAndReset_8 :
    let src : Source := .host
    let c : CtxId := 0
    let v : Word32 := 0x80000010
    let s : State := ringOn
    s.shut src = false ∧ s.fon Fd.ctxHtCtl_ENABLE c = false ∧ v.toNat.testBit 31 = true ∧ (src = .host ∨ (s.foldOfCtx c).isSome = true) :=
  by decide +kernel
theorem meets_ringsStartStopAndReset_9 :
    let src : Source := .host
    let c : CtxId := 0
    let s : State := { ringOn with htCopies := [(2, 5), (3, 6)] }
    s.shut src = false ∧ s.fon Fd.ctxHtCtl_INVAL_BUSY c = false :=
  by decide +kernel
theorem meets_ringsStartStopAndReset_11 :
    let r : RingId := 0
    let s : State := ringOn.fset Fd.ringStatus_STATE 0 0
    s.shut .host = false ∧ s.ringState r ≠ 1 :=
  by decide +kernel
theorem meets_ringsStartStopAndReset_12 :
    let r : RingId := 0
    let s : State := ringOn.fset Fd.ringStatus_STATE 0 0
    s.shut .host = false ∧ s.ringState r ≠ 1 ∧ s.ringState r ≠ 2 :=
  by decide +kernel
theorem meets_ringsStartStopAndReset_13 :
    let r : RingId := 0
    let s : State := ringOn
    s.shut .host = false ∧ s.ringState r ≠ 0 :=
  by decide +kernel
theorem meets_ringsStartStopAndReset_14 :
    let src : Source := .host
    let r : RingId := 0
    let f : Nat := 0
    let s : State := State.modLife (ringOn.fset Fd.ringStatus_STATE 0 0) fun l => { l with image := some { oneFold with folds := oneFold.folds.map fun x => { x with ctxSet := 0 } } }
    s.shut src = false ∧ s.ringState r = 0 ∧ s.foldOfRing r = some f ∧ s.foldOfCtx (s.ringCtx r) ≠ some f :=
  by decide +kernel
theorem meets_ringsStartStopAndReset_15 :
    let src : Source := .host
    let r : RingId := 0
    let c : RingCmd := { nopCmd with desc := desc [1, 0, 0, 0, 0, 0, 0, 0], phase := .started }
    let g : Seg := { count := 2 }
    let s : State := ringWith [{ count := 2 }] [{ nopCmd with desc := desc [1, 0, 0, 0, 0, 0, 0, 0], phase := .started }]
    s.shut src = false ∧ (s.ringState r = 1 ∨ s.ringState r = 2) ∧ (s.ring r).cmds = [c] ∧ c.phase = .started ∧ (s.ring r).segs = [g] ∧ 0
      < g.count :=
  by decide +kernel
theorem meets_ringsStartStopAndReset_16 :
    let src : Source := .host
    let r : RingId := 0
    let c : RingCmd := { nopCmd with phase := .done }
    let l : List RingCmd := []
    let s : State := ringWith [heldSeg] [{ nopCmd with phase := .done }]
    s.shut src = false ∧ s.ringState r = 1 ∧ (s.ring r).cmds = c :: l ∧ (segHeld (s.ring r).segs 0 = true ∨ c.phase = .ready ∨ c.phase =
      .checking) :=
  by decide +kernel
theorem meets_ringsStartStopAndReset_17 :
    let c : CtxId := 0
    let s : State := ringOn.fset Fd.ctxHtCtl_INVAL_BUSY 1 0
    s.shut .host = false ∧ s.fon Fd.ctxHtCtl_INVAL_BUSY c = true :=
  by decide +kernel
theorem meets_ringsStartStopAndReset_18 :
    let c : CtxId := 0
    let r : RingId := 0
    let x : RingCmd := { nopCmd with need := 2, phase := .checking }
    let s : State := ringWith [{ count := 1 }] [{ nopCmd with need := 2, phase := .checking }]
    s.shut .host = false ∧ s.fon Fd.ctxHtCtl_INVAL_BUSY c = false ∧ s.ringCtx r = c.val ∧ (s.ring r).cmds = [x] ∧ x.need ≠ 0 :=
  by decide +kernel
theorem meets_ringsStartStopAndReset_19 :
    let c : CtxId := 0
    let v : Word32 := 5
    let s : State := ringOn
    s.shut .host = false ∧ (s.foldOfCtx c).isSome = true ∧ (s.fon Fd.ctxHtCtl_ENABLE c = true ∨ v.toNat.testBit 31 = false) :=
  by decide +kernel
theorem meets_lanesTrainDegradeAndReturn_1 :
    let p : PortId := 0
    let lane : Fin 4 := 0
    let rs : CodewordResult := .good
    let hdr : Nat := 0x3DC
    let m : Nat := 3
    let s : State := portIn 5
    s.portUp p = true ∧ rs ≠ .uncorrectable ∧ bits hdr 1 0 = 0 ∧ bits hdr 11 10 = lane.val ∧ (s.port p).lanes.length = 4 ∧ m = chooseLanes
      ((bits hdr 5 2).land (15 - (s.lanesOutOf p).lor (s.fget Fd.portStatus_LANES_FAILED p))) (s.port p).width ∧ m ≠ 0 :=
  by decide +kernel
theorem meets_lanesTrainDegradeAndReturn_2 :
    let p : PortId := 0
    let s : State := portIn 2
    s.portState p = 2 ∧ (s.port p).lanes.length = 4 :=
  by decide +kernel
theorem meets_lanesTrainDegradeAndReturn_3 :
    let p : PortId := 0
    let s : State := portIn 3
    (s.portState p = 0 ∨ s.portState p = 1 ∨ s.portState p = 3) :=
  by decide +kernel
theorem meets_lanesTrainDegradeAndReturn_4 :
    let p : PortId := 0
    let flits : List Bytes := []
    let s : State := (portIn 4).modPort 0 fun q => { q with lanes := [{}, { lock := true, fails := 2 }, {}, {}] }
    s.portUp p = true ∧ (s.port p).lanes.length = 4 ∧ (s.port p).round = none ∧ flits = [] :=
  by decide +kernel
theorem meets_lanesTrainDegradeAndReturn_5 :
    let p : PortId := 0
    let lane : Fin 4 := 0
    let rs : CodewordResult := .good
    let hdr : Nat := 0x3DD
    let s : State := portIn 5
    s.portUp p = true ∧ rs ≠ .uncorrectable ∧ (bits hdr 1 0 ≠ 0 ∨ bits hdr 11 10 ≠ lane.val) :=
  by decide +kernel
theorem meets_lanesTrainDegradeAndReturn_6 :
    let p : PortId := 0
    let lane : Fin 4 := 0
    let hdr : Nat := 0x3C0
    let s : State := portIn 5
    s.portUp p = true ∧ bits hdr 1 0 = 0 ∧ bits hdr 11 10 = lane.val ∧ (bits hdr 5 2).land (15 - (s.lanesOutOf p).lor (s.fget
      Fd.portStatus_LANES_FAILED p)) = 0 ∧ Quiet (portDie p) 0x14 s ∧ s.colls = [] :=
  by decide +kernel
theorem meets_lanesTrainDegradeAndReturn_7 :
    let p : PortId := 0
    let lane : Fin 4 := 1
    let hdr : Nat := 0xFF7FC
    let m : Nat := 15
    let flits : List Bytes := [[7]]
    let s : State := portIn 5
    s.portUp p = true ∧ bits hdr 1 0 = 0 ∧ bits hdr 11 10 = lane.val ∧ m = chooseLanes ((bits hdr 5 2).land (15 - (s.lanesOutOf p).lor
      (s.fget Fd.portStatus_LANES_FAILED p))) (s.port p).width ∧ m ≠ 0 ∧ flits ≠ [] ∧ (s.port p).rounds = [] ∧ (s.port p).round = none
      ∧ (∃ i : Fin 4, i ≠ lane ∧ (bits hdr 9 6).testBit i = true) :=
  by decide +kernel
theorem meets_lanesTrainDegradeAndReturn_8 :
    let p : PortId := 0
    let a : Fin 4 := 1
    let b : Fin 4 := 3
    let hdr : Nat := 0x5C00 + 0x280 + 0x3C
    let m : Nat := 15
    let n : Nat := 5
    let ack : Nat := 0
    let l : List Bytes := (List.range 10).map fun j => flitBytes 1 ((4090 + j) % 4096) 0 []
    let s : State := (portIn 5).modPort 0 fun q => { q with rxSeq := 4090, round := some 5, rounds := [⟨5, 1, 10, (List.range 5).map fun k => ((List.range 10).map fun j => flitBytes 1 ((4090 + j) % 4096) 0 []).getD (2 * k) []⟩] }
    s.portUp p = true ∧ s.colls = [] ∧ bits hdr 1 0 = 0 ∧ a < b ∧ bits hdr 11 10 = b.val ∧ bits hdr 9 6 = 2 ^ a.val + 2 ^ b.val ∧ bits hdr
      19 12 = n ∧ ack < 4096 ∧ m = chooseLanes ((bits hdr 5 2).land (15 - (s.lanesOutOf p).lor (s.fget Fd.portStatus_LANES_FAILED p)))
      (s.port p).width ∧ m ≠ 0 ∧ (s.port p).round = some n ∧ (s.port p).stream = [] ∧ (s.port p).unacked = [] ∧ (s.port p).rxSeq <
      4096 ∧ l = ((List.range 10).map fun j => flitBytes 1 (((s.port p).rxSeq + j) % 4096) ack []) ∧ (s.port p).rounds = [⟨n, a, bits
      hdr 9 6, (List.range 5).map fun k => l.getD (2 * k) []⟩] :=
  by decide +kernel
theorem meets_lanesTrainDegradeAndReturn_9 :
    let l : LaneRx := { lock := true, fails := 2 }
    l.lock = true :=
  by decide +kernel
theorem meets_lanesTrainDegradeAndReturn_10 :
    let l : LaneRx := { good := 2, seq := 255 }
    l.lock = false :=
  by decide +kernel
theorem meets_lanesTrainDegradeAndReturn_11 :
    let p : PortId := 0
    let lane : Fin 4 := 2
    let m : Nat := 3
    let s : State := laneLost
    ((s.port p).lanes.getD lane {}).lost = true ∧ (s.lanesOutOf p).testBit lane = false ∧ s.responseOf 0x13 ≤ 1 ∧ bit (s.reg .fcActive
      (portDie p)) 63 = false ∧ bit (s.reg .fcPending (portDie p)) 63 = false ∧ s.colls = [] ∧ s.portUp p = true ∧ m = chooseLanes
      ((s.fget Fd.portStatus_PEER_RX_GOOD p).land (15 - ((s.lanesOutOf p).lor (s.fget Fd.portStatus_LANES_FAILED p)).lor (2 ^
      lane.val))) (s.port p).width ∧ m ≠ 0 :=
  by decide +kernel
theorem meets_lanesTrainDegradeAndReturn_12 :
    let p : PortId := 0
    let lane : Fin 4 := 2
    let s : State := portIn 5
    (((s.port p).lanes.getD lane {}).lost = false ∨ (s.lanesOutOf p).testBit lane = true) :=
  by decide +kernel
theorem meets_lanesTrainDegradeAndReturn_13 :
    let p : PortId := 0
    let rx : Fin 16 := 7
    let tx : Fin 16 := 15
    let m : Nat := 15
    let r : Nat := 7
    let s : State := portIn 2
    s.portState p = 2 ∧ r = (rx.val.lor (s.lockedLanes p)).land (15 - s.lanesOutOf p) ∧ r ≠ 0 ∧ m = chooseLanes (tx.val.land (15 -
      (s.lanesOutOf p).lor (s.fget Fd.portStatus_LANES_FAILED p))) (s.port p).width ∧ m ≠ 0 :=
  by decide +kernel
theorem meets_lanesTrainDegradeAndReturn_14 :
    let p : PortId := 0
    let rx : Fin 16 := 0
    let tx : Fin 16 := 15
    let s : State := portIn 2
    s.portState p = 2 ∧ ((rx.val.lor (s.lockedLanes p)).land (15 - s.lanesOutOf p) = 0 ∨ tx.val.land (15 - (s.lanesOutOf p).lor (s.fget
      Fd.portStatus_LANES_FAILED p)) = 0) :=
  by decide +kernel
theorem meets_lanesTrainDegradeAndReturn_15 :
    let p : PortId := 0
    let s : State := portIn 3
    s.portState p ≠ 2 :=
  by decide +kernel
theorem meets_lanesTrainDegradeAndReturn_16 :
    let p : PortId := 0
    let now : Nat := 500000000
    let s : State := portIn 2
    s.portState p = 2 ∧ (s.port p).since + 500000000 ≤ (s.advance now).elapsed :=
  by decide +kernel
theorem meets_lanesTrainDegradeAndReturn_17 :
    let p : PortId := 0
    let now : Nat := 499999999
    let s : State := portIn 2
    (s.portState p ≠ 2 ∨ (s.advance now).elapsed < (s.port p).since + 500000000) :=
  by decide +kernel
theorem meets_lanesTrainDegradeAndReturn_18 :
    let p : PortId := 0
    let now : Nat := 1000000000
    let s : State := portIn 3
    s.portState p = 3 ∧ (s.port p).since + 1000000000 ≤ (s.advance now).elapsed :=
  by decide +kernel
theorem meets_lanesTrainDegradeAndReturn_19 :
    let p : PortId := 0
    let now : Nat := 999999999
    let s : State := portIn 3
    (s.portState p ≠ 3 ∨ (s.advance now).elapsed < (s.port p).since + 1000000000) :=
  by decide +kernel
theorem meets_lanesTrainDegradeAndReturn_20 :
    let src : Source := .host
    let p : PortId := 0
    let s : State := portIn 5
    s.shut src = false ∧ 2 ≤ s.portState p :=
  by decide +kernel
theorem meets_lanesTrainDegradeAndReturn_21 :
    let src : Source := .host
    let p : PortId := 0
    let s : State := portIn 1
    s.shut src = false ∧ s.portState p < 2 :=
  by decide +kernel
theorem meets_lanesTrainDegradeAndReturn_22 :
    let src : Source := .host
    let s : State := laneLost.mapOutLane 0 2
    s.shut src = false :=
  by decide +kernel
theorem meets_flitsCreditsAndResponses_1 :
    let p : PortId := 0
    let fseq : Nat := 4096
    let n : Nat := 15
    let s : State := (portIn 5).modPort 0 fun q => { q with unacked := [(0, []), (1, [])], txSeq := 2 }
    n ≤ 15 ∧ s.portUp p = true ∧ fseq % 4096 = (s.port p).rxSeq ∧ (s.port p).txq = [] ∧ (s.port p).stream = [] :=
  by decide +kernel
theorem meets_flitsCreditsAndResponses_2 :
    let p : PortId := 0
    let fseq : Nat := 0
    let ack : Nat := 0
    let typ : Nat := 1
    let l : List Word := [0x20001]
    let pkt : List Word := [0x20001]
    let c : Instr := .creditReceive 0 0x20001
    let s : State := portIn 5
    let u : State := match exec (.creditReceive 0 0x20001) (((portIn 5).flitHead 0 true 1 0 0).1.modPort 0 fun q => { q with stream := [] }) with | .next v => v | _ => img
    s.portUp p = true ∧ fseq % 4096 = (s.port p).rxSeq ∧ (s.port p).stream ++ l = pkt ∧ l ≠ [] ∧ packetLen (pkt.headD 0).toNat = some
      pkt.length ∧ slotBits pkt 0 7 0 = typ ∧ (typ, c) ∈ [(0x01, Instr.creditReceive p (pkt.headD 0)), (0x10, .loadRequest p pkt),
      (0x11, .storeRequest p pkt), (0x12, .storeMaskedRequest p pkt), (0x13, .signalRequest p pkt), (0x14, .atomicRequest p pkt),
      (0x20, .rspReceive p pkt)] ∧ exec c ((s.flitHead p true 1 fseq ack).1.modPort p fun q => { q with stream := [] }) = .next u ∧
      (u.port p).stream = [] :=
  ⟨by decide +kernel, by decide +kernel, by decide +kernel, by decide +kernel, by decide +kernel, by decide +kernel, by decide +kernel,
    next_of _ (by decide +kernel), by decide +kernel⟩
theorem meets_flitsCreditsAndResponses_3 :
    let p : PortId := 0
    let s : State := portIn 5
    s.portUp p = true ∧ (∀ x, (s.port p).nakAt = some x → x.1 ≠ (s.port p).rxSeq ∨ x.2 + 1000 ≤ s.elapsed) :=
  by decide +kernel
theorem meets_flitsCreditsAndResponses_4 :
    let p : PortId := 0
    let fseq : Nat := 5
    let s : State := (portIn 5).modPort 0 fun q => { q with nakAt := some (1, 0) }
    s.portUp p = true ∧ fseq % 4096 ≠ (s.port p).rxSeq ∧ (s.port p).txq = [] ∧ (∀ x, (s.port p).nakAt = some x → x.1 ≠ (s.port p).rxSeq ∨
      x.2 + 1000 ≤ s.elapsed) :=
  by decide +kernel
theorem meets_flitsCreditsAndResponses_5 :
    let p : PortId := 0
    let fseq : Nat := 5
    let k : Nat := 0
    let s : State := ((portIn 5).modPort 0 fun q => { q with nakAt := some (0, 0) }).advance 999
    s.portUp p = true ∧ fseq % 4096 ≠ (s.port p).rxSeq ∧ (s.port p).txq = [] ∧ (s.port p).nakAt = some ((s.port p).rxSeq, k) ∧ s.elapsed <
      k + 1000 :=
  by decide +kernel
theorem meets_flitsCreditsAndResponses_6 :
    let p : PortId := 0
    let s : State := (portIn 5).modPort 0 fun q => { q with unacked := [(0, []), (1, [])], txSeq := 2 }
    s.portUp p = true ∧ (s.port p).txq = [] :=
  by decide +kernel
theorem meets_flitsCreditsAndResponses_7 :
    let p : PortId := 0
    let ack : Nat := 1
    let f : List Word := List.replicate 15 0
    let rest : List (Nat × List Word) := (List.range 511).map fun i => (i + 1, [])
    let s : State := (portIn 5).modPort 0 fun q => { q with unacked := (List.range 512).map fun i => (i, []), txSeq := 512, txq := [List.replicate 15 0] }
    s.portUp p = true ∧ (s.port p).txq = [f] ∧ f.length = 15 ∧ rest = (s.port p).unacked.filter (fun u => !fseqBefore u.1 (ack % 4096)) ∧
      rest.length < (s.port p).unacked.length ∧ rest.length < 512 :=
  by decide +kernel
theorem meets_flitsCreditsAndResponses_8 :
    let p : PortId := 0
    let s : State := (portIn 5).modPort 0 fun q => { q with unacked := [(0, List.replicate 15 0), (1, List.replicate 15 0)], txSeq := 2 }
    s.portUp p = true :=
  by decide +kernel
theorem meets_flitsCreditsAndResponses_9 :
    let p : PortId := 0
    let s : State := portIn 5
    s.portUp p = true :=
  by decide +kernel
theorem meets_flitsCreditsAndResponses_10 :
    let p : PortId := 0
    let s : State := portIn 3
    s.portState p < 4 :=
  by decide +kernel
theorem meets_flitsCreditsAndResponses_11 :
    let p : PortId := 0
    let fseq : Nat := 1
    let l : List Word := List.replicate 15 0
    let rest : List (Nat × List Word) := [(2, List.replicate 15 7)]
    let s : State := (portIn 5).modPort 0 fun q => { q with unacked := [(1, List.replicate 15 0), (2, List.replicate 15 7)], txSeq := 3, replays := 15 }
    s.portUp p = true ∧ (s.port p).unacked = (fseq % 4096, l) :: rest ∧ (∀ u ∈ (s.port p).unacked, u.2.length = 15 ∧ fseqBefore u.1 fseq =
      false) ∧ (s.port p).replays < 16 :=
  by decide +kernel
theorem meets_flitsCreditsAndResponses_12 :
    let p : PortId := 0
    let fseq : Nat := 3
    let s : State := (portIn 5).modPort 0 fun q => { q with unacked := [(1, List.replicate 15 0), (2, List.replicate 15 0)], txSeq := 3 }
    s.portUp p = true ∧ (s.port p).txq = [] ∧ (∀ u ∈ (s.port p).unacked, fseqBefore u.1 (fseq % 4096) = true) :=
  by decide +kernel
theorem meets_flitsCreditsAndResponses_13 :
    let p : PortId := 0
    let fseq : Nat := 1
    let l : List Word := [5]
    let s : State := (portIn 5).modPort 0 fun q => { q with unacked := [(1, [5])], txSeq := 2, replays := 16 }
    s.portUp p = true ∧ (s.port p).unacked = [(fseq % 4096, l)] ∧ 16 ≤ (s.port p).replays ∧ Quiet (portDie p) 0x14 s ∧ s.colls = [] :=
  by decide +kernel
theorem meets_flitsCreditsAndResponses_14 :
    let p : PortId := 0
    let now : Nat := 4000
    let u : Nat × List Word := (1, List.replicate 15 0)
    let rest : List (Nat × List Word) := []
    let s : State := (portIn 5).modPort 0 fun q => { q with unacked := [(1, List.replicate 15 0)], txSeq := 2 }
    s.portUp p = true ∧ (s.port p).unacked = u :: rest ∧ (∀ x ∈ u :: rest, x.2.length = 15) ∧ (s.port p).replays < 16 ∧ (s.port p).oldest
      + 4000 ≤ (s.advance now).elapsed :=
  by decide +kernel
theorem meets_flitsCreditsAndResponses_15 :
    let p : PortId := 0
    let now : Nat := 3999
    let s : State := (portIn 5).modPort 0 fun q => { q with unacked := [(1, List.replicate 15 0)], txSeq := 2 }
    ((s.port p).unacked = [] ∨ s.portState p < 4 ∨ (s.advance now).elapsed < (s.port p).oldest + 4000) :=
  by decide +kernel
theorem meets_flitsCreditsAndResponses_16 :
    let p : PortId := 0
    let w : Word := 0x0030020010050001
    let s : State := portIn 5
    s.portUp p = true ∧ bits w.toNat 15 0 = 1 ∧ (s.port p).wait = [] :=
  by decide +kernel
theorem meets_flitsCreditsAndResponses_17 :
    let p : PortId := 0
    let w : Word := 0x20001
    let v : Nat := 0
    let slots : List Word := [0x10, 0]
    let s : State := (portIn 5).modPort 0 fun q => { q with txCred := [0, 0, 0, 0], wait := [(0, [0x10, 0])] }
    s.portUp p = true ∧ bits w.toNat 15 0 = 1 ∧ (s.port p).wait = [(v, slots)] ∧ packetVc ((slots.headD 0).toNat % 256) = some v ∧
      slotBits slots 0 7 0 ≠ 0x41 ∧ slots.length ≤ (s.port p).txCred.getD v 0 + bits w.toNat (27 + 12 * v) (16 + 12 * v) ∧ SendsNow p
      (slots.length / 15 + 1) s :=
  by decide +kernel
theorem meets_flitsCreditsAndResponses_18 :
    let p : PortId := 0
    let w : Word := 0x20001
    let v : Nat := 0
    let slots : List Word := [0x10, 0]
    let s : State := (portIn 5).modPort 0 fun q => { q with txCred := [0, 0, 0, 0], wait := [(0, [0x10, 0])], unacked := (List.range 512).map fun i => (i, []) }
    s.portUp p = true ∧ bits w.toNat 15 0 = 1 ∧ (s.port p).wait = [(v, slots)] ∧ packetVc ((slots.headD 0).toNat % 256) = some v ∧
      slotBits slots 0 7 0 ≠ 0x41 ∧ slots.length ≤ (s.port p).txCred.getD v 0 + bits w.toNat (27 + 12 * v) (16 + 12 * v) ∧ 512 ≤
      (s.port p).unacked.length :=
  by decide +kernel
theorem meets_flitsCreditsAndResponses_19 :
    let p : PortId := 0
    let w : Word := 0x10001
    let v : Nat := 0
    let slots : List Word := [0x10, 0]
    let s : State := (portIn 5).modPort 0 fun q => { q with txCred := [0, 0, 0, 0], wait := [(0, [0x10, 0])] }
    s.portUp p = true ∧ bits w.toNat 15 0 = 1 ∧ (s.port p).wait = [(v, slots)] ∧ packetVc ((slots.headD 0).toNat % 256) = some v ∧ (s.port
      p).txCred.getD v 0 + bits w.toNat (27 + 12 * v) (16 + 12 * v) < slots.length :=
  by decide +kernel
theorem meets_flitsCreditsAndResponses_20 :
    let p : PortId := 0
    let w : Word := 0x101
    let s : State := portIn 4
    s.portUp p = true ∧ bits w.toNat 7 0 = 1 ∧ bits w.toNat 15 8 ≠ 0 :=
  by decide +kernel
theorem meets_flitsCreditsAndResponses_21 :
    let p : PortId := 0
    let w : Word := 0x1
    let s : State := portIn 2
    (s.portUp p = false ∨ bits w.toNat 7 0 ≠ 1) :=
  by decide +kernel
theorem meets_flitsCreditsAndResponses_22 :
    let p : PortId := 0
    let l : List Word := rspSlots 7 0 0 [1, 2, 3, 4, 5, 6, 7, 8]
    let o : OutReq := ⟨.twin 0, 0x10, 0x1000, 8, 0, 0⟩
    let c : CoreId := 0
    let b : Requester := .twin 0
    let n : Nat := 0
    let s : State := awaitRsp
    s.portUp p = true ∧ slotBits l 0 7 0 = 0x20 ∧ l.length = 1 + slotBits l 0 15 8 ∧ slotBits l 0 15 8 ≤ 16 ∧ slotBits l 0 43 40 ≤ 3 ∧
      slotBits l 0 23 16 = 0 ∧ slotBits l 0 47 44 = 0 ∧ slotBits l 0 63 56 = 0 ∧ l.length ≤ (s.port p).rxCred.getD 1 0 ∧ nfind (s.port
      p).outst (slotBits l 0 39 24) = some o ∧ slotBits l 0 55 48 = s.fget Fd.portStatus_GEN p ∧ o.gen = s.fget Fd.portStatus_GEN p ∧
      o.by' = b ∧ (b = .twin c ∨ b = .engine c 1 n) ∧ (∀ e ∈ s.ports, e.2.fwd = []) ∧ SendsNow p 1 s :=
  by decide +kernel
theorem meets_flitsCreditsAndResponses_23 :
    let p : PortId := 0
    let l : List Word := rspSlots 7 1 0 [1, 2, 3, 4, 5, 6, 7, 8]
    let o : OutReq := ⟨.twin 0, 0x10, 0x1000, 8, 0, 0⟩
    let s : State := awaitRsp
    s.portUp p = true ∧ slotBits l 0 7 0 = 0x20 ∧ l.length = 1 + slotBits l 0 15 8 ∧ slotBits l 0 15 8 ≤ 16 ∧ slotBits l 0 43 40 ≤ 3 ∧
      slotBits l 0 23 16 = 0 ∧ slotBits l 0 47 44 = 0 ∧ slotBits l 0 63 56 = 0 ∧ l.length ≤ (s.port p).rxCred.getD 1 0 ∧ nfind (s.port
      p).outst (slotBits l 0 39 24) = some o ∧ (slotBits l 0 55 48 ≠ s.fget Fd.portStatus_GEN p ∨ o.gen ≠ s.fget Fd.portStatus_GEN p) :=
  by decide +kernel
theorem meets_flitsCreditsAndResponses_24 :
    let p : PortId := 0
    let l : List Word := rspSlots 7 0 0 [1, 2, 3, 4, 5, 6, 7, 8]
    let k : Nat := 5
    let s : State := (portIn 5).modPort 0 fun q => { q with retired := [(7, 5)] }
    s.portUp p = true ∧ slotBits l 0 7 0 = 0x20 ∧ l.length = 1 + slotBits l 0 15 8 ∧ slotBits l 0 15 8 ≤ 16 ∧ slotBits l 0 43 40 ≤ 3 ∧
      slotBits l 0 23 16 = 0 ∧ slotBits l 0 47 44 = 0 ∧ slotBits l 0 63 56 = 0 ∧ l.length ≤ (s.port p).rxCred.getD 1 0 ∧ nfind (s.port
      p).outst (slotBits l 0 39 24) = none ∧ nfind (s.port p).retired (slotBits l 0 39 24) = some k ∧ slotBits l 0 55 48 = s.fget
      Fd.portStatus_GEN p :=
  by decide +kernel
theorem meets_flitsCreditsAndResponses_25 :
    let p : PortId := 0
    let l : List Word := [0x120]
    let s : State := portIn 5
    s.portUp p = true ∧ slotBits l 0 7 0 = 0x20 ∧ (l.length ≠ 1 + slotBits l 0 15 8 ∨ 16 < slotBits l 0 15 8 ∨ 3 < slotBits l 0 43 40 ∨
      slotBits l 0 23 16 ≠ 0 ∨ slotBits l 0 47 44 ≠ 0 ∨ slotBits l 0 63 56 ≠ 0 ∨ (s.port p).rxCred.getD 1 0 < l.length) :=
  by decide +kernel
theorem meets_flitsCreditsAndResponses_26 :
    let p : PortId := 0
    let l : List Word := rspSlots 7 0 0 [1, 2, 3, 4, 5, 6, 7, 8]
    let s : State := portIn 3
    (s.portUp p = false ∨ slotBits l 0 7 0 ≠ 0x20) :=
  by decide +kernel
theorem meets_flitsCreditsAndResponses_27 :
    let p : PortId := 0
    let tag : Nat := 7
    let now : Nat := 10000000
    let o : OutReq := ⟨.twin 0, 0x10, 0x1000, 8, 0, 0⟩
    let c : CoreId := 0
    let b : Requester := .twin 0
    let n : Nat := 0
    let s : State := awaitRsp
    nfind (s.port p).outst tag = some o ∧ o.by' = b ∧ (b = .twin c ∨ b = .engine c 1 n) ∧ (∀ e ∈ s.ports, e.2.fwd = []) ∧ o.since +
      10000000 ≤ (s.advance now).elapsed ∧ Quiet (portDie p) 0x16 s :=
  by decide +kernel
theorem meets_flitsCreditsAndResponses_28 :
    let p : PortId := 0
    let tag : Nat := 7
    let now : Nat := 9999999
    let s : State := awaitRsp
    (∀ o, nfind (s.port p).outst tag = some o → (s.advance now).elapsed < o.since + 10000000) :=
  by decide +kernel
theorem meets_flitsCreditsAndResponses_29 :
    let p : PortId := 0
    let tag : Nat := 7
    let now : Nat := 20000000
    let k : Nat := 0
    let s : State := (portIn 5).modPort 0 fun q => { q with retired := [(7, 0)] }
    nfind (s.port p).retired tag = some k ∧ k + 20000000 ≤ (s.advance now).elapsed :=
  by decide +kernel
theorem meets_flitsCreditsAndResponses_30 :
    let p : PortId := 0
    let tag : Nat := 7
    let now : Nat := 19999999
    let s : State := (portIn 5).modPort 0 fun q => { q with retired := [(7, 0)] }
    (∀ k, nfind (s.port p).retired tag = some k → (s.advance now).elapsed < k + 20000000) :=
  by decide +kernel
theorem meets_flitsCreditsAndResponses_31 :
    let d : Domain := .core 3
    let tag : Nat := 5
    let n : Nat := 3
    let o : HostOp := HostOp.mk (.late 3) 0 0 0 8 [] 0 0 0 0 0 0 [] [] 0
    let c : CoreId := 3
    let f : FoldId := 0
    let s : State := { img with hostOps := [(5, HostOp.mk (.late 3) 0 0 0 8 [] 0 0 0 0 0 0 [] [] 0)] }
    (d = .core c ∧ n = c.val ∨ d = .fold f ∧ n = 288 + f.val) ∧ nfind s.hostOps tag = some o ∧ o.by' = .late n :=
  by decide +kernel
theorem meets_flitsCreditsAndResponses_32 :
    let d : Domain := .fold 2
    let tag : Nat := 5
    let n : Nat := 290
    let c : CoreId := 3
    let f : FoldId := 2
    let s : State := { img with hostOps := [(5, HostOp.mk (.late 289) 0 0 0 8 [] 0 0 0 0 0 0 [] [] 0)] }
    (d = .core c ∧ n = c.val ∨ d = .fold f ∧ n = 288 + f.val) ∧ (∀ o, nfind s.hostOps tag = some o → o.by' ≠ .late n) :=
  by decide +kernel
theorem meets_requestsOfMembersArePerformed_1 :
    let p : PortId := 0
    let l : List Word := [reqSlot 0x10 8 0, reqAddr 0x100]
    let f : Nat := 0
    let c : Nat := 0
    let off : Nat := 0x100
    let s : State := remoteIn.put (pantryKey 0 0x100) [1, 2, 3, 4, 5, 6, 7, 8]
    RemoteAccess p 0x10 l 0 f c off s :=
  by decide +kernel
theorem meets_requestsOfMembersArePerformed_2 :
    let p : PortId := 0
    let l : List Word := [reqSlot 0x11 4 0, reqAddr 0x104, 0x0807060504030201]
    let f : Nat := 0
    let c : Nat := 0
    let off : Nat := 0x104
    let n : Nat := 4
    let s : State := remoteIn
    RemoteAccess p 0x11 l 1 f c off s ∧ slotBits l 0 46 40 = 0x7F ∧ n = slotBits l 0 14 8 ∧ isCtrOff off = false ∧ isRescueOff off = false
      ∧ s.isPoison (pantryKey c off / 64) = false :=
  by decide +kernel
theorem meets_requestsOfMembersArePerformed_3 :
    let p : PortId := 0
    let l : List Word := [reqSlot 0x11 4 0 - BitVec.ofNat 64 (2 ^ 40 * 0x40), reqAddr 0x104, 0x0807060504030201]
    let f : Nat := 0
    let c : Nat := 0
    let off : Nat := 0x104
    let n : Nat := 4
    let k : Nat := 63
    let s : State := remoteIn
    RemoteAccess p 0x11 l 1 f c off s ∧ slotBits l 0 46 40 = k ∧ k < 64 ∧ n = slotBits l 0 14 8 ∧ isCtrOff off = false ∧ isRescueOff off =
      false ∧ s.isPoison (pantryKey c off / 64) = false ∧ nhas s.ctrPoison (ctrKey c k) = false :=
  by decide +kernel
theorem meets_requestsOfMembersArePerformed_4 :
    let p : PortId := 0
    let l : List Word := [reqSlot 0x12 64 0, reqAddr 0x100, 6, 0x0807060504030201, 0, 0, 0, 0, 0, 0, 0]
    let f : Nat := 0
    let c : Nat := 0
    let off : Nat := 0x100
    let s : State := remoteIn
    RemoteAccess p 0x12 l 1 f c off s ∧ slotBits l 0 46 40 = 0x7F ∧ off % 64 = 0 ∧ isCtrOff off = false ∧ isRescueOff off = false ∧
      s.isPoison (pantryKey c off / 64) = false :=
  by decide +kernel
theorem meets_requestsOfMembersArePerformed_5 :
    let p : PortId := 0
    let l : List Word := [reqSlot 0x13 8 0, reqAddr 0xFC10, 3]
    let f : Nat := 0
    let c : Nat := 0
    let off : Nat := 0xFC10
    let n : Nat := 2
    let s : State := remoteIn
    RemoteAccess p 0x13 l 2 f c off s ∧ ctrOfOff off = some n ∧ nhas s.ctrPoison (ctrKey c n) = false :=
  by decide +kernel
theorem meets_requestsOfMembersArePerformed_6 :
    let p : PortId := 0
    let l : List Word := [reqSlot 0x14 4 0, reqAddr 0x104, 5]
    let f : Nat := 0
    let c : Nat := 0
    let off : Nat := 0x104
    let n : Nat := 4
    let s : State := remoteIn.put (pantryKey 0 0x104) [255]
    RemoteAccess p 0x14 l 3 f c off s ∧ slotBits l 0 59 56 ≠ 9 ∧ n = slotBits l 0 14 8 ∧ isCtrOff off = false ∧ isRescueOff off = false ∧
      s.pantryPoison c off n = false :=
  by decide +kernel
theorem meets_requestsOfMembersArePerformed_7 :
    let p : PortId := 0
    let l : List Word := [reqSlot 0x14 8 9, reqAddr 0x108, 255, 7]
    let f : Nat := 0
    let c : Nat := 0
    let off : Nat := 0x108
    let old : Nat := 255
    let s : State := remoteIn.put (pantryKey 0 0x108) [255]
    RemoteAccess p 0x14 l 3 f c off s ∧ slotBits l 0 59 56 = 9 ∧ slotBits l 0 14 8 = 8 ∧ isCtrOff off = false ∧ isRescueOff off = false ∧
      s.pantryPoison c off 8 = false ∧ old = leNat (s.pantryBytes c off 8) :=
  by decide +kernel
theorem meets_requestsOfMembersArePerformed_8 :
    let p : PortId := 0
    let l : List Word := [reqSlot 0x14 4 9 + BitVec.ofNat 64 (2 ^ 19), reqAddr 0x104, BitVec.ofNat 64 (255 + 7 * 2 ^ 32), BitVec.ofNat 64 (7 + 9 * 2 ^ 32)]
    let f : Nat := 0
    let c : Nat := 0
    let off : Nat := 0x104
    let a : Nat := 7
    let b : Nat := 7
    let old : Nat := 255
    let x : Nat := 9
    let s : State := remoteIn.put (pantryKey 0 0x104) [255]
    RemoteAccess p 0x14 l 3 f c off s ∧ slotBits l 0 59 56 = 9 ∧ slotBits l 0 14 8 = 4 ∧ slotBits l 0 23 19 = 1 ∧ isCtrOff off = false ∧
      isRescueOff off = false ∧ s.pantryPoison c off 4 = false ∧ old = leNat (s.pantryBytes c off 4) ∧ a = (if old = slotBits l 2 31 0
      then slotBits l 2 63 32 else old) ∧ a = b ∧ x = (if b = slotBits l 3 31 0 then slotBits l 3 63 32 else b) :=
  by decide +kernel
theorem meets_requestsOfMembersArePerformed_9 :
    let p : PortId := 0
    let l : List Word := [reqSlot 0x10 8 0, reqAddr 0x100]
    let c : Instr := .loadRequest 0 [reqSlot 0x10 8 0, reqAddr 0x100]
    let typ : Nat := 0x10
    let f : Nat := 0
    let s : State := portIn 4
    (typ, c) ∈ requestRows p l ∧ s.portUp p = true ∧ slotBits l 0 7 0 = typ ∧ requestOk l = true ∧ l.length ≤ (s.port p).rxCred.getD 0 0 ∧
      (s.portState p = 4 ∨ s.portFence p ≠ FencePhase.none ∨ s.foldOfPort p = some f ∧ (s.foldFence f ≠ FencePhase.none ∨
      s.foldUpdating f = true)) ∧ (s.port p).wait = [] ∧ 1 ≤ (s.port p).txCred.getD 1 0 ∧ SendsNow p 2 s ∧ (∀ e ∈ s.ports, e.2.fwd =
      []) :=
  by decide +kernel
theorem meets_requestsOfMembersArePerformed_10 :
    let p : PortId := 0
    let l : List Word := [reqSlot 0x10 8 0, reqAddr 0x100]
    let c : Instr := .loadRequest 0 [reqSlot 0x10 8 0, reqAddr 0x100]
    let typ : Nat := 0x10
    let f : Nat := 0
    let k : Nat := 0
    let off : Nat := 0x100
    let s : State := { remoteIn with fences := [(0, .fenced)] }
    (typ, c) ∈ requestRows p l ∧ s.portState p = 5 ∧ slotBits l 0 7 0 = typ ∧ requestOk l = true ∧ l.length ≤ (s.port p).rxCred.getD 0 0 ∧
      s.portFence p = FencePhase.none ∧ s.foldOfPort p = some f ∧ s.foldFence f = FencePhase.none ∧ s.foldUpdating f = false ∧
      s.member = some (slotBits l 1 63 0 / 2 ^ 48) ∧ s.resolveRemote p (requestAct l).1.perm (slotBits l 1 63 0) = .here f (.pantry k
      off) ∧ isCtrOff off = false ∧ isRescueOff off = false ∧ typ ≠ 0x13 ∧ s.placeFenced f (.pantry k off) = true ∧ (s.port p).wait =
      [] ∧ 17 ≤ (s.port p).txCred.getD 1 0 ∧ SendsNow p 3 s ∧ (∀ e ∈ s.ports, e.2.fwd = []) :=
  by decide +kernel
theorem meets_requestsOfMembersArePerformed_11 :
    let p : PortId := 0
    let l : List Word := [reqSlot 0x10 8 0, BitVec.ofNat 64 (2 ^ 48)]
    let c : Instr := .loadRequest 0 [reqSlot 0x10 8 0, BitVec.ofNat 64 (2 ^ 48)]
    let typ : Nat := 0x10
    let f : Nat := 0
    let s : State := remoteIn
    (typ, c) ∈ requestRows p l ∧ s.portState p = 5 ∧ slotBits l 0 7 0 = typ ∧ requestOk l = true ∧ l.length ≤ (s.port p).rxCred.getD 0 0 ∧
      s.portFence p = FencePhase.none ∧ s.foldOfPort p = some f ∧ s.foldFence f = FencePhase.none ∧ s.foldUpdating f = false ∧
      s.member ≠ some (slotBits l 1 63 0 / 2 ^ 48) ∧ (s.port p).wait = [] ∧ 17 ≤ (s.port p).txCred.getD 1 0 ∧ SendsNow p 3 s ∧ (∀ e ∈
      s.ports, e.2.fwd = []) :=
  by decide +kernel
theorem meets_requestsOfMembersArePerformed_12 :
    let p : PortId := 0
    let q : PortId := 1
    let l : List Word := [reqSlot 0x10 8 0, reqAddr 0x100]
    let c : Instr := .loadRequest 0 [reqSlot 0x10 8 0, reqAddr 0x100]
    let typ : Nat := 0x10
    let f : Nat := 0
    let g : Nat := 0
    let a : Nat := 0x2100000000100
    let x : List Out := [Out.flit 0 (flitBytes 1 0 0 ([BitVec.ofNat 64 (1 + 2 * 2 ^ 16)] ++ List.replicate 14 0))]
    let s : State := forwardIn
    (typ, c) ∈ requestRows p l ∧ s.portState p = 5 ∧ slotBits l 0 7 0 = typ ∧ requestOk l = true ∧ l.length ≤ (s.port p).rxCred.getD 0 0 ∧
      s.portFence p = FencePhase.none ∧ s.foldOfPort p = some f ∧ s.foldFence f = FencePhase.none ∧ s.foldUpdating f = false ∧
      s.member = some (slotBits l 1 63 0 / 2 ^ 48) ∧ s.resolveRemote p (requestAct l).1.perm (slotBits l 1 63 0) = .away g a ∧
      slotBits l 0 18 16 < 7 ∧ s.groupPorts g (a / 2 ^ 48) = some [q.val] ∧ s.portFence q = FencePhase.none ∧ q ≠ p ∧ (s.port q).outst
      = [] ∧ (∀ e ∈ s.ports, e.2.outst = []) ∧ (s.port q).retired = [] ∧ (s.port q).wait = [] ∧ 34 ≤ (s.port q).txCred.getD 0 0 ∧
      SendsNow q 3 s ∧ SendsNow p 1 s ∧ (∀ e ∈ s.ports, e.2.fwd = []) ∧ Sent p [[BitVec.ofNat 64 (1 + l.length * 2 ^ 16)]] s
      { s with out := x } :=
  by delta Sent; decide +kernel
theorem meets_requestsOfMembersArePerformed_13 :
    let p : PortId := 0
    let q : PortId := 1
    let l : List Word := rspSlots 7 0 0 [1, 2, 3, 4, 5, 6, 7, 8]
    let o : OutReq := ⟨.forward 0 9 2, 0x10, 0x2100000000100, 8, 0, 0⟩
    let tag : Nat := 9
    let gen : Nat := 2
    let x : List Out := [Out.flit 1 (flitBytes 1 0 0 ([BitVec.ofNat 64 (1 + 2 * 2 ^ 28)] ++ List.replicate 14 0))]
    let s : State := (forwardIn.fset Fd.portStatus_STATE 5 1).modPort 1 fun q => { q with outst := [(7, ⟨.forward 0 9 2, 0x10, 0x2100000000100, 8, 0, 0⟩)] }
    s.portUp q = true ∧ slotBits l 0 7 0 = 0x20 ∧ l.length = 1 + slotBits l 0 15 8 ∧ slotBits l 0 15 8 ≤ 16 ∧ slotBits l 0 43 40 ≤ 3 ∧
      slotBits l 0 23 16 = 0 ∧ slotBits l 0 47 44 = 0 ∧ slotBits l 0 63 56 = 0 ∧ l.length ≤ (s.port q).rxCred.getD 1 0 ∧ nfind (s.port
      q).outst (slotBits l 0 39 24) = some o ∧ slotBits l 0 55 48 = s.fget Fd.portStatus_GEN q ∧ o.gen = s.fget Fd.portStatus_GEN q ∧
      o.by' = .forward p tag gen ∧ o.typ = 0x10 ∧ o.len = 8 * slotBits l 0 15 8 ∧ o.len ≤ 64 ∧ s.portState p = 5 ∧ p ≠ q ∧ (s.port
      p).wait = [] ∧ 9 ≤ (s.port p).txCred.getD 1 0 ∧ SendsNow p 1 s ∧ SendsNow q 1 s ∧ (∀ e ∈ s.ports, e.2.fwd = []) ∧ Sent q
      [[BitVec.ofNat 64 (1 + l.length * 2 ^ 28)]] s { s with out := x } :=
  by delta Sent; decide +kernel
theorem meets_requestsOfMembersArePerformed_14 :
    let p : PortId := 0
    let l : List Word := [0x1F]
    let c : Instr := .loadRequest 0 [0x1F]
    let typ : Nat := 0x10
    let s : State := portIn 5
    (typ, c) ∈ requestRows p l ∧ s.portUp p = true ∧ (knownType (slotBits l 0 7 0) = false ∨ slotBits l 0 7 0 = typ ∧ (requestOk l = false
      ∨ (s.port p).rxCred.getD 0 0 < l.length)) :=
  by decide +kernel
theorem meets_requestsOfMembersArePerformed_15 :
    let p : PortId := 0
    let l : List Word := [0x20]
    let c : Instr := .loadRequest 0 [0x20]
    let typ : Nat := 0x10
    let s : State := portIn 5
    (typ, c) ∈ requestRows p l ∧ (s.portUp p = false ∨ knownType (slotBits l 0 7 0) = true ∧ slotBits l 0 7 0 ≠ typ) :=
  by decide +kernel
theorem meets_membersAgree_1 :
    let p : PortId := 0
    let now : Nat := 7
    let s : State := portIn 4
    s.portUp p = true ∧ ((s.port p).lastTx ≠ s.agreement ∨ (s.port p).agreeTx + 100000000 ≤ (s.advance now).elapsed) ∧ (s.port p).wait =
      [] ∧ 8 ≤ (s.port p).txCred.getD 3 0 ∧ SendsNow p 1 s :=
  by decide +kernel
theorem meets_membersAgree_2 :
    let p : PortId := 0
    let now : Nat := 7
    let s : State := (portIn 4).modPort 0 fun q => { q with txCred := [0, 0, 0, 7] }
    s.portUp p = true ∧ ((s.port p).lastTx ≠ s.agreement ∨ (s.port p).agreeTx + 100000000 ≤ (s.advance now).elapsed) ∧ (s.port
      p).txCred.getD 3 0 < 8 :=
  by decide +kernel
theorem meets_membersAgree_3 :
    let p : PortId := 0
    let now : Nat := 7
    let s : State := portIn 3
    ((s.port p).lastTx = s.agreement ∧ (s.advance now).elapsed < (s.port p).agreeTx + 100000000 ∨ s.portUp p = false) :=
  by decide +kernel
theorem meets_membersAgree_4 :
    let s : State := { portIn 5 with life := { (portIn 5).life with image := some { oneFold with memberIndex := 0xFFFF } } }
    s.member.getD 0 < 2 ^ 16 :=
  by decide +kernel
theorem meets_membersAgree_5 :
    let p : PortId := 0
    let l : List Word := peerRecord (portIn 4)
    let s : State := (portIn 4).modPort 0 fun q => { q with lastTx := [1] }
    s.portState p = 4 ∧ slotBits l 0 7 0 = 0x40 ∧ agreeOk l = true ∧ 8 ≤ (s.port p).rxCred.getD 3 0 ∧ s.judge p l = 1 ∧ (s.port p).lastTx
      ≠ [] ∧ s.colls = [] ∧ SendsNow p 1 s :=
  by decide +kernel
theorem meets_membersAgree_6 :
    let p : PortId := 0
    let l : List Word := (peerRecord (portIn 4)).set 3 5
    let r : Nat := 3
    let s : State := portIn 4
    s.portState p = 4 ∧ slotBits l 0 7 0 = 0x40 ∧ agreeOk l = true ∧ 8 ≤ (s.port p).rxCred.getD 3 0 ∧ s.judge p l = r ∧ (r ≠ 1 ∨ (s.port
      p).lastTx = []) ∧ SendsNow p 1 s :=
  by decide +kernel
theorem meets_membersAgree_7 :
    let p : PortId := 0
    let l : List Word := (peerRecord (portIn 5)).set 7 9
    let s : State := portIn 5
    s.portState p = 5 ∧ slotBits l 0 7 0 = 0x40 ∧ agreeOk l = true ∧ 8 ≤ (s.port p).rxCred.getD 3 0 ∧ s.judge p l = 1 ∧ SendsNow p 1 s :=
  by decide +kernel
theorem meets_membersAgree_8 :
    let p : PortId := 0
    let l : List Word := (peerRecord (portIn 5)).set 3 5
    let s : State := portIn 5
    s.portState p = 5 ∧ slotBits l 0 7 0 = 0x40 ∧ agreeOk l = true ∧ 8 ≤ (s.port p).rxCred.getD 3 0 ∧ s.judge p l ≠ 1 ∧ s.colls = [] ∧
      Quiet (portDie p) 0x14 s :=
  by decide +kernel
theorem meets_membersAgree_9 :
    let p : PortId := 0
    let l : List Word := [0x0840]
    let s : State := portIn 4
    s.portUp p = true ∧ slotBits l 0 7 0 = 0x40 ∧ (agreeOk l = false ∨ (s.port p).rxCred.getD 3 0 < l.length) :=
  by decide +kernel
theorem meets_membersAgree_10 :
    let p : PortId := 0
    let l : List Word := peerRecord (portIn 4)
    let s : State := portIn 2
    (s.portUp p = false ∨ slotBits l 0 7 0 ≠ 0x40) :=
  by decide +kernel
theorem meets_membersAgree_11 :
    let l : List Word := [0x0840]
    let s : State := portIn 4
    (s.hasImage = false ∨ slotBits l 0 48 48 = 0) :=
  by decide +kernel
theorem meets_membersAgree_12 :
    let l : List Word := peerRecord (portIn 5)
    let s : State := portIn 5
    s.hasImage = true ∧ slotBits l 0 48 48 = 1 :=
  by decide +kernel
theorem meets_membersAgree_13 :
    let p : PortId := 0
    let now : Nat := 350000000
    let k : Nat := 0
    let s : State := (portIn 5).modPort 0 fun q => { q with agreeAt := some 0 }
    s.portState p = 5 ∧ (s.port p).agreeAt = some k ∧ k + 350000000 ≤ (s.advance now).elapsed ∧ Quiet (portDie p) 0x14 s ∧ s.colls = [] :=
  by decide +kernel
theorem meets_membersAgree_14 :
    let p : PortId := 0
    let now : Nat := 349999999
    let k : Nat := 0
    let s : State := (portIn 5).modPort 0 fun q => { q with agreeAt := some 0 }
    (s.portState p ≠ 5 ∨ (s.port p).agreeAt = some k ∧ (s.advance now).elapsed < k + 350000000) :=
  by decide +kernel
theorem meets_membersAgree_15 :
    let src : Source := .host
    let s : State := (portIn 5).modPort 0 fun q => { q with agreeRx := [0, 0, 0, 0, 0, 0, 0, 5] }
    s.shut src = false :=
  by decide +kernel
theorem meets_collectivesExchangeSegments_1 :
    let p : PortId := 0
    let l : List Word := collSlots 2 0 1 7 0 0x1001 0 0 0 []
    let i : Nat := 0
    let m : Nat := 1
    let x : Coll := collX
    let s : State := openColl collX
    CollPacket p 2 l s ∧ s.collOfId (slotBits l 0 55 40) = some (i, x) ∧ s.coll i = some x ∧ x.mismatch l = none ∧ m = slotBits l 0 39 24
      ∧ x.sends = [] ∧ x.writes = [] :=
  by decide +kernel
theorem meets_collectivesExchangeSegments_2 :
    let p : PortId := 0
    let l : List Word := collSlots 2 0 1 9 0 0x1001 0 0 0 []
    let h : HeldColl := ⟨9, 0, 1, 2, collSlots 2 0 1 9 0 0x1001 0 0 0 []⟩
    let s : State := openColl collX
    CollPacket p 2 l s ∧ s.collOfId (slotBits l 0 55 40) = none ∧ h = ⟨slotBits l 0 55 40, slotBits l 1 31 0, slotBits l 0 39 24, 2, l⟩ ∧
      s.heldColls.all (fun y => !(y.id == h.id && y.src == h.src && y.kind == h.kind)) = true ∧ s.heldColls.length ≤ 16 :=
  by decide +kernel
theorem meets_collectivesExchangeSegments_3 :
    let p : PortId := 0
    let q : PortId := 2
    let l : List Word := collSlots 2 0 3 7 0 0x1001 0 0 0 []
    let i : Nat := 0
    let x : Coll := { collX with sends := [(3, 0, collSlots 1 0 0 7 0 0x1001 2 0 0 [5])] }
    let m : Nat := 3
    let pk : List Word := collSlots 1 0 0 7 0 0x1001 2 0 0 [5]
    let y : List Out := [Out.flit 0 (flitBytes 1 0 0 ([BitVec.ofNat 64 (1 + 3 * 2 ^ 40)] ++ List.replicate 14 0))]
    let s : State := openColl { collX with sends := [(3, 0, collSlots 1 0 0 7 0 0x1001 2 0 0 [5])] }
    CollPacket p 2 l s ∧ s.collOfId (slotBits l 0 55 40) = some (i, x) ∧ s.coll i = some x ∧ x.mismatch l = none ∧ m = slotBits l 0 39 24
      ∧ x.opened = [] ∧ x.sends = [(m, 0, pk)] ∧ x.writes = [] ∧ s.collPort x.fold m 0 = some q.val ∧ q ≠ p ∧ (s.port q).wait = [] ∧
      slotBits pk 0 7 0 = 0x30 ∧ pk.length + 3 ≤ (s.port q).txCred.getD 2 0 ∧ SendsNow p 1 s ∧ SendsNow q 18 s ∧ pk.length ≤ 255 ∧
      Sent p [[BitVec.ofNat 64 (1 + l.length * 2 ^ 40)]] s { s with out := y } :=
  by delta Sent; decide +kernel
theorem meets_collectivesExchangeSegments_4 :
    let p : PortId := 0
    let l : List Word := collSlots 0 0 3 7 0 0x1001 2 0 2 [0x400000003F800000]
    let i : Nat := 0
    let seg : Nat := 2
    let v : List Nat := [fpOne, fpTwo]
    let w : List Nat := [fpOne, fpTwo]
    let x : Coll := threeSegs
    let s : State := openColl threeSegs
    CollPacket p 0 l s ∧ s.collOfId (slotBits l 0 55 40) = some (i, x) ∧ s.coll i = some x ∧ x.mismatch l = none ∧ x.kind ≤ 2 ∧ seg =
      slotBits l 2 63 0 ∧ slotBits l 0 22 20 = 0 ∧ s.devSec.levelCount = 1 ∧ 2 ≤ s.devSec.ringSize 0 ∧ 2 ≤ s.devSec.place seg 0
      (s.member.getD 0) ∧ slotBits l 0 39 24 = s.devSec.step 0 (s.member.getD 0) (!segUp seg) ∧ nhas x.inbox (lvlKey seg 0) = false ∧
      nhas x.folded (lvlKey seg 0) = false ∧ nhas x.vals (lvlKey seg 1) = false ∧ nfind x.vals (lvlKey seg 0) = some v ∧ w =
      (List.range (x.len seg)).map (fun j => leNat (((slotBytes (l.drop 3)).drop (4 * j)).take 4)) ∧ x.opened = [] ∧ x.writes = [] :=
  by decide +kernel
theorem meets_collectivesExchangeSegments_5 :
    let p : PortId := 0
    let l : List Word := collSlots 0 0 3 7 0 0x1001 2 0 0 [0x400000003F800000]
    let i : Nat := 0
    let seg : Nat := 0
    let n : Nat := 8
    let f : Nat := 0
    let c : Nat := 0
    let off : Nat := 0x1000
    let v : List Nat := [fpOne, fpTwo]
    let w : List Nat := [fpOne, fpTwo]
    let b : Bytes := leBytes 4 0x40000000 ++ leBytes 4 0x40800000
    let x : Coll := { collX with elems := 2, vals := [(lvlKey 0 0, [fpOne, fpTwo])] }
    let s : State := openColl { collX with elems := 2, vals := [(lvlKey 0 0, [fpOne, fpTwo])] }
    CollPacket p 0 l s ∧ s.collOfId (slotBits l 0 55 40) = some (i, x) ∧ s.coll i = some x ∧ x.mismatch l = none ∧ x.kind = 1 ∧ seg =
      slotBits l 2 63 0 ∧ slotBits l 0 22 20 = 0 ∧ s.devSec.levelCount = 1 ∧ 2 ≤ s.devSec.ringSize 0 ∧ s.devSec.place seg 0
      (s.member.getD 0) = 0 ∧ slotBits l 0 39 24 = s.devSec.step 0 (s.member.getD 0) (!segUp seg) ∧ nhas x.inbox (lvlKey seg 0) =
      false ∧ nhas x.folded (lvlKey seg 0) = false ∧ nhas x.vals (lvlKey seg 1) = false ∧ nhas x.fins seg = false ∧ nfind x.vals
      (lvlKey seg 0) = some v ∧ w = (List.range (x.len seg)).map (fun j => leNat (((slotBytes (l.drop 3)).drop (4 * j)).take 4)) ∧ b =
      ((w.zip v).map fun (a, e) => (tureenOp x.rop a e).bits).flatMap (fun a => leBytes x.outB (finish x.outFmt 0 0 [fp32 a] (fp32
      a)).bits) ∧ n = b.length ∧ 0 < n ∧ x.opened = [] ∧ x.writes = [] ∧ x.sends = [] ∧ x.arr = 0x7F ∧ x.dstAt s.devSec.memberCount
      seg % 64 + n ≤ 64 ∧ s.resolveFold x.fold 1 (x.dstAt s.devSec.memberCount seg) false (.ring x.ring) = .here f (.pantry c off) ∧
      s.placeFenced f (.pantry c off) = false ∧ isCtrOff off = false ∧ isRescueOff off = false ∧ s.isPoison (pantryKey c off / 64) =
      false ∧ s.replies = [] ∧ s.inFlight (.coll x.ring i (2 ^ 60 + x.dstAt s.devSec.memberCount seg)) = false :=
  by decide +kernel
theorem meets_collectivesExchangeSegments_6 :
    let p : PortId := 0
    let l : List Word := collSlots 0 0 3 8 0 0x1001 2 0 2 [0x400000003F800000]
    let k : Nat := 0
    let f : Bool := false
    let c : Instr := .collPartial 0 (collSlots 0 0 3 8 0 0x1001 2 0 2 [0x400000003F800000]) false
    let s : State := openColl threeSegs
    (k, c) ∈ collRows p l f ∧ k ≤ 1 ∧ CollPacket p k l s ∧ s.collOfId (slotBits l 0 55 40) = none :=
  by decide +kernel
theorem meets_collectivesExchangeSegments_7 :
    let p : PortId := 0
    let l : List Word := collSlots 1 0 3 7 0 0x1001 2 0 2 [0x400000003F800000]
    let i : Nat := 0
    let seg : Nat := 2
    let n : Nat := 8
    let f : Nat := 0
    let c : Nat := 0
    let off : Nat := 0x1800
    let x : Coll := threeSegs
    let s : State := openColl threeSegs
    CollPacket p 1 l s ∧ s.collOfId (slotBits l 0 55 40) = some (i, x) ∧ s.coll i = some x ∧ x.mismatch l = none ∧ (x.kind = 1 ∨ x.kind =
      3) ∧ seg = slotBits l 2 63 0 ∧ slotBits l 0 22 20 = 0 ∧ s.devSec.levelCount = 1 ∧ 2 ≤ s.devSec.ringSize 0 ∧ s.devSec.place seg 0
      (s.member.getD 0) ≠ 0 ∧ slotBits l 0 39 24 = s.devSec.step 0 (s.member.getD 0) (!segUp seg) ∧ nhas x.fins seg = false ∧ x.opened
      = [] ∧ x.writes = [] ∧ x.sends = [] ∧ x.arr = 0x7F ∧ n = x.len seg * x.outB ∧ x.dstAt s.devSec.memberCount seg % 64 + n ≤ 64 ∧
      s.resolveFold x.fold 1 (x.dstAt s.devSec.memberCount seg) false (.ring x.ring) = .here f (.pantry c off) ∧ s.placeFenced f
      (.pantry c off) = false ∧ isCtrOff off = false ∧ isRescueOff off = false ∧ s.isPoison (pantryKey c off / 64) = false ∧ s.replies
      = [] ∧ s.inFlight (.coll x.ring i (2 ^ 60 + x.dstAt s.devSec.memberCount seg)) = false :=
  by decide +kernel
theorem meets_collectivesExchangeSegments_8 :
    let p : PortId := 0
    let l : List Word := collSlots 2 0 1 9 0 0x1001 0 0 0 []
    let k : Nat := 2
    let f : Bool := false
    let c : Instr := .collOpen 0 (collSlots 2 0 1 9 0 0x1001 0 0 0 [])
    let s : State := noFoldPort
    (k, c) ∈ collRows p l f ∧ s.portUp p = true ∧ slotBits l 0 7 0 = 0x30 ∧ collOk l = true ∧ slotBits l 0 19 16 = k ∧ l.length ≤ (s.port
      p).rxCred.getD 2 0 ∧ s.foldOfPort p = none :=
  by decide +kernel
theorem meets_collectivesExchangeSegments_9 :
    let p : PortId := 0
    let l : List Word := collSlots 2 0 1 9 0 0x1001 0 0 0 []
    let k : Nat := 2
    let f : Bool := false
    let c : Instr := .collOpen 0 (collSlots 2 0 1 9 0 0x1001 0 0 0 [])
    let s : State := portIn 4
    (k, c) ∈ collRows p l f ∧ s.portState p = 4 ∧ slotBits l 0 7 0 = 0x30 ∧ collOk l = true ∧ slotBits l 0 19 16 = k ∧ l.length ≤ (s.port
      p).rxCred.getD 2 0 ∧ (s.foldOfPort p).isSome = true ∧ SendsNow p 1 s :=
  by decide +kernel
theorem meets_collectivesExchangeSegments_10 :
    let p : PortId := 0
    let l : List Word := [0x0330]
    let k : Nat := 3
    let f : Bool := false
    let c : Instr := .collAbort 0 [0x0330]
    let s : State := portIn 5
    (k, c) ∈ collRows p l f ∧ s.portUp p = true ∧ slotBits l 0 7 0 = 0x30 ∧ (collOk l = false ∨ slotBits l 0 19 16 = k ∧ (s.port
      p).rxCred.getD 2 0 < l.length) :=
  by decide +kernel
theorem meets_collectivesExchangeSegments_11 :
    let p : PortId := 0
    let l : List Word := collSlots 2 0 1 9 0 0x1001 0 0 0 []
    let k : Nat := 3
    let f : Bool := true
    let c : Instr := .collAbort 0 (collSlots 2 0 1 9 0 0x1001 0 0 0 [])
    let s : State := portIn 5
    (k, c) ∈ collRows p l f ∧ (s.portUp p = false ∨ slotBits l 0 7 0 ≠ 0x30 ∨ collOk l = true ∧ slotBits l 0 19 16 ≠ k) :=
  by decide +kernel
theorem meets_collectivesExchangeSegments_12 :
    let i : Nat := 0
    let seg : Nat := 1
    let v : List Nat := [fpOne, fpTwo]
    let x : Coll := { twoSegs with vals := [(lvlKey 1 0, [fpOne, fpTwo])] }
    let s : State := openColl { twoSegs with vals := [(lvlKey 1 0, [fpOne, fpTwo])] }
    s.coll i = some x ∧ x.kind ≤ 2 ∧ seg < x.segs ∧ s.devSec.levelCount = 1 ∧ 2 ≤ s.devSec.ringSize 0 ∧ s.devSec.place seg 0
      (s.member.getD 0) = 1 ∧ nhas x.folded (lvlKey seg 0) = false ∧ nhas x.vals (lvlKey seg 1) = false ∧ nfind x.vals (lvlKey seg 0)
      = some v ∧ x.opened = [] ∧ x.writes = [] :=
  by decide +kernel
theorem meets_collectivesExchangeSegments_13 :
    let i : Nat := 0
    let seg : Nat := 1
    let a : Nat := 0xFFFF100000000400
    let n : Nat := 8
    let f : Nat := 0
    let c : Nat := 0
    let off : Nat := 0x400
    let x : Coll := twoSegs
    let s : State := (openColl twoSegs).put (pantryKey 0 0x400) [1, 2, 3, 4, 5, 6, 7, 8]
    s.coll i = some x ∧ x.kind ≤ 2 ∧ seg < x.segs ∧ s.devSec.levelCount = 1 ∧ 2 ≤ s.devSec.ringSize 0 ∧ s.devSec.place seg 0
      (s.member.getD 0) = 1 ∧ nhas x.folded (lvlKey seg 0) = false ∧ nhas x.vals (lvlKey seg 1) = false ∧ nhas x.vals (lvlKey seg 0) =
      false ∧ x.opened = [] ∧ x.writes = [] ∧ a = x.srcAt s.devSec.memberCount seg ∧ n = x.len seg * x.inB ∧ a % 64 + n ≤ 64 ∧ nhas
      x.reads a = false ∧ s.resolveFold x.fold 0 a false (.ring x.ring) = .here f (.pantry c off) ∧ s.placeFenced f (.pantry c off) =
      false ∧ s.pantryPoison c off n = false ∧ s.replies = [] ∧ s.inFlight (.coll x.ring i a) = false :=
  by decide +kernel
theorem meets_collectivesExchangeSegments_14 :
    let i : Nat := 0
    let seg : Nat := 0
    let a : Nat := 0xFFFF100000000000
    let n : Nat := 8
    let f : Nat := 0
    let c : Nat := 0
    let off : Nat := 0
    let g : Nat := 0
    let k : Nat := 0
    let dst : Nat := 0x1000
    let b : Bytes := [1, 2, 3, 4, 5, 6, 7, 8]
    let x : Coll := { collX with kind := 3, elems := 8, inFmt := 0, outFmt := 0 }
    let s : State := (openColl { collX with kind := 3, elems := 8, inFmt := 0, outFmt := 0 }).put (pantryKey 0 0) [1, 2, 3, 4, 5, 6, 7, 8]
    s.coll i = some x ∧ x.kind = 3 ∧ seg < x.segs ∧ s.devSec.levelCount = 1 ∧ 2 ≤ s.devSec.ringSize 0 ∧ s.member = some (s.devSec.owner
      seg) ∧ nhas x.fins seg = false ∧ x.opened = [] ∧ x.writes = [] ∧ x.sends = [] ∧ x.arr = 0x7F ∧ a = x.srcAt s.devSec.memberCount
      seg ∧ n = x.len seg ∧ a % 64 + n ≤ 64 ∧ nhas x.reads a = false ∧ s.resolveFold x.fold 0 a false (.ring x.ring) = .here f
      (.pantry c off) ∧ s.placeFenced f (.pantry c off) = false ∧ s.pantryPoison c off n = false ∧ b = s.pantryBytes c off n ∧ x.dstAt
      s.devSec.memberCount seg % 64 + n ≤ 64 ∧ s.resolveFold x.fold 1 (x.dstAt s.devSec.memberCount seg) false (.ring x.ring) = .here
      g (.pantry k dst) ∧ s.placeFenced g (.pantry k dst) = false ∧ isCtrOff dst = false ∧ isRescueOff dst = false ∧ s.isPoison
      (pantryKey k dst / 64) = false ∧ s.replies = [] ∧ s.inFlight (.coll x.ring i a) = false ∧ s.inFlight (.coll x.ring i (2 ^ 60 +
      x.dstAt s.devSec.memberCount seg)) = false :=
  by decide +kernel
theorem meets_collectivesExchangeSegments_15 :
    let i : Nat := 0
    let seg : Nat := 2
    let x : Coll := collX
    let s : State := openColl collX
    (s.coll i = none ∨ s.coll i = some x ∧ x.segs ≤ seg) :=
  by decide +kernel
theorem meets_collectivesExchangeSegments_16 :
    let i : Nat := 0
    let now : Nat := 1000000
    let m : Nat := 3
    let p : PortId := 2
    let x : Coll := { collX with opened := [1] }
    let s : State := openColl { collX with opened := [1] }
    s.coll i = some x ∧ x.lastOpen + 1000000 ≤ (s.advance now).elapsed ∧ (s.devSec.neighbours (s.member.getD 0)).filter (fun k =>
      !x.opened.contains k) = [m] ∧ s.collPort x.fold m 0 = some p.val ∧ (s.port p).wait = [] ∧ 6 ≤ (s.port p).txCred.getD 2 0 ∧
      SendsNow p 1 s :=
  by decide +kernel
theorem meets_collectivesExchangeSegments_17 :
    let i : Nat := 0
    let now : Nat := 1000000
    let x : Coll := { collX with opened := [1, 3] }
    let s : State := openColl { collX with opened := [1, 3] }
    s.coll i = some x ∧ x.lastOpen + 1000000 ≤ (s.advance now).elapsed ∧ (∀ m ∈ s.devSec.neighbours (s.member.getD 0), x.opened.contains m
      = true ∨ s.collPort x.fold m 0 = none) :=
  by decide +kernel
theorem meets_collectivesExchangeSegments_18 :
    let q : Fin 4 := 0
    let i : Nat := 0
    let now : Nat := 999999
    let x : Coll := collX
    let s : State := openColl collX
    (q ≠ 0 ∨ s.coll i = none ∨ s.coll i = some x ∧ (s.advance now).elapsed < x.lastOpen + 1000000) :=
  by decide +kernel
theorem meets_collectivesEnd_1 :
    let i : Fin 8 := 0
    let x : Coll := { collX with fins := [(0, ()), (1, ())] }
    let c : RingCmd := { collCmd with phase := .running }
    let s : State := openColl { collX with fins := [(0, ()), (1, ())] }
    s.colls = [(i.val, x)] ∧ x.writes = [] ∧ x.sends = [] ∧ ((List.range x.segs).all fun g => s.segFinished x g) = true ∧ (s.ring
      x.ring).cmds = [c] ∧ c.seq = x.seq ∧ c.phase = .running :=
  by decide +kernel
theorem meets_collectivesEnd_2 :
    let i : Nat := 0
    let x : Coll := { collX with sends := [(1, 0, [])] }
    let s : State := openColl { collX with sends := [(1, 0, [])] }
    s.coll i = some x ∧ x.writes = [] ∧ (x.sends ≠ [] ∧ x.opened = [] ∨ x.sends = [] ∧ ((List.range x.segs).all fun g => s.segFinished x
      g) = false) :=
  by decide +kernel
theorem meets_collectivesEnd_3 :
    let i : Nat := 1
    let s : State := openColl collX
    s.coll i = none :=
  by decide +kernel
theorem meets_collectivesEnd_4 :
    let p : PortId := 0
    let l : List Word := collSlots 3 0 1 7 0 0x1001 0 4 0 []
    let i : Fin 8 := 0
    let x : Coll := collX
    let c : RingCmd := { collCmd with phase := .running }
    let s : State := openColl collX
    CollPacket p 3 l s ∧ s.colls = [(i.val, x)] ∧ x.id = slotBits l 0 55 40 ∧ (s.ring x.ring).cmds = [c] ∧ c.seq = x.seq ∧ c.phase =
      .running :=
  by decide +kernel
theorem meets_collectivesEnd_5 :
    let p : PortId := 0
    let l : List Word := collSlots 3 0 1 9 0 0x1001 0 4 0 []
    let h : HeldColl := ⟨9, 0, 1, 3, collSlots 3 0 1 9 0 0x1001 0 4 0 []⟩
    let s : State := openColl collX
    CollPacket p 3 l s ∧ s.collOfId (slotBits l 0 55 40) = none ∧ h = ⟨slotBits l 0 55 40, slotBits l 1 31 0, slotBits l 0 39 24, 3, l⟩ ∧
      s.heldColls.all (fun y => !(y.id == h.id && y.src == h.src && y.kind == h.kind)) = true ∧ s.heldColls.length ≤ 16 :=
  by decide +kernel
theorem meets_collectivesEnd_6 :
    let p : PortId := 0
    let l : List Word := collSlots 2 0 1 7 1 0x1001 0 0 0 []
    let k : Nat := 2
    let e : Nat := 3
    let f : Bool := false
    let a : Instr := .collOpen 0 (collSlots 2 0 1 7 1 0x1001 0 0 0 [])
    let i : Fin 8 := 0
    let x : Coll := collX
    let c : RingCmd := { collCmd with phase := .running }
    let s : State := openColl collX
    (k, a) ∈ collRows p l f ∧ k ≤ 2 ∧ CollPacket p k l s ∧ s.colls = [(i.val, x)] ∧ x.id = slotBits l 0 55 40 ∧ (slotBits l 1 31 0 ≠
      x.epoch ∧ e = 3 ∨ slotBits l 1 31 0 = x.epoch ∧ e = 4 ∧ (slotBits l 1 47 32 ≠ x.shape ∨ k ≤ 1 ∧ (x.segs ≤ slotBits l 2 63 0 ∨
      slotBits l 1 58 48 ≠ x.len (slotBits l 2 63 0)))) ∧ (s.ring x.ring).cmds = [c] ∧ c.seq = x.seq ∧ c.phase = .running :=
  by decide +kernel
theorem meets_collectivesEnd_7 :
    let p : PortId := 0
    let l : List Word := collSlots 0 0 3 7 0 0x1001 2 0 2 [0x400000003F800000]
    let seg : Nat := 2
    let v : List Nat := [fpOne, fpTwo]
    let i : Fin 8 := 0
    let x : Coll := threeSegs
    let c : RingCmd := { collCmd with phase := .running }
    let s : State := openColl threeSegs
    CollPacket p 0 l s ∧ s.colls = [(i.val, x)] ∧ x.id = slotBits l 0 55 40 ∧ x.mismatch l = none ∧ x.kind ≤ 2 ∧ seg = slotBits l 2 63 0 ∧
      slotBits l 0 22 20 = 0 ∧ s.devSec.levelCount = 1 ∧ 2 ≤ s.devSec.ringSize 0 ∧ s.devSec.place seg 0 (s.member.getD 0) ≠ 1 ∧
      slotBits l 0 39 24 = s.devSec.step 0 (s.member.getD 0) (!segUp seg) ∧ nhas x.inbox (lvlKey seg 0) = false ∧ nhas x.folded
      (lvlKey seg 0) = false ∧ nhas x.vals (lvlKey seg 1) = false ∧ nfind x.vals (lvlKey seg 0) = some v ∧ (s.ring x.ring).cmds = [c]
      ∧ c.seq = x.seq ∧ c.phase = .running ∧ Quiet (seg % 4) 0x0F s :=
  by decide +kernel
theorem meets_collectivesEnd_8 :
    let i : Fin 8 := 0
    let seg : Nat := 1
    let a : Nat := 0xFFFF100000000400
    let n : Nat := 8
    let f : Nat := 0
    let k : Nat := 0
    let off : Nat := 0x400
    let x : Coll := twoSegs
    let c : RingCmd := { collCmd with phase := .running }
    let s : State := (openColl twoSegs).setPoison (pantryKey 0 0x400 / 64) true
    s.colls = [(i.val, x)] ∧ x.kind ≤ 2 ∧ seg < x.segs ∧ s.devSec.levelCount = 1 ∧ 2 ≤ s.devSec.ringSize 0 ∧ s.devSec.place seg 0
      (s.member.getD 0) = 1 ∧ nhas x.folded (lvlKey seg 0) = false ∧ nhas x.vals (lvlKey seg 1) = false ∧ nhas x.vals (lvlKey seg 0) =
      false ∧ a = x.srcAt s.devSec.memberCount seg ∧ n = x.len seg * x.inB ∧ a % 64 + n ≤ 64 ∧ nhas x.reads a = false ∧ s.resolveFold
      x.fold 0 a false (.ring x.ring) = .here f (.pantry k off) ∧ s.placeFenced f (.pantry k off) = false ∧ s.pantryPoison k off n =
      true ∧ s.replies = [] ∧ s.inFlight (.coll x.ring i a) = false ∧ (s.ring x.ring).cmds = [c] ∧ c.seq = x.seq ∧ c.phase = .running :=
  by decide +kernel
theorem meets_collectivesEnd_9 :
    let i : Fin 8 := 0
    let now : Nat := 1000000000
    let x : Coll := collX
    let c : RingCmd := { collCmd with phase := .running }
    let s : State := openColl collX
    s.colls = [(i.val, x)] ∧ x.lastRx + 1000000000 ≤ (s.advance now).elapsed ∧ (s.ring x.ring).cmds = [c] ∧ c.seq = x.seq ∧ c.phase =
      .running :=
  by decide +kernel
theorem meets_collectivesEnd_10 :
    let i : Fin 8 := 0
    let now : Nat := 1000000000
    let m : Nat := 1
    let n : Nat := 3
    let p : PortId := 0
    let q : PortId := 2
    let x : Coll := collX
    let y : List Out := [Out.flit 0 (flitBytes 1 0 0 (collSlots 3 0 0 7 0 0x1001 0 5 0 [] ++ List.replicate 12 0))]
    let s : State := openColl collX
    s.colls = [(i.val, x)] ∧ x.lastRx + 1000000000 ≤ (s.advance now).elapsed ∧ s.devSec.neighbours (s.member.getD 0) = [m, n] ∧ s.collPort
      x.fold m 0 = some p.val ∧ s.collPort x.fold n 0 = some q.val ∧ p ≠ q ∧ (s.port p).wait = [] ∧ (s.port q).wait = [] ∧ 3 ≤ (s.port
      p).txCred.getD 2 0 ∧ 3 ≤ (s.port q).txCred.getD 2 0 ∧ SendsNow p 1 s ∧ SendsNow q 1 s ∧ Sent p [collSlots 3 0 (s.member.getD 0)
      x.id x.epoch x.shape 0 5 0 []] s { s with out := y } :=
  by delta Sent; decide +kernel
theorem meets_collectivesEnd_11 :
    let i : Nat := 0
    let now : Nat := 999999999
    let x : Coll := collX
    let s : State := openColl collX
    (s.coll i = none ∨ s.coll i = some x ∧ (s.advance now).elapsed < x.lastRx + 1000000000) :=
  by decide +kernel
theorem meets_quartzFollowsItsLeader_1 :
    let p : PortId := 0
    let now : Nat := 0
    let s : State := timeIn 0 3
    s.hasImage = true ∧ s.devSec.timePorts.testBit p = true ∧ s.portState p = 5 ∧ (∀ r, nfind s.time.reqs (100 + p.val) = some r → r.getD
      0 0 + 1000000 ≤ (s.advance now).elapsed) ∧ (s.port p).wait = [] ∧ 6 ≤ (s.port p).txCred.getD 3 0 ∧ SendsNow p 1 s :=
  by decide +kernel
theorem meets_quartzFollowsItsLeader_2 :
    let p : PortId := 0
    let now : Nat := 999999
    let k : Nat := 0
    let s : State := { timeIn 0 3 with time := { reqs := [(100, [0])] } }
    (s.hasImage = false ∨ s.devSec.timePorts.testBit p = false ∨ s.portState p ≠ 5 ∨ (nfind s.time.reqs (100 + p.val)).map (fun l =>
      l.getD 0 0) = some k ∧ (s.advance now).elapsed < k + 1000000) :=
  by decide +kernel
theorem meets_quartzFollowsItsLeader_3 :
    let p : PortId := 0
    let l : List Word := timeSlots 0 9 77 0
    let now : Nat := 0
    let h : State := ((timeIn 0 3).acceptPacket 0 (timeSlots 0 9 77 0)).1.hear 0 (timeSlots 0 9 77 0)
    let s : State := timeIn 0 3
    s.portUp p = true ∧ s.hasImage = true ∧ timeOk 0 l = true ∧ 6 ≤ (s.port p).rxCred.getD 3 0 ∧ (s.port p).wait = [] ∧ 6 ≤ (s.port
      p).txCred.getD 3 0 ∧ SendsNow p 2 s ∧ h = (((s.advance now).acceptPacket p l).1).hear p l :=
  by decide +kernel
theorem meets_quartzFollowsItsLeader_4 :
    let p : PortId := 0
    let l : List Word := timeSlots 1 9 77 0
    let c : Instr := .timeReq 0 (timeSlots 1 9 77 0) 0 0 0
    let k : Nat := 0
    let rx : Nat := 0
    let rxf : Nat := 0
    let now : Nat := 0
    let s : State := timeIn 0 3
    (k, c) ∈ [(0, Instr.timeReq p l rx rxf now), (1, .timeRsp p l rx rxf now)] ∧ s.portUp p = true ∧ s.hasImage = true ∧ slotBits l 0 7 0
      = 0x41 ∧ (timeOk k l = false ∨ (s.port p).rxCred.getD 3 0 < 6 ∧ l.length = 6) :=
  by decide +kernel
theorem meets_quartzFollowsItsLeader_5 :
    let p : PortId := 0
    let s : State := portIn 2
    (s.portUp p = false ∨ s.hasImage = false) :=
  by decide +kernel
theorem meets_quartzFollowsItsLeader_6 :
    let p : PortId := 0
    let l : List Word := timeSlots 1 4 1900 1500
    let t1 : Nat := 1000
    let f1 : Nat := 0
    let k : Nat := 1000
    let rx : Nat := 2000
    let rxf : Nat := 0
    let now : Nat := 2000
    let off : Int := 200 * 65536
    let h : State := (((follower 3).advance 2000).acceptPacket 0 (timeSlots 1 4 1900 1500)).1.hear 0 (timeSlots 1 4 1900 1500)
    let s : State := follower 3
    s.portUp p = true ∧ s.hasImage = true ∧ timeOk 1 l = true ∧ 6 ≤ (s.port p).rxCred.getD 3 0 ∧ h = (((s.advance now).acceptPacket p
      l).1).hear p l ∧ nfind h.time.reqs p = some [slotBits l 0 39 24, t1, f1, k] ∧ (s.advance now).elapsed ≤ k + 2000000 ∧ h.fget
      Fd.quartzStatus_PARENT_PORT = p.val ∧ (h.qState = 3 ∨ h.qState = 4 ∨ h.qState = 5 ∨ h.qState = 6) ∧ off = ((((65536 * slotBits l
      4 63 0 + slotBits l 5 31 16 : Nat) : Int) - (65536 * t1 + f1 : Nat)) - (((65536 * rx + rxf : Nat) : Int) - (65536 * slotBits l 3
      63 0 + slotBits l 5 15 0 : Nat))).tdiv 2 ∧ off.natAbs ≤ 65536000 :=
  by decide +kernel
theorem meets_quartzFollowsItsLeader_7 :
    let p : PortId := 0
    let l : List Word := timeSlots 1 4 6000 6000
    let t1 : Nat := 1000
    let f1 : Nat := 0
    let k : Nat := 1000
    let rx : Nat := 2000
    let rxf : Nat := 0
    let now : Nat := 2000
    let off : Int := 4500 * 65536
    let h : State := (((follower 3).advance 2000).acceptPacket 0 (timeSlots 1 4 6000 6000)).1.hear 0 (timeSlots 1 4 6000 6000)
    let s : State := follower 3
    s.portUp p = true ∧ s.hasImage = true ∧ timeOk 1 l = true ∧ 6 ≤ (s.port p).rxCred.getD 3 0 ∧ h = (((s.advance now).acceptPacket p
      l).1).hear p l ∧ nfind h.time.reqs p = some [slotBits l 0 39 24, t1, f1, k] ∧ (s.advance now).elapsed ≤ k + 2000000 ∧ h.fget
      Fd.quartzStatus_PARENT_PORT = p.val ∧ (h.qState = 3 ∨ h.qState = 4) ∧ off = ((((65536 * slotBits l 4 63 0 + slotBits l 5 31 16 :
      Nat) : Int) - (65536 * t1 + f1 : Nat)) - (((65536 * rx + rxf : Nat) : Int) - (65536 * slotBits l 3 63 0 + slotBits l 5 15 0 :
      Nat))).tdiv 2 ∧ 65536000 < off :=
  by decide +kernel
theorem meets_quartzFollowsItsLeader_8 :
    let p : PortId := 0
    let l : List Word := timeSlots 1 4 0 0
    let t1 : Nat := 1000
    let f1 : Nat := 0
    let k : Nat := 1000
    let rx : Nat := 2000
    let rxf : Nat := 0
    let now : Nat := 2000
    let off : Int := (-1500) * 65536
    let h : State := (((follower 4).advance 2000).acceptPacket 0 (timeSlots 1 4 0 0)).1.hear 0 (timeSlots 1 4 0 0)
    let s : State := follower 4
    s.portUp p = true ∧ s.hasImage = true ∧ timeOk 1 l = true ∧ 6 ≤ (s.port p).rxCred.getD 3 0 ∧ h = (((s.advance now).acceptPacket p
      l).1).hear p l ∧ nfind h.time.reqs p = some [slotBits l 0 39 24, t1, f1, k] ∧ (s.advance now).elapsed ≤ k + 2000000 ∧ h.fget
      Fd.quartzStatus_PARENT_PORT = p.val ∧ (h.qState = 3 ∨ h.qState = 4) ∧ off = ((((65536 * slotBits l 4 63 0 + slotBits l 5 31 16 :
      Nat) : Int) - (65536 * t1 + f1 : Nat)) - (((65536 * rx + rxf : Nat) : Int) - (65536 * slotBits l 3 63 0 + slotBits l 5 15 0 :
      Nat))).tdiv 2 ∧ off < -65536000 :=
  by decide +kernel
theorem meets_quartzFollowsItsLeader_9 :
    let p : PortId := 0
    let l : List Word := timeSlots 1 5 1900 1500
    let now : Nat := 2000
    let h : State := (((follower 3).advance 2000).acceptPacket 0 (timeSlots 1 5 1900 1500)).1.hear 0 (timeSlots 1 5 1900 1500)
    let s : State := follower 3
    s.portUp p = true ∧ s.hasImage = true ∧ timeOk 1 l = true ∧ 6 ≤ (s.port p).rxCred.getD 3 0 ∧ h = (((s.advance now).acceptPacket p
      l).1).hear p l ∧ (∀ r, nfind h.time.reqs p = some r → r.getD 0 0 ≠ slotBits l 0 39 24) :=
  by decide +kernel
theorem meets_quartzFollowsItsLeader_10 :
    let p : PortId := 0
    let l : List Word := timeSlots 1 4 1900 1500
    let now : Nat := 2001001
    let r : List Nat := [4, 1000, 0, 1000]
    let h : State := (((follower 3).advance 2001001).acceptPacket 0 (timeSlots 1 4 1900 1500)).1.hear 0 (timeSlots 1 4 1900 1500)
    let s : State := follower 3
    s.portUp p = true ∧ s.hasImage = true ∧ timeOk 1 l = true ∧ 6 ≤ (s.port p).rxCred.getD 3 0 ∧ h = (((s.advance now).acceptPacket p
      l).1).hear p l ∧ nfind h.time.reqs p = some r ∧ r.getD 0 0 = slotBits l 0 39 24 ∧ (r.getD 3 0 + 2000000 < (s.advance
      now).elapsed ∨ h.fget Fd.quartzStatus_PARENT_PORT ≠ p.val ∨ h.qState = 1 ∨ h.qState = 2) :=
  by decide +kernel
theorem meets_quartzFollowsItsLeader_11 :
    let p : PortId := 0
    let now : Nat := 2001000
    let r : List Nat := [4, 1000, 0, 1000]
    let s : State := follower 3
    nfind s.time.reqs p = some r ∧ r.getD 3 0 + 2000000 ≤ (s.advance now).elapsed :=
  by decide +kernel
theorem meets_quartzFollowsItsLeader_12 :
    let p : PortId := 0
    let now : Nat := 2000999
    let s : State := follower 3
    (∀ r, nfind s.time.reqs p = some r → (s.advance now).elapsed < r.getD 3 0 + 2000000) :=
  by decide +kernel
theorem meets_quartzFollowsItsLeader_13 :
    let p : PortId := 0
    let now : Nat := 5002000
    let a : List Nat := [5, 3, 1, 0, 1, 2000]
    let s : State := { follower 3 with time := { adverts := [(0, [5, 3, 1, 0, 1, 2000])] } }
    s.hasImage = true ∧ s.devSec.role = 0 ∧ s.time.adverts = [(p.val, a)] ∧ a.getD 5 0 + 5000000 ≤ (s.advance now).elapsed ∧ s.qState = 3 :=
  by decide +kernel
theorem meets_quartzFollowsItsLeader_14 :
    let p : PortId := 0
    let q : PortId := 1
    let now : Nat := 5002000
    let a : List Nat := [5, 3, 1, 0, 1, 2000]
    let b : List Nat := [6, 4, 2, 61, 1, 2000]
    let s : State := State.fset { follower 4 with time := { adverts := [(0, [5, 3, 1, 0, 1, 2000]), (1, [6, 4, 2, 61, 1, 2000])], lead := [5, 3] } } Fd.portStatus_STATE 5 1
    s.hasImage = true ∧ s.devSec.role = 0 ∧ p ≠ q ∧ s.time.adverts = [(p.val, a), (q.val, b)] ∧ a.getD 5 0 + 5000000 ≤ (s.advance
      now).elapsed ∧ s.devSec.timePorts.testBit q = true ∧ s.portState q = 5 ∧ b.getD 3 0 < 62 ∧ b.getD 0 0 < 2 ^ 64 - 1 ∧ (s.advance
      now).elapsed ≤ b.getD 5 0 + 5000000 ∧ b.getD 1 0 < 2 ^ 32 ∧ b.getD 2 0 < 2 ^ 16 ∧ s.time.lead ≠ [b.getD 0 0, b.getD 1 0] :=
  by decide +kernel
theorem meets_quartzFollowsItsLeader_15 :
    let p : PortId := 0
    let now : Nat := 5002000
    let m : Nat := 9
    let a : List Nat := [5, 3, 1, 0, 1, 2000]
    let s : State := { timeIn 1 3 with time := { adverts := [(0, [5, 3, 1, 0, 1, 2000])], epochs := [(9, 2000), (3, 5)] } }
    s.hasImage = true ∧ s.devSec.role = 1 ∧ s.fon Fd.quartzStatus_REF_OK = true ∧ s.time.adverts = [(p.val, a)] ∧ a.getD 5 0 + 5000000 ≤
      (s.advance now).elapsed ∧ s.qState ≠ 2 ∧ m = max (((s.time.epochs.filter fun e => decide ((s.advance now).elapsed ≤ e.2 +
      1000000000)).map (·.1)).foldl max 0) (s.fget Fd.quartzStatus_TIME_EPOCH) ∧ m + 1 < 2 ^ 32 ∧ s.member.getD 0 < 2 ^ 16 :=
  by decide +kernel
theorem meets_quartzFollowsItsLeader_16 :
    let p : PortId := 0
    let now : Nat := 5001999
    let s : State := { follower 3 with time := { adverts := [(0, [5, 3, 1, 0, 1, 2000])] } }
    (∀ a, nfind s.time.adverts p = some a → (s.advance now).elapsed < a.getD 5 0 + 5000000) :=
  by decide +kernel
theorem meets_quartzFollowsItsLeader_17 :
    let now : Nat := 5000000
    let s : State := timeIn 0 4
    s.qState = 4 ∧ s.time.lastMeas + 5000000 ≤ (s.advance now).elapsed ∧ s.fon Fd.quartzStatus_REF_OK = true ∧ s.fon
      Fd.quartzStatus_TIME_LOCKED = true :=
  by decide +kernel
theorem meets_quartzFollowsItsLeader_18 :
    let now : Nat := 4999999
    let s : State := timeIn 0 4
    (s.qState ≠ 4 ∨ (s.advance now).elapsed < s.time.lastMeas + 5000000) :=
  by decide +kernel
theorem meets_quartzFollowsItsLeader_19 :
    let now : Nat := 100000000
    let s : State := timeIn 0 5
    s.qState = 5 ∧ s.time.holdStart + 100000000 ≤ (s.advance now).elapsed ∧ s.fon Fd.quartzStatus_TIME_LOCKED = true :=
  by decide +kernel
theorem meets_quartzFollowsItsLeader_20 :
    let now : Nat := 99999999
    let s : State := timeIn 0 5
    (s.qState ≠ 5 ∨ (s.advance now).elapsed < s.time.holdStart + 100000000) :=
  by decide +kernel
theorem meets_quartzStepsAndReferences_1 :
    let src : Source := .host
    let now : Nat := 5
    let old : Nat := 5
    let new : Nat := 900
    let s : State := { ((timeIn 2 2).setReg .quartzStepTo 900).modTwin 0 (fun t => { t with tcmp := 900, tcmpArmed := true }) with rings := [(0, { segs := [{ count := 1, start := 899, held := true }, { count := 1, start := 900, held := true }] })] }
    s.shut src = false ∧ (s.qState = 1 ∨ s.qState = 2) ∧ (s.advance now).now = old ∧ s.reg .quartzStepTo = new ∧ old < new :=
  by decide +kernel
theorem meets_quartzStepsAndReferences_2 :
    let src : Source := .host
    let now : Nat := 5
    let s : State := (timeIn 2 1).setReg .quartzStepTo 5
    s.shut src = false ∧ (s.qState ≠ 1 ∧ s.qState ≠ 2 ∨ s.reg .quartzStepTo ≤ (s.advance now).now) :=
  by decide +kernel
theorem meets_quartzStepsAndReferences_3 :
    let src : Source := .host
    let s : State := { (timeIn 2 1).fset Fd.pcieStatus_BME 1 with host := { memSpace := true, ptmOn := true } }
    s.shut src = false ∧ s.ptmEnabled = true ∧ s.mayMaster = true :=
  by decide +kernel
theorem meets_quartzStepsAndReferences_4 :
    let src : Source := .host
    let s : State := { timeIn 2 1 with host := { memSpace := true, ptmOn := true } }
    s.shut src = false ∧ s.ptmEnabled = true ∧ s.mayMaster = false :=
  by decide +kernel
theorem meets_quartzStepsAndReferences_5 :
    let src : Source := .host
    let s : State := timeIn 2 1
    s.shut src = false ∧ s.ptmEnabled = false :=
  by decide +kernel
theorem meets_quartzStepsAndReferences_6 :
    let now : Nat := 0
    let s : State := { (timeIn 2 1).fset Fd.pcieStatus_BME 1 with host := { memSpace := true, ptmOn := true } }
    s.ptmEnabled = true ∧ s.mayMaster = true ∧ (∀ k, s.time.ptmAt = some k → k + 100000000 ≤ (s.advance now).elapsed) :=
  by decide +kernel
theorem meets_quartzStepsAndReferences_7 :
    let now : Nat := 99999999
    let k : Nat := 0
    let s : State := { (timeIn 2 1).fset Fd.pcieStatus_BME 1 with host := { memSpace := true, ptmOn := true }, time := { ptmAt := some 0 } }
    (s.ptmEnabled = false ∨ s.time.ptmAt = some k ∧ (s.advance now).elapsed < k + 100000000) :=
  by decide +kernel
theorem meets_quartzStepsAndReferences_8 :
    let s : State := { timeIn 2 1 with time := { ptmBusy := true } }
    s.time.ptmBusy = true :=
  by decide +kernel
theorem meets_quartzStepsAndReferences_9 :
    let s : State := timeIn 2 1
    s.time.ptmBusy = false :=
  by decide +kernel
theorem meets_quartzStepsAndReferences_10 :
    let now : Nat := 3000000001
    let e : Nat := 3
    let s : State := timeIn 2 1
    e = (s.advance now).now / 1000000000 ∧ s.time.edge < e :=
  by decide +kernel
theorem meets_quartzStepsAndReferences_11 :
    let now : Nat := 999999999
    let s : State := timeIn 2 1
    (s.advance now).now / 1000000000 ≤ s.time.edge :=
  by decide +kernel
theorem meets_quartzStepsAndReferences_12 :
    let k : Nat := 0
    let s : State := { (timeIn 2 1).advance 100000000 with time := { ((timeIn 2 1).advance 100000000).time with ppsAt := some 0 } }
    s.time.ppsAt = some k :=
  by decide +kernel
theorem meets_quartzStepsAndReferences_13 :
    let sec : Nat := 2 ^ 48 - 1
    sec < 2 ^ 48 :=
  by decide +kernel
theorem meets_quartzStepsAndReferences_14 :
    let now : Nat := 3010000000
    let k : Nat := 0
    let b : Bytes := [1]
    let s : State := { timeIn 2 1 with time := { todDue := some [1], ppsAt := some 0 } }
    s.time.todDue = some b ∧ s.time.ppsAt = some k ∧ k + 10000000 ≤ (s.advance now).elapsed :=
  by decide +kernel
theorem meets_quartzStepsAndReferences_15 :
    let now : Nat := 9999999
    let k : Nat := 0
    let s : State := { timeIn 2 1 with time := { todDue := some [1], ppsAt := some 0 } }
    (s.time.todDue = none ∨ s.time.ppsAt = some k ∧ (s.advance now).elapsed < k + 10000000) :=
  by decide +kernel
theorem meets_quartzStepsAndReferences_16 :
    let s : State := timeIn 2 1
    s.fon Fd.quartzStatus_REF_OK = true ∧ Quiet 4 0x17 s :=
  by decide +kernel
theorem meets_quartzStepsAndReferences_17 :
    let s : State := (timeIn 2 1).fset Fd.quartzStatus_REF_OK 0
    s.fon Fd.quartzStatus_REF_OK = false :=
  by decide +kernel
theorem meets_quartzStepsAndReferences_18 :
    let s : State := ((timeIn 2 1).fset Fd.quartzStatus_REF_OK 0).fset Fd.quartzStatus_TIME_LOCKED 0
    s.life.aonUp = true ∧ s.fon Fd.quartzStatus_REF_OK = false :=
  by decide +kernel
theorem meets_quartzStepsAndReferences_19 :
    let s : State := timeIn 2 1
    (s.life.aonUp = false ∨ s.fon Fd.quartzStatus_REF_OK = true) :=
  by decide +kernel
theorem meets_quartzStepsAndReferences_20 :
    let a : Word := 0
    let b : Word := 1
    let s : State := timeIn 2 1
    a ≠ b ∧ (a.toNat = s.now ∨ b.toNat = s.now) ∧ Quiet 4 0x18 s :=
  by decide +kernel
theorem meets_quartzStepsAndReferences_21 :
    let a : Word := 7
    let b : Word := 1
    let s : State := timeIn 2 1
    a ≠ b ∧ a.toNat ≠ s.now ∧ b.toNat ≠ s.now ∧ Quiet 4 0x18 s :=
  by decide +kernel
theorem meets_quartzStepsAndReferences_23 :
    let src : Source := .host
    let s : State := timeIn 2 1
    s.dark src = false :=
  by decide +kernel
theorem meets_powerCommandsBeginAndEnd_1 :
    let src : Source := .host
    let n : CoreId := 7
    let s : State := img
    PowerClear src 1 n 1 0 s ∧ s.coreFence n = FencePhase.none :=
  by decide +kernel
theorem meets_powerCommandsBeginAndEnd_2 :
    let src : Source := .host
    let p : PortId := 0
    let s : State := img
    PowerClear src 3 p 1 0 s ∧ s.portFence p = FencePhase.none :=
  by decide +kernel
theorem meets_powerCommandsBeginAndEnd_3 :
    let src : Source := .host
    let f : FoldId := 0
    let s : State := img
    PowerClear src 2 f 1 0 s :=
  by decide +kernel
theorem meets_powerCommandsBeginAndEnd_4 :
    let src : Source := .host
    let dk : Nat := 1
    let id : Nat := 7
    let k : Nat := 7
    let s : State := img.setFence 7 .fencing
    PowerClear src dk id 1 0 s ∧ (dk = 1 ∧ k = id ∨ dk = 3 ∧ k = 304 + id) ∧ s.fenceAt k ≠ FencePhase.none :=
  by decide +kernel
theorem meets_powerCommandsBeginAndEnd_5 :
    let src : Source := .host
    let a : Nat := 1
    let dk : Nat := 1
    let id : Nat := 300
    let arg : Nat := 0
    let e : Nat := 2
    let s : State := img
    (1 ≤ a ∧ a ≤ 4) ∧ PowerFree src s ∧ reservedPower dk a arg = false ∧ s.powerCheck none dk id a arg = some e :=
  by decide +kernel
theorem meets_powerCommandsBeginAndEnd_6 :
    let a : Nat := 1
    let dk : Nat := 1
    let id : Nat := 7
    let arg : Nat := 1
    let e : Nat := 3
    let s : State := img
    (1 ≤ a ∧ a ≤ 4) ∧ PowerFree .host s ∧ reservedPower dk a arg = true ∧ s.powerCheck none dk id a arg = some e :=
  by decide +kernel
theorem meets_powerCommandsBeginAndEnd_7 :
    let a : Nat := 4
    let s : State := fw
    (1 ≤ a ∧ a ≤ 4) ∧ s.hasImage = false :=
  by decide +kernel
theorem meets_powerCommandsBeginAndEnd_8 :
    let dk : Nat := 1
    let id : Nat := 288
    let s : State := img
    s.hasImage = true ∧ (dk = 1 ∧ (s.corePresent id = false ∨ s.coreOut id = true) ∨ dk = 2 ∧ s.foldSecs.length ≤ id ∨ dk = 3 ∧ (36 ≤ id ∨
      s.lanesOutOf id = 15) ∨ dk = 4 ∧ 8 ≤ id ∨ dk = 5 ∧ 5 ≤ id ∨ dk = 0 ∨ 5 < dk) :=
  by decide +kernel
theorem meets_powerCommandsBeginAndEnd_9 :
    let dk : Nat := 4
    let id : Nat := 0
    let a : Nat := 1
    let arg : Nat := 0
    let s : State := img
    s.hasImage = true ∧ s.domainOk dk id = true ∧ (a = 1 ∧ (dk = 4 ∨ dk = 5 ∨ arg ≠ 0) ∨ a = 2 ∧ (dk = 4 ∨ dk = 5 ∨ arg ≠ 0 ∨ dk = 1 ∧
      s.fget Fd.corePwr_STATE id ≠ 0) ∨ a = 3 ∧ (dk = 2 ∨ dk = 5 ∨ dk = 1 ∧ 3 < arg ∨ dk = 3 ∧ 4 < arg ∨ dk = 4 ∧ 1 < arg) ∨ a = 4 ∧
      (dk ≠ 5 ∨ 7 < arg) ∨ a = 0 ∨ 4 < a) :=
  by decide +kernel
theorem meets_powerCommandsBeginAndEnd_10 :
    let id : Nat := 0
    let arg : Nat := 0
    let s : State := img
    s.hasImage = true ∧ id < 5 ∧ arg ≤ 7 :=
  by decide +kernel
theorem meets_powerCommandsBeginAndEnd_11 :
    let dk : Nat := 1
    let id : Nat := 7
    let f : Nat := 0
    let s : State := img
    s.hasImage = true ∧ s.domainOk dk id = true ∧ s.foldOfDomain dk id = some f ∧ dk ≤ 3 ∧ (dk = 1 → s.fget Fd.corePwr_STATE id = 0) :=
  by decide +kernel
theorem meets_powerCommandsBeginAndEnd_12 :
    let id : Nat := 7
    let arg : Nat := 1
    let s : State := img
    s.hasImage = true ∧ s.domainOk 1 id = true ∧ arg ≤ 3 :=
  by decide +kernel
theorem meets_powerCommandsBeginAndEnd_13 :
    let id : Nat := 0
    let arg : Nat := 3
    let s : State := img
    s.hasImage = true ∧ s.domainOk 3 id = true ∧ arg ≤ 4 :=
  by decide +kernel
theorem meets_powerCommandsBeginAndEnd_14 :
    let a : Nat := 1
    let p : PowerRun := runs 1 4 1 0 none
    let s : State := powerOn (runs 1 4 1 0 none)
    (1 ≤ a ∧ a ≤ 4) ∧ s.shut .host = false ∧ s.power = some p :=
  by decide +kernel
theorem meets_powerCommandsBeginAndEnd_15 :
    let src : Source := .host
    let a : Nat := 1
    let dk : Nat := 1
    let id : Nat := 7
    let arg : Nat := 0
    let s : State := { img with reset' := some ⟨1, 7, false, none⟩ }
    (1 ≤ a ∧ a ≤ 4) ∧ PowerFree src s ∧ s.powerCheck none dk id a arg = none ∧ ((∃ w, s.reset' = some w ∧ w.dkind = dk ∧ w.id = id) ∨
      s.underTest dk id = true) :=
  by decide +kernel
theorem meets_powerCommandsBeginAndEnd_16 :
    let src : Source := .host
    let n : CoreId := 7
    let s : State := (img.setFence 7 .fenced).modCore 7 fun k => { k with wasReset := true }
    PowerClear src 1 n 2 0 s ∧ s.coreFence n ≠ FencePhase.none ∧ (s.core n).wasReset = true :=
  by decide +kernel
theorem meets_powerCommandsBeginAndEnd_17 :
    let src : Source := .host
    let n : CoreId := 7
    let s : State := img.setFence 7 .fenced
    PowerClear src 1 n 2 0 s ∧ s.coreFence n ≠ FencePhase.none ∧ (s.core n).wasReset = false :=
  by decide +kernel
theorem meets_powerCommandsBeginAndEnd_18 :
    let src : Source := .host
    let p : PortId := 0
    let s : State := img.setFence 304 .fenced
    PowerClear src 3 p 2 0 s ∧ s.portFence p ≠ FencePhase.none :=
  by decide +kernel
theorem meets_powerCommandsBeginAndEnd_19 :
    let src : Source := .host
    let dk : Nat := 1
    let id : Nat := 7
    let k : Nat := 7
    let s : State := img
    PowerClear src dk id 2 0 s ∧ (dk = 1 ∧ k = id ∨ dk = 3 ∧ k = 304 + id) ∧ s.fenceAt k = FencePhase.none :=
  by decide +kernel
theorem meets_powerCommandsBeginAndEnd_20 :
    let src : Source := .host
    let f : FoldId := 0
    let s : State := (((img.setFence 288 .fenced).setFence 7 .fenced).setFence 8 .fencing).fset Fd.corePwr_STATE 1 8
    PowerClear src 2 f 2 0 s :=
  by decide +kernel
theorem meets_powerCommandsBeginAndEnd_21 :
    let src : Source := .host
    let n : CoreId := 7
    let arg : Nat := 1
    let s : State := (img.setFence 7 .fenced).fset Fd.railStatus_OP_NOW 5 0
    PowerClear src 1 n 3 arg s :=
  by decide +kernel
theorem meets_powerCommandsBeginAndEnd_22 :
    let src : Source := .host
    let p : PortId := 0
    let arg : Nat := 3
    let s : State := (portIn 5).setFence 304 .fencing
    PowerClear src 3 p 3 arg s ∧ 3 ≤ arg ∧ s.fget Fd.portPwr_HOST_STATE p ≠ arg :=
  by decide +kernel
theorem meets_powerCommandsBeginAndEnd_23 :
    let src : Source := .host
    let p : PortId := 0
    let arg : Nat := 0
    let s : State := (portIn 1).fset Fd.portPwr_HOST_STATE 3 0
    PowerClear src 3 p 3 arg s ∧ arg ≤ 2 ∧ s.portState p ≤ 1 ∧ s.fget Fd.portPwr_HOST_STATE p ≠ arg :=
  by decide +kernel
theorem meets_powerCommandsBeginAndEnd_24 :
    let src : Source := .host
    let p : PortId := 0
    let arg : Nat := 1
    let s : State := portIn 5
    PowerClear src 3 p 3 arg s ∧ arg ≤ 2 ∧ 1 < s.portState p ∧ s.fget Fd.portPwr_HOST_STATE p ≠ arg ∧ chooseLanes (s.goodLanes p) ([4, 2,
      1].getD arg 4) ≠ 0 :=
  by decide +kernel
theorem meets_powerCommandsBeginAndEnd_25 :
    let src : Source := .host
    let p : PortId := 0
    let arg : Nat := 0
    let s : State := portIn 5
    PowerClear src 3 p 3 arg s ∧ s.fget Fd.portPwr_HOST_STATE p = arg :=
  by decide +kernel
theorem meets_powerCommandsBeginAndEnd_26 :
    let src : Source := .host
    let st : Fin 8 := 0
    let arg : Nat := 1
    let s : State := heldState.setFence 288 .fenced
    PowerClear src 4 st 3 arg s :=
  by decide +kernel
theorem meets_powerCommandsBeginAndEnd_27 :
    let src : Source := .host
    let k : Fin 5 := 2
    let arg : Nat := 4
    let s : State := img
    PowerClear src 5 k 4 arg s ∧ (s.fget Fd.paceStatus_OP_NOW k ≠ arg ∨ s.fget Fd.paceStatus_OP_TARGET k ≠ arg ∨ s.fget
      Fd.paceStatus_SLEWING k ≠ 0) :=
  by decide +kernel
theorem meets_powerCommandsBeginAndEnd_28 :
    let src : Source := .host
    let k : Fin 5 := 2
    let arg : Nat := 5
    let s : State := img
    PowerClear src 5 k 4 arg s ∧ s.fget Fd.paceStatus_OP_NOW k = arg ∧ s.fget Fd.paceStatus_OP_TARGET k = arg ∧ s.fget
      Fd.paceStatus_SLEWING k = 0 :=
  by decide +kernel
theorem meets_powerCommandsBeginAndEnd_29 :
    let src : Source := .host
    let st : Fin 8 := 0
    let s : State := heldState.setFence 288 .fenced
    s.shut src = false ∧ s.power = none ∧ s.powerWait = [] ∧ s.stackState st = 0 ∧ s.hbmFenceOk st = true ∧ s.underTest 4 st = false :=
  by decide +kernel
theorem meets_powerCommandsBeginAndEnd_30 :
    let src : Source := .host
    let st : Fin 8 := 0
    let s : State := heldState
    s.shut src = false ∧ s.power = none ∧ s.powerWait = [] ∧ s.stackState st = 0 ∧ s.hbmFenceOk st = false :=
  by decide +kernel
theorem meets_powerCommandsBeginAndEnd_31 :
    let src : Source := .host
    let st : Fin 8 := 1
    let s : State := img.fset Fd.hbmPwrStatus_STATE 2 1
    s.shut src = false ∧ s.power = none ∧ s.powerWait = [] ∧ s.stackState st = 2 ∧ s.underTest 4 st = false :=
  by decide +kernel
theorem meets_powerCommandsBeginAndEnd_32 :
    let src : Source := .host
    let st : Fin 8 := 1
    let self : Bool := true
    let s : State := img.fset Fd.hbmPwrStatus_STATE 2 1
    s.shut src = false ∧ s.power = none ∧ s.powerWait = [] ∧ s.stackState st = (if self then 2 else 0) ∧ s.underTest 4 st = false :=
  by decide +kernel
theorem meets_powerCommandsBeginAndEnd_33 :
    let src : Source := .host
    let st : Fin 8 := 1
    let p : PowerRun := runs 1 4 1 0 none
    let s : State := powerOn (runs 1 4 1 0 none)
    s.shut src = false ∧ s.power = some p ∧ (s.stackState st = 0 ∨ s.stackState st = 2) ∧ (∀ q ∈ s.powerWait, q.hbm = true → q.id ≠
      st.val) :=
  by decide +kernel
theorem meets_powerCommandsBeginAndEnd_34 :
    let st : Fin 8 := 1
    let s : State := img.fset Fd.hbmPwrStatus_STATE 1 1
    s.shut .host = false ∧ (s.stackState st = 1 ∨ s.stackState st = 3 ∨ (∃ q ∈ s.powerWait, q.hbm = true ∧ q.id = st.val)) :=
  by decide +kernel
theorem meets_powerCommandsBeginAndEnd_35 :
    let st : Fin 8 := 1
    let p : PowerRun := ⟨none, 4, 1, 3, 1, none, false, true⟩
    let s : State := ((powerOn ⟨none, 4, 1, 3, 1, none, false, true⟩).fset Fd.hbmPwrStatus_STATE 1 1).fset Fd.hbmStatus_STATE 1 33
    s.power = some p ∧ p.hbm = true ∧ p.waitReset = false ∧ p.result = none ∧ p.id = st.val ∧ s.powerWait = [] :=
  by decide +kernel
theorem meets_powerCommandsBeginAndEnd_36 :
    let st : Fin 8 := 1
    let p : PowerRun := ⟨none, 4, 1, 3, 1, some 1, false, true⟩
    let r : Nat := 1
    let s : State := powerOn ⟨none, 4, 1, 3, 1, some 1, false, true⟩
    s.power = some p ∧ p.hbm = true ∧ p.result = some r ∧ p.id = st.val ∧ s.powerWait = [] :=
  by decide +kernel
theorem meets_powerCommandsBeginAndEnd_37 :
    let s : State := img
    (∀ p, s.power = some p → p.hbm = false ∨ p.waitReset = true ∧ p.result = none) :=
  by decide +kernel
theorem meets_powerCommandsBeginAndEnd_38 :
    let p : PowerRun := runs 1 4 1 0 (some 2)
    let r : Nat := 2
    let s : State := powerOn (runs 1 4 1 0 (some 2))
    s.power = some p ∧ p.hbm = false ∧ p.ring = none ∧ p.result = some r ∧ s.powerWait = [] ∧ s.reset' = none :=
  by decide +kernel
theorem meets_powerCommandsBeginAndEnd_39 :
    let st : Fin 8 := 1
    let p : PowerRun := ⟨none, 4, 1, 3, 1, none, false, false⟩
    let s : State := (powerOn ⟨none, 4, 1, 3, 1, none, false, false⟩).fset Fd.hbmPwrStatus_STATE 1 1
    s.power = some p ∧ p.hbm = false ∧ p.ring = none ∧ p.dkind = 4 ∧ p.id = st.val ∧ p.result = none ∧ p.waitReset = false ∧ s.powerWait =
      [] ∧ s.reset' = none :=
  by decide +kernel
theorem meets_powerCommandsBeginAndEnd_40 :
    let p : PowerRun := { runs 1 4 1 0 (some 2) with ring := some 0 }
    let r : Nat := 2
    let ring : RingId := 0
    let c : RingCmd := { nopCmd with desc := desc [6, 0x400000101, 0, 0, 0, 0, 0, 0], phase := .running }
    let s : State := { ringWith [{ count := 1 }] [{ nopCmd with desc := desc [6, 0x400000101, 0, 0, 0, 0, 0, 0], phase := .running }] with power := some { runs 1 4 1 0 (some 2) with ring := some 0 } }
    s.power = some p ∧ p.hbm = false ∧ p.dkind ≠ 4 ∧ p.ring = some ring.val ∧ p.result = some r ∧ s.powerWait = [] ∧ s.reset' = none ∧
      (s.ring ring).cmds = [c] ∧ c.phase = .running ∧ c.opc = 6 :=
  by decide +kernel
theorem meets_powerCommandsBeginAndEnd_42 :
    let s : State := img
    (∀ p, s.power = some p → p.hbm = true ∨ p.result = none ∧ (p.dkind = 4 → p.waitReset = true)) :=
  by decide +kernel
theorem meets_powerCommandsBeginAndEnd_43 :
    let r : RingId := 0
    let c : RingCmd := { nopCmd with desc := desc [6, 0x400000101, 0, 0, 0, 0, 0, 0], phase := .started }
    let s : State := ringWith [{ count := 1 }] [{ nopCmd with desc := desc [6, 0x400000101, 0, 0, 0, 0, 0, 0], phase := .started }]
    let u : State := (match exec (.fence (.cmd .smbus 1 4 0)) { ringWith [{ count := 1 }] [{ nopCmd with desc := desc [6, 0x400000101, 0, 0, 0, 0, 0, 0], phase := .started }] with rings := nset (State.rings (ringWith [{ count := 1 }] [{ nopCmd with desc := desc [6, 0x400000101, 0, 0, 0, 0, 0, 0], phase := .started }])) 0 { State.ring (ringWith [{ count := 1 }] [{ nopCmd with desc := desc [6, 0x400000101, 0, 0, 0, 0, 0, 0], phase := .started }]) 0 with cmds := [{ nopCmd with desc := desc [6, 0x400000101, 0, 0, 0, 0, 0, 0], phase := .running }] } } with | .next u => u | _ => img)
    (s.ring r).cmds = [c] ∧ c.phase = .started ∧ c.opc = 6 ∧ s.power = none ∧ (∀ q ∈ s.powerWait, q.ring ≠ some r.val) ∧ (1 ≤ bits (c.word
      1) 15 8 ∧ bits (c.word 1) 15 8 ≤ 4) ∧ bits (c.word 1) 7 0 ≤ 3 ∧ (s.foldOfRing r).isSome = true ∧ s.foldOfDomain (bits (c.word 1)
      7 0) (bits (c.word 1) 47 32) = s.foldOfRing r ∧ exec (powerInstr (bits (c.word 1) 15 8) (.cmd .smbus (bits (c.word 1) 7 0) (bits
      (c.word 1) 47 32) (bits (c.word 1) 23 16)))
      { s with rings := nset s.rings r { s.ring r with cmds := [{ c with phase := .running, left := 0 }] } } = .next u :=
  ⟨by decide +kernel, by decide +kernel, by decide +kernel, by decide +kernel, by decide +kernel, by decide +kernel, by decide +kernel,
    by decide +kernel, by decide +kernel, next_of _ (by decide +kernel)⟩
theorem meets_powerCommandsBeginAndEnd_44 :
    let r : RingId := 0
    let c : RingCmd := { nopCmd with desc := desc [6, 0x12C00000101, 0, 0, 0, 0, 0, 0], phase := .started }
    let s : State := ringWith [{ count := 1 }] [{ nopCmd with desc := desc [6, 0x12C00000101, 0, 0, 0, 0, 0, 0], phase := .started }]
    (s.ring r).cmds = [c] ∧ c.phase = .started ∧ c.opc = 6 ∧ s.power = none ∧ (∀ q ∈ s.powerWait, q.ring ≠ some r.val) ∧ (1 ≤ bits (c.word
      1) 15 8 ∧ bits (c.word 1) 15 8 ≤ 4) ∧ s.hasImage = true ∧ s.foldOfDomain (bits (c.word 1) 7 0) (bits (c.word 1) 47 32) ≠ some
      ((s.foldOfRing r).getD 16) :=
  by decide +kernel
theorem meets_powerCommandsBeginAndEnd_45 :
    let r : RingId := 0
    let c : RingCmd := { nopCmd with desc := desc [6, 0x400000101, 0, 0, 0, 0, 0, 0], phase := .started }
    let p : PowerRun := runs 1 4 1 0 none
    let s : State := { ringWith [{ count := 1 }] [{ nopCmd with desc := desc [6, 0x400000101, 0, 0, 0, 0, 0, 0], phase := .started }] with power := some (runs 1 4 1 0 none) }
    (s.ring r).cmds = [c] ∧ c.phase = .started ∧ c.opc = 6 ∧ s.power = some p ∧ (∀ q ∈ s.powerWait, q.ring ≠ some r.val) ∧ (1 ≤ bits
      (c.word 1) 15 8 ∧ bits (c.word 1) 15 8 ≤ 4) :=
  by decide +kernel
theorem meets_powerCommandsBeginAndEnd_46 :
    let r : RingId := 0
    let a : Nat := 1
    let s : State := img
    (1 ≤ a ∧ a ≤ 4) ∧ (∀ c ∈ (s.ring r).cmds, c.opc = 6 → c.phase ≠ .started) :=
  by decide +kernel
theorem meets_drainsStatesRailsAndHeat_1 :
    let n : CoreId := 4
    let p : PowerRun := runs 1 4 1 0 none
    let s : State := (powerOn (runs 1 4 1 0 none)).setFence 4 .fencing
    s.coreFence n = .fencing ∧ s.openRequests (.core n) = false ∧ s.power = some p ∧ p.action = 1 ∧ p.dkind = 1 ∧ p.id = n.val ∧
      p.waitReset = false ∧ p.result = none ∧ s.reset' = none :=
  by decide +kernel
theorem meets_drainsStatesRailsAndHeat_2 :
    let d : Domain := .core 0
    let k : Nat := 0
    let s : State := img.setFence 0 .fencing
    k = domKey d ∧ s.fenceAt k = .fencing ∧ s.openRequests d = false ∧ s.power = none ∧ s.reset' = none :=
  by decide +kernel
theorem meets_drainsStatesRailsAndHeat_3 :
    let d : Domain := .fold 0
    let p : PowerRun := runs 2 0 1 0 none
    let s : State := (powerOn (runs 2 0 1 0 none)).setFence 288 .fencing
    s.fenceAt (domKey d) = .fencing ∧ s.openRequests d = false ∧ s.power = some p ∧ p.action = 1 ∧ domainKey p.dkind p.id = some (domKey
      d) ∧ p.waitReset = false ∧ p.result = none ∧ s.reset' = none :=
  by decide +kernel
theorem meets_drainsStatesRailsAndHeat_4 :
    let d : Domain := .core 0
    let s : State := awaitRsp.setFence 0 .fencing
    (s.fenceAt (domKey d) ≠ .fencing ∨ s.openRequests d = true) :=
  by decide +kernel
theorem meets_drainsStatesRailsAndHeat_5 :
    let n : CoreId := 7
    let s : State := { img.setFence 7 .fencing with reset' := some ⟨1, 7, false, none⟩ }
    s.coreFence n = .fencing ∧ s.openRequests (.core n) = false ∧ s.power = none ∧ s.reset' = some ⟨1, n.val, false, none⟩ ∧ s.fget
      Fd.corePwr_STATE n = 0 :=
  by decide +kernel
theorem meets_drainsStatesRailsAndHeat_6 :
    let n : CoreId := 7
    let r : RingId := 0
    let c : RingCmd := { nopCmd with desc := desc [2, 0, 0, 0, 0, 0, 0, 0], phase := .running, left := 1 }
    let p : Part := { ring := 0, seq := 1 }
    let w : ResetRun := ⟨1, 7, false, none⟩
    let s : State := State.modCore { (ringWith [{ count := 1 }] [{ nopCmd with desc := desc [2, 0, 0, 0, 0, 0, 0, 0], phase := .running, left := 1 }]).setFence 7 .fencing with reset' := some ⟨1, 7, false, none⟩ } 7 fun k => { k with parts := [{ ring := 0, seq := 1 }] }
    s.coreFence n = .fencing ∧ s.openRequests (.core n) = false ∧ s.power = none ∧ s.reset' = some w ∧ w.result = none ∧ (s.core n).parts
      = [p] ∧ p.ring = r.val ∧ p.seq = c.seq ∧ p.mark = 0 ∧ (s.ring r).cmds = [c] ∧ c.phase = .running ∧ c.left = 1 ∧ c.status = 0 :=
  by decide +kernel
theorem meets_drainsStatesRailsAndHeat_7 :
    let n : CoreId := 0
    let now : Nat := 100000
    let s : State := awaitRsp.setFence 0 .fencing
    s.coreFence n = .fencing ∧ nget 0 s.fenceSince n + 1000 * s.devSec.drainUs ≤ (s.advance now).elapsed ∧ s.reset' = none :=
  by decide +kernel
theorem meets_drainsStatesRailsAndHeat_8 :
    let f : FoldId := 0
    let now : Nat := 100000
    let s : State := awaitRsp.setFence 288 .fencing
    s.foldFence f = .fencing ∧ nget 0 s.fenceSince (288 + f.val) + 1000 * s.devSec.drainUs ≤ (s.advance now).elapsed ∧ s.power = none ∧
      s.reset' = none :=
  by decide +kernel
theorem meets_drainsStatesRailsAndHeat_9 :
    let p : PortId := 0
    let now : Nat := 100000
    let s : State := awaitRsp.setFence 304 .fencing
    s.portFence p = .fencing ∧ nget 0 s.fenceSince (304 + p.val) + 1000 * s.devSec.drainUs ≤ (s.advance now).elapsed ∧ s.power = none ∧
      s.reset' = none :=
  by decide +kernel
theorem meets_drainsStatesRailsAndHeat_10 :
    let d : Domain := .core 0
    let now : Nat := 99999
    let s : State := awaitRsp.setFence 0 .fencing
    (s.fenceAt (domKey d) ≠ .fencing ∨ (s.advance now).elapsed < nget 0 s.fenceSince (domKey d) + 1000 * s.devSec.drainUs) :=
  by decide +kernel
theorem meets_drainsStatesRailsAndHeat_11 :
    let n : CoreId := 4
    let p : PowerRun := runs 1 4 3 1 none
    let s : State := powerOn (runs 1 4 3 1 none)
    s.power = some p ∧ p.dkind = 1 ∧ p.id = n.val ∧ p.action = 3 ∧ p.arg = 1 ∧ p.result = none :=
  by decide +kernel
theorem meets_drainsStatesRailsAndHeat_12 :
    let n : CoreId := 4
    let p : PowerRun := runs 1 4 3 2 none
    let s : State := { (powerOn (runs 1 4 3 2 none)).setFence 4 .fenced with arr := [(256, 5)] }
    s.power = some p ∧ p.dkind = 1 ∧ p.id = n.val ∧ p.action = 3 ∧ p.arg = 2 ∧ p.result = none ∧ s.coreFence n = .fenced :=
  by decide +kernel
theorem meets_drainsStatesRailsAndHeat_13 :
    let n : CoreId := 4
    let p : PowerRun := runs 1 4 3 3 none
    let s : State := { (powerOn (runs 1 4 3 3 none)).setFence 4 .fenced with arr := [(256, 5)] }
    s.power = some p ∧ p.dkind = 1 ∧ p.id = n.val ∧ p.action = 3 ∧ p.arg = 3 ∧ p.result = none ∧ s.coreFence n = .fenced :=
  by decide +kernel
theorem meets_drainsStatesRailsAndHeat_14 :
    let n : CoreId := 4
    let p : PowerRun := runs 1 4 3 0 none
    let s : State := (powerOn (runs 1 4 3 0 none)).fset Fd.corePwr_STATE 1 4
    s.power = some p ∧ p.dkind = 1 ∧ p.id = n.val ∧ p.action = 3 ∧ p.arg = 0 ∧ p.result = none ∧ s.fget Fd.corePwr_STATE n ≤ 1 ∧ s.fget
      Fd.corePwr_RESET_PENDING n = 0 :=
  by decide +kernel
theorem meets_drainsStatesRailsAndHeat_15 :
    let n : CoreId := 4
    let p : PowerRun := runs 1 4 3 0 none
    let s : State := (powerOn (runs 1 4 3 0 none)).fset Fd.corePwr_STATE 3 4
    s.power = some p ∧ p.dkind = 1 ∧ p.id = n.val ∧ p.action = 3 ∧ p.arg = 0 ∧ p.result = none ∧ (2 ≤ s.fget Fd.corePwr_STATE n ∨ s.fget
      Fd.corePwr_RESET_PENDING n = 1) :=
  by decide +kernel
theorem meets_drainsStatesRailsAndHeat_16 :
    let n : CoreId := 4
    let s : State := img
    (∀ p, s.power = some p → p.dkind ≠ 1 ∨ p.id ≠ n.val ∨ p.action ≠ 3 ∨ p.result ≠ none ∨ 2 ≤ p.arg ∧ s.coreFence n ≠ .fenced) :=
  by decide +kernel
theorem meets_drainsStatesRailsAndHeat_17 :
    let k : Fin 5 := 2
    let mv : Nat := 723
    let pace : Nat := 1240
    let op : Nat := 5
    let s : State := { powerOn (runs 5 2 4 5 none) with opTarget := [(2, 5)] }
    nfind s.opTarget k = some op ∧ op < 8 ∧ opMv op ≤ mv + 5 ∧ mv ≤ opMv op + 5 ∧ ([0, 780, 900, 1020, 1130, 1240, 1360, 1470].getD op 0)
      ≤ pace ∧ 100 * pace ≤ 108 * ([0, 820, 950, 1070, 1190, 1300, 1430, 1550].getD op 0) :=
  by decide +kernel
theorem meets_drainsStatesRailsAndHeat_18 :
    let k : Fin 5 := 2
    let mv : Nat := 714
    let pace : Nat := 1300
    let s : State := { img with opTarget := [(2, 5)] }
    (∀ op, nfind s.opTarget k = some op → mv + 5 < opMv op ∨ opMv op + 5 < mv ∨ pace < [0, 780, 900, 1020, 1130, 1240, 1360, 1470].getD op
      0 ∨ 108 * ([0, 820, 950, 1070, 1190, 1300, 1430, 1550].getD op 0) < 100 * pace) :=
  by decide +kernel
theorem meets_drainsStatesRailsAndHeat_19 :
    let k : Fin 5 := 2
    let op : Nat := 5
    let s : State := { powerOn (runs 5 2 4 5 none) with opTarget := [(2, 5)] }
    nfind s.opTarget k = some op ∧ Quiet k 0x1A s :=
  by decide +kernel
theorem meets_drainsStatesRailsAndHeat_20 :
    let k : Fin 5 := 2
    let s : State := img
    nfind s.opTarget k = none :=
  by decide +kernel
theorem meets_drainsStatesRailsAndHeat_22 :
    let die : Fin 5 := 0
    let temp : Nat := 106
    let w : Nat := 105
    let s : State := img
    (temp < 115 ∨ s.fget Fd.thermal_TRIP die = 1) ∧ w = s.fget Fd.thermCtl_WARN_C :=
  by decide +kernel
theorem meets_drainsStatesRailsAndHeat_23 :
    let die : Fin 5 := 2
    let temp : Nat := 116
    let s : State := img
    115 ≤ temp ∧ s.fget Fd.thermal_TRIP die = 0 ∧ Quiet die 0x19 s :=
  by decide +kernel
theorem meets_drainsStatesRailsAndHeat_25 :
    let src : Source := .host
    let v : Word32 := 90
    let s : State := img
    s.shut src = false ∧ 60 ≤ v.toNat % 128 ∧ v.toNat % 128 ≤ 110 :=
  by decide +kernel
theorem meets_drainsStatesRailsAndHeat_26 :
    let v : Word32 := 59
    let s : State := img
    s.shut .host = false ∧ (v.toNat % 128 < 60 ∨ 110 < v.toNat % 128) :=
  by decide +kernel
theorem meets_resetCommandsActOnTheirUnit_1 :
    let src : Source := .host
    let n : CoreId := 2
    let s : State := ((twin.setFence 2 .fenced).put (pantryKey 2 0xFB10) [1, 2]).ctrSet 140 9
    s.shut src = false ∧ s.reset' = none ∧ s.power = none ∧ s.resetCheck 1 n = none ∧ s.coreFence n = .fenced ∧ s.fget Fd.corePwr_STATE n
      = 0 :=
  by decide +kernel
theorem meets_resetCommandsActOnTheirUnit_2 :
    let src : Source := .host
    let n : CoreId := 2
    let s : State := (img.setFence 2 .fenced).fset Fd.corePwr_STATE 1 2
    s.shut src = false ∧ s.reset' = none ∧ s.power = none ∧ s.resetCheck 1 n = none ∧ s.coreFence n = .fenced ∧ s.fget Fd.corePwr_STATE n
      ≠ 0 :=
  by decide +kernel
theorem meets_resetCommandsActOnTheirUnit_3 :
    let src : Source := .host
    let n : CoreId := 0
    let s : State := twin
    s.shut src = false ∧ s.reset' = none ∧ s.power = none ∧ s.resetCheck 1 n = none ∧ s.coreFence n ≠ .fenced :=
  by decide +kernel
theorem meets_resetCommandsActOnTheirUnit_4 :
    let src : Source := .host
    let f : FoldId := 0
    let s : State := twin
    s.shut src = false ∧ s.reset' = none ∧ s.power = none ∧ s.resetCheck 2 f = none ∧ s.foldFence f ≠ .fenced :=
  by decide +kernel
theorem meets_resetCommandsActOnTheirUnit_5 :
    let src : Source := .host
    let dk : Nat := 1
    let id : Nat := 0
    let e : Nat := 10
    let s : State := up
    s.shut src = false ∧ s.reset' = none ∧ ResetNames dk id ∧ s.resetCheck dk id = some e :=
  by decide +kernel
theorem meets_resetCommandsActOnTheirUnit_7 :
    let dk : Nat := 4
    let id : Nat := 5
    let s : State := img
    s.shut .host = false ∧ s.reset' = none ∧ dk < 256 ∧ id < 65536 ∧ (dk = 0 ∨ dk = 4 ∨ dk = 5 ∨ 6 < dk) :=
  by decide +kernel
theorem meets_resetCommandsActOnTheirUnit_8 :
    let dk : Nat := 1
    let id : Nat := 287
    let w : ResetRun := ⟨1, 3, false, none⟩
    let s : State := { img with reset' := some ⟨1, 3, false, none⟩ }
    s.shut .host = false ∧ s.reset' = some w ∧ ResetNames dk id :=
  by decide +kernel
theorem meets_resetCommandsActOnTheirUnit_9 :
    let src : Source := .host
    let dk : Nat := 1
    let id : Nat := 4
    let p : PowerRun := runs 1 4 1 0 none
    let s : State := powerOn (runs 1 4 1 0 none)
    s.shut src = false ∧ s.reset' = none ∧ ResetNames dk id ∧ s.resetCheck dk id = none ∧ s.power = some p ∧ p.dkind = dk ∧ p.id = id :=
  by decide +kernel
theorem meets_resetCommandsActOnTheirUnit_10 :
    let src : Source := .host
    let f : FoldId := 0
    let s : State := ((smallImg.setFence 288 .fenced).modRing 0 fun x => { x with segs := [heldSeg] }).fset Fd.corePwr_STATE 2 9
    s.shut src = false ∧ s.reset' = none ∧ s.power = none ∧ s.resetCheck 2 f = none ∧ s.foldFence f = .fenced :=
  by decide +kernel
theorem meets_resetCommandsActOnTheirUnit_11 :
    let src : Source := .host
    let p : PortId := 0
    let s : State := (awaitRsp.fset Fd.portEvents_TIMEOUTS 3 0).fset Fd.portStatus_SPEED 1 0
    s.shut src = false ∧ s.reset' = none ∧ s.power = none ∧ s.resetCheck 3 p = none :=
  by decide +kernel
theorem meets_resetCommandsActOnTheirUnit_12 :
    let src : Source := .host
    let n : Fin 5 := 0
    let s : State := fw
    s.shut src = false ∧ s.reset' = none ∧ s.power = none ∧ (s.proc n).starts = false :=
  by decide +kernel
theorem meets_resetCommandsActOnTheirUnit_13 :
    let src : Source := .host
    let n : Fin 5 := 1
    let s : State := fw.modProc 1 fun p => { p with starts := true }
    s.shut src = false ∧ s.reset' = none ∧ s.power = none ∧ (s.proc n).starts = true :=
  by decide +kernel
theorem meets_resetCommandsActOnTheirUnit_14 :
    let q : ResetRun := ⟨1, 3, false, some 0⟩
    let r : Nat := 0
    let s : State := { img with reset' := some ⟨1, 3, false, some 0⟩ }
    s.reset' = some q ∧ q.result = some r ∧ (∀ p, s.power = some p → p.waitReset = false) :=
  by decide +kernel
theorem meets_resetCommandsActOnTheirUnit_15 :
    let q : ResetRun := ⟨1, 3, false, some 0⟩
    let r : Nat := 0
    let p : PowerRun := { runs 1 3 3 1 none with waitReset := true }
    let s : State := { (powerOn { runs 1 3 3 1 none with waitReset := true }) with reset' := some ⟨1, 3, false, some 0⟩ }
    s.reset' = some q ∧ q.result = some r ∧ s.power = some p ∧ p.waitReset = true ∧ p.dkind = 1 ∧ p.action = 3 ∧ s.fget Fd.corePwr_STATE
      p.id ≠ p.arg :=
  by decide +kernel
theorem meets_resetCommandsActOnTheirUnit_16 :
    let q : ResetRun := ⟨6, 1, true, none⟩
    let p : PowerRun := runs 1 4 2 0 (some 0)
    let r : Nat := 0
    let s : State := State.modProc { (powerOn (runs 1 4 2 0 (some 0))) with reset' := some ⟨6, 1, true, none⟩ } 1 fun p => { p with starts := true }
    s.power = some p ∧ p.hbm = false ∧ p.ring = none ∧ p.result = some r ∧ s.powerWait = [] ∧ s.reset' = some q ∧ q.waitPower = true ∧
      q.dkind = 6 ∧ q.result = none ∧ (s.proc q.id).starts = true :=
  by decide +kernel
theorem meets_resetCommandsActOnTheirUnit_17 :
    let q : ResetRun := ⟨1, 4, true, none⟩
    let p : PowerRun := runs 1 4 3 1 (some 0)
    let r : Nat := 0
    let n : CoreId := 4
    let s : State := { (powerOn (runs 1 4 3 1 (some 0))) with reset' := some ⟨1, 4, true, none⟩ }
    s.power = some p ∧ p.hbm = false ∧ p.ring = none ∧ p.result = some r ∧ s.powerWait = [] ∧ s.reset' = some q ∧ q.waitPower = true ∧
      q.dkind = 1 ∧ q.id = n.val ∧ q.result = none ∧ s.coreFence n ≠ .fenced :=
  by decide +kernel
theorem meets_resetCommandsActOnTheirUnit_18 :
    let s : State := img
    (∀ q, s.reset' = some q → q.result = none) :=
  by decide +kernel
theorem meets_resetCommandsActOnTheirUnit_19 :
    let s : State := img
    s.reset' = none :=
  by decide +kernel
theorem meets_resetCommandsActOnTheirUnit_20 :
    let q : ResetRun := ⟨1, 75, false, none⟩
    let ch : Nat := 24
    let die : Nat := 1
    let d : Det := ⟨1, 1, 75, 24⟩
    let s : State := { img with reset' := some ⟨1, 75, false, none⟩ }
    s.reset' = some q ∧ s.power = none ∧ die = (if q.dkind = 1 then q.id / 72 else if q.dkind = 3 then q.id / 9 else 4) ∧ stallDets die ch
      = [d] ∧ s.responseOf d.cls = 0 ∧ bit (s.reg .fcActive die) 63 = false :=
  by decide +kernel
theorem meets_onlyTheHandlerAcknowledges_1 :
    let n : Fin 5 := 1
    let die : Fin 5 := 0
    let s : State := fw.setReg .fcActive (slotTake ⟨0x0A, 1, 3, 64⟩ 0) 0
    n.val = s.handlerOf die ∧ bit (s.reg .fcActive die) 63 = true :=
  by decide +kernel
theorem meets_onlyTheHandlerAcknowledges_2 :
    let n : Fin 5 := 0
    let die : Fin 5 := 4
    let s : State := fw
    n.val = s.handlerOf die ∧ bit (s.reg .fcActive die) 63 = false :=
  by decide +kernel
theorem meets_onlyTheHandlerAcknowledges_3 :
    let s : State := fw
    s.shut .host = false :=
  by decide +kernel
theorem meets_onlyTheHandlerAcknowledges_5 :
    let n : Fin 5 := 2
    let die : Fin 5 := 0
    let s : State := fw
    n.val ≠ s.handlerOf die :=
  by decide +kernel
theorem meets_pathsScrubAndPacketErrors_1 :
    let q : Fin 4 := 2
    let p : Fin 2 := 1
    let s : State := img
    s.pathDown q p = false ∧ s.pathDown q (1 - p.val) = false ∧ Quiet 4 1 s :=
  by decide +kernel
theorem meets_pathsScrubAndPacketErrors_2 :
    let q : Fin 4 := 2
    let p : Fin 2 := 1
    let s : State := { img with hubPaths := [(4, ())] }
    s.pathDown q p = false ∧ s.pathDown q (1 - p.val) = true :=
  by decide +kernel
theorem meets_pathsScrubAndPacketErrors_3 :
    let q : Fin 4 := 2
    let p : Fin 2 := 0
    let s : State := { img with hubPaths := [(4, ())] }
    s.pathDown q p = true :=
  by decide +kernel
theorem meets_pathsScrubAndPacketErrors_5 :
    let q : Fin 4 := 2
    let p : Fin 2 := 0
    let cls : Nat := 3
    let n : Nat := 5
    let act : Bool := false
    let s : State := { img with hubPaths := [(4, ())], hubHeld := [(2054, 5)] }
    s.pathDown q p = true ∧ nhas s.hubPaths (100 + 2 * q.val + (1 - p.val)) = false ∧ cls < 32 ∧ s.hubHeld = [(1024 * q.val + 2 * cls +
      b2n act, n)] :=
  by decide +kernel
theorem meets_pathsScrubAndPacketErrors_6 :
    let q : Fin 4 := 2
    let p : Fin 2 := 0
    let s : State := { img with hubPaths := [(4, ()), (5, ()), (105, ())] }
    s.pathDown q p = true ∧ nhas s.hubPaths (100 + 2 * q.val + (1 - p.val)) = true ∧ s.hubHeld = [] ∧ Quiet 4 1 s :=
  by decide +kernel
theorem meets_pathsScrubAndPacketErrors_7 :
    let q : Fin 4 := 2
    let p : Fin 2 := 0
    let s : State := img
    s.pathDown q p = false :=
  by decide +kernel
theorem meets_pathsScrubAndPacketErrors_8 :
    let c : CoreId := 3
    let off : Nat := 0x1010
    let s : State := { heldState with hubPaths := [(0, ()), (1, ())] }
    s.hasImage = true ∧ s.devSec.policyFlags.testBit 0 = true ∧ off < Config.pantryBytes ∧ isCtrOff off = false ∧ Quiet (coreDie c) 0x0A s
      ∧ s.pathDown (coreDie c) 0 = true ∧ s.pathDown (coreDie c) 1 = true ∧ s.hubHeld = [] :=
  by decide +kernel
theorem meets_pathsScrubAndPacketErrors_9 :
    let e : Ecc := .single
    let s : State := heldState
    (s.hasImage = false ∨ s.devSec.policyFlags.testBit 0 = false ∨ e ≠ .double) :=
  by decide +kernel
theorem meets_pathsScrubAndPacketErrors_10 :
    let c : CoreId := 3
    let off : Nat := 0x1010
    let s : State := heldState
    s.hasImage = true ∧ s.devSec.policyFlags.testBit 0 = true ∧ off < Config.pantryBytes ∧ isCtrOff off = false ∧ Quiet (coreDie c) 0x0A s :=
  by decide +kernel
theorem meets_pathsScrubAndPacketErrors_11 :
    let c : CoreId := 3
    let s : State := heldState
    s.hasImage = true ∧ s.devSec.policyFlags.testBit 0 = true ∧ Quiet (coreDie c) 0x0A s :=
  by decide +kernel
theorem meets_pathsScrubAndPacketErrors_12 :
    let c : CoreId := 3
    let e : Fin 5 := 0
    let i : Nat := 0
    let w : EWord := copyWord
    let s : State := heldState.setQueue 3 0 [copyWord]
    s.hasImage = true ∧ s.devSec.policyFlags.testBit 0 = true ∧ (e = 0 ∨ e = 3 ∨ e = 4) ∧ ((s.core c).queue e)[i]? = some w ∧ Quiet
      (coreDie c) 0x0B s :=
  by decide +kernel
theorem meets_pathsScrubAndPacketErrors_13 :
    let c : CoreId := 5
    let tree : Nat := 1
    let f : Nat := 0
    let n : Nat := 0
    let e : PourEntry := ⟨1, [⟨0, [], [], true, true, false⟩], 0, 0, 0⟩
    let y : PourTile := ⟨0, [], [], true, true, false⟩
    let ys : List PourTile := []
    let x : StreamSt := pourStream
    let s : State := { (heldState.modCore 5 fun k => { k with pour := [(0, ⟨1, [⟨0, [], [], true, true, false⟩], 0, 0, 0⟩)] }) with streams := [pourStream] }
    s.hasImage = true ∧ s.devSec.policyFlags.testBit 0 = true ∧ s.pourEntry c tree = some (n, e) ∧ e.tiles = y :: ys ∧ (s.foldOfCore
      c).getD 16 = f ∧ s.streamsOn f tree = [x] ∧ x.orphan = false ∧ x.ended = false ∧ s.coreFence x.core = FencePhase.none ∧ Quiet
      (coreDie c) 0x0B s :=
  by decide +kernel
theorem meets_pathsScrubAndPacketErrors_14 :
    let c : CoreId := 5
    let tree : Nat := 1
    let s : State := heldState
    s.hasImage = true ∧ s.devSec.policyFlags.testBit 0 = true ∧ s.pourEntry c tree = none :=
  by decide +kernel
theorem meets_pathsScrubAndPacketErrors_15 :
    let p : PortId := 35
    let s : State := heldState
    s.hasImage = true ∧ s.devSec.policyFlags.testBit 0 = true ∧ s.portUp p = false ∧ Quiet (portDie p) 0x0B s :=
  by decide +kernel
theorem meets_pathsScrubAndPacketErrors_16 :
    let p : PortId := 0
    let s : State := heldState.fset Fd.portStatus_STATE 5 0
    s.hasImage = true ∧ s.devSec.policyFlags.testBit 0 = true ∧ s.portUp p = true ∧ s.responseOf 0x0B = 0 ∧ Quiet (portDie p) 0x14 s :=
  by decide +kernel
theorem meets_pathsScrubAndPacketErrors_17 :
    let s : State := heldState
    s.hasImage = true ∧ s.devSec.policyFlags.testBit 0 = true ∧ Quiet 4 0x1B s :=
  by decide +kernel
theorem meets_pathsScrubAndPacketErrors_18 :
    let die : Fin 5 := 1
    let s : State := heldState.setReg .fcActive (slotTake ⟨0x0A, 1, 75, 64⟩ 0) 1
    s.hasImage = true ∧ s.devSec.policyFlags.testBit 0 = true ∧ Quiet 4 0x1B s ∧ die.val ≠ 4 :=
  by decide +kernel
theorem meets_pathsScrubAndPacketErrors_19 :
    let r : RingId := 0
    let k : RingCmd := nopCmd
    let i : Nat := 0
    let s : State := { (ringWith [{ count := 1 }] [nopCmd]) with life := heldState.life }
    s.hasImage = true ∧ s.devSec.policyFlags.testBit 0 = true ∧ (s.ring r).cmds = [k] ∧ k.idx = i ∧ (k.phase = .checking ∨ k.phase =
      .ready) ∧ Quiet 4 0x0B s :=
  by decide +kernel
theorem meets_pathsScrubAndPacketErrors_20 :
    let s : State := heldState
    s.hasImage = true ∧ s.devSec.policyFlags.testBit 0 = true ∧ Quiet 4 0x1B s :=
  by decide +kernel
theorem meets_pathsScrubAndPacketErrors_21 :
    let die : Fin 5 := 4
    let n : CoreId := 3
    let x : PacketTarget := .core 3
    let d : Det := ⟨0x0C, 1, 3, 7⟩
    let ch : Nat := 0x10007
    let req : Nat := 5
    let s : State := img
    (x = .core n ∧ d = ⟨0x0C, 1, n.val, ch % 65536⟩ ∨ x = .die ∧ d = ⟨0x0C, 4, die.val, ch % 65536⟩) ∧ nfind s.hostOps req = none ∧ Quiet
      d.die 0x0C s :=
  by decide +kernel
theorem meets_pathsScrubAndPacketErrors_22 :
    let die : Fin 5 := 4
    let req : Nat := 5
    let c : CoreId := 3
    let p : Part := { ring := 0, seq := 1 }
    let ps : List Part := []
    let s : State := img.modCore 3 fun k => { k with parts := [{ ring := 0, seq := 1 }] }
    nfind s.hostOps req = none ∧ (s.core c).parts = p :: ps ∧ Quiet die 0x0C s :=
  by decide +kernel
theorem meets_pathsScrubAndPacketErrors_23 :
    let die : Fin 5 := 4
    let req : Nat := 5
    let o : HostOp := { by' := .twin 0, op := 0, ctx := 0, off := 0, len := 4 }
    let c : CoreId := 0
    let s : State := { img with hostOps := [(5, { by' := .twin 0, op := 0, ctx := 0, off := 0, len := 4 })] }
    nfind s.hostOps req = some o ∧ o.by' = .twin c ∧ Quiet die 0x0C s :=
  by decide +kernel
theorem meets_startUpAndDeviceReset_2 :
    let s : State := { State.reset with fused := { deviceId := 77, present := 3 } }
    s.life.aonUp = false ∧ s.life.devPend = none :=
  by decide +kernel
theorem meets_startUpAndDeviceReset_3 :
    let s : State := { State.reset with fused := { deviceId := 77, present := 3 } }
    s.life.aonUp = false ∧ s.life.devPend = none :=
  by decide +kernel
theorem meets_startUpAndDeviceReset_4 :
    let s : State := { State.reset with fused := { imageFloor := 4 } }
    s.life.aonUp = false ∧ s.life.devPend = none :=
  by decide +kernel
theorem meets_startUpAndDeviceReset_6 :
    let cause : DeviceCause := .flr
    let s : State := { State.reset with life := { State.reset.life with devPend := some .flr } }
    s.life.aonUp = false ∧ s.life.devPend = some cause :=
  by decide +kernel
theorem meets_startUpAndDeviceReset_7 :
    let s : State := up
    s.life.aonUp = true :=
  by decide +kernel
theorem meets_startUpAndDeviceReset_8 :
    let s : State := State.reset
    s.life.aonUp = false :=
  by decide +kernel
theorem meets_startUpAndDeviceReset_9 :
    let s : State := (ringWith [heldSeg] [nopCmd]).put 64 [1, 2]
    s.life.aonUp = true :=
  by decide +kernel
theorem meets_startUpAndDeviceReset_10 :
    let s : State := (ringWith [heldSeg] [nopCmd]).put 64 [1, 2]
    s.life.aonUp = true ∧ s.life.bist = none ∧ (∀ c : CoreId, s.fget Fd.corePwr_STATE c ≠ 3) :=
  by decide +kernel
theorem meets_startUpAndDeviceReset_11 :
    let n : CoreId := 3
    let s : State := (img.fset Fd.corePwr_STATE 3 3).put (pantryKey 3 8) [1]
    s.life.aonUp = true ∧ (s.fget Fd.corePwr_STATE n = 3 ∨ s.life.bist = some ⟨false, n.val⟩) :=
  by decide +kernel
theorem meets_startUpAndDeviceReset_12 :
    let st : Fin 8 := 1
    let s : State := State.put { img with life := { img.life with bist := some ⟨true, 1⟩ } } (hbmKey 33 8) [1]
    s.life.aonUp = true ∧ s.life.bist = some ⟨true, st.val⟩ ∧ (∀ c : CoreId, s.fget Fd.corePwr_STATE c ≠ 3) :=
  by decide +kernel
theorem meets_startUpAndDeviceReset_13 :
    let s : State := awaitRsp
    s.life.aonUp = true :=
  by decide +kernel
theorem meets_startUpAndDeviceReset_15 :
    let slot : Nat := 0
    let gen : Nat := 0
    let old : Nat := 0
    let dirs : List (Option Bytes) := [none, none]
    let a : Option Bytes := some fwBundle
    let c : Option Bytes := none
    let x : Option Bytes := some fwBundle
    let b : Bytes := fwBundle
    let s : State := keyed
    s.life.aonUp = true ∧ s.life.perst = false ∧ s.life.inReset = false ∧ s.life.booted = false ∧ s.fon Fd.testStatus_BOOT_HUB_FAIL =
      false ∧ bootDirectory dirs = (slot, gen, old) ∧ slot ≤ 1 ∧ x = (if slot = 0 then a else c) ∧ s.slotBundle x = (b, none) :=
  by decide +kernel
theorem meets_startUpAndDeviceReset_16 :
    let slot : Nat := 0
    let gen : Nat := 0
    let old : Nat := 0
    let e : Nat := 3
    let dirs : List (Option Bytes) := [none, none]
    let a : Option Bytes := none
    let c : Option Bytes := some fwBundle
    let x : Option Bytes := none
    let y : Option Bytes := some fwBundle
    let b : Bytes := fwBundle
    let s : State := keyed
    s.life.aonUp = true ∧ s.life.perst = false ∧ s.life.inReset = false ∧ s.life.booted = false ∧ s.fon Fd.testStatus_BOOT_HUB_FAIL =
      false ∧ bootDirectory dirs = (slot, gen, old) ∧ slot ≤ 1 ∧ x = (if slot = 0 then a else c) ∧ y = (if slot = 0 then c else a) ∧
      (s.slotBundle x).2 = some e ∧ s.slotBundle y = (b, none) :=
  by decide +kernel
theorem meets_startUpAndDeviceReset_17 :
    let e : Nat := 5
    let f : Nat := 5
    let a : Option Bytes := some fwBundle
    let c : Option Bytes := some fwBundle
    let s : State := up
    s.life.aonUp = true ∧ s.life.perst = false ∧ s.life.inReset = false ∧ s.life.booted = false ∧ s.fon Fd.testStatus_BOOT_HUB_FAIL =
      false ∧ (s.slotBundle a).2 = some e ∧ (s.slotBundle c).2 = some f :=
  by decide +kernel
theorem meets_startUpAndDeviceReset_18 :
    let x : BootFinding := .core 3 0x1EF 5
    let n : CoreId := 3
    let ch : ChanId := 7
    let i : Fin 8 := 7
    let g : Fin 2 := 1
    let fs : Nat := 0x1EF
    let arrays : Word := 5
    let s : State := up
    s.life.aonUp = true ∧ s.life.perst = false ∧ s.life.inReset = false ∧ s.life.booted = false ∧ (x = .core n fs arrays ∧ s.corePresent n
      = true ∧ s.life.cold = true ∧ s.hasImage = false ∨ x = .slice ch ∧ s.life.cold = true ∨ x = .stack i ∨ x = .bank g ∧ s.life.cold
      = true ∨ x = .hubSram ∧ s.life.cold = true) :=
  by decide +kernel
theorem meets_startUpAndDeviceReset_19 :
    let s : State := State.reset
    (s.life.aonUp = false ∨ s.life.perst = true ∨ s.life.inReset = true ∨ s.life.booted = true) :=
  by decide +kernel
theorem meets_fuseRequestsAreCheckedAndProgrammed_1 :
    let src : Source := .host
    let op : Nat := 1
    let b : Bytes := fuseRequest 1 2 0 0 fwHash
    let s : State := State.masters blankFuses
    (1 ≤ op ∧ op ≤ 5) ∧ FuseTakes src s ∧ s.mayMaster = true ∧ imgN b 4 1 = op ∧ s.fuseCheck false (some b) = none :=
  by decide +kernel
theorem meets_fuseRequestsAreCheckedAndProgrammed_2 :
    let src : Source := .host
    let op : Nat := 3
    let r : HostRead := .ok imageReq
    let s : State := fusable
    (1 ≤ op ∧ op ≤ 5) ∧ FuseTakes src s ∧ s.mayMaster = false ∧ s.fuseBusy = false ∧ (readBytes r = none ∨ ∃ b, readBytes r = some b ∧
      imgN b 4 1 = op) :=
  by decide +kernel
theorem meets_fuseRequestsAreCheckedAndProgrammed_3 :
    let src : Source := .host
    let op : Nat := 3
    let b : Bytes := imageReq
    let s : State := { State.masters fusable with life := { fusable.life with fuseDue := true } }
    (1 ≤ op ∧ op ≤ 5) ∧ s.shut src = false ∧ (s.proc 0).running = true ∧ s.life.fuseDue = true ∧ s.mayMaster = true ∧ imgN b 4 1 = op ∧
      s.fuseCheck false (some b) = none :=
  by decide +kernel
theorem meets_fuseRequestsAreCheckedAndProgrammed_4 :
    let src : Source := .host
    let op : Nat := 2
    let e : Nat := 12
    let b : Bytes := revokeReq
    let s : State := { State.masters fusable with fuse := { slots := [⟨some fwHash, false⟩, {}, {}, {}] } }
    (1 ≤ op ∧ op ≤ 5) ∧ FuseTakes src s ∧ s.mayMaster = true ∧ (imgN b 4 1 = op ∨ imgN b 4 1 = 0 ∨ 5 < imgN b 4 1) ∧ s.fuseCheck false
      (some b) = some e :=
  by decide +kernel
theorem meets_fuseRequestsAreCheckedAndProgrammed_5 :
    let src : Source := .host
    let op : Nat := 1
    let r : HostRead := .timeout
    let s : State := State.masters fusable
    (1 ≤ op ∧ op ≤ 5) ∧ FuseTakes src s ∧ s.mayMaster = true ∧ s.fuseBusy = false ∧ (r = .timeout ∨ r = .refused) ∧ Quiet 4 0x1C s :=
  by decide +kernel
theorem meets_fuseRequestsAreCheckedAndProgrammed_8 :
    let op : Nat := 2
    let s : State := up
    (1 ≤ op ∧ op ≤ 5) ∧ s.shut .host = false ∧ s.fget Fd.fwStatus_STATE = 0 ∧ s.life.fuseDue = false :=
  by decide +kernel
theorem meets_fuseRequestsAreCheckedAndProgrammed_9 :
    let src : Source := .host
    let op : Nat := 2
    let s : State := fusable.modProc 0 fun p => { p with running := false }
    (1 ≤ op ∧ op ≤ 5) ∧ s.shut src = false ∧ (src ≠ .host ∨ s.fget Fd.fwStatus_STATE ≠ 0) ∧ (s.proc 0).running = false :=
  by decide +kernel
theorem meets_fuseRequestsAreCheckedAndProgrammed_10 :
    let src : Source := .host
    let op : Nat := 1
    let b : Bytes := revokeReq
    let s : State := State.masters fusable
    (1 ≤ op ∧ op ≤ 5) ∧ s.shut src = false ∧ (src ≠ .host ∨ s.fget Fd.fwStatus_STATE ≠ 0) ∧ imgN b 4 1 ≠ op ∧ 1 ≤ imgN b 4 1 ∧ imgN b 4 1
      ≤ 5 :=
  by decide +kernel
theorem meets_fuseRequestsAreCheckedAndProgrammed_11 :
    let q : FuseRun := ⟨3, 0, 9, []⟩
    let s : State := { fusable with life := { fusable.life with fuseReq := some ⟨3, 0, 9, []⟩ } }
    s.life.fuseReq = some q ∧ s.life.scanWait = none :=
  by decide +kernel
theorem meets_fuseRequestsAreCheckedAndProgrammed_13 :
    let q : FuseRun := ⟨1, 1, 2, [1]⟩
    let s : State := { fusable with life := { fusable.life with fuseReq := some ⟨1, 1, 2, [1]⟩ } }
    s.life.fuseReq = some q ∧ s.life.scanWait = none :=
  by decide +kernel
theorem meets_fuseRequestsAreCheckedAndProgrammed_15 :
    let q : FuseRun := ⟨3, 0, 9, []⟩
    let b : Bytes := List.replicate 384 0
    let ok : Bool := true
    let s : State := { fusable with life := { fusable.life with fuseReq := some ⟨3, 0, 9, []⟩, scanWait := some (List.replicate 384 0, true) } }
    s.life.fuseReq = some q ∧ s.life.scanWait = some (b, ok) ∧ s.life.cmd = none ∧ s.fget Fd.fwStatus_STATE < 2 ∧ s.scanOn = false ∧
      b.length = 384 ∧ imgN b 0 4 ≠ 0x53554658 :=
  by decide +kernel
theorem meets_fuseRequestsAreCheckedAndProgrammed_16 :
    let s : State := fusable
    s.life.fuseReq = none :=
  by decide +kernel
theorem meets_fuseRequestsAreCheckedAndProgrammed_17 :
    let b : Bytes := fuseRequest 6 0 0 0 []
    let s : State := blankFuses.put 64 [1]
    b.length = 384 ∧ (s.proc 0).running = true ∧ s.life.fuseReq = none ∧ s.fuseCheck true (some b) = none :=
  by decide +kernel
theorem meets_fuseRequestsAreCheckedAndProgrammed_18 :
    let b : Bytes := revokeReq
    let e : Nat := 6
    let s : State := fusable
    b.length = 384 ∧ (s.proc 0).running = true ∧ s.life.fuseReq = none ∧ s.fuseCheck true (some b) = some e :=
  by decide +kernel
theorem meets_fuseRequestsAreCheckedAndProgrammed_19 :
    let b : Bytes := fuseRequest 6 0 0 0 []
    let s : State := { fusable with life := { fusable.life with fuseReq := some ⟨1, 2, 0, [1]⟩ } }
    b.length = 384 ∧ (s.proc 0).running = true ∧ s.life.fuseReq.isSome = true :=
  by decide +kernel
theorem meets_fuseRequestsAreCheckedAndProgrammed_20 :
    let b : Bytes := []
    let s : State := fusable
    (b.length ≠ 384 ∨ (s.proc 0).running = false) :=
  by decide +kernel
theorem meets_offlineTestsOfCoresAndStacks_1 :
    let src : Source := .host
    let c : CoreId := 2
    let s : State := img.setFence 2 .fenced
    s.shut src = false ∧ s.life.bist = none ∧ s.bistCheck false c = none :=
  by decide +kernel
theorem meets_offlineTestsOfCoresAndStacks_2 :
    let src : Source := .host
    let i : Fin 8 := 1
    let s : State := img.setFence 288 .fenced
    s.shut src = false ∧ s.life.bist = none ∧ s.bistCheck true i = none :=
  by decide +kernel
theorem meets_offlineTestsOfCoresAndStacks_3 :
    let src : Source := .host
    let c : CoreId := 2
    let e : Nat := 3
    let s : State := img
    s.shut src = false ∧ s.life.bist = none ∧ s.bistCheck false c = some e :=
  by decide +kernel
theorem meets_offlineTestsOfCoresAndStacks_4 :
    let src : Source := .host
    let i : Fin 8 := 1
    let f : Nat := 3
    let s : State := img
    s.shut src = false ∧ s.life.bist = none ∧ s.bistCheck true i = some f :=
  by decide +kernel
theorem meets_offlineTestsOfCoresAndStacks_6 :
    let s : State := { img with life := { img.life with bist := some ⟨true, 1⟩ } }
    s.shut .host = false ∧ s.life.bist.isSome = true :=
  by decide +kernel
theorem meets_offlineTestsOfCoresAndStacks_7 :
    let c : CoreId := 2
    let s : State := { (img.setFence 2 .fenced).put (pantryKey 2 16) [1, 2] with life := { img.life with bist := some ⟨false, 2⟩ } }
    s.life.bist = some ⟨false, c.val⟩ ∧ (∀ p, s.power = some p → p.waitReset = false) :=
  by decide +kernel
theorem meets_offlineTestsOfCoresAndStacks_8 :
    let i : Fin 8 := 1
    let s : State := { (img.setFence 288 .fenced).put (hbmKey 33 5) [1, 2] with life := { img.life with bist := some ⟨true, 1⟩ } }
    s.life.bist = some ⟨true, i.val⟩ ∧ (∀ p, s.power = some p → p.waitReset = false) :=
  by decide +kernel
theorem meets_offlineTestsOfCoresAndStacks_9 :
    let c : CoreId := 2
    let q : PowerRun := { runs 1 2 3 1 none with waitReset := true }
    let s : State := { (powerOn { runs 1 2 3 1 none with waitReset := true }) with life := { img.life with bist := some ⟨false, 2⟩ } }
    s.life.bist = some ⟨false, c.val⟩ ∧ s.power = some q ∧ q.waitReset = true ∧ q.dkind = 1 ∧ q.id = c.val ∧ q.action = 3 ∧ s.fget
      Fd.corePwr_STATE c ≠ q.arg :=
  by decide +kernel
theorem meets_offlineTestsOfCoresAndStacks_10 :
    let s : State := img
    s.life.bist = none :=
  by decide +kernel
theorem meets_testPortInstructionsNeedPerst_1 :
    let s : State := State.reset
    s.life.perst = true :=
  by decide +kernel
theorem meets_testPortInstructionsNeedPerst_2 :
    let s : State := up
    s.life.perst = false :=
  by decide +kernel
theorem meets_testPortInstructionsNeedPerst_6 :
    let s : State := up
    s.life.aonUp = true ∧ s.tap.access = none :=
  by decide +kernel
theorem meets_debugAccessesThroughTheTestPort_1 :
    let dr : Nat := 2 ^ 64
    let d : Nat := 2 ^ 56 + 2 ^ 32 * 288 + 2 ^ 16 * 0xA1 + 4288
    let u : State := { (up.fset Fd.debugCtl_PORT_LEVEL 1) with tap := { up.tap with ir := 0x20 } }
    let s : State := up.fset Fd.debugCtl_PORT_LEVEL 1
    s.life.aonUp = true ∧ s.tap.access = none ∧ bit dr 87 = false ∧ s.portDenied false (bits dr 86 64 * 8) (bits dr 63 0) = false ∧
      (s.setIr 0x20 false).readReg (bits dr 86 64 * 8) 8 = (d, u) :=
  by decide +kernel
theorem meets_debugAccessesThroughTheTestPort_2 :
    let dr : Nat := 0
    let s : State := up
    s.life.aonUp = true ∧ s.tap.access = none ∧ s.portDenied (bit dr 87) (bits dr 86 64 * 8) (bits dr 63 0) = true :=
  by decide +kernel
theorem meets_debugAccessesThroughTheTestPort_3 :
    let a : Nat × Nat := (0, 7)
    let s : State := State.setIr { up with tap := { up.tap with access := some (0, 7) } } 1 false
    s.life.aonUp = true ∧ s.tap.access = some a :=
  by decide +kernel
theorem meets_debugAccessesThroughTheTestPort_4 :
    let st : Nat := 0
    let d : Nat := 7
    let s : State := State.setIr { up with tap := { up.tap with access := some (0, 7) } } 1 false
    s.tap.access = some (st, d) :=
  by decide +kernel
theorem meets_debugAccessesThroughTheTestPort_5 :
    let s : State := up
    s.tap.access = none :=
  by decide +kernel
theorem meets_debugAccessesThroughTheTestPort_8 :
    let dr : Nat := 2 ^ 87 * 1 + 2 ^ 64 * 2097345 + 5
    let s : State := (img.fset Fd.debugCtl_PORT_LEVEL 2).fset Fd.debugCtl_CONTROL_FOLDS 1
    s.life.aonUp = true ∧ s.tap.access = none ∧ bit dr 87 = true ∧ s.portDenied true (bits dr 86 64 * 8) (bits dr 63 0) = false :=
  by decide +kernel
theorem meets_debugAccessesThroughTheTestPort_9 :
    let s : State := State.reset
    s.life.aonUp = false :=
  by decide +kernel
theorem meets_debugAccessesThroughTheTestPort_10 :
    let s : State := up
    s.scanOn = false ∧ s.fget Fd.debugCtl_PORT_LEVEL = 0 :=
  by decide +kernel
theorem meets_debugAccessesThroughTheTestPort_11 :
    let s : State := up.fset Fd.debugCtl_PORT_LEVEL 1
    s.scanOn = false ∧ s.fget Fd.debugCtl_PORT_LEVEL = 1 :=
  by decide +kernel
theorem meets_debugAccessesThroughTheTestPort_12 :
    let s : State := (img.fset Fd.debugCtl_PORT_LEVEL 2)
    (s.scanOn = true ∨ s.fget Fd.debugCtl_PORT_LEVEL = 2) :=
  by decide +kernel
theorem meets_debugAccessesThroughTheTestPort_13 :
    let off : Nat := 16778752
    let v : Nat := 1
    let a : RegAt := ⟨.tdbgCmd, 0, 0, 0⟩
    let s : State := (img.fset Fd.debugCtl_PORT_LEVEL 2)
    (s.scanOn = true ∨ s.fget Fd.debugCtl_PORT_LEVEL = 2) ∧ inSubmit off = false ∧ regAt off = some a ∧ (a.reg = .tdbgCmd ∨ a.reg =
      .tdbgData ∨ a.reg = .dbgData ∨ a.reg = .groupCmd ∧ (bits v 11 8 = 4 ∨ bits v 11 8 = 5)) :=
  by decide +kernel
theorem meets_debugAccessesThroughTheTestPort_14 :
    let off : Nat := 524544
    let s : State := (img.fset Fd.debugCtl_PORT_LEVEL 2)
    (s.scanOn = true ∨ s.fget Fd.debugCtl_PORT_LEVEL = 2) ∧ inSubmit off = true :=
  by decide +kernel
theorem meets_debugAccessesThroughTheTestPort_15 :
    let off : Nat := 16779304
    let v : Nat := 3 * 256
    let s : State := (img.fset Fd.debugCtl_PORT_LEVEL 2)
    (s.scanOn = true ∨ s.fget Fd.debugCtl_PORT_LEVEL = 2) ∧ inSubmit off = false ∧ (∀ a, regAt off = some a → a.reg ≠ .tdbgCmd ∧ a.reg ≠
      .tdbgData ∧ a.reg ≠ .dbgData ∧ (a.reg = .groupCmd → bits v 11 8 ≠ 4 ∧ bits v 11 8 ≠ 5)) :=
  by decide +kernel
theorem meets_twinDebugCommands_1 :
    let src : Source := .host
    let c : CoreId := 0
    let s : State := twin.fset Fd.debugCtl_CONTROL_FOLDS 1
    s.shut src = false ∧ s.mayDebug src c = true ∧ (s.twin c).mode = .running ∧ (s.twin c).began = false ∧ (s.twin c).rel = [] :=
  by decide +kernel
theorem meets_twinDebugCommands_2 :
    let src : Source := .twin 0
    let c : CoreId := 0
    let s : State := twin.modTwin 0 fun t => { t with began := true }
    s.shut src = false ∧ s.mayDebug src c = true ∧ (s.twin c).mode = .running ∧ (s.twin c).began = true :=
  by decide +kernel
theorem meets_twinDebugCommands_3 :
    let src : Source := .host
    let c : CoreId := 0
    let s : State := haltedTwin
    s.shut src = false ∧ s.mayDebug src c = true ∧ (s.twin c).mode = .halted :=
  by decide +kernel
theorem meets_twinDebugCommands_4 :
    let src : Source := .host
    let c : CoreId := 0
    let l : Nat × Bytes := (0, leBytes 4 (3 * 2 ^ 21 + 2 ^ 16 + 2 * 2 ^ 11) ++ List.replicate 60 0)
    let w : Word32 := 0x611000
    let s : State := haltedTwin
    s.shut src = false ∧ s.mayDebug src c = true ∧ (s.twin c).mode = .halted ∧ s.coreLive c = true ∧ (s.twin c).began = false ∧ (s.twin
      c).rel = [] ∧ (s.twin c).excs = [] ∧ s.eventDue c = false ∧ (s.twin c).pc.toNat % 4 = 0 ∧ (s.twin c).icache.find? (fun e => e.1
      == (s.twin c).pc.toNat / 64) = some l ∧ w.toNat = leNat ((l.2.drop ((s.twin c).pc.toNat % 64)).take 4) ∧ tClass w.toNat = .alu :=
  by decide +kernel
theorem meets_twinDebugCommands_5 :
    let src : Source := .host
    let c : CoreId := 0
    let s : State := haltedTwin.fset Fd.tdbgSel_REG 31 0
    s.shut src = false ∧ s.mayDebug src c = true ∧ (s.twin c).mode = .halted ∧ s.fon Fd.tdbgSel_SPECIAL c = false ∧ s.fget Fd.tdbgSel_REG
      c ≠ 0 :=
  by decide +kernel
theorem meets_twinDebugCommands_6 :
    let src : Source := .host
    let c : CoreId := 0
    let s : State := haltedTwin
    s.shut src = false ∧ s.mayDebug src c = true ∧ (s.twin c).mode = .halted ∧ s.fon Fd.tdbgSel_SPECIAL c = false ∧ s.fget Fd.tdbgSel_REG
      c = 0 :=
  by decide +kernel
theorem meets_twinDebugCommands_7 :
    let src : Source := .host
    let c : CoreId := 0
    let s : State := (haltedTwin.fset Fd.tdbgSel_REG 0 0).fset Fd.tdbgSel_SPECIAL 1 0
    s.shut src = false ∧ s.mayDebug src c = true ∧ (s.twin c).mode = .halted ∧ s.fon Fd.tdbgSel_SPECIAL c = true :=
  by decide +kernel
theorem meets_twinDebugCommands_8 :
    let c : CoreId := 0
    let s : State := twin
    s.shut .host = false ∧ (s.mayDebug .host c = false ∨ (s.twin c).mode ≠ .halted) :=
  by decide +kernel
theorem meets_twinDebugCommands_9 :
    let c : CoreId := 0
    let s : State := twin
    s.shut .host = false ∧ (s.mayDebug .host c = false ∨ (s.twin c).mode ≠ .running) :=
  by decide +kernel
theorem meets_twinDebugCommands_10 :
    let n : CoreId := 1
    let c : CoreId := 0
    let s : State := haltedTwin
    (n ≠ c ∨ (s.twin c).mode ≠ .halted) :=
  by decide +kernel
theorem meets_twinDebugCommands_11 :
    let n : CoreId := 287
    let c : CoreId := 0
    let s : State := twin
    (n ≠ c ∨ (s.twin c).mode ≠ .running) :=
  by decide +kernel
theorem meets_twinDebugCommands_12 :
    let c : CoreId := 0
    let s : State := twin
    s.mayDebug .tap c = false :=
  by decide +kernel
theorem meets_twinDebugCommands_13 :
    let src : Source := .host
    let c : CoreId := 0
    let s : State := haltedTwin.setFence 0 .fenced
    s.shut src = false ∧ s.mayDebug src c = true ∧ (s.twin c).mode = .halted ∧ s.coreLive c = false :=
  by decide +kernel
theorem meets_twinDebugCommands_14 :
    let src : Source := .host
    let c : CoreId := 0
    let l : Nat × Bytes := (0, leBytes 4 (0x3F * 2 ^ 26) ++ List.replicate 60 0)
    let w : Word32 := 0x3F * 2 ^ 26
    let s : State := (haltedTwin.modTwin 0 fun t => { t with g := [(1, 0xFFFF10000000FC00), (2, 5), (30, 0xFFFF100000008000)], vbase := 0x2000, icache := [(0, leBytes 4 (0x3F * 2 ^ 26) ++ List.replicate 60 0)] })
    s.shut src = false ∧ s.mayDebug src c = true ∧ (s.twin c).mode = .halted ∧ s.coreLive c = true ∧ (s.twin c).began = false ∧ (s.twin
      c).rel = [] ∧ (s.twin c).excs = [] ∧ s.eventDue c = false ∧ (s.twin c).pc.toNat % 4 = 0 ∧ (s.twin c).icache.find? (fun e => e.1
      == (s.twin c).pc.toNat / 64) = some l ∧ w.toNat = leNat ((l.2.drop ((s.twin c).pc.toNat % 64)).take 4) ∧ tClass w.toNat = .ecall
      ∧ s.stackFails c = 0 :=
  by decide +kernel
theorem meets_twinDebugCommands_15 :
    let src : Source := .host
    let c : CoreId := 0
    let x : Nat × Nat := (7, 2 ^ 60 + 1)
    let s : State := (haltedTwin.modTwin 0 fun t => { t with g := [(1, 0xFFFF10000000FC00), (2, 5), (30, 0xFFFF100000008000)], vbase := 0x2000, icache := [(0, leBytes 4 (0x3F * 2 ^ 26) ++ List.replicate 60 0)], excs := [(7, 2 ^ 60 + 1)] })
    s.shut src = false ∧ s.mayDebug src c = true ∧ (s.twin c).mode = .halted ∧ s.coreLive c = true ∧ (s.twin c).began = false ∧ (s.twin
      c).rel = [] ∧ (s.twin c).excs = [x] ∧ s.stackFails c = 0 :=
  by decide +kernel
theorem meets_twinDebugCommands_16 :
    let src : Source := .host
    let c : CoreId := 0
    let l : Nat × Bytes := (0, leBytes 4 (0x34 * 2 ^ 26 + 3 * 2 ^ 21 + 2 ^ 16 + 2 * 2 ^ 11) ++ List.replicate 60 0)
    let w : Word32 := 0x34 * 2 ^ 26 + 3 * 2 ^ 21 + 2 ^ 16 + 2 * 2 ^ 11
    let k : Nat := ctrKey 0 0
    let s : State := (haltedTwin.modTwin 0 fun t => { t with g := [(1, 0xFFFF10000000FC00), (2, 5), (30, 0xFFFF100000008000)], vbase := 0x2000, icache := [(0, leBytes 4 (0x34 * 2 ^ 26 + 3 * 2 ^ 21 + 2 ^ 16 + 2 * 2 ^ 11) ++ List.replicate 60 0)] })
    s.shut src = false ∧ s.mayDebug src c = true ∧ (s.twin c).mode = .halted ∧ s.coreLive c = true ∧ (s.twin c).began = false ∧ (s.twin
      c).rel = [] ∧ (s.twin c).excs = [] ∧ s.eventDue c = false ∧ (s.twin c).pc.toNat % 4 = 0 ∧ (s.twin c).icache.find? (fun e => e.1
      == (s.twin c).pc.toNat / 64) = some l ∧ w.toNat = leNat ((l.2.drop ((s.twin c).pc.toNat % 64)).take 4) ∧ tClass w.toNat =
      .waitAcq ∧ s.ownCounter c ((s.twin c).gr (tRa w.toNat)).toNat = some k ∧ nhas s.ctrPoison k = false ∧ nfind s.waiters c = none ∧
      s.ctr k < ((s.twin c).gr (tRb w.toNat)).toNat :=
  by decide +kernel
theorem meets_twinDebugCommands_17 :
    let c : CoreId := 0
    let s : State := twin.fset Fd.tdbgBreak_ENABLE 1 0
    s.twinRuns c = true ∧ (s.twin c).began = false ∧ (s.twin c).excs = [] ∧ (s.twin c).rel = [] ∧ s.breakHere c = true :=
  by decide +kernel
theorem meets_hostRequestsAtTheBars_1 :
    let off : Nat := 0x100000000100
    let n : Nat := 4
    let f : Nat := 0
    let c : Nat := 0
    let o : Nat := 0x100
    let s : State := hostIn.put (pantryKey 0 0x100) [1, 2, 3, 4, 5, 6, 7, 8]
    s.barUp = true ∧ s.scanOn = false ∧ 0 < n ∧ off % 64 + n ≤ 64 ∧ off + n ≤ 2 ^ s.host.bar4 ∧ s.resolveHost 0 off = .here f (.pantry c
      o) ∧ s.placeFenced f (.pantry c o) = false ∧ s.pantryPoison c o n = false :=
  by decide +kernel
theorem meets_hostRequestsAtTheBars_2 :
    let off : Nat := 0x100000000100
    let n : Nat := 4
    let f : Nat := 0
    let c : Nat := 0
    let o : Nat := 0x100
    let s : State := hostIn.setPoison (pantryKey 0 0x100 / 64) true
    s.barUp = true ∧ s.scanOn = false ∧ 0 < n ∧ off % 64 + n ≤ 64 ∧ off + n ≤ 2 ^ s.host.bar4 ∧ s.resolveHost 0 off = .here f (.pantry c
      o) ∧ s.placeFenced f (.pantry c o) = false ∧ s.pantryPoison c o n = true :=
  by decide +kernel
theorem meets_hostRequestsAtTheBars_3 :
    let off : Nat := 0x100000000104
    let f : Nat := 0
    let c : Nat := 0
    let o : Nat := 0x104
    let b : Bytes := [9, 8]
    let s : State := hostIn
    s.barUp = true ∧ s.scanOn = false ∧ 0 < b.length ∧ off % 64 + b.length ≤ 64 ∧ off + b.length ≤ 2 ^ s.host.bar4 ∧ s.resolveHost 1 off =
      .here f (.pantry c o) ∧ s.placeFenced f (.pantry c o) = false ∧ isCtrOff o = false ∧ isRescueOff o = false ∧ s.isPoison
      (pantryKey c o / 64) = false :=
  by decide +kernel
theorem meets_hostRequestsAtTheBars_4 :
    let off : Nat := 0x100000000104
    let f : Nat := 0
    let c : Nat := 0
    let o : Nat := 0x104
    let b : Bytes := [9, 8]
    let s : State := hostIn
    s.barUp = true ∧ s.scanOn = false ∧ 0 < b.length ∧ off % 64 + b.length ≤ 64 ∧ off + b.length ≤ 2 ^ s.host.bar4 ∧ s.resolveHost 1 off =
      .here f (.pantry c o) ∧ s.placeFenced f (.pantry c o) = false ∧ isCtrOff o = false ∧ isRescueOff o = false :=
  by decide +kernel
theorem meets_hostRequestsAtTheBars_5 :
    let off : Nat := 0x300000
    let n : Nat := 8
    let s : State := hostIn
    s.barUp = true ∧ s.scanOn = false ∧ 0 < n ∧ off % 64 + n ≤ 64 ∧ off + n ≤ 2 ^ s.host.bar4 ∧ s.resolveHost 0 off = .viol .host :=
  by decide +kernel
theorem meets_hostRequestsAtTheBars_6 :
    let off : Nat := 0x300000
    let n : Nat := 8
    let s : State := State.reset
    (s.barUp = false ∨ 2 ^ s.host.bar4 < off + n) :=
  by decide +kernel
theorem meets_hostRequestsAtTheBars_7 :
    let off : Nat := 0x90004
    let size : Nat := 8
    let s : State := up
    s.barUp = true ∧ off + size ≤ Config.regBytes ∧ (off % size ≠ 0 ∨ size ≠ 4 ∧ size ≠ 8 ∧ (size ≠ 16 ∧ size ≠ 32 ∧ size ≠ 64 ∨ off <
      0x90000 ∨ 0xD0000 < off + size)) :=
  by decide +kernel
theorem meets_hostRequestsAtTheBars_8 :
    let off : Nat := 0x90000
    let size : Nat := 16
    let s : State := up
    s.barUp = true ∧ off + size ≤ Config.regBytes ∧ (off % size ≠ 0 ∨ (size ≠ 4 ∧ size ≠ 8)) :=
  by decide +kernel
theorem meets_hostRequestsAtTheBars_9 :
    let s : State := up
    s.configUp = true :=
  by decide +kernel
theorem meets_hostRequestsAtTheBars_10 :
    let s : State := State.reset
    s.configUp = false :=
  by decide +kernel
theorem meets_hostRequestsAtTheBars_11 :
    let s : State := img
    s.configUp = true ∧ Quiet 4 0x1C s :=
  by decide +kernel
theorem meets_hostRequestsAtTheBars_12 :
    let s : State := img
    s.configUp = true :=
  by decide +kernel
theorem meets_hostRequestsAtTheBars_13 :
    let off : Nat := 0x100000000100
    let n : Nat := 4
    let f : Nat := 0
    let c : Nat := 0
    let o : Nat := 0x100
    let s : State := hostIn.setFence 0 .fenced
    s.barUp = true ∧ s.scanOn = false ∧ 0 < n ∧ off % 64 + n ≤ 64 ∧ off + n ≤ 2 ^ s.host.bar4 ∧ s.resolveHost 0 off = .here f (.pantry c
      o) ∧ s.placeFenced f (.pantry c o) = true :=
  by decide +kernel
theorem meets_hostRequestsAtTheBars_14 :
    let off : Nat := 0x100000000100
    let f : Nat := 0
    let c : Nat := 0
    let o : Nat := 0x100
    let b : Bytes := [9, 8]
    let s : State := hostIn.setFence 0 .fenced
    s.barUp = true ∧ s.scanOn = false ∧ 0 < b.length ∧ off % 64 + b.length ≤ 64 ∧ off + b.length ≤ 2 ^ s.host.bar4 ∧ s.resolveHost 1 off =
      .here f (.pantry c o) ∧ s.placeFenced f (.pantry c o) = true :=
  by decide +kernel
theorem meets_hostRequestsAtTheBars_15 :
    let off : Nat := 0x300000
    let b : Bytes := [1]
    let s : State := hostIn
    s.barUp = true ∧ s.scanOn = false ∧ 0 < b.length ∧ off % 64 + b.length ≤ 64 ∧ off + b.length ≤ 2 ^ s.host.bar4 ∧ s.resolveHost 1 off =
      .viol .host :=
  by decide +kernel
theorem meets_hostRequestsAtTheBars_16 :
    let off : Nat := 0x100000000100
    let n1 : Nat := 64
    let n2 : Nat := 64
    let f : Nat := 0
    let c : Nat := 0
    let o : Nat := 0x100
    let s : State := (hostIn.put (pantryKey 0 0x100) ((List.range 128).map fun i => BitVec.ofNat 8 (i + 1)))
    s.barUp = true ∧ s.scanOn = false ∧ 0 < n1 ∧ 0 < n2 ∧ n1 ≤ 64 ∧ n2 ≤ 64 ∧ (off + n1) % 64 = 0 ∧ off + n1 + n2 ≤ 2 ^ s.host.bar4 ∧
      s.resolveHost 0 off = .here f (.pantry c o) ∧ s.resolveHost 0 (off + n1) = .here f (.pantry c (o + n1)) ∧ s.placeFenced f
      (.pantry c o) = false ∧ s.placeFenced f (.pantry c (o + n1)) = false :=
  by decide +kernel
theorem meets_hostRequestsAtTheBars_17 :
    let off : Nat := 0x100000000100
    let n : Nat := 2
    let b : Bytes := [1, 2]
    let s : State := hostIn.fset Fd.testStatus_SCAN_OPEN 1
    s.barUp = true ∧ s.scanOn = true ∧ 0 < n ∧ b.length = n ∧ off % 64 + n ≤ 64 ∧ off + n ≤ 2 ^ s.host.bar4 :=
  by decide +kernel
theorem meets_hostRequestsAtTheBars_18 :
    let off : Nat := 2 ^ 45 - 1
    let b : Bytes := [1, 2]
    let s : State := hostIn
    (s.barUp = false ∨ 2 ^ s.host.bar4 < off + b.length) :=
  by decide +kernel
theorem meets_hostRequestsAtTheBars_19 :
    let off : Nat := Config.regBytes - 2
    let size : Nat := 4
    let s : State := up
    (s.barUp = false ∨ Config.regBytes < off + size) :=
  by decide +kernel
theorem meets_hostRequestsAtTheBars_20 :
    let w : Bool := true
    let off : Nat := 0
    let size : Nat := 8
    let s : State := up
    s.barUp = true ∧ off + size ≤ Config.regBytes ∧ off % size = 0 ∧ (size = 4 ∨ size = 8 ∨ w = false ∧ 0x90000 ≤ off ∧ off + size ≤
      0xD0000 ∧ (size = 16 ∨ size = 32 ∨ size = 64)) :=
  by decide +kernel
theorem meets_thePcieFunction_1 :
    let tag : Nat := 5
    let o : HostOp := hostOp5
    let c : CoreId := 0
    let s : State := hostOpen
    nfind s.hostOps tag = some o ∧ o.stage ≠ 0 ∧ o.by' = .twin c ∧ o.pairs = [] ∧ (∀ f, s.foldOfCtx o.ctx = some f → s.foldFence f ≠
      .fenced) :=
  by decide +kernel
theorem meets_thePcieFunction_2 :
    let tag : Nat := 5
    let o : HostOp := hostOp5
    let c : CoreId := 0
    let s : State := hostOpen
    nfind s.hostOps tag = some o ∧ o.by' = .twin c ∧ Quiet 4 0x1C s :=
  by decide +kernel
theorem meets_thePcieFunction_3 :
    let tag : Nat := 5
    let o : HostOp := hostOp5
    let c : CoreId := 0
    let s : State := hostOpen
    nfind s.hostOps tag = some o ∧ o.by' = .twin c ∧ Quiet 4 0x1C s :=
  by decide +kernel
theorem meets_thePcieFunction_4 :
    let tag : Nat := 6
    let s : State := hostOpen
    nfind s.hostOps tag = none :=
  by decide +kernel
theorem meets_thePcieFunction_5 :
    let n : Nat := 45
    let s : State := img
    s.configUp = true ∧ s.host.held = [] ∧ 30 ≤ n ∧ n ≤ 45 :=
  by decide +kernel
theorem meets_thePcieFunction_6 :
    let s : State := img.fset Fd.pcieStatus_BME 1
    s.configUp = true :=
  by decide +kernel
theorem meets_thePcieFunction_7 :
    let a : Nat := 64
    let b : Bytes := [1]
    let s : State := State.modHost (((img.fset Fd.pcieStatus_BME 1).fset Fd.pcieStatus_LINK_UP 1).fset Fd.pcieStatus_D3HOT 1) fun h => { h with held := [.hostWrite 64 [1]] }
    s.configUp = true ∧ s.fon Fd.pcieStatus_BME = true ∧ s.fon Fd.pcieStatus_LINK_UP = true ∧ s.host.held = [.hostWrite a b] :=
  by decide +kernel
theorem meets_thePcieFunction_8 :
    let a : Nat := 64
    let b : Bytes := [1]
    let s : State := State.modHost (img.fset Fd.pcieStatus_LINK_UP 1) fun h => { h with held := [.hostWrite 64 [1]] }
    s.configUp = true ∧ s.fon Fd.pcieStatus_D3HOT = false ∧ s.fon Fd.pcieStatus_LINK_UP = true ∧ s.host.held = [.hostWrite a b] :=
  by decide +kernel
theorem meets_thePcieFunction_9 :
    let s : State := img.modTime fun t => { t with ptmBusy := true }
    s.configUp = true :=
  by decide +kernel
theorem meets_thePcieFunction_10 :
    let s : State := State.reset
    s.configUp = false :=
  by decide +kernel
theorem meets_thePcieFunction_11 :
    let tag : Nat := 5
    let o : HostOp := hostOp5
    let c : CoreId := 0
    let f : Nat := 0
    let s : State := hostOpen.setFence 288 .fenced
    nfind s.hostOps tag = some o ∧ o.stage ≠ 0 ∧ o.by' = .twin c ∧ s.foldOfCtx o.ctx = some f ∧ s.foldFence f = .fenced :=
  by decide +kernel
theorem meets_thePcieFunction_12 :
    let tag : Nat := 5
    let x : Nat := 3
    let w : Nat := 4
    let l : List (Nat × Nat) := []
    let o : HostOp := { hostOp5 with op := 2, len := 4, aop := 9, pairs := [(3, 4)], bus := 0x5000 }
    let c : CoreId := 0
    let s : State := State.modHost { (State.masters img) with hostOps := [(5, { hostOp5 with op := 2, len := 4, aop := 9, pairs := [(3, 4)], bus := 0x5000 })] } fun h => h
    nfind s.hostOps tag = some o ∧ o.stage ≠ 0 ∧ o.by' = .twin c ∧ o.pairs = (x, w) :: l ∧ (∀ f, s.foldOfCtx o.ctx = some f → s.foldFence
      f ≠ .fenced) ∧ s.mayMaster = true :=
  by decide +kernel
theorem meets_thePcieFunction_13 :
    let tag : Nat := 5
    let o : HostOp := { hostOp5 with by' := .late 304 }
    let s : State := State.modHost { img with hostOps := [(5, { hostOp5 with by' := .late 304 })] } fun h => h
    nfind s.hostOps tag = some o ∧ o.by' = .late 304 :=
  by decide +kernel
theorem meets_thePcieFunction_14 :
    let n : Nat := 29
    let s : State := img
    s.configUp = true ∧ (n < 30 ∨ 45 < n) :=
  by decide +kernel
theorem meets_thePcieFunction_15 :
    let v : Fin 128 := 0
    let s : State := State.modHost (((((State.masters img).setReg .msixPba (2 ^ 0) 0).setReg .msixAddr 0xFEE00000 0).setReg .msixData 0 0).fset Fd.msixVectorCtl_MASK 0 0) fun h => { h with fnMask := true }
    s.configUp = true ∧ s.mayMaster = true ∧ s.host.held = [] ∧ s.fon Fd.msixVectorCtl_MASK v = false ∧ (∀ i : Fin 2, s.reg .msixPba i =
      if i.val = v.val / 64 then 2 ^ (v.val % 64) else 0) :=
  by decide +kernel
theorem meets_thePcieFunction_16 :
    let s : State := State.modHost (img.setReg .msixPba 1 0) fun h => { h with fnMask := true }
    s.configUp = true ∧ s.mayMaster = false :=
  by decide +kernel
theorem meets_thePcieFunction_17 :
    let a : Nat := 64
    let b : Bytes := [1]
    let s : State := State.modHost (((img.fset Fd.pcieStatus_BME 1).fset Fd.pcieStatus_LINK_UP 0).fset Fd.pcieStatus_D3HOT 1) fun h => { h with held := [.hostWrite 64 [1]] }
    s.configUp = true ∧ s.fon Fd.pcieStatus_BME = true ∧ s.fon Fd.pcieStatus_LINK_UP = false ∧ s.host.held = [.hostWrite a b] ∧ Quiet 4
      0x1C s :=
  by decide +kernel
theorem meets_theSidebandEndpoint_1 :
    let s : State := up
    s.life.aonUp = true :=
  by decide +kernel
theorem meets_theSidebandEndpoint_2 :
    let e : Byte := 0x1D
    let s : State := mctp
    s.mctpOn = true ∧ e ≠ 0 ∧ e ≠ 255 :=
  by decide +kernel
theorem meets_theSidebandEndpoint_3 :
    let s : State := mctp
    s.mctpOn = true :=
  by decide +kernel
theorem meets_theSidebandEndpoint_4 :
    let n : Nat := 1
    let s : State := mctp
    s.mctpOn = true ∧ 1 ≤ n ∧ n ≤ 24 :=
  by decide +kernel
theorem meets_theSidebandEndpoint_5 :
    let n : Nat := 32
    let s : State := mctp
    s.mctpOn = true ∧ 32 ≤ n ∧ n ≤ 34 :=
  by decide +kernel
theorem meets_theSidebandEndpoint_6 :
    let s : State := State.reset
    s.mctpOn = false :=
  by decide +kernel
theorem meets_theSidebandEndpoint_7 :
    let s : State := ((mctp.fset Fd.thermal_TJ_MAX_C 77 2).fset Fd.bootStatus_STAGE 3)
    (s.proc 0).running = true :=
  by decide +kernel
theorem meets_theSidebandEndpoint_8 :
    let s : State := up
    s.life.aonUp = true :=
  by decide +kernel
theorem meets_theSidebandEndpoint_9 :
    let v : Nat := 2 ^ 56 + 2 ^ 32 * 288 + 2 ^ 16 * 0xA1 + 4288
    let u : State := State.modHost up fun h => { h with winAddr := 0x10 }
    let s : State := State.modHost (up) fun h => { h with winAddr := 8 }
    s.life.aonUp = true ∧ s.host.winAddr % 8 = 0 ∧ s.host.winAddr < Config.regBytes ∧ (s.life.inReset = false ∨ aonReg s.host.winAddr =
      true) ∧ ({ s with host := { s.host with winAddr := (s.host.winAddr + 8) % 2 ^ 32 } } : State).readReg s.host.winAddr 8 = (v, u) :=
  by decide +kernel
theorem meets_theSidebandEndpoint_10 :
    let s : State := State.modHost (up) fun h => { h with winAddr := 4 }
    s.life.aonUp = true ∧ (s.host.winAddr % 8 ≠ 0 ∨ Config.regBytes ≤ s.host.winAddr) :=
  by decide +kernel
theorem meets_theSidebandEndpoint_11 :
    let v : Word := 60
    let a : RegAt := ⟨.thermCtl, 0, 0, 0⟩
    let s : State := State.modHost (up.fset Fd.sbCtl_WINDOW_WRITE 1) fun h => { h with winAddr := 0xA0B0 }
    s.life.aonUp = true ∧ s.fon Fd.sbCtl_WINDOW_WRITE = true ∧ regAt s.host.winAddr = some a ∧ a.reg = .thermCtl ∧ a.o = 0 ∧ 60 ≤ v.toNat
      % 128 ∧ v.toNat % 128 ≤ 110 :=
  by decide +kernel
theorem meets_theSidebandEndpoint_12 :
    let s : State := State.modHost (up) fun h => { h with winAddr := 0xA0B0 }
    s.life.aonUp = true ∧ (s.fon Fd.sbCtl_WINDOW_WRITE = false ∨ ((regAt s.host.winAddr).any fun a => a.reg == .thermCtl && a.o == 0) =
      false) :=
  by decide +kernel
theorem meets_theSidebandEndpoint_13 :
    let e : Byte := 0
    let s : State := mctp
    s.mctpOn = true ∧ (e = 0 ∨ e = 255) :=
  by decide +kernel
theorem meets_theSidebandEndpoint_14 :
    let s : State := mctp
    s.mctpOn = true :=
  by decide +kernel
theorem meets_theSidebandEndpoint_15 :
    let y : Byte := 2
    let cmd : Byte := 0x51
    let s : State := mctp
    s.mctpOn = true ∧ (y = 0 ∧ (cmd = 2 ∨ cmd = 3 ∨ cmd = 4 ∨ cmd = 5) ∨ y = 2 ∧ (cmd = 0x11 ∨ cmd = 0x21 ∨ cmd = 0x50 ∨ cmd = 0x51)) :=
  by decide +kernel
theorem meets_theSidebandEndpoint_16 :
    let y : Byte := 0
    let cmd : Byte := 0x11
    let s : State := mctp
    s.mctpOn = true ∧ (¬ (y = 0 ∧ (cmd = 2 ∨ cmd = 3 ∨ cmd = 4 ∨ cmd = 5) ∨ y = 2 ∧ (cmd = 0x11 ∨ cmd = 0x21 ∨ cmd = 0x50 ∨ cmd = 0x51))) :=
  by decide +kernel
theorem meets_theSidebandEndpoint_17 :
    let y : Byte := 1
    let n : Nat := 0
    let s : State := mctp
    s.mctpOn = true ∧ y ≠ 0 ∧ y ≠ 2 ∧ (n = 0 ∨ 24 < n) :=
  by decide +kernel
theorem meets_theSidebandEndpoint_18 :
    let n : Nat := 31
    let s : State := mctp
    s.mctpOn = true ∧ (n < 32 ∨ 34 < n) :=
  by decide +kernel
theorem meets_theSidebandEndpoint_19 :
    let n : Nat := 28
    let s : State := mctp
    s.mctpOn = true ∧ 27 < n :=
  by decide +kernel
theorem meets_theSidebandEndpoint_20 :
    let s : State := up
    (s.proc 0).running = false :=
  by decide +kernel
theorem meets_theSidebandEndpoint_21 :
    let s : State := State.modHost ({ up with life := { up.life with inReset := true } }) fun h => { h with winAddr := 8 }
    s.life.aonUp = true ∧ s.host.winAddr % 8 = 0 ∧ s.host.winAddr < Config.regBytes ∧ s.life.inReset = true ∧ aonReg s.host.winAddr =
      false :=
  by decide +kernel
theorem meets_theSidebandEndpoint_22 :
    let v : Word := 59
    let a : RegAt := ⟨.thermCtl, 0, 0, 0⟩
    let s : State := State.modHost (up.fset Fd.sbCtl_WINDOW_WRITE 1) fun h => { h with winAddr := 0xA0B0 }
    s.life.aonUp = true ∧ s.fon Fd.sbCtl_WINDOW_WRITE = true ∧ regAt s.host.winAddr = some a ∧ a.reg = .thermCtl ∧ a.o = 0 ∧ (v.toNat %
      128 < 60 ∨ 110 < v.toNat % 128) :=
  by decide +kernel
theorem meets_theSidebandEndpoint_23 :
    let s : State := State.reset
    s.life.aonUp = false :=
  by decide +kernel

end Sys2Proof.Tests
end

section
/-!
The state after reset. No register, core or cell of memory is listed there, so a register reads its reset value and a core is in its
initial state, whatever its number.
-/
namespace Sys2Proof.Machine

@[simp] theorem reg_reset (r : RegName) (u k : Nat) : State.reset.reg r u k = r.resetValue := rfl

theorem fget_reset (f : FieldRef) (u k : Nat) : State.reset.fget f u k = bits f.reg.resetValue f.hi f.lo := by
  rw [State.fget, reg_reset]

@[simp] theorem core_reset (c : Nat) : State.reset.core c = {} := rfl

@[simp] theorem twin_reset (c : Nat) : State.reset.twin c = {} := by simp [State.twin]

/-- The empty memory, where every address reads 0, is canonical (log 2). -/
theorem ok_reset : State.reset.ok := show Memory.wf [] = true from rfl

/-- Every port is OFF: 0 is the reset value of PORT_STATUS.STATE. -/
theorem portState_reset (p : Nat) : State.reset.portState p = 0 := by
  rw [State.portState, fget_reset]
  decide

/-- Every ring is STOPPED: 0 is the reset value of RING_STATUS.STATE. -/
theorem ringState_reset (r : Nat) : State.reset.ringState r = 0 := by
  rw [State.ringState, fget_reset]
  decide

/-- Settles O3: nothing is listed in the state after reset, so memory is canonical, every twin is in its initial state and every register
reads its reset value. -/
theorem resetIsCanonicalAndIdle : Obligations.ResetIsCanonicalAndIdle := by
  unfold Obligations.ResetIsCanonicalAndIdle
  refine ⟨ok_reset, rfl, rfl, fun c => ?_, portState_reset, ringState_reset⟩
  rw [twin_reset]
  exact ⟨rfl, rfl⟩

end Sys2Proof.Machine
end

section
/-!
Reports: what recording a fault detection in its die's collector and reporting it at the hub may change (R668, R669, R672).
-/
namespace Sys2Proof.Machine

/-- Beside the registers listed, only what reports touch differs: the events of the firmware processors, the counts a quarter holds, the log
and what leaves the block. -/
def ReportsInto (l : List RegName) (s t : State) : Prop :=
  t = { s with regs := t.regs, procs := t.procs, out := t.out, hubHeld := t.hubHeld, log := t.log } ∧
    ∀ r ∉ l, ∀ u k, t.reg r u k = s.reg r u k

/-- The registers of the two slots of a die's collector. -/
def slotRegs : List RegName := [.fcActive, .fcActiveTime, .fcActiveDetail, .fcPending, .fcPendingTime, .fcPendingDetail]

/-- The registers in which the hub counts and reports a detection. -/
def hubReportRegs : List RegName := [.faultClassCount, .faultSummary, .msixPba]

namespace ReportsInto

variable {l m : List RegName} {s t w : State}

theorem refl : ReportsInto l s s := ⟨rfl, fun _ _ _ _ => rfl⟩

theorem trans (h : ReportsInto l s t) (h' : ReportsInto l t w) : ReportsInto l s w := by
  obtain ⟨ht, hr⟩ := h
  obtain ⟨hw, hr'⟩ := h'
  refine ⟨?_, fun r hn u k => (hr' r hn u k).trans (hr r hn u k)⟩
  rw [hw, ht]

theorem mono (hlm : l ⊆ m) (h : ReportsInto l s t) : ReportsInto m s t := ⟨h.1, fun r hn => h.2 r fun hl => hn (hlm hl)⟩

theorem mem_eq (h : ReportsInto l s t) : t.mem = s.mem := by rw [h.1]

theorem cores_eq (h : ReportsInto l s t) : t.cores = s.cores := by rw [h.1]

/-- A field of a register that is not listed. -/
theorem fget_eq (h : ReportsInto l s t) (f : FieldRef) (hf : f.reg ∉ l) (u k : Nat) : t.fget f u k = s.fget f u k := by
  rw [State.fget, State.fget, h.2 _ hf]

theorem setReg (h : ReportsInto l s t) {r : RegName} (hr : r ∈ l) (v u k : Nat) : ReportsInto l s (t.setReg r v u k) :=
  h.trans ⟨rfl, fun _ hn _ _ => reg_setReg_ne _ _ _ _ _ _ fun e => hn (e ▸ hr)⟩

theorem inc (h : ReportsInto l s t) {f : FieldRef} (hf : f.reg ∈ l) (u k : Nat) : ReportsInto l s (t.inc f u k) := h.setReg hf ..

theorem latchProc (h : ReportsInto l s t) (n b : Nat) : ReportsInto l s (t.latchProc n b) := h.trans ⟨rfl, fun _ _ _ _ => rfl⟩

theorem latchProcs (h : ReportsInto l s t) (b : Nat) : ReportsInto l s (t.latchProcs b) := by
  unfold State.latchProcs
  induction List.range 5 generalizing t with
  | nil => exact h
  | cons n ns ih => exact ih (h.latchProc n b)

theorem raiseVec (h : ReportsInto l s t) (hl : .msixPba ∈ l) (v : Nat) : ReportsInto l s (t.raiseVec v) := by
  have hpend : ReportsInto l s (t.setMapBit .msixPba v) := h.setReg hl ..
  unfold State.raiseVec State.flushVec
  split
  · exact (hpend.setReg hl ..).trans ⟨rfl, fun _ _ _ _ => rfl⟩
  · exact hpend

theorem summary (h : ReportsInto hubReportRegs s t) (m : Nat) : ReportsInto hubReportRegs s (t.summary m) := by
  have hset := h.setReg (r := .faultSummary) (by decide) ((t.reg .faultSummary).lor m) 0 0
  have hlatch := hset.latchProcs 16
  unfold State.summary
  dsimp only
  split
  · split <;> assumption
  · split
    · exact hlatch.raiseVec (by decide) 96
    · exact hset.raiseVec (by decide) 96

theorem hubReport (h : ReportsInto hubReportRegs s t) (die cls n : Nat) (taken lost : Bool) :
    ReportsInto hubReportRegs s (t.hubReport die cls n taken lost) :=
  summary (h.setReg (by decide) ..) _

end ReportsInto

/-- Where ACTIVE is free, a detection is counted and one of the two slots takes it: nothing overflows (R669). -/
theorem place_activeFree {s : State} {die : Nat} (d : Det) (r : Nat) (hfree : bit (s.reg .fcActive die) 63 = false) :
    (s.place die d r).2 = false ∧ ReportsInto slotRegs (s.inc Fd.fcCounts_DETECTIONS die) (s.place die d r).1 := by
  have hcounted : ReportsInto slotRegs (s.inc Fd.fcCounts_DETECTIONS die) (s.inc Fd.fcCounts_DETECTIONS die) := .refl
  have hactive : bit ((s.inc Fd.fcCounts_DETECTIONS die).reg .fcActive die) 63 = false :=
    (congrArg (bit · 63) (reg_setReg_ne s _ _ _ _ _ (by decide))).trans hfree
  unfold State.place
  dsimp only
  rw [if_neg (by simp [slotHolds, hactive])]
  split
  · exact ⟨rfl, hcounted.setReg (by decide) ..⟩
  · rw [if_pos (by simp [hactive])]
    exact ⟨rfl, (((hcounted.setReg (by decide) ..).setReg (by decide) ..).setReg (by decide) ..).latchProc ..⟩

/-- A class answered RECORD begins no response: with ACTIVE free, a detection of it is counted and put in a slot, and the hub, or the
quarter while both its paths are down, counts it too (R663, R669, R687). -/
theorem detectOn_record {s : State} {die : Nat} {d : Det} (hresp : s.responseOf d.cls = 0)
    (hfree : bit (s.reg .fcActive die) 63 = false) :
    ReportsInto (slotRegs ++ hubReportRegs) (s.inc Fd.fcCounts_DETECTIONS die) (s.detectOn die d) := by
  obtain ⟨hkept, hplaced⟩ := place_activeFree d (d.taken 0) hfree
  refine (hplaced.mono (List.subset_append_left ..)).trans (ReportsInto.mono (List.subset_append_right ..) ?_)
  unfold State.detectOn
  simp only [hresp, State.respond, hkept, if_true, Bool.false_eq_true, if_false]
  split
  · exact ⟨rfl, fun _ _ _ _ => rfl⟩
  · have hreport := ReportsInto.refl (l := hubReportRegs) (s := (s.place die d (d.taken 0)).1).hubReport die d.cls 1 false false
    split
    · exact hreport.raiseVec (by decide) 103
    · exact hreport

/-- All the registers a detection answered RECORD may change. -/
def recordRegs : List RegName := .fcCounts :: (slotRegs ++ hubReportRegs)

theorem detectOn_frame {s : State} {die : Nat} {d : Det} (hresp : s.responseOf d.cls = 0)
    (hfree : bit (s.reg .fcActive die) 63 = false) : ReportsInto recordRegs s (s.detectOn die d) :=
  (ReportsInto.refl.inc (by decide) ..).trans ((detectOn_record hresp hfree).mono (List.subset_cons_self ..))

/-- Such a detection raises DETECTIONS of its die by one. -/
theorem fget_detections_detectOn {s : State} {die : Nat} {d : Det} (hresp : s.responseOf d.cls = 0)
    (hfree : bit (s.reg .fcActive die) 63 = false) :
    (s.detectOn die d).fget Fd.fcCounts_DETECTIONS die =
      satAdd Fd.fcCounts_DETECTIONS.max (s.fget Fd.fcCounts_DETECTIONS die) 1 := by
  rw [(detectOn_record hresp hfree).fget_eq _ (by decide)]
  exact fget_incBy_self _ _ _ _ _ (by decide) (by decide)

end Sys2Proof.Machine
end

section
/-!
The stall monitors (R77 to R85).
-/
namespace Sys2Proof.Machine

/-- A count changes no field of another register. -/
theorem fget_inc_ne (s : State) {f g : FieldRef} (h : f.reg ≠ g.reg) (u k u' k' : Nat) : (s.inc f u k).fget g u' k' = s.fget g u' k' :=
  fget_fset_reg _ _ _ _ _ _ h

@[simp] theorem State.inc_now (s : State) (f : FieldRef) (u k : Nat) : (s.inc f u k).now = s.now := rfl

/-- A count of a unit changes no register but its own, of that unit. -/
theorem inc_regsOnly (s : State) (f : FieldRef) {n : Nat} (hn : n < 2 ^ 32) : RegsOnly (fun r u => r = f.reg ∧ u = n) s (s.inc f n) := by
  refine ⟨rfl, fun r u k hu _ hne => ?_⟩
  rw [State.inc, State.incBy, State.fset, reg_setReg, if_neg]
  rintro ⟨hr, hunit, -⟩
  exact hne ⟨hr.symm, by omega⟩

/-- Whether STALL_FIRST keeps what it holds at a root stall: VALID is set, and it is not a later channel of the same Quartz tick (R80). -/
def State.stallKeeps (s : State) (die ch : Nat) : Bool :=
  s.fon Fd.stallFirst_VALID die && !(nget 0 s.stallTick die == s.now / 1000 && decide (ch < s.fget Fd.stallFirst_CHANNEL_ID die))

theorem stallCapture_keeps {s : State} {die ch : Nat} (h : s.stallKeeps die ch = true) : s.stallCapture die ch = s := if_pos h

/-- A capture writes STALL_FIRST whole and notes its tick. -/
theorem stallCapture_takes {s : State} {die ch : Nat} (h : s.stallKeeps die ch = false) :
    s.stallCapture die ch = ((({ s with stallTick := nset s.stallTick die (s.now / 1000) } : State).fset Fd.stallFirst_CHANNEL_ID ch
      die).fset Fd.stallFirst_DETECT_TIME s.now die).fset Fd.stallFirst_VALID 1 die :=
  if_neg (Bool.eq_false_iff.1 h)

@[simp] theorem State.stallCapture_mem (s : State) (die ch : Nat) : (s.stallCapture die ch).mem = s.mem := by
  unfold State.stallCapture; split <;> simp

@[simp] theorem State.stallCapture_cores (s : State) (die ch : Nat) : (s.stallCapture die ch).cores = s.cores := by
  unfold State.stallCapture; split <;> simp

@[simp] theorem State.stallCapture_life (s : State) (die ch : Nat) : (s.stallCapture die ch).life = s.life := by
  unfold State.stallCapture; split <;> simp

/-- A capture writes no register but STALL_FIRST. -/
theorem reg_stallCapture_ne (s : State) (die ch : Nat) {r : RegName} (hr : .stallFirst ≠ r) (u k : Nat) :
    (s.stallCapture die ch).reg r u k = s.reg r u k := by
  unfold State.stallCapture
  split
  · rfl
  · simp only [State.fset, reg_setReg_ne _ _ _ _ _ _ hr]
    rfl

/-- After a root stall VALID is set, and STALL_FIRST shows the channel and the time unless it kept what it held (R80, R83). -/
theorem stallFirst_stallCapture (s : State) (die ch : Nat) (hch : ch < 2 ^ 16) :
    (s.stallCapture die ch).fget Fd.stallFirst_VALID die = 1 ∧
    (s.stallCapture die ch).fget Fd.stallFirst_CHANNEL_ID die =
      (if s.stallKeeps die ch then s.fget Fd.stallFirst_CHANNEL_ID die else ch) ∧
    (s.stallCapture die ch).fget Fd.stallFirst_DETECT_TIME die =
      (if s.stallKeeps die ch then s.fget Fd.stallFirst_DETECT_TIME die else s.now % (Fd.stallFirst_DETECT_TIME.max + 1)) := by
  cases h : s.stallKeeps die ch with
  | true =>
    have hvalid : s.fget Fd.stallFirst_VALID die ≠ 0 := by
      have := (Bool.and_eq_true_iff.1 h).1
      simpa [State.fon] using this
    have hbit : s.fget Fd.stallFirst_VALID die < 2 := fget_lt ..
    rw [stallCapture_keeps h, if_pos rfl, if_pos rfl]
    exact ⟨by omega, rfl, rfl⟩
  | false =>
    rw [stallCapture_takes h]
    simp (disch := decide) only [fget_fset_self, fget_fset_field, Bool.false_eq_true, if_false]
    exact ⟨by decide, Nat.mod_eq_of_lt hch, by rw [FieldRef.max, Nat.sub_add_cancel (Nat.two_pow_pos _)]⟩

/-- A root stall that makes one detection of a domain that takes requests is counted, captured and reported (R83). -/
theorem stall_of_single {s : State} {die ch : Nat} {d : Det} (hdets : stallDets die ch = [d]) (hopen : s.stallExempt d = false) :
    s.stall die ch = ((s.inc Fd.stallCount_COUNT die).stallCapture die ch).detectOn die d := by
  simp [State.stall, State.stallReport, hdets, hopen]

/-- Where every receiver takes no traffic, there is no stall (R77 to R79). -/
theorem stall_of_exempt {s : State} {die ch : Nat} (h : ∀ d ∈ stallDets die ch, s.stallExempt d = true) : s.stall die ch = s := by
  have hnone : ((stallDets die ch).filter fun d => !s.stallExempt d) = [] := by simpa using h
  rw [State.stall, hnone, State.stallReport, List.isEmpty_nil, if_pos rfl]

/-- The response to a class stands in the image. -/
theorem responseOf_congr {s t : State} (h : t.life = s.life) (c : Nat) : t.responseOf c = s.responseOf c := by
  rw [State.responseOf, State.responseOf, State.devSec, State.devSec, h]

/-- The count of a stall has no say in what STALL_FIRST keeps. -/
theorem stallKeeps_inc_stallCount (s : State) (die ch : Nat) :
    (s.inc Fd.stallCount_COUNT die).stallKeeps die ch = s.stallKeeps die ch := by
  rw [State.stallKeeps, State.fon, fget_inc_ne _ (by decide), fget_inc_ne _ (by decide)]
  rfl

/-- Counting and capturing a root stall write STALL_COUNT and STALL_FIRST only. -/
theorem reg_counted_ne (s : State) (die ch : Nat) {r : RegName} (hfirst : .stallFirst ≠ r) (hcount : .stallCount ≠ r) (u k : Nat) :
    ((s.inc Fd.stallCount_COUNT die).stallCapture die ch).reg r u k = s.reg r u k :=
  (reg_stallCapture_ne _ _ _ hfirst u k).trans (reg_setReg_ne s _ _ _ _ _ hcount)

/-- What a root stall answered RECORD counts, captures and reports, where ACTIVE is free (R80, R83). -/
theorem stall_record {s : State} {die ch : Nat} {d : Det} (hch : ch < 2 ^ 16) (hdets : stallDets die ch = [d])
    (hopen : s.stallExempt d = false) (hresp : s.responseOf d.cls = 0) (hfree : bit (s.reg .fcActive die) 63 = false) :
    (s.stall die ch).fget Fd.stallCount_COUNT die = satAdd Fd.stallCount_COUNT.max (s.fget Fd.stallCount_COUNT die) 1 ∧
    (s.stall die ch).fget Fd.stallFirst_VALID die = 1 ∧
    (s.stall die ch).fget Fd.stallFirst_CHANNEL_ID die =
      (if s.stallKeeps die ch then s.fget Fd.stallFirst_CHANNEL_ID die else ch) ∧
    (s.stall die ch).fget Fd.stallFirst_DETECT_TIME die =
      (if s.stallKeeps die ch then s.fget Fd.stallFirst_DETECT_TIME die else s.now % (Fd.stallFirst_DETECT_TIME.max + 1)) ∧
    (s.stall die ch).fget Fd.fcCounts_DETECTIONS die = satAdd Fd.fcCounts_DETECTIONS.max (s.fget Fd.fcCounts_DETECTIONS die) 1 ∧
    (s.stall die ch).mem = s.mem ∧ (s.stall die ch).cores = s.cores := by
  rw [stall_of_single hdets hopen]
  obtain ⟨hvalid, hchannel, htime⟩ := stallFirst_stallCapture (s.inc Fd.stallCount_COUNT die) die ch hch
  rw [stallKeeps_inc_stallCount, fget_inc_ne _ (by decide)] at hchannel htime
  have hcount : ((s.inc Fd.stallCount_COUNT die).stallCapture die ch).fget Fd.stallCount_COUNT die =
      satAdd Fd.stallCount_COUNT.max (s.fget Fd.stallCount_COUNT die) 1 := by
    rw [State.fget, reg_stallCapture_ne _ _ _ (by decide)]
    exact fget_incBy_self _ _ _ _ _ (by decide) (by decide)
  have hdetections : ((s.inc Fd.stallCount_COUNT die).stallCapture die ch).fget Fd.fcCounts_DETECTIONS die =
      s.fget Fd.fcCounts_DETECTIONS die := by
    rw [State.fget, State.fget, reg_counted_ne s die ch (by decide) (by decide)]
  have hresp' := (responseOf_congr (State.stallCapture_life (s.inc Fd.stallCount_COUNT die) die ch) d.cls).trans hresp
  have hfree' := (congrArg (bit · 63) (reg_counted_ne s die ch (r := .fcActive) (by decide) (by decide) die 0)).trans hfree
  have hframe := detectOn_frame hresp' hfree'
  refine ⟨?_, ?_, ?_, ?_, ?_, ?_, ?_⟩
  · rw [hframe.fget_eq _ (by decide), hcount]
  · rw [hframe.fget_eq _ (by decide), hvalid]
  · rw [hframe.fget_eq _ (by decide), hchannel]
  · rw [hframe.fget_eq _ (by decide), htime, State.inc_now]
  · rw [fget_detections_detectOn hresp' hfree', hdetections]
  · rw [hframe.mem_eq, State.stallCapture_mem, State.inc_mem]
  · rw [hframe.cores_eq, State.stallCapture_cores, State.inc_cores]

/-! The two commands. -/

theorem exec_heldEpisode (die : Fin 5) (openNs : Nat) (s : State) : exec (.heldEpisode die openNs) s =
    .next (if s.hasImage && decide (s.stallNs < openNs) then s.inc Fd.holdCount_COUNT die else s) := rfl

theorem exec_rootStall (die : Fin 5) (ch openNs : Nat) (held : Bool) (now : Nat) (s : State) : exec (.rootStall die ch openNs held now) s =
    .next (if s.hasImage && !held && decide (s.stallNs ≤ openNs) then (s.advance now).stall die ch else s.advance now) := rfl

/-- Whether a domain takes requests does not depend on the time. -/
theorem stallExempt_advance (s : State) (now : Nat) (d : Det) : (s.advance now).stallExempt d = s.stallExempt d := rfl

/-- Settles O7: a held episode only counts; a root stall does what stall_record says, and only lets time pass where it finds none. -/
theorem stallMonitorsCountAndCapture : Obligations.StallMonitorsCountAndCapture := by
  unfold Obligations.StallMonitorsCountAndCapture
  refine ⟨fun die openNs s himg hlong => ?_, fun die openNs s hnone => ?_, ?_, ?_⟩
  · refine ⟨_, (exec_heldEpisode ..).trans (by rw [if_pos (by simp [himg, hlong])]), ?_, inc_regsOnly s _ (n := die) (by omega)⟩
    exact fget_incBy_self _ _ _ _ _ (by decide) (by decide)
  · refine ⟨_, exec_heldEpisode .., if_neg ?_⟩
    rcases hnone with himg | hshort
    · simp [himg]
    · simp [hshort]
  · intro die ch openNs now d s himg hlimit hch hdets hopen hresp hfree
    refine ⟨_, (exec_rootStall ..).trans (by rw [if_pos (by simp [himg, hlimit])]), ?_⟩
    exact stall_record hch hdets ((stallExempt_advance s now d).trans hopen)
      ((responseOf_congr (State.advance_life s now) d.cls).trans hresp) hfree
  · intro die ch openNs now held s hnone
    refine ⟨_, exec_rootStall .., ?_⟩
    rcases hnone with himg | hshort | hheld | hexempt
    · exact if_neg (by simp [himg])
    · exact if_neg (by simp [hshort])
    · exact if_neg (by simp [hheld])
    · rw [stall_of_exempt fun d hd => (stallExempt_advance s now d).trans (hexempt d hd), ite_self]

end Sys2Proof.Machine
end

section
/-!
Image commands (chapter 3): a fetch from the host that brings nothing is reported at the hub, and a report that overflows the hub's
collector fences cores (R669, R800).
-/
namespace Sys2Proof.Machine

theorem core_congr {s t : State} (h : t.cores = s.cores) (c : Nat) : t.core c = s.core c := by rw [State.core, State.core, h]

/-- UPDATE_FOLD, taken by a Steward that runs and is not updating firmware, begins its fetch (R105, R122, R752). -/
theorem exec_updateFold_fetches {src : Source} {s : State} (flash : Bool) (hdr : Option Bytes) (data : HostRead)
    (htaken : s.shut src = false) (hfree : s.imageRefused src = false) (hscan : s.scanOn = false) (hruns : (s.proc 0).running = true)
    (hfw : s.fget Fd.fwStatus_STATE ≠ 2) :
    exec (.updateFold src flash hdr data) s = .next (s.imageFetch { full := false, flash := flash, hdr := hdr, data := data }) := by
  change execUpdateFold src flash hdr data s = _
  simp [execUpdateFold, State.imageCmd, htaken, hfree, hscan, hruns, hfw]

/-- A device whose BARs decode and which may master, its firmware running, with an image of one fold loaded, which owns core 0, and an update
of 576 bytes to fetch from the host. -/
def readyToUpdate : State :=
  (((({ State.reset with
      life := { aonUp := true, perst := false, image := some { folds := [{ cores := 1 }] } }
      host := { memSpace := true } }.modProc 0 fun p => { p with running := true }).fset Fd.fwStatus_STATE 1).fset
    Fd.imageStatus_STATE 2).fset Fd.pcieStatus_BME 1).fset Fd.imageSrcLen_LEN 576

/-- The same device after a CORE reset of core 0 and the faults of two Ladles (R725), which fill ACTIVE and PENDING of the hub's collector
with the domains DIE 0 and DIE 1 (R669, R684). -/
def hubCollectorFull : State := ((readyToUpdate.resetCore 0).procFault 1 3).procFault 2 3

/-- The update whose host read times out. -/
abbrev timedOutUpdate : ImageReq := { full := false, flash := false, data := .timeout }

/-- Core 0 has taken a CORE reset and no fence since. -/
theorem wasReset_hubCollectorFull : (hubCollectorFull.core 0).wasReset = true := by decide +kernel

/-- The read that times out is reported as PCIE_INTERFACE of DIE 4 (R800), for which neither slot is free: the overflow fences every fold of
the device, and with it core 0 (R669 rule 4). -/
theorem wasReset_timedOutUpdate : ((hubCollectorFull.imageFetch timedOutUpdate).core 0).wasReset = false := by decide +kernel

/-- Refutes O8: its second clause says that UPDATE_FOLD leaves the cores as they were, whatever the read of the image brings. Where that
read times out while the hub's collector is full, its report fences core 0. -/
theorem not_imageCommandsStartAndEnd : ¬ Obligations.ImageCommandsStartAndEnd := by
  unfold Obligations.ImageCommandsStartAndEnd
  rintro ⟨-, hupdate, -⟩
  have htaken : hubCollectorFull.shut .host = false := by decide +kernel
  have hfree : hubCollectorFull.imageRefused .host = false := by decide +kernel
  have hscan : hubCollectorFull.scanOn = false := by decide +kernel
  have hruns : (hubCollectorFull.proc 0).running = true := by decide +kernel
  have hfw : hubCollectorFull.fget Fd.fwStatus_STATE ≠ 2 := by decide +kernel
  have hfetch : fetchResult false false (hubCollectorFull.reg .imageSrcLen) none (readBytes .timeout) = (some ⟨0x45, 0xFF, 0⟩, []) := by
    decide +kernel
  obtain ⟨t, hexec, -, -, -, hcores, -⟩ :=
    hupdate .host false none .timeout _ _ hubCollectorFull htaken hfree hscan hruns hfw hfetch
  rw [exec_updateFold_fetches false none .timeout htaken hfree hscan hruns hfw] at hexec
  obtain rfl := Host.Outcome.next.inj hexec
  have hwas := wasReset_timedOutUpdate
  rw [core_congr hcores, wasReset_hubCollectorFull] at hwas
  exact Bool.noConfusion hwas

end Sys2Proof.Machine
end

section
/-!
RESUME and DISCARD of a core's engines (R252, R317, R359, R402, R462).
-/
namespace Sys2Proof.Machine

theorem engStateF_lo (e : Nat) : (engStateF e).lo = 0 := by
  unfold engStateF; split <;> rfl

theorem engStateF_hi_pos (e : Nat) : 1 ≤ (engStateF e).hi := by
  unfold engStateF; split <;> decide

theorem engStateF_hi_lt (e : Nat) : (engStateF e).hi < 64 := by
  unfold engStateF; split <;> decide

/-- STATE of an engine holds what is set: two bits are enough for its three values. -/
theorem engState_setEngState (s : State) (c e : Nat) {v : Nat} (hv : v < 4) : (s.setEngState c e v).engState c e = v := by
  have hlo := engStateF_lo e
  have hhi := engStateF_hi_pos e
  rw [State.setEngState, State.engState, fget_fset_self _ _ _ _ _ (engStateF_hi_lt e) (by omega)]
  refine Nat.mod_eq_of_lt (Nat.lt_of_lt_of_le hv ?_)
  exact Nat.pow_le_pow_right (n := 2) (by omega) (show 2 ≤ _ by omega)

theorem CoreOnly.modCore {c : Nat} {s t : State} (h : CoreOnly c s t) (f : CoreSt → CoreSt) : CoreOnly c s (t.modCore c f) := by
  obtain ⟨ht, hcores⟩ := h
  refine ⟨?_, fun d hd => (t.core_modCore_ne f hd.symm).trans (hcores d hd)⟩
  rw [State.modCore, State.setCore, ht]

/-- Engine e of core c comes to a STATE and its core to k, from s to t: no other register, no other core and nothing else differs. -/
def EngineLeft (c e v : Nat) (k : CoreSt) (s t : State) : Prop :=
  t.engState c e = v ∧ t.core c = k ∧ SameRegs (fun r u => r = (engStateF e).reg ∧ u = c) s t ∧ CoreOnly c { s with regs := t.regs } t

namespace EngineLeft

variable {c e v : Nat} {k : CoreSt} {s t : State}

theorem refl : EngineLeft c e (s.engState c e) (s.core c) s s := ⟨rfl, rfl, fun _ _ _ _ _ _ => rfl, rfl, fun _ _ => rfl⟩

theorem modCore (h : EngineLeft c e v k s t) (f : CoreSt → CoreSt) : EngineLeft c e v (f k) s (t.modCore c f) := by
  obtain ⟨hstate, hcore, hregs, honly⟩ := h
  exact ⟨hstate, (t.core_modCore c f).trans (congrArg f hcore), hregs, honly.modCore f⟩

theorem setEngState (h : EngineLeft c e v k s t) (hc : c < 2 ^ 32) {w : Nat} (hw : w < 4) :
    EngineLeft c e w k s (t.setEngState c e w) := by
  obtain ⟨-, hcore, hregs, hframe, hcores⟩ := h
  refine ⟨engState_setEngState t c e hw, hcore, fun r u i hu hi hne => ?_, ?_, hcores⟩
  · rw [State.setEngState, State.fset, reg_setReg, if_neg, hregs r u i hu hi hne]
    rintro ⟨hr, hunit, -⟩
    exact hne ⟨hr.symm, by omega⟩
  · rw [State.setEngState, State.fset, State.setReg, hframe]

end EngineLeft

/-- STATE of an engine that goes on: IDLE where its queue is empty, else RUNNING. -/
theorem idleOrRunning_lt (q : List EWord) : (if q = [] then 0 else 1) < 4 := by split <;> decide

/-- What RESUME and DISCARD of a stopped engine do (R252). -/
theorem engCtl_of_stopped {s : State} {c e : Nat} (src : Source) (cmd : Nat) (clear : CoreSt → CoreSt) (h : s.engState c e = 2) :
    s.engCtl src c e cmd clear = if cmd = 2 then ((s.modCore c clear).setQueue c e []).setEngState c e 0
      else (s.modCore c clear).setEngState c e (if (((s.modCore c clear).core c).queue e).isEmpty then 0 else 1) :=
  if_neg fun hrun => hrun h

/-- RESUME of a stopped engine: the failed word is forgotten, and the engine goes on with its queue. -/
theorem engCtl_resume {s : State} {c e : Nat} (src : Source) (clear : CoreSt → CoreSt) (hc : c < 2 ^ 32) (hstop : s.engState c e = 2) :
    EngineLeft c e (if (clear (s.core c)).queue e = [] then 0 else 1) (clear (s.core c)) s (s.engCtl src c e 1 clear) := by
  have hresume : ¬ 1 = 2 := by decide
  rw [engCtl_of_stopped src 1 clear hstop, if_neg hresume, State.core_modCore]
  simp only [List.isEmpty_iff]
  exact (EngineLeft.refl.modCore clear).setEngState hc (idleOrRunning_lt _)

/-- DISCARD of a stopped engine: the failed word is forgotten, the queue is emptied, and the engine is IDLE. -/
theorem engCtl_discard {s : State} {c e : Nat} (src : Source) (clear : CoreSt → CoreSt) (hc : c < 2 ^ 32) (hstop : s.engState c e = 2) :
    EngineLeft c e 0 { clear (s.core c) with queues := (clear (s.core c)).queues.set e [] } s (s.engCtl src c e 2 clear) := by
  rw [engCtl_of_stopped src 2 clear hstop, if_pos rfl]
  exact ((EngineLeft.refl.modCore clear).modCore fun k => { k with queues := k.queues.set e [] }).setEngState hc (by decide)

/-- A write to the CTL of an engine that is not stopped is a violation of its source. -/
theorem engCtl_of_not_stopped {s : State} {c e : Nat} (src : Source) (cmd : Nat) (clear : CoreSt → CoreSt) (h : s.engState c e ≠ 2) :
    s.engCtl src c e cmd clear = s.charge src := if_pos h

/-- What the mover holds of its word when RESUME lets it go on: the pieces skipped are those to issue again (R402). -/
def MovSt.resumed (m : MovSt) : MovSt :=
  if m.word.isSome = true then { m with skipped := [], again := m.skipped.foldl (fun l n => placeIn n l) m.again } else m

/-- RESUME of a stopped mover: it runs on where it keeps a word, else as every engine. -/
theorem movResume_of_stopped {s : State} {c : Nat} (src : Source) (hc : c < 2 ^ 32) (hstop : s.engState c 3 = 2) :
    EngineLeft c 3 (if (s.mov c).word.isSome = true then 1 else if (s.core c).queue 3 = [] then 0 else 1)
      { s.core c with mov := (s.mov c).resumed } s (s.movResume src c) := by
  have hgoes : EngineLeft c 3 _ (s.core c) s (s.engCtl src c 3 1 id) := engCtl_resume src id hc hstop
  unfold State.movResume MovSt.resumed
  by_cases hword : (s.mov c).word.isSome = true
  · simp only [hstop, hword, and_self, if_true]
    exact (hgoes.modCore _).setEngState hc (by decide)
  · simp only [hword, Bool.false_eq_true, and_false, if_false]
    exact hgoes

theorem movResume_of_not_stopped {s : State} {c : Nat} (src : Source) (h : s.engState c 3 ≠ 2) : s.movResume src c = s.charge src := by
  rw [State.movResume, if_neg fun hstop => h hstop.1, engCtl_of_not_stopped src 1 id h]

/-! The ten commands, by a source that is not turned away. -/

section Commands

variable {src : Source} {s : State} (c : CoreId) (htaken : s.shut src = false)
include htaken

theorem exec_matrixResume : exec (.matrixResume src c) s = .next (s.engCtl src c 0 1 fun k => { k with mat := {} }) :=
  if_neg (Bool.eq_false_iff.1 htaken)

theorem exec_matrixDiscard : exec (.matrixDiscard src c) s = .next (s.engCtl src c 0 2 fun k => { k with mat := {} }) :=
  if_neg (Bool.eq_false_iff.1 htaken)

theorem exec_vectorResume : exec (.vectorResume src c) s = .next (s.engCtl src c 1 1 id) := if_neg (Bool.eq_false_iff.1 htaken)

theorem exec_vectorDiscard : exec (.vectorDiscard src c) s = .next (s.engCtl src c 1 2 id) := if_neg (Bool.eq_false_iff.1 htaken)

theorem exec_whiskResume :
    exec (.whiskResume src c) s = .next (s.engCtl src c 2 1 fun k => { k with whisk := { k.whisk with word := none } }) :=
  if_neg (Bool.eq_false_iff.1 htaken)

theorem exec_whiskDiscard :
    exec (.whiskDiscard src c) s = .next (s.engCtl src c 2 2 fun k => { k with whisk := { k.whisk with word := none } }) :=
  if_neg (Bool.eq_false_iff.1 htaken)

theorem exec_moverResume : exec (.moverResume src c) s = .next (s.movResume src c) := if_neg (Bool.eq_false_iff.1 htaken)

theorem exec_moverDiscard : exec (.moverDiscard src c) s = .next (s.engCtl src c 3 2 fun k => { k with mov := {} }) :=
  if_neg (Bool.eq_false_iff.1 htaken)

theorem exec_pourResume : exec (.pourResume src c) s = .next (s.engCtl src c 4 1 id) := if_neg (Bool.eq_false_iff.1 htaken)

theorem exec_pourDiscard : exec (.pourDiscard src c) s = .next (s.engCtl src c 4 2 id) := if_neg (Bool.eq_false_iff.1 htaken)

end Commands

/-- A violation of the host is one more in HOST_VIOL, and nothing else. -/
theorem charge_host (s : State) :
    (s.charge .host).fget Fd.hostViol_COUNT = satAdd Fd.hostViol_COUNT.max (s.fget Fd.hostViol_COUNT) 1 ∧
      RegsOnly (fun r _ => r = .hostViol) s (s.charge .host) := by
  refine ⟨fget_incBy_self _ _ _ _ _ (by decide) (by decide), ?_⟩
  obtain ⟨hframe, hregs⟩ := inc_regsOnly s Fd.hostViol_COUNT (n := 0) (by decide)
  exact ⟨hframe, fun r u k hu hk hne => hregs r u k hu hk fun h => hne h.1⟩

/-- Settles O25: each command is engCtl of its engine (movResume for the mover), whose three cases are resume, discard and violation. -/
theorem enginesResumeAndDiscard : Obligations.EnginesResumeAndDiscard := by
  unfold Obligations.EnginesResumeAndDiscard
  have hunit : ∀ c : CoreId, c.val < 2 ^ 32 := fun c => by omega
  refine ⟨?_, ?_, ?_, ?_, ?_, ?_, ?_, ?_, ?_, ?_, ?_⟩
  · exact fun src c s htaken hstop => ⟨_, exec_matrixResume c htaken, engCtl_resume src _ (hunit c) hstop⟩
  · exact fun src c s htaken hstop => ⟨_, exec_matrixDiscard c htaken, engCtl_discard src _ (hunit c) hstop⟩
  · exact fun src c s htaken hstop => ⟨_, exec_vectorResume c htaken, engCtl_resume src _ (hunit c) hstop⟩
  · exact fun src c s htaken hstop => ⟨_, exec_vectorDiscard c htaken, engCtl_discard src _ (hunit c) hstop⟩
  · exact fun src c s htaken hstop => ⟨_, exec_whiskResume c htaken, engCtl_resume src _ (hunit c) hstop⟩
  · exact fun src c s htaken hstop => ⟨_, exec_whiskDiscard c htaken, engCtl_discard src _ (hunit c) hstop⟩
  · exact fun src c s htaken hstop => ⟨_, exec_moverResume c htaken, movResume_of_stopped src (hunit c) hstop⟩
  · exact fun src c s htaken hstop => ⟨_, exec_moverDiscard c htaken, engCtl_discard src _ (hunit c) hstop⟩
  · exact fun src c s htaken hstop => ⟨_, exec_pourResume c htaken, engCtl_resume src _ (hunit c) hstop⟩
  · exact fun src c s htaken hstop => ⟨_, exec_pourDiscard c htaken, engCtl_discard src _ (hunit c) hstop⟩
  · intro c i e s htaken hcmd hrun
    suffices exec i s = .next (s.charge .host) from ⟨_, this, charge_host s⟩
    simp only [List.mem_cons, Prod.mk.injEq, List.not_mem_nil, or_false] at hcmd
    obtain ⟨rfl, rfl⟩ | ⟨rfl, rfl⟩ | ⟨rfl, rfl⟩ | ⟨rfl, rfl⟩ | ⟨rfl, rfl⟩ | ⟨rfl, rfl⟩ | ⟨rfl, rfl⟩ | ⟨rfl, rfl⟩ | ⟨rfl, rfl⟩ | ⟨rfl, rfl⟩ :=
      hcmd
    · rw [exec_matrixResume c htaken, engCtl_of_not_stopped _ _ _ hrun]
    · rw [exec_matrixDiscard c htaken, engCtl_of_not_stopped _ _ _ hrun]
    · rw [exec_vectorResume c htaken, engCtl_of_not_stopped _ _ _ hrun]
    · rw [exec_vectorDiscard c htaken, engCtl_of_not_stopped _ _ _ hrun]
    · rw [exec_whiskResume c htaken, engCtl_of_not_stopped _ _ _ hrun]
    · rw [exec_whiskDiscard c htaken, engCtl_of_not_stopped _ _ _ hrun]
    · rw [exec_moverResume c htaken, movResume_of_not_stopped _ hrun]
    · rw [exec_moverDiscard c htaken, engCtl_of_not_stopped _ _ _ hrun]
    · rw [exec_pourResume c htaken, engCtl_of_not_stopped _ _ _ hrun]
    · rw [exec_pourDiscard c htaken, engCtl_of_not_stopped _ _ _ hrun]

end Sys2Proof.Machine
end

section
/-!
A residue mismatch in an array (R254): the engine stops and hands ENGINE_ERROR to the twin. A twin that runs takes it at once, and its
exception entry writes a frame into its Pantry (R198).
-/
namespace Sys2Proof.Machine

/-- A device whose image answers ARRAY_RESIDUE with RECORD and whose one fold owns core 0. The core's twin runs, its stack pointer in the
middle of its Pantry. -/
def residueRecorded : State :=
  { State.reset with life := { image := some { folds := [{ cores := 1 }], dev := { responses := [(4, 0)] } } } }.modTwin 0 fun t =>
    { t with mode := .running, status := 1, g := [(30, BitVec.ofNat 64 (pantryP 0 + 0x100000))] }

/-- An array word: INT8 operands, INT32 results, one row, two columns, K of 4, A at 0, B at 0x400, D at 0x800, arrays 0 and 1. -/
def twoColumnWord : EWord :=
  { w0 := (2 <<< 48) + (1 <<< 32) + 0x9AA01, w1 := 3, w2 := (4 <<< 25) + (1 <<< 12) + 4, w3 := (0x20 <<< 47) + (0x10 <<< 32) }

/-- The core has taken that word. -/
def twoColumnRun : State := (residueRecorded.setQueue 0 0 [twoColumnWord]).mmaStart 0

/-- The engine runs the word on arrays 0 and 1, no step of it done. -/
theorem mat_twoColumnRun : twoColumnRun.mat 0 = { word := some twoColumnWord, arrays := [0, 1] } := by decide +kernel

theorem exec_matrixStepEnd (c : CoreId) (bad : Option (Fin 64)) (hold : Bool) (s : State) :
    exec (.matrixStepEnd c bad hold) s = .next (s.matStep c (bad.map (·.val)) hold) := rfl

/-- Where the exception frame of core 0 holds CAUSE (R198): third of eight words below the stack pointer. -/
def causeAddr : Nat := pantryKey 0 (0x100000 - 64 + 16)

/-- After a step in which array 0 fails, the frame there names ENGINE_ERROR. -/
theorem mread_cause_badStep : mread (twoColumnRun.matStep 0 (some 0) false).mem causeAddr = 7 := by decide +kernel

/-- Before it nothing has been written there. -/
theorem mread_cause_twoColumnRun : mread twoColumnRun.mem causeAddr = 0 := by decide +kernel

/-- Refutes O24: its last clause says that a step with a bad array writes no memory, whatever the twin does. A running twin takes the
ENGINE_ERROR at once, and its exception frame is written into the Pantry. -/
theorem not_matrixWordsAndArrayTests : ¬ Obligations.MatrixWordsAndArrayTests := by
  unfold Obligations.MatrixWordsAndArrayTests
  rintro ⟨-, -, -, -, -, -, -, -, -, hbad⟩
  have hruns : twoColumnRun.matRuns 0 = true := by decide +kernel
  have hpanels : ∀ j, j < twoColumnWord.mma.colBlocks → twoColumnRun.rangePoison 0 (twoColumnWord.mma.boff + j * twoColumnWord.mma.panel)
      twoColumnWord.mma.panel = false := by decide +kernel
  have hrows : ∀ r, r < twoColumnWord.mma.m →
      twoColumnRun.rangePoison 0 (twoColumnWord.mma.aoff + r * twoColumnWord.mma.lda) twoColumnWord.mma.ra = false ∧
      (twoColumnWord.mma.sa = true → twoColumnRun.rangePoison 0 (twoColumnWord.mma.saOff + r * (twoColumnWord.mma.k / 32))
        (twoColumnWord.mma.k / 32) = false) := by decide +kernel
  have hquiet : Quiet (coreDie 0) 4 twoColumnRun := by decide +kernel
  obtain ⟨t, hexec, -, -, -, -, -, hmem⟩ := hbad 0 twoColumnWord 0 0 [0, 1] twoColumnRun hruns mat_twoColumnRun (by decide)
    (by decide) (by decide) (by decide) (by decide) (by decide) (by decide) hpanels hrows hquiet
  rw [exec_matrixStepEnd] at hexec
  obtain rfl := Host.Outcome.next.inj hexec
  have hcause : mread (twoColumnRun.matStep 0 (some 0) false).mem causeAddr = mread twoColumnRun.mem causeAddr :=
    congrArg (mread · causeAddr) hmem
  rw [mread_cause_badStep, mread_cause_twoColumnRun] at hcause
  exact absurd hcause (by decide)

end Sys2Proof.Machine
end
